-- ==== Sys2Proof/Word.lean ====
section
/-! DEFINITION. The machine's words and the sparse tables that hold its memories and its numbered units. -/

namespace Sys2Proof

/-- A 32-bit register or memory dword (R7, R9). -/
abbrev Word := BitVec 32

/-- A byte of stage memory, GDDR7, host memory or a message (R487). -/
abbrev Byte := BitVec 8

/-- The score ID of R44 and R208. -/
abbrev ScoreId := BitVec 16

/-- The stage block mark or the Pewter mark: `none` is unmarked, `some r` is marked with reason code `r` (R446). -/
abbrev Mark := Option (BitVec 4)

/-- A sparse table: number and value, in rising order of the numbers. An unlisted number holds what the
table's default function gives. -/
abbrev Tab (α : Type) := List (Nat × α)

namespace Tab

/-- The value that the table holds at `k`; an unlisted number holds `d k`. -/
def get {α : Type} (d : Nat → α) : Tab α → Nat → α
  | [], k => d k
  | (i, v) :: t, k => if i = k then v else get d t k

/-- Puts an entry before the first one with a larger number. -/
def insertSorted {α : Type} (k : Nat) (v : α) : Tab α → Tab α
  | [] => [(k, v)]
  | (i, w) :: t => if k < i then (k, v) :: (i, w) :: t else (i, w) :: insertSorted k v t

/-- Removes every entry of number `k`. -/
def drop {α : Type} (k : Nat) : Tab α → Tab α
  | [] => []
  | (i, w) :: t => if i = k then drop k t else (i, w) :: drop k t

/-- Writes `v` at `k`. Writing what an unlisted number holds removes the entry, so that equal tables are
equal data. -/
def set {α : Type} [DecidableEq α] (d : Nat → α) (t : Tab α) (k : Nat) (v : α) : Tab α :=
  if v = d k then drop k t else insertSorted k v (drop k t)

/-- Rising numbers and no entry that an unlisted number would hold anyway. -/
def wf {α : Type} [DecidableEq α] (d : Nat → α) : Tab α → Bool
  | [] => true
  | [(i, v)] => decide (v ≠ d i)
  | (i, v) :: (j, w) :: t => decide (v ≠ d i) && decide (i < j) && wf d ((j, w) :: t)

end Tab
end Sys2Proof
end

