-- ==== Sys2Proof/Syntax.lean ====
section
/-! DEFINITION. The commands of the block, one constructor for each row of opcode_table.json, and the data
that a command brings with it. The table gives a row no bits and no operands; the operands are this model's
(log 3): the units that the event concerns, and what arrives from outside the module with it. -/

namespace Sys2Proof

abbrev BayId := Fin 8
abbrev TileId := Fin 32
abbrev StrandId := Fin 64
abbrev EntryId := Fin 1024
abbrev EngineId := Fin 10
abbrev SlotId := Fin 512
abbrev PortId := Fin 16
abbrev GroupId := Fin 4
abbrev SourceId := Fin 9
abbrev CombId := Fin 5
abbrev SensorId := Fin 632
abbrev OutId := Fin 5227
abbrev QueueId := Fin 272
abbrev DomainId := Fin 23
abbrev RailId := Fin 12

/-- The two classes of R28. -/
inductive Cls where
  | assured | spare
deriving DecidableEq, Repr

/-- What the SECDED code of a memory word finds when the word is read (R135, R179). -/
inductive Ecc where
  | clean | single | double
deriving DecidableEq, Repr

/-- Bits found flipped in a 64-byte block: byte offset and the flipped bits (R179). Offsets 64 to 71 are the SECDED codes of the
block's eight words. -/
abbrev Upset := List (Nat × Byte)

/-- What a GDDR7 access finds (R188): a CRC error on the link, an uncorrectable on-die ECC report, and the
bits that the data as received have wrong. -/
structure GddrFind where
  crcBad : Bool
  eccBad : Bool
  flips  : Upset
deriving DecidableEq, Repr

/-- A 64-byte block and its pepper mark (R179). -/
structure Block where
  data : List Byte
  mark : Mark
deriving DecidableEq, Repr

/-- The units that a Pewter map access comes from (R129, R164). -/
inductive MapRequester where
  | stream (score : ScoreId)
  | aperture
deriving DecidableEq, Repr

/-- What one recalibration slot measured on a row (R57, R61, R64), in the units of the table's row record
and of TILE_ERR_COEF0 to TILE_ERR_COEF3. -/
structure RowMeas where
  dly   : BitVec 8
  mean  : BitVec 16
  sigma : BitVec 16
  gam   : BitVec 16
  bet   : BitVec 16
  kap   : BitVec 16
  kSym  : BitVec 16
  nFe   : BitVec 16
  sigWl : BitVec 16
  sigWp : BitVec 16
deriving DecidableEq, Repr

/-- A ring record of a temperature table (R263). -/
structure RingRec where
  o  : BitVec 16
  s1 : BitVec 16
  s2 : BitVec 16
deriving DecidableEq, Repr

/-- The measurements of one recalibration slot (R64, R269): every row in order, the DAC code that each of the next sixteen
rings needs beyond the curve's (1/64, two's complement), the next knot. -/
structure SlotMeas where
  rows  : List RowMeas
  rings : List (BitVec 16)
  knot  : BitVec 16
deriving DecidableEq, Repr

/-- What the engines latch at a tick (R236, R274). An input that is not listed is as at the tick before.
A loop is numbered 512 · engine + slot, a line 160 · source + 32 · comb + line, a comb 5 · source + comb,
a local sensor 128 · engine + tsel. A line's sample is its power in µW, a comb's its drive current in mA. -/
structure TickInputs where
  meas    : List (Nat × Rat)
  broken  : List Nat
  supply  : List (Nat × Nat)
  temps   : List (Nat × Rat)
  lines   : List (Nat × Nat)
  combs   : List (Nat × Nat)
deriving DecidableEq, Repr

/-- A fabric message (R307). -/
structure Msg where
  type   : BitVec 8
  dst    : BitVec 12
  src    : BitVec 12
  seq    : BitVec 12
  cls    : Cls
  rty    : Bool
  grp    : BitVec 2
  nfl    : BitVec 4
  nblk   : BitVec 6
  tag    : BitVec 32
  score  : ScoreId
  status : BitVec 8
  svc    : BitVec 4
  gddr   : Bool
  addr   : BitVec 48
  blocks : List Block
deriving DecidableEq, Repr

/-- A message of a partner that reaches memory, and what GDDR7 finds at the accesses of its blocks, first and second attempt
(R188; log 69). -/
structure PartnerAccess where
  msg   : Msg
  finds : List (GddrFind × GddrFind)
deriving DecidableEq, Repr

/-- A hello flit (R327). -/
structure Hello where
  id     : BitVec 12
  serial : BitVec 64
  bridge : Bool
  port   : BitVec 4
  refId  : BitVec 12
deriving DecidableEq, Repr

/-- A link-control flit (R305, R311, R327): a hello, or a loss notice with the first 64 bytes of a message's header. -/
inductive Control where
  | hello (h : Hello)
  | loss (head : List Byte)
deriving DecidableEq, Repr

/-- What a flit slot carries (R305, R307): nothing, a link-control flit, or the 256 bytes of a header flit or of a data flit of a
message. How the line tells these apart is not in the manual (log 143). -/
inductive Flit where
  | idle
  | control (c : Control)
  | head (bytes : List Byte)
  | data (bytes : List Byte)
deriving DecidableEq, Repr

/-- A codeword pair as it comes out of the decoder (R304, R306): whether it decoded, whether symbols were corrected, its 40-bit
block header and its five flit slots. -/
structure Pair where
  decoded   : Bool
  corrected : Bool
  header    : BitVec 40
  slots     : List Flit
deriving DecidableEq, Repr

/-- A node announcement (R328): the port list gives the port, the far node and the far port. -/
structure Announcement where
  id     : BitVec 12
  serial : BitVec 64
  bridge : Bool
  cand   : Bool
  anum   : BitVec 16
  ports  : List (Nat × BitVec 12 × Nat)
deriving DecidableEq, Repr

/-- A stream descriptor (R192). -/
structure Desc where
  srcSp  : BitVec 3
  srcBuf : BitVec 5
  srcWin : BitVec 6
  srcAddr : BitVec 48
  dstSp  : BitVec 3
  dstBuf : BitVec 5
  dstWin : BitVec 6
  dstAddr : BitVec 48
  n0 : Nat
  n1 : Nat
  n2 : Nat
  n3 : Nat
  ss1 : Int
  ss2 : Int
  ss3 : Int
  ds1 : Int
  ds2 : Int
  ds3 : Int
deriving DecidableEq, Repr

/-- A bay role of the claims section: least working lines and the operating set-point in units of 2^-12 °C. -/
structure BayClaim where
  role     : Nat
  minLines : Nat
  setpoint : Int
deriving DecidableEq, Repr

/-- A Pewter range role: the bay role whose tile it must lie on (R222). -/
structure PewterClaim where
  role    : Nat
  bayRole : Nat
deriving DecidableEq, Repr

/-- Slots claimed for a granule role: owner code class and the numbers of read, write and remote slots (R182). -/
structure SlotClaim where
  gran   : Nat
  obs    : Bool
  cls    : Cls
  read   : Nat
  write  : Nat
  remote : Nat
deriving DecidableEq, Repr

/-- A stream buffer of a sequence (R196): region and its producer and consumer queue (SMV numbers). -/
structure BufClaim where
  seq  : Nat
  idx  : Nat
  gran : Nat
  off  : Nat
  size : Nat
  prod : Nat
  cons : Nat
deriving DecidableEq, Repr

/-- A piece of a package that has its place in the home granules (R209, R210): whether in GDDR7, granule role, offset, and the
blocks of the package that it holds: the first and their number. -/
structure Piece where
  gddr  : Bool
  role  : Nat
  off   : Nat
  first : Nat
  count : Nat
deriving DecidableEq, Repr

/-- A service of R227. Its request and reply buffers are stream buffers of one sequence. -/
structure ServiceDecl where
  svc      : Nat
  slot     : Nat
  batch    : Nat
  deadline : Nat
  pad      : Byte
  seq      : Nat
  reqBuf   : Nat
  repBuf   : Nat
  counter  : Nat
  groups   : List Nat
  cls      : Cls
deriving DecidableEq, Repr

/-- What starts a timing claim's clock (R218). -/
inductive Trigger where
  | start
  | event (n : Nat)
  | batch (svc : Nat)
deriving DecidableEq, Repr

/-- A timing claim and its allowances (R218). -/
structure TimingClaim where
  seq        : Nat
  trigger    : Trigger
  completion : Nat
  latency    : Nat
  spacing    : Nat
  overlap    : Bool
  replays    : Nat
  messages   : Nat
deriving DecidableEq, Repr

/-- A sequence of the sequences section (R132, R209). -/
structure SeqDecl where
  bayRole : Nat
  cls     : Cls
  strands : List (Nat × BitVec 14)
  tiles   : BitVec 4
  queues  : List (Nat × Nat)
  events  : List Nat
  first   : Nat
  count   : Nat
  descs   : List (Nat × Desc)
deriving DecidableEq, Repr

/-- The contents of a score package that admission analyses, decoded: the manual names what each section
holds and gives no encoding of it (R209, log 8). A remote window is claimed with the class of its group (log 141). `rings`
are the trace rings declared, with bay role, address and bytes; `descBase` and `descLen` are the descriptor region (R194);
`pieces` are the parts of the package that go into the home granules. -/
structure Package where
  wellFormed  : Bool
  bays        : List BayClaim
  sgran       : Nat
  ggran       : Nat
  pewter      : List PewterClaim
  groups      : List (Nat × BitVec 12 × Cls)
  windows     : List (Nat × Cls)
  slots       : List SlotClaim
  gslots      : List (Cls × Nat × Nat)
  queues      : List (Nat × Cls × Nat)
  counters    : List Nat
  buffers     : List BufClaim
  timing      : List TimingClaim
  seqs        : List SeqDecl
  code        : List (Nat × List (BitVec 128))
  services    : List ServiceDecl
  rings       : List (Nat × Nat × Nat)
  descBase    : Nat
  descLen     : Nat
  pieces      : List Piece
deriving DecidableEq, Repr

/-- A sideband rescue write as it arrives (R372, R376): the action's complement, bytes 2 and 3, the nonce,
and whether its PEC byte was right; `none` where none came. -/
structure Rescue where
  cmpl   : Byte
  zeros  : BitVec 16
  nonce  : Word
  pec    : Option Bool
deriving DecidableEq, Repr

/-- The stored pairs that R458 checks. -/
inductive StoredPair where
  | guardLimit (idx : BitVec 7)
  | tileScale (t : TileId)
  | loopSetpt (e : EngineId) (l : SlotId)
  | loopProf (e : EngineId) (l : SlotId)
  | tref (t : TileId) (z : Fin 16)
  | admPlim
  | saveHeader
deriving DecidableEq, Repr

/-- The items of the temperature correction table (R392). -/
inductive CorrItem where
  | xo
  | rc
  | adc (t : TileId)
  | readback
deriving DecidableEq, Repr

/-- The errors of the link that R349 lists. -/
inductive LinkErr where
  | corrected
  | poisonedWindow (off : BitVec 16) (dwords : Nat)
  | poisonedBar
  | unexpectedCompletion
  | unsupported
  | fatal
deriving DecidableEq, Repr

/-- A signed firmware image as the verifier sees it (R435): its header's fields and the two verdicts that
the public key digest and the Ed448 signature give. -/
structure Image where
  magic  : Word
  kind   : Byte
  svn    : Nat
  ver    : Word
  blen   : Nat
  keyOk  : Bool
  sigOk  : Bool
  digest : List Byte
deriving DecidableEq, Repr

/-- What a step of power-up finds (R474, R477): a rail or clock that misses its limit, or success. -/
inductive StepOutcome where
  | ok
  | fail (code : Byte)
deriving DecidableEq, Repr

/-- The commands of the block. -/
inductive Instr where
  -- the strands of a bay (05)
  | nop (b : BayId) (j : StrandId) (ecc : Ecc)
  | win (b : BayId) (j : StrandId) (ecc : Ecc)
  | pld (b : BayId) (j : StrandId) (ecc : Ecc)
  | psw (b : BayId) (j : StrandId) (ecc : Ecc)
  | ssc (b : BayId) (j : StrandId) (ecc : Ecc)
  | ccf (b : BayId) (j : StrandId) (ecc : Ecc)
  | drn (b : BayId) (j : StrandId) (ecc : Ecc)
  | smv (b : BayId) (j : StrandId) (ecc : Ecc)
  | swt (b : BayId) (j : StrandId) (ecc : Ecc)
  | evs (b : BayId) (j : StrandId) (ecc : Ecc)
  | evw (b : BayId) (j : StrandId) (ecc : Ecc)
  | loop (b : BayId) (j : StrandId) (ecc : Ecc)
  | brt (b : BayId) (j : StrandId) (ecc : Ecc)
  | mrk (b : BayId) (j : StrandId) (ecc : Ecc) (slotFree : Bool)
  | endStrand (b : BayId) (j : StrandId) (ecc : Ecc)
  | sequenceEnd (b : BayId) (c : Cls)
  | stepBay (b : BayId) (v : Word) (ecc : Ecc) (slotFree : Bool)
  -- tiles (02, 03, 04)
  | windowIssue (t : TileId)
  | windowEnd (t : TileId)
  | overflowDecision (t : TileId)
  | replay (t : TileId)
  | pewterUpdate (t : TileId)
  | chainStep (t : TileId)
  | chainConfigurationChange (t : TileId)
  | remoteChainTimeout (t : TileId) (entry : EntryId)
  | imageFetch (t : TileId)
  | planeLoadStart (t : TileId)
  | planeLoadValid (t : TileId)
  | planeSwap (t : TileId)
  | holdLimitExpiry (t : TileId)
  | drainRelease (t : TileId)
  | drainReadEnd (t : TileId)
  -- stage memory, GDDR7, streams (06)
  | slotAccess (q : QueueId) (up : Upset) (find : GddrFind)
  | pewterMapAccess (r : MapRequester) (t : TileId) (off : BitVec 22) (wr : Option (BitVec 64)) (mark : Mark)
  | transferStart (q : QueueId)
  | transferComplete (q : QueueId)
  | waitGraphCut (members : List QueueId)
  | waitTimeout (b : BayId) (j : StrandId)
  | gddr7Retry (blk : BitVec 30) (find : GddrFind)
  | gddr7SpanClear (span : BitVec 24)
  -- light supply (09)
  | spareLock (src : SourceId)
  | darkWindowStart (b : BayId) (align : BitVec 9)
  | darkWindowEnd (b : BayId)
  | fabricSpareSwap
  | armingFault (src : SourceId)
  | armingRestart (src : SourceId)
  | boostStep (src : SourceId) (c : CombId)
  | opticalCut (src : SourceId) (c : CombId)
  -- loops (08)
  | recalibrationSlotDue (e : EngineId)
  | recalibrationSlot (t : TileId) (m : SlotMeas)
  | loopTick (inp : TickInputs)
  | handOverTimeout (e : EngineId) (l : SlotId)
  | followingFault (e : EngineId) (l : SlotId)
  | bayResume (b : BayId)
  | telemetryRecord (e : EngineId) (slotFree : Bool)
  | readbackDwell (o : OutId) (meas : BitVec 12)
  | trimOutputReturn
  | heaterCurrentFault (t : Option TileId)
  | guardLimitCommit (idx : BitVec 7) (v : Word) (cmpl : Word)
  | emissionLockRelease
  | emissionLockSet
  -- thermal (14)
  | thermalSample (n : SensorId) (reading : Option (BitVec 16))
  | fastSamplingEnd (n : SensorId)
  | trip (n : SensorId)
  | throttleStepUp (b : BayId)
  | belowFloor (b : BayId)
  | throttleStepDown (b : BayId)
  | excursionClear (b : BayId)
  | pmbusPowerRead (watts : List Nat)
  | storedPairCheck (p : StoredPair) (v : Word) (cmpl : Word)
  -- clocks (12)
  | sourceSwitch (d : DomainId) (src : BitVec 2)
  | stoppedClock (d : DomainId) (src : BitVec 2)
  | referenceInputStopped
  | pllUnlock (d : DomainId)
  | referenceLost
  | referenceReturn (recovered : Bool) (port : PortId)
  | referenceReelection
  | temperatureCorrection (item : CorrItem) (v : BitVec 16) (broken : Bool)
  | gateClose (d : DomainId) (share : Byte)
  | crossingReset (r sd : DomainId)
  | crossingOpen (r sd : DomainId)
  | domainReset (d : DomainId)
  | watchdogReset
  | activationConfirm
  -- power (13, 17)
  | powerUp (o : StepOutcome)
  | powerEntry
  | entryTimeout
  | a1Exit
  | wake (headerOk : Bool) (badBays : BitVec 8)
  | wakeFailure (code : Byte)
  | wakeRetry
  -- fabric (10)
  | portTraining (p : PortId) (failedStep : Option (Fin 5)) (ms : Byte)
  | portIdleRetry (p : PortId) (light : Bool)
  | hello (p : PortId) (g : GroupId) (h : Hello)
  | nodeAnnouncement (p : PortId) (a : Announcement)
  | announcementTimer
  | leaveAnnouncement (id : BitVec 12)
  | partnerEntryTimeout (id : BitVec 12)
  | partnerRejoin (id : BitVec 12) (accepted : Bool)
  | codewordPair (p : PortId) (g : GroupId) (w : Pair)
  | nakTimeout (p : PortId) (g : GroupId)
  | lossNotice (p : PortId) (g : GroupId) (head : List Byte)
  | messageSend (p : PortId) (g : GroupId)
  | write (p : PortId) (g : GroupId) (m : PartnerAccess)
  | readRequest (p : PortId) (g : GroupId) (m : PartnerAccess)
  | readReply (p : PortId) (g : GroupId) (m : Msg)
  | chainEntry (p : PortId) (g : GroupId) (m : Msg)
  | serviceRequest (p : PortId) (g : GroupId) (m : Msg)
  | batchDeadline (score : ScoreId) (svc : BitVec 4)
  | serviceReplySend (score : ScoreId) (svc : BitVec 4)
  | serviceReply (p : PortId) (g : GroupId) (m : PartnerAccess)
  | writeCompletion (p : PortId) (g : GroupId) (m : Msg)
  | groupRetrain (p : PortId) (g : GroupId) (done : Bool)
  | laneStop (p : PortId) (g : GroupId) (lane : Fin 4) (transmit : Bool)
  | laneChange (p : PortId) (g : GroupId)
  | groupFilterReturn (p : PortId) (g : GroupId)
  -- command window (11)
  | packetTake
  | windowStall
  | commandWindowWrite (off : BitVec 16) (dws : List (Word × BitVec 4)) (poisoned : Bool)
  | replyWrite
  | nopCommand (k : Nat)
  | identify (k : Nat)
  | loadBegin (k : Nat)
  | loadChunk (k : Nat)
  | analysis (score : ScoreId) (pkg : Package)
  | loadEnd (k : Nat)
  | start (k : Nat)
  | stop (k : Nat)
  | unload (k : Nat)
  | bind (k : Nat)
  | rebindComplete (k : Nat) (b : BayId)
  | reservationExchange (k : Nat) (accepted : Bool)
  | release (k : Nat)
  | windowMap (k : Nat)
  | eventSignal (k : Nat)
  | eventRead (k : Nat)
  | eventNotify (k : Nat)
  | debugEnter (k : Nat)
  | debugExit (k : Nat)
  | requalify (k : Nat) (locked : List Nat) (refs : List (Nat × Nat))
  | powerState (k : Nat)
  | guardClear (k : Nat) (causes : BitVec 5)
  | trimRelease (k : Nat)
  | fwStage (k : Nat) (img : Image)
  | fwCommit (k : Nat)
  | fwActivate (k : Nat)
  | doeRequest (type : Byte) (bytes : List Byte) (abort : Bool)
  -- sideband (11)
  | status
  | ident
  | serial
  | temps
  | power
  | faultRead
  | regAddr (v : Word) (pec : Option Bool)
  | regData
  | nonceRead
  | nonceChange
  | rescueFlush (r : Rescue)
  | rescueForceA3 (r : Rescue)
  | rescueModuleReset (r : Rescue)
  | rescueRecoveryImage (r : Rescue)
  | rescueRetryWake (r : Rescue)
  | wakeMatch
  -- pins and resets (12, 17)
  | modResetNAssert
  | powerGood (compat : Bool) (nid : BitVec 12)
  | powerOnReset (sba : BitVec 3)
  | standbyLoss
  | clrTrimNAssert
  | clrTrimNRelease
  | perstNAssert
  | perstNRelease
  | linkRetry (flit : Bool) (width : BitVec 3) (gen : BitVec 4)
  | functionLevelReset
  | linkError (e : LinkErr)
  | configurationRequest
  -- host accesses to BAR0 and BAR2 (00, 06, 18)
  | apertureRead (off : BitVec 28) (len : Nat) (slotFree : Bool)
  | apertureWrite (off : BitVec 28) (bytes : List Byte) (slotFree : Bool)
  | pairedValueWrite (off : BitVec 25) (v : Word)
  | pairedComplementWrite (off : BitVec 25) (v : Word)
  | registerWrite (off : BitVec 25) (width : Nat) (v : BitVec 64)
  | zeroIdle (t : TileId)
  | swap (t : TileId)
  | capture (t : TileId) (v : Word)
  | ditherSeedWrite (t : TileId) (v : Word)
  | pewterSeedWrite (t : TileId) (v : Word)
  | pewterStateRead (t : TileId)
  | serialRead
  | traceEnable (b : BayId) (v : Word)
  | loopSelect (e : EngineId) (v : Word)
  | handOverRequest (e : EngineId) (v : Word)
  | recordSelect (e : EngineId) (v : Word)
  | recordCommit (e : EngineId)
  | recalibrationIntervalWrite (e : EngineId) (v : Word)
  | telemetryEnable (e : EngineId) (v : Word)
  | ncoWrite (config : Bool) (v : Word)
  | toneInjection (v : Word)
  | retrain (p : PortId)
  | portDisable (p : PortId) (dis : Bool)
  | flush
  | commandEnable (en : Bool)
  | gateDisable (v : Word)
  -- firmware, supplies and the rest
  | tableRebuild (t : TileId)
  | mainImageHandover (slot : BitVec 2) (img : Image) (loader : List Byte)
  | vretLoss
  | pcieRefclkStable (stable : Bool)
  | noLightReceived (p : PortId)
deriving DecidableEq, Repr

end Sys2Proof
end

