-- ==== Sys2Proof/Decode.lean ====
section
/-! DEFINITION. The command that a word spells. The block has no instruction decoder: opcode_table.json gives
no row any bits, because a command is an event at the module and not a word (the instructions of a bay's
sequencer are decoded by Machine/Operands.lean). -/

namespace Sys2Proof

/-- The command that a word spells by the table's bits: the table gives no bits, so none. -/
def decodeTableWord (_nbits _w : Nat) : Option Instr := none

end Sys2Proof
end

