-- ==== Sys2Proof/Machine/RegTable.lean ====
section
/-! DEFINITION. The registers of BAR0 as the chapters' field tables give them (R7, R9, R482): offsets, fields,
access codes and reset values. -/

namespace Sys2Proof.Machine

/-- Access codes (R9). `cnt` is an RW field that software restarts by writing 0 and that ignores every other
write (R486). -/
inductive Acc where
  | ro | rw | w1c | wo | rwp | cnt
deriving DecidableEq, Repr

/-- A field of a register: its bits, access code and reset value. -/
structure RegField where
  hi    : Nat
  lo    : Nat
  acc   : Acc
  reset : Nat
deriving DecidableEq, Repr

/-- A register: its offset in its block, whether it is paired (R10), and its fields that are not reserved. -/
structure RegSpec where
  off    : Nat
  paired : Bool
  fields : List RegField
deriving DecidableEq, Repr

/-- A named field: the BAR0 offset of its register, and its bits. -/
structure Fld where
  off : Nat
  hi  : Nat
  lo  : Nat
deriving DecidableEq, Repr

/-- The field in unit `u` of a replicated block (R7). -/
def Fld.on (f : Fld) (u : Nat) : Fld := { f with off := f.off + u * 0x10000 }

/-- The field in the `n`-th register of a row of registers. -/
def Fld.nth (f : Fld) (n : Nat) : Fld := { f with off := f.off + 4 * n }

def regsGLB : List RegSpec :=
  [⟨0x0, false, [⟨31, 16, .ro, 0x3208⟩, ⟨15, 8, .ro, 0xa3⟩, ⟨7, 4, .ro, 1⟩, ⟨3, 0, .ro, 1⟩]⟩,  -- GLB_ID
   ⟨0x4, false, [⟨0, 0, .ro, 0⟩]⟩,  -- GLB_STRAP
   ⟨0x10, false, [⟨31, 28, .ro, 0⟩, ⟨27, 24, .ro, 0⟩, ⟨23, 20, .ro, 0⟩, ⟨19, 16, .ro, 0⟩, ⟨15, 12, .ro, 0⟩, ⟨11, 8, .ro, 0⟩, ⟨7, 4, .ro, 0⟩, ⟨3, 0, .ro, 0⟩]⟩,  -- GLB_BAY_STATE
   ⟨0x14, false, [⟨31, 24, .ro, 0⟩, ⟨23, 16, .w1c, 0⟩, ⟨15, 8, .w1c, 0⟩, ⟨7, 0, .ro, 0⟩]⟩,  -- GLB_INTERLOCK
   ⟨0x20, false, [⟨17, 16, .ro, 0⟩, ⟨15, 0, .ro, 0⟩]⟩,  -- GLB_BAY_OWNER0
   ⟨0x24, false, [⟨17, 16, .ro, 0⟩, ⟨15, 0, .ro, 0⟩]⟩,  -- GLB_BAY_OWNER1
   ⟨0x28, false, [⟨17, 16, .ro, 0⟩, ⟨15, 0, .ro, 0⟩]⟩,  -- GLB_BAY_OWNER2
   ⟨0x2C, false, [⟨17, 16, .ro, 0⟩, ⟨15, 0, .ro, 0⟩]⟩,  -- GLB_BAY_OWNER3
   ⟨0x30, false, [⟨17, 16, .ro, 0⟩, ⟨15, 0, .ro, 0⟩]⟩,  -- GLB_BAY_OWNER4
   ⟨0x34, false, [⟨17, 16, .ro, 0⟩, ⟨15, 0, .ro, 0⟩]⟩,  -- GLB_BAY_OWNER5
   ⟨0x38, false, [⟨17, 16, .ro, 0⟩, ⟨15, 0, .ro, 0⟩]⟩,  -- GLB_BAY_OWNER6
   ⟨0x3C, false, [⟨17, 16, .ro, 0⟩, ⟨15, 0, .ro, 0⟩]⟩,  -- GLB_BAY_OWNER7
   ⟨0x40, false, [⟨15, 0, .rw, 0⟩]⟩,  -- GLB_SCORE_SEL
   ⟨0x44, false, [⟨31, 29, .ro, 0⟩, ⟨28, 28, .ro, 0⟩, ⟨27, 27, .ro, 0⟩, ⟨26, 23, .ro, 0⟩, ⟨22, 16, .ro, 0⟩, ⟨15, 10, .ro, 0⟩, ⟨9, 5, .ro, 0⟩, ⟨4, 0, .ro, 0⟩]⟩,  -- GLB_SCORE_STAT
   ⟨0x48, false, [⟨19, 16, .rw, 0⟩, ⟨15, 0, .rw, 0⟩]⟩,  -- GLB_PROM_SEL
   ⟨0x4C, false, [⟨31, 30, .ro, 0⟩, ⟨29, 27, .ro, 0⟩, ⟨26, 24, .ro, 0⟩, ⟨23, 16, .ro, 0⟩, ⟨15, 0, .cnt, 0⟩]⟩,  -- GLB_PROM_STAT
   ⟨0x50, false, [⟨31, 0, .ro, 0⟩]⟩,  -- GLB_PROM_BOUND
   ⟨0x54, false, [⟨31, 0, .cnt, 0⟩]⟩,  -- GLB_PROM_WORST
   ⟨0x58, true, [⟨10, 0, .rwp, 0x578⟩]⟩,  -- GLB_ADM_PLIM
   ⟨0x60, false, [⟨31, 31, .w1c, 0⟩, ⟨23, 16, .ro, 0⟩, ⟨15, 0, .ro, 0⟩]⟩,  -- GLB_ADM_LAST
   ⟨0x64, false, [⟨31, 28, .ro, 0⟩, ⟨27, 24, .ro, 0⟩, ⟨23, 0, .ro, 0⟩]⟩,  -- GLB_ADM_DETAIL
   ⟨0x70, false, [⟨31, 31, .w1c, 0⟩, ⟨23, 16, .cnt, 0⟩, ⟨15, 8, .rw, 0⟩, ⟨7, 0, .ro, 0⟩]⟩,  -- GLB_FLT_PTR
   ⟨0x74, false, [⟨12, 12, .rw, 0⟩, ⟨11, 4, .rw, 0⟩, ⟨3, 0, .rw, 0⟩]⟩,  -- GLB_FLT_SEL
   ⟨0x78, false, [⟨31, 0, .ro, 0⟩]⟩,  -- GLB_FLT_WORD
   ⟨0x7C, false, [⟨3, 0, .rw, 0⟩]⟩,  -- GLB_PEP_SEL
   ⟨0x80, false, [⟨31, 0, .cnt, 0⟩]⟩,  -- GLB_PEP_CNT
   ⟨0x84, false, [⟨31, 24, .ro, 0⟩, ⟨18, 16, .ro, 0⟩, ⟨15, 0, .ro, 0⟩]⟩]  -- GLB_PUP

def regsCMD : List RegSpec :=
  [⟨0x0, false, [⟨31, 0, .ro, 0⟩]⟩,  -- CMD_CONS
   ⟨0x4, false, [⟨1, 1, .wo, 0⟩, ⟨0, 0, .rw, 0⟩]⟩,  -- CMD_CTL
   ⟨0x8, false, [⟨31, 31, .ro, 0⟩, ⟨30, 30, .w1c, 0⟩, ⟨29, 29, .w1c, 0⟩, ⟨28, 28, .ro, 0⟩, ⟨27, 27, .w1c, 0⟩, ⟨22, 16, .ro, 0⟩, ⟨15, 0, .ro, 0⟩]⟩,  -- CMD_STAT
   ⟨0xC, false, [⟨31, 16, .cnt, 0⟩, ⟨15, 0, .ro, 0⟩]⟩,  -- CMD_HUNT
   ⟨0x10, false, [⟨31, 12, .rw, 0⟩]⟩,  -- CMD_RPL_LO
   ⟨0x14, false, [⟨31, 0, .rw, 0⟩]⟩,  -- CMD_RPL_HI
   ⟨0x18, false, [⟨4, 0, .rw, 6⟩]⟩,  -- CMD_RPL_CFG
   ⟨0x1C, false, [⟨15, 0, .rw, 0⟩]⟩,  -- CMD_RPL_HEAD
   ⟨0x20, false, [⟨16, 16, .ro, 1⟩, ⟨15, 0, .ro, 0⟩]⟩,  -- CMD_RPL_TAIL
   ⟨0x24, false, [⟨9, 0, .rw, 0xa⟩]⟩]  -- CMD_TMO

def regsGUARD : List RegSpec :=
  [⟨0x0, false, [⟨31, 31, .ro, 0⟩, ⟨30, 30, .ro, 1⟩, ⟨4, 0, .ro, 0⟩]⟩,  -- GUARD_STAT
   ⟨0x4, false, [⟨31, 31, .w1c, 0⟩, ⟨30, 28, .ro, 0⟩, ⟨23, 16, .ro, 0⟩, ⟨15, 0, .cnt, 0⟩]⟩,  -- GUARD_FLT_LAST
   ⟨0x8, false, [⟨6, 0, .rw, 0⟩]⟩,  -- GUARD_LIM_SEL
   ⟨0xC, true, [⟨31, 0, .ro, 0⟩]⟩]  -- GUARD_LIM

def regsSEC : List RegSpec :=
  [⟨0x0, false, [⟨31, 31, .ro, 0⟩, ⟨30, 30, .ro, 0⟩, ⟨29, 29, .w1c, 0⟩, ⟨28, 28, .ro, 0⟩, ⟨27, 26, .ro, 3⟩, ⟨25, 24, .ro, 0⟩, ⟨13, 8, .ro, 0⟩, ⟨7, 0, .cnt, 0⟩]⟩,  -- SEC_BOOT
   ⟨0x4, false, [⟨23, 8, .ro, 0⟩, ⟨6, 4, .rw, 1⟩, ⟨3, 0, .rw, 0⟩]⟩,  -- SEC_MEAS_SEL
   ⟨0x8, false, [⟨31, 0, .ro, 0⟩]⟩]  -- SEC_MEAS

def regsCLK : List RegSpec :=
  [⟨0x0, false, [⟨31, 31, .ro, 0⟩, ⟨30, 30, .ro, 0⟩, ⟨29, 29, .ro, 0⟩, ⟨28, 28, .ro, 0⟩, ⟨27, 26, .ro, 0⟩, ⟨25, 22, .ro, 0⟩, ⟨15, 0, .ro, 0⟩]⟩,  -- CLK_REF_STAT
   ⟨0x4, false, [⟨31, 31, .ro, 0⟩, ⟨30, 30, .ro, 0⟩, ⟨15, 0, .ro, 0⟩]⟩,  -- CLK_CORR
   ⟨0x8, false, [⟨4, 0, .rw, 0⟩]⟩,  -- CLK_DOM_SEL
   ⟨0xC, false, [⟨31, 31, .ro, 0⟩, ⟨30, 30, .ro, 0⟩, ⟨29, 28, .ro, 0⟩, ⟨27, 27, .ro, 0⟩, ⟨26, 24, .ro, 0⟩, ⟨15, 8, .ro, 0⟩, ⟨7, 0, .cnt, 0⟩]⟩,  -- CLK_DOM_STAT
   ⟨0x10, false, [⟨31, 31, .w1c, 0⟩, ⟨30, 30, .ro, 0⟩, ⟨29, 25, .ro, 0⟩, ⟨24, 23, .ro, 0⟩, ⟨22, 21, .ro, 0⟩, ⟨15, 0, .ro, 0⟩]⟩,  -- CLK_SW_LAST
   ⟨0x14, false, [⟨7, 7, .rw, 0⟩, ⟨5, 0, .rw, 0⟩]⟩,  -- CLK_GATE_DIS
   ⟨0x18, false, [⟨31, 31, .w1c, 0⟩, ⟨30, 26, .ro, 0⟩, ⟨25, 21, .ro, 0⟩, ⟨15, 0, .cnt, 0⟩]⟩,  -- CLK_XRST
   ⟨0x1C, false, [⟨7, 7, .w1c, 1⟩, ⟨6, 6, .w1c, 0⟩, ⟨5, 5, .w1c, 0⟩, ⟨4, 4, .w1c, 0⟩, ⟨3, 3, .w1c, 0⟩, ⟨2, 2, .w1c, 0⟩, ⟨1, 1, .w1c, 0⟩, ⟨0, 0, .w1c, 0⟩]⟩]  -- CLK_RST_CAUSE

def regsPWR : List RegSpec :=
  [⟨0x0, false, [⟨31, 29, .ro, 0⟩, ⟨28, 27, .ro, 0⟩, ⟨26, 24, .ro, 0⟩, ⟨23, 23, .ro, 0⟩, ⟨22, 22, .ro, 0⟩, ⟨21, 16, .ro, 0⟩, ⟨7, 0, .cnt, 0⟩]⟩,  -- PWR_STAT
   ⟨0x4, false, [⟨9, 0, .rw, 0x64⟩]⟩,  -- PWR_ENT_TMO
   ⟨0x8, false, [⟨3, 0, .rw, 0⟩]⟩,  -- PWR_RAIL_SEL
   ⟨0xC, false, [⟨31, 31, .ro, 0⟩, ⟨30, 30, .ro, 0⟩, ⟨23, 16, .cnt, 0⟩, ⟨15, 0, .ro, 0⟩]⟩,  -- PWR_RAIL_STAT
   ⟨0x10, false, [⟨31, 24, .ro, 0⟩, ⟨23, 22, .ro, 0⟩, ⟨15, 0, .ro, 0⟩]⟩,  -- PWR_WAKE
   ⟨0x14, false, [⟨31, 31, .ro, 0⟩, ⟨30, 30, .w1c, 0⟩, ⟨25, 18, .ro, 0⟩, ⟨17, 0, .ro, 0⟩]⟩,  -- PWR_SAVE
   ⟨0x18, false, [⟨31, 31, .w1c, 0⟩, ⟨30, 30, .ro, 0⟩, ⟨29, 26, .ro, 0⟩, ⟨25, 18, .ro, 0⟩, ⟨15, 0, .ro, 0⟩]⟩,  -- PWR_PMB_LAST
   ⟨0x1C, false, [⟨15, 0, .ro, 0⟩]⟩]  -- PWR_INPUT

def regsTHM : List RegSpec :=
  [⟨0x0, false, [⟨31, 31, .ro, 0⟩, ⟨24, 24, .ro, 0⟩, ⟨23, 16, .ro, 0⟩, ⟨15, 8, .ro, 0⟩, ⟨7, 0, .ro, 0⟩]⟩,  -- THM_STAT
   ⟨0x4, false, [⟨9, 0, .rw, 0⟩]⟩,  -- THM_SEL
   ⟨0x8, false, [⟨31, 31, .ro, 0⟩, ⟨30, 30, .ro, 0⟩, ⟨29, 28, .ro, 0⟩, ⟨27, 20, .ro, 0⟩, ⟨15, 0, .ro, 0⟩]⟩,  -- THM_SENS
   ⟨0x10, false, [⟨23, 16, .ro, 0x5f⟩, ⟨15, 8, .ro, 0x55⟩, ⟨7, 0, .ro, 0x50⟩]⟩,  -- THM_LIM0
   ⟨0x14, false, [⟨23, 16, .ro, 0x6e⟩, ⟨15, 8, .ro, 0x64⟩, ⟨7, 0, .ro, 0x5f⟩]⟩,  -- THM_LIM1
   ⟨0x18, false, [⟨23, 16, .ro, 0x4b⟩, ⟨15, 8, .ro, 0x41⟩, ⟨7, 0, .ro, 0x3c⟩]⟩,  -- THM_LIM2
   ⟨0x1C, false, [⟨23, 16, .ro, 0x69⟩, ⟨15, 8, .ro, 0x5f⟩, ⟨7, 0, .ro, 0x5a⟩]⟩,  -- THM_LIM3
   ⟨0x20, false, [⟨15, 8, .ro, 0xf⟩, ⟨7, 0, .ro, 5⟩]⟩,  -- THM_RATE
   ⟨0x24, false, [⟨31, 0, .ro, 0⟩]⟩,  -- THM_LVL
   ⟨0x28, false, [⟨31, 31, .w1c, 0⟩, ⟨30, 28, .ro, 0⟩, ⟨17, 10, .ro, 0⟩, ⟨9, 0, .ro, 0⟩]⟩,  -- THM_LAST
   ⟨0x2C, false, [⟨31, 31, .ro, 0⟩, ⟨25, 16, .ro, 0⟩, ⟨15, 0, .ro, 0⟩]⟩]  -- THM_TRIP

def regsLSA : List RegSpec :=
  [⟨0x0, false, [⟨26, 0, .ro, 0⟩]⟩,  -- LSA_STAT
   ⟨0x4, false, [⟨20, 16, .rw, 0⟩, ⟨10, 8, .rw, 0⟩, ⟨3, 0, .rw, 0⟩]⟩,  -- LSA_SRC_SEL
   ⟨0x8, false, [⟨31, 31, .ro, 0⟩, ⟨30, 30, .ro, 0⟩, ⟨29, 27, .ro, 7⟩, ⟨23, 16, .ro, 0⟩, ⟨15, 8, .ro, 0⟩, ⟨7, 0, .cnt, 0⟩]⟩,  -- LSA_SRC_STAT
   ⟨0xC, false, [⟨31, 29, .ro, 0⟩, ⟨28, 26, .ro, 7⟩, ⟨25, 23, .ro, 0⟩, ⟨22, 22, .ro, 0⟩, ⟨21, 10, .ro, 0⟩, ⟨9, 0, .ro, 0⟩]⟩,  -- LSA_COMB_STAT
   ⟨0x10, false, [⟨31, 31, .ro, 0⟩, ⟨30, 30, .ro, 0⟩, ⟨29, 29, .ro, 0⟩, ⟨28, 28, .ro, 0⟩, ⟨27, 27, .ro, 0⟩, ⟨15, 0, .ro, 0⟩]⟩,  -- LSA_LINE
   ⟨0x14, false, [⟨31, 31, .w1c, 0⟩, ⟨30, 30, .ro, 0⟩, ⟨29, 26, .ro, 0⟩, ⟨25, 23, .ro, 0⟩, ⟨15, 0, .ro, 0⟩]⟩,  -- LSA_ARM_LAST
   ⟨0x18, false, [⟨23, 16, .ro, 0xd⟩, ⟨7, 0, .ro, 0x60⟩]⟩]  -- LSA_CFG

def regsTRIM : List RegSpec :=
  [⟨0x0, false, [⟨31, 31, .ro, 0⟩, ⟨30, 30, .ro, 0⟩, ⟨29, 29, .ro, 0⟩, ⟨12, 0, .ro, 0x146b⟩]⟩,  -- TRIM_STAT
   ⟨0x4, false, [⟨12, 0, .rw, 0⟩]⟩,  -- TRIM_SEL
   ⟨0x8, false, [⟨31, 29, .ro, 0⟩, ⟨28, 26, .ro, 1⟩, ⟨23, 20, .ro, 0⟩, ⟨15, 0, .ro, 0⟩]⟩,  -- TRIM_OUT
   ⟨0xC, false, [⟨27, 16, .ro, 0⟩, ⟨11, 0, .ro, 0⟩]⟩,  -- TRIM_RB
   ⟨0x10, false, [⟨15, 12, .ro, 3⟩, ⟨11, 0, .ro, 0x28⟩]⟩,  -- TRIM_SCAN
   ⟨0x14, false, [⟨31, 31, .w1c, 0⟩, ⟨28, 16, .ro, 0⟩, ⟨15, 0, .cnt, 0⟩]⟩,  -- TRIM_MISM
   ⟨0x18, false, [⟨7, 4, .rw, 0⟩, ⟨3, 0, .rw, 0⟩]⟩,  -- TRIM_NCO_SEL
   ⟨0x1C, false, [⟨31, 0, .rw, 0⟩]⟩,  -- TRIM_NCO_FREQ
   ⟨0x20, false, [⟨31, 22, .rw, 0⟩, ⟨11, 0, .rw, 0⟩]⟩,  -- TRIM_NCO_CFG
   ⟨0x24, false, [⟨31, 31, .rw, 0⟩, ⟨19, 16, .rw, 0⟩, ⟨12, 0, .rw, 0⟩]⟩]  -- TRIM_TEST

def regsBAY : List RegSpec :=
  [⟨0x0, false, [⟨0, 0, .wo, 0⟩]⟩,  -- BAY_SEQ_CTL
   ⟨0x4, false, [⟨31, 31, .ro, 0⟩, ⟨30, 30, .ro, 0⟩, ⟨29, 29, .w1c, 0⟩, ⟨28, 28, .w1c, 0⟩, ⟨27, 21, .ro, 0⟩, ⟨20, 14, .ro, 0⟩, ⟨6, 0, .ro, 0⟩]⟩,  -- BAY_SEQ_STAT
   ⟨0x8, false, [⟨5, 0, .rw, 0⟩]⟩,  -- BAY_STRAND_SEL
   ⟨0xC, false, [⟨31, 28, .ro, 0⟩, ⟨27, 24, .ro, 0⟩, ⟨23, 23, .ro, 0⟩, ⟨22, 20, .ro, 0⟩, ⟨19, 19, .ro, 0⟩, ⟨18, 18, .ro, 0⟩, ⟨17, 17, .ro, 0⟩, ⟨16, 16, .ro, 0⟩, ⟨13, 0, .ro, 0⟩]⟩,  -- BAY_STRAND_STAT
   ⟨0x10, false, [⟨31, 0, .ro, 0⟩]⟩,  -- BAY_ISSUE_CNT
   ⟨0x14, false, [⟨31, 31, .w1c, 0⟩, ⟨30, 25, .ro, 0⟩, ⟨24, 21, .ro, 0⟩, ⟨13, 0, .ro, 0⟩]⟩,  -- BAY_FAULT
   ⟨0x18, false, [⟨31, 16, .cnt, 0⟩, ⟨8, 0, .ro, 0⟩]⟩,  -- BAY_DARK
   ⟨0x1C, false, [⟨8, 0, .rw, 0⟩]⟩,  -- BAY_EV_SEL
   ⟨0x20, false, [⟨16, 16, .ro, 0⟩, ⟨15, 0, .ro, 0⟩]⟩,  -- BAY_EV_VAL
   ⟨0x24, false, [⟨31, 31, .rw, 0⟩, ⟨23, 8, .cnt, 0⟩, ⟨3, 0, .rw, 0⟩]⟩,  -- BAY_TRACE_CTL
   ⟨0x28, false, [⟨31, 6, .rw, 0⟩]⟩,  -- BAY_TRACE_ADDR
   ⟨0x2C, false, [⟨24, 4, .ro, 0⟩]⟩,  -- BAY_TRACE_PTR
   ⟨0x30, false, [⟨31, 16, .cnt, 0⟩, ⟨15, 0, .cnt, 0⟩]⟩]  -- BAY_IMEM_ECC

def regsTILE : List RegSpec :=
  [⟨0x0, false, [⟨1, 1, .wo, 0⟩, ⟨0, 0, .wo, 0⟩]⟩,  -- TILE_PLANE_CTL
   ⟨0x4, false, [⟨31, 12, .ro, 0⟩, ⟨7, 7, .ro, 0⟩, ⟨6, 6, .ro, 0⟩, ⟨5, 5, .ro, 0⟩, ⟨4, 4, .ro, 0⟩, ⟨3, 3, .ro, 0⟩, ⟨0, 0, .ro, 0⟩]⟩,  -- TILE_PLANE_STAT
   ⟨0x8, false, [⟨31, 0, .ro, 0⟩]⟩,  -- TILE_WIN_CNT
   ⟨0x10, false, [⟨31, 31, .ro, 0⟩, ⟨30, 30, .wo, 0⟩, ⟨29, 28, .rw, 0⟩, ⟨27, 27, .w1c, 0⟩, ⟨24, 16, .rw, 0⟩, ⟨15, 0, .rw, 0⟩]⟩,  -- TILE_CAPT_CTL
   ⟨0x14, false, [⟨31, 6, .rw, 0⟩]⟩,  -- TILE_CAPT_ADDR
   ⟨0x18, false, [⟨8, 0, .rw, 0⟩]⟩,  -- TILE_NOISE_SEL
   ⟨0x1C, false, [⟨31, 16, .ro, 0⟩, ⟨15, 0, .ro, 0⟩]⟩,  -- TILE_NOISE_STAT
   ⟨0x20, false, [⟨31, 16, .ro, 0⟩, ⟨15, 0, .ro, 0⟩]⟩,  -- TILE_ERR_COEF0
   ⟨0x24, false, [⟨31, 16, .ro, 0⟩, ⟨15, 0, .ro, 0⟩]⟩,  -- TILE_ERR_COEF1
   ⟨0x28, false, [⟨31, 16, .ro, 0⟩, ⟨15, 0, .ro, 0⟩]⟩,  -- TILE_ERR_COEF2
   ⟨0x2C, false, [⟨15, 0, .ro, 0⟩]⟩,  -- TILE_ERR_COEF3
   ⟨0x30, true, [⟨31, 24, .rwp, 0⟩, ⟨15, 0, .rwp, 1⟩]⟩,  -- TILE_SCALE
   ⟨0x38, false, [⟨31, 0, .rw, 1⟩]⟩,  -- TILE_DITH_SEED
   ⟨0x3C, false, [⟨31, 16, .cnt, 0⟩, ⟨15, 0, .cnt, 0⟩]⟩,  -- TILE_OVF_STAT
   ⟨0x40, false, [⟨31, 31, .w1c, 0⟩, ⟨30, 30, .ro, 0⟩, ⟨29, 21, .ro, 0⟩, ⟨20, 0, .ro, 0⟩]⟩,  -- TILE_OVF_LAST
   ⟨0x44, false, [⟨31, 16, .ro, 0⟩, ⟨15, 0, .ro, 0⟩]⟩,  -- TILE_PD_STAT
   ⟨0x48, false, [⟨9, 9, .rw, 0⟩, ⟨8, 0, .rw, 0⟩]⟩,  -- TILE_ROW_SEL
   ⟨0x4C, false, [⟨31, 16, .ro, 0⟩, ⟨11, 8, .ro, 0⟩, ⟨2, 0, .ro, 0⟩]⟩,  -- TILE_ROW_INFO
   ⟨0x50, false, [⟨31, 0, .rw, 1⟩]⟩,  -- TILE_PEW_SEED_LO
   ⟨0x54, false, [⟨31, 0, .rw, 0⟩]⟩,  -- TILE_PEW_SEED_HI
   ⟨0x58, false, [⟨31, 0, .ro, 1⟩]⟩,  -- TILE_PEW_STATE_LO
   ⟨0x5C, false, [⟨31, 0, .ro, 0⟩]⟩,  -- TILE_PEW_STATE_HI
   ⟨0x60, false, [⟨31, 31, .ro, 0⟩, ⟨30, 30, .ro, 0⟩, ⟨29, 29, .ro, 0⟩, ⟨28, 24, .ro, 0⟩, ⟨20, 16, .ro, 0⟩, ⟨12, 8, .ro, 0⟩, ⟨7, 0, .ro, 0x32⟩]⟩,  -- TILE_CHAIN_CFG
   ⟨0x64, false, [⟨31, 16, .cnt, 0⟩, ⟨15, 0, .cnt, 0⟩]⟩,  -- TILE_PEW_STAT
   ⟨0x68, false, [⟨31, 31, .w1c, 0⟩, ⟨14, 10, .ro, 0⟩, ⟨9, 0, .ro, 0⟩]⟩,  -- TILE_PEW_LAST
   ⟨0x6C, false, [⟨31, 31, .ro, 0⟩, ⟨20, 16, .ro, 0⟩, ⟨15, 0, .cnt, 0⟩]⟩]  -- TILE_DRAIN_STAT

def regsLOOP : List RegSpec :=
  [⟨0x0, false, [⟨31, 31, .ro, 0⟩, ⟨30, 30, .ro, 0⟩, ⟨25, 16, .ro, 0⟩, ⟨9, 0, .ro, 0⟩]⟩,  -- LOOP_STAT
   ⟨0x4, false, [⟨8, 0, .rw, 0⟩]⟩,  -- LOOP_SEL
   ⟨0x8, false, [⟨31, 31, .ro, 0⟩, ⟨30, 30, .w1c, 0⟩, ⟨29, 29, .w1c, 0⟩, ⟨28, 26, .ro, 0⟩, ⟨25, 10, .ro, 0⟩, ⟨5, 4, .ro, 0⟩, ⟨1, 0, .rw, 0⟩]⟩,  -- LOOP_MODE
   ⟨0xC, true, [⟨31, 31, .ro, 0⟩, ⟨23, 0, .rwp, 0x41000⟩]⟩,  -- LOOP_SETPT
   ⟨0x14, true, [⟨31, 16, .rwp, 0x219⟩, ⟨15, 0, .rwp, 0x418⟩]⟩,  -- LOOP_PROF
   ⟨0x1C, false, [⟨23, 0, .ro, 0⟩]⟩,  -- LOOP_OBS0
   ⟨0x20, false, [⟨23, 0, .ro, 0⟩]⟩,  -- LOOP_OBS1
   ⟨0x24, false, [⟨31, 31, .ro, 0⟩, ⟨30, 30, .ro, 0⟩, ⟨29, 29, .ro, 0⟩, ⟨15, 0, .ro, 0⟩]⟩,  -- LOOP_OBS2
   ⟨0x28, false, [⟨31, 31, .w1c, 0⟩, ⟨30, 30, .ro, 0⟩, ⟨29, 29, .ro, 0⟩, ⟨28, 20, .ro, 0⟩, ⟨15, 0, .cnt, 0⟩]⟩,  -- LOOP_FOLLOW
   ⟨0x2C, false, [⟨31, 31, .wo, 0⟩, ⟨30, 30, .ro, 0⟩, ⟨24, 16, .rw, 0⟩, ⟨3, 0, .rw, 0⟩]⟩,  -- LOOP_GAIN_SEL
   ⟨0x30, false, [⟨31, 0, .rw, 0⟩]⟩,  -- LOOP_REC0
   ⟨0x34, false, [⟨31, 0, .rw, 0⟩]⟩,  -- LOOP_REC1
   ⟨0x38, false, [⟨31, 0, .rw, 0⟩]⟩,  -- LOOP_REC2
   ⟨0x3C, false, [⟨31, 0, .rw, 0⟩]⟩,  -- LOOP_REC3
   ⟨0x40, false, [⟨31, 0, .rw, 0⟩]⟩,  -- LOOP_REC4
   ⟨0x44, false, [⟨31, 0, .rw, 0⟩]⟩,  -- LOOP_REC5
   ⟨0x48, false, [⟨31, 0, .rw, 0⟩]⟩,  -- LOOP_REC6
   ⟨0x4C, false, [⟨31, 0, .rw, 0⟩]⟩,  -- LOOP_REC7
   ⟨0x50, false, [⟨31, 16, .ro, 0⟩, ⟨15, 0, .ro, 0x4000⟩]⟩,  -- LOOP_VH
   ⟨0x54, false, [⟨31, 24, .ro, 0⟩, ⟨23, 22, .ro, 0⟩, ⟨15, 0, .rw, 0x3e8⟩]⟩,  -- LOOP_RECAL
   ⟨0x58, false, [⟨31, 31, .rw, 0⟩, ⟨23, 8, .cnt, 0⟩, ⟨7, 4, .rw, 0⟩, ⟨3, 0, .rw, 0⟩]⟩,  -- LOOP_TEL_CTL
   ⟨0x5C, false, [⟨28, 27, .rw, 1⟩, ⟨26, 18, .rw, 0⟩, ⟨17, 9, .rw, 0⟩, ⟨8, 0, .rw, 0⟩]⟩,  -- LOOP_TEL_SEL
   ⟨0x60, false, [⟨31, 6, .rw, 0⟩]⟩]  -- LOOP_TEL_ADDR

def regsFAB : List RegSpec :=
  [⟨0x0, false, [⟨31, 29, .ro, 0⟩, ⟨28, 28, .ro, 0⟩, ⟨27, 24, .ro, 0⟩, ⟨23, 12, .ro, 0⟩]⟩,  -- FAB_PORT_STAT
   ⟨0x4, false, [⟨1, 1, .wo, 0⟩, ⟨0, 0, .rw, 0⟩]⟩,  -- FAB_PORT_CTL
   ⟨0x10, false, [⟨31, 29, .ro, 0⟩, ⟨28, 25, .ro, 0⟩, ⟨24, 21, .ro, 0⟩, ⟨20, 20, .ro, 0⟩, ⟨19, 19, .ro, 0⟩, ⟨11, 8, .ro, 0⟩, ⟨7, 0, .ro, 0⟩]⟩,  -- FAB_GRP_STAT0
   ⟨0x14, false, [⟨31, 29, .ro, 0⟩, ⟨28, 25, .ro, 0⟩, ⟨24, 21, .ro, 0⟩, ⟨20, 20, .ro, 0⟩, ⟨19, 19, .ro, 0⟩, ⟨11, 8, .ro, 0⟩, ⟨7, 0, .ro, 0⟩]⟩,  -- FAB_GRP_STAT1
   ⟨0x18, false, [⟨31, 29, .ro, 0⟩, ⟨28, 25, .ro, 0⟩, ⟨24, 21, .ro, 0⟩, ⟨20, 20, .ro, 0⟩, ⟨19, 19, .ro, 0⟩, ⟨11, 8, .ro, 0⟩, ⟨7, 0, .ro, 0⟩]⟩,  -- FAB_GRP_STAT2
   ⟨0x1C, false, [⟨31, 29, .ro, 0⟩, ⟨28, 25, .ro, 0⟩, ⟨24, 21, .ro, 0⟩, ⟨20, 20, .ro, 0⟩, ⟨19, 19, .ro, 0⟩, ⟨11, 8, .ro, 0⟩, ⟨7, 0, .ro, 0⟩]⟩,  -- FAB_GRP_STAT3
   ⟨0x20, false, [⟨27, 16, .ro, 0⟩, ⟨15, 0, .ro, 0⟩]⟩,  -- FAB_GRP_OWN0
   ⟨0x24, false, [⟨27, 16, .ro, 0⟩, ⟨15, 0, .ro, 0⟩]⟩,  -- FAB_GRP_OWN1
   ⟨0x28, false, [⟨27, 16, .ro, 0⟩, ⟨15, 0, .ro, 0⟩]⟩,  -- FAB_GRP_OWN2
   ⟨0x2C, false, [⟨27, 16, .ro, 0⟩, ⟨15, 0, .ro, 0⟩]⟩,  -- FAB_GRP_OWN3
   ⟨0x30, false, [⟨31, 16, .cnt, 0⟩, ⟨15, 0, .cnt, 0⟩]⟩,  -- FAB_FEC
   ⟨0x34, false, [⟨31, 20, .cnt, 0⟩, ⟨19, 10, .cnt, 0⟩, ⟨9, 5, .cnt, 0⟩, ⟨4, 0, .cnt, 0⟩]⟩,  -- FAB_RETRY
   ⟨0x38, false, [⟨31, 24, .cnt, 0⟩, ⟨23, 16, .ro, 0⟩, ⟨2, 0, .ro, 0⟩]⟩,  -- FAB_TRAIN
   ⟨0x8000, false, [⟨31, 31, .ro, 0⟩, ⟨30, 30, .ro, 0⟩, ⟨11, 0, .ro, 0⟩]⟩,  -- FAB_PID
   ⟨0x8004, false, [⟨31, 31, .ro, 0⟩, ⟨30, 30, .ro, 0⟩, ⟨29, 29, .ro, 0⟩, ⟨28, 26, .ro, 0⟩, ⟨25, 22, .ro, 0⟩, ⟨11, 0, .ro, 0⟩]⟩,  -- FAB_REF
   ⟨0x8008, false, [⟨6, 0, .rw, 0⟩]⟩,  -- FAB_PT_SEL
   ⟨0x800C, false, [⟨31, 30, .ro, 0⟩, ⟨29, 29, .ro, 0⟩, ⟨28, 26, .ro, 0⟩, ⟨25, 25, .ro, 0⟩, ⟨11, 0, .ro, 0⟩]⟩,  -- FAB_PT_ENT
   ⟨0x8010, false, [⟨31, 16, .ro, 0⟩, ⟨15, 0, .ro, 0⟩]⟩,  -- FAB_PT_PORTS
   ⟨0x8014, false, [⟨31, 0, .ro, 0⟩]⟩,  -- FAB_PT_SER_LO
   ⟨0x8018, false, [⟨31, 0, .ro, 0⟩]⟩,  -- FAB_PT_SER_HI
   ⟨0x801C, false, [⟨31, 31, .w1c, 0⟩, ⟨23, 16, .ro, 0⟩, ⟨15, 0, .cnt, 0⟩]⟩,  -- FAB_PT_STAT
   ⟨0x8020, false, [⟨31, 16, .ro, 0⟩, ⟨15, 0, .ro, 0⟩]⟩]  -- FAB_START

def regsMEM : List RegSpec :=
  [⟨0x0, false, [⟨31, 31, .ro, 0⟩, ⟨15, 0, .ro, 0⟩]⟩,  -- MEM_STAT
   ⟨0x4, false, [⟨5, 0, .rw, 0⟩]⟩,  -- MEM_FRAME_SEL
   ⟨0x8, false, [⟨31, 0, .ro, 0⟩]⟩,  -- MEM_FRAME_LO
   ⟨0xC, false, [⟨31, 0, .ro, 0⟩]⟩,  -- MEM_FRAME_HI
   ⟨0x10, false, [⟨31, 16, .cnt, 0⟩, ⟨15, 0, .cnt, 0⟩]⟩,  -- MEM_ECC
   ⟨0x14, false, [⟨31, 16, .cnt, 0⟩, ⟨15, 8, .cnt, 0⟩, ⟨7, 0, .cnt, 0⟩]⟩,  -- MEM_GERR
   ⟨0x18, false, [⟨31, 31, .ro, 0⟩, ⟨30, 24, .ro, 0⟩, ⟨12, 0, .ro, 0⟩]⟩,  -- MEM_MARKLIST
   ⟨0x1C, false, [⟨31, 21, .ro, 0⟩, ⟨4, 0, .rw, 0⟩]⟩]  -- MEM_APER_BASE

def regsSTRM : List RegSpec :=
  [⟨0x0, false, [⟨8, 0, .rw, 0⟩]⟩,  -- STRM_Q_SEL
   ⟨0x4, false, [⟨31, 31, .ro, 0⟩, ⟨30, 30, .ro, 0⟩, ⟨23, 16, .ro, 0⟩, ⟨15, 0, .ro, 0⟩]⟩,  -- STRM_Q_CFG
   ⟨0x8, false, [⟨31, 29, .ro, 0⟩, ⟨28, 20, .ro, 0⟩, ⟨8, 0, .ro, 0⟩]⟩,  -- STRM_Q_STAT
   ⟨0xC, false, [⟨25, 10, .cnt, 0⟩, ⟨9, 0, .rw, 0x32⟩]⟩,  -- STRM_WG_TMO
   ⟨0x10, false, [⟨31, 31, .w1c, 0⟩, ⟨25, 16, .ro, 0⟩, ⟨9, 0, .rw, 0⟩]⟩,  -- STRM_FLT_PTR
   ⟨0x14, false, [⟨5, 0, .rw, 0⟩]⟩,  -- STRM_WIN_SEL
   ⟨0x18, false, [⟨31, 31, .ro, 0⟩, ⟨30, 29, .ro, 0⟩, ⟨28, 25, .ro, 0⟩, ⟨24, 13, .ro, 0⟩, ⟨12, 0, .ro, 0⟩]⟩,  -- STRM_WIN_CFG
   ⟨0x1C, false, [⟨31, 16, .cnt, 0⟩, ⟨15, 0, .cnt, 0⟩]⟩]  -- STRM_TLB_STAT

/-- The registers of the block that an absolute offset lies in, and the offset in the block. -/
def blockOf (off : Nat) : List RegSpec × Nat :=
  let b := off / 0x10000
  let o := off % 0x10000
  if b = 0 then (regsGLB, o)
  else if b = 1 then (regsCMD, o)
  else if b = 2 then (regsGUARD, o)
  else if b = 3 then (regsSEC, o)
  else if b = 4 then (regsCLK, o)
  else if b = 5 then (regsPWR, o)
  else if b = 6 then (regsTHM, o)
  else if b = 7 then (regsLSA, o)
  else if b = 8 then (regsTRIM, o)
  else if 0x10 ≤ b ∧ b < 0x18 then (regsBAY, o)
  else if 0x20 ≤ b ∧ b < 0x40 then (regsTILE, o)
  else if 0x40 ≤ b ∧ b < 0x4A then (regsLOOP, o)
  else if 0x50 ≤ b ∧ b < 0x60 then
    (if 0x50 < b then regsFAB.filter (fun r => r.off < 0x8000) else regsFAB, o)
  else if b = 0x60 then (regsMEM, o)
  else if b = 0x70 then (regsSTRM, o)
  else ([], o)

/-- The register at an absolute offset; the complement word of a paired register is not one of its own. -/
def regSpec (off : Nat) : Option RegSpec :=
  let p := blockOf off
  p.1.find? fun r => r.off == p.2

/-- The value that the fields' reset values make up. -/
def RegSpec.value (r : RegSpec) : Nat := r.fields.foldl (fun n f => n + f.reset * 2 ^ f.lo) 0

/-- The value of a register after reset. LOOP_SETPT and LOOP_RECAL of LE8 and LE9 hold 0 (R272, R273). -/
def regReset (off : Nat) : Word :=
  if off = 0x48000C ∨ off = 0x49000C ∨ off = 0x480054 ∨ off = 0x490054 then 0
  else match regSpec off with
    | some r => BitVec.ofNat 32 r.value
    | none => 0

/-! The fields by name. -/

def GLB_ID.part : Fld := ⟨0x0, 31, 16⟩
def GLB_ID.family : Fld := ⟨0x0, 15, 8⟩
def GLB_ID.step_major : Fld := ⟨0x0, 7, 4⟩
def GLB_ID.step_minor : Fld := ⟨0x0, 3, 0⟩
def GLB_STRAP.compat : Fld := ⟨0x4, 0, 0⟩
def GLB_BAY_STATE.bay7 : Fld := ⟨0x10, 31, 28⟩
def GLB_BAY_STATE.bay6 : Fld := ⟨0x10, 27, 24⟩
def GLB_BAY_STATE.bay5 : Fld := ⟨0x10, 23, 20⟩
def GLB_BAY_STATE.bay4 : Fld := ⟨0x10, 19, 16⟩
def GLB_BAY_STATE.bay3 : Fld := ⟨0x10, 15, 12⟩
def GLB_BAY_STATE.bay2 : Fld := ⟨0x10, 11, 8⟩
def GLB_BAY_STATE.bay1 : Fld := ⟨0x10, 7, 4⟩
def GLB_BAY_STATE.bay0 : Fld := ⟨0x10, 3, 0⟩
def GLB_INTERLOCK.thr : Fld := ⟨0x14, 31, 24⟩
def GLB_INTERLOCK.dark : Fld := ⟨0x14, 23, 16⟩
def GLB_INTERLOCK.band : Fld := ⟨0x14, 15, 8⟩
def GLB_INTERLOCK.tblw : Fld := ⟨0x14, 7, 0⟩
def GLB_BAY_OWNER.cls : Fld := ⟨0x20, 17, 16⟩
def GLB_BAY_OWNER.score : Fld := ⟨0x20, 15, 0⟩
def GLB_SCORE_SEL.score : Fld := ⟨0x40, 15, 0⟩
def GLB_SCORE_STAT.state : Fld := ⟨0x44, 31, 29⟩
def GLB_SCORE_STAT.a_run : Fld := ⟨0x44, 28, 28⟩
def GLB_SCORE_STAT.s_run : Fld := ⟨0x44, 27, 27⟩
def GLB_SCORE_STAT.bays : Fld := ⟨0x44, 26, 23⟩
def GLB_SCORE_STAT.sgran : Fld := ⟨0x44, 22, 16⟩
def GLB_SCORE_STAT.unbound : Fld := ⟨0x44, 15, 10⟩
def GLB_SCORE_STAT.claims : Fld := ⟨0x44, 9, 5⟩
def GLB_SCORE_STAT.svcs : Fld := ⟨0x44, 4, 0⟩
def GLB_PROM_SEL.claim : Fld := ⟨0x48, 19, 16⟩
def GLB_PROM_SEL.score : Fld := ⟨0x48, 15, 0⟩
def GLB_PROM_STAT.state : Fld := ⟨0x4C, 31, 30⟩
def GLB_PROM_STAT.floor : Fld := ⟨0x4C, 29, 27⟩
def GLB_PROM_STAT.step : Fld := ⟨0x4C, 26, 24⟩
def GLB_PROM_STAT.cause : Fld := ⟨0x4C, 23, 16⟩
def GLB_PROM_STAT.misses : Fld := ⟨0x4C, 15, 0⟩
def GLB_PROM_BOUND.l_ns : Fld := ⟨0x50, 31, 0⟩
def GLB_PROM_WORST.w_ns : Fld := ⟨0x54, 31, 0⟩
def GLB_ADM_PLIM.watts : Fld := ⟨0x58, 10, 0⟩
def GLB_ADM_LAST.valid : Fld := ⟨0x60, 31, 31⟩
def GLB_ADM_LAST.code : Fld := ⟨0x60, 23, 16⟩
def GLB_ADM_LAST.score : Fld := ⟨0x60, 15, 0⟩
def GLB_ADM_DETAIL.kind : Fld := ⟨0x64, 31, 28⟩
def GLB_ADM_DETAIL.role : Fld := ⟨0x64, 27, 24⟩
def GLB_ADM_DETAIL.where : Fld := ⟨0x64, 23, 0⟩
def GLB_FLT_PTR.ovf : Fld := ⟨0x70, 31, 31⟩
def GLB_FLT_PTR.lost : Fld := ⟨0x70, 23, 16⟩
def GLB_FLT_PTR.rd : Fld := ⟨0x70, 15, 8⟩
def GLB_FLT_PTR.wr : Fld := ⟨0x70, 7, 0⟩
def GLB_FLT_SEL.last : Fld := ⟨0x74, 12, 12⟩
def GLB_FLT_SEL.idx : Fld := ⟨0x74, 11, 4⟩
def GLB_FLT_SEL.word : Fld := ⟨0x74, 3, 0⟩
def GLB_FLT_WORD.val : Fld := ⟨0x78, 31, 0⟩
def GLB_PEP_SEL.rsn : Fld := ⟨0x7C, 3, 0⟩
def GLB_PEP_CNT.count : Fld := ⟨0x80, 31, 0⟩
def GLB_PUP.steps : Fld := ⟨0x84, 31, 24⟩
def GLB_PUP.sba : Fld := ⟨0x84, 18, 16⟩
def GLB_PUP.ms : Fld := ⟨0x84, 15, 0⟩
def CMD_CONS.cons : Fld := ⟨0x10000, 31, 0⟩
def CMD_CTL.flush : Fld := ⟨0x10004, 1, 1⟩
def CMD_CTL.en : Fld := ⟨0x10004, 0, 0⟩
def CMD_STAT.stall : Fld := ⟨0x10008, 31, 31⟩
def CMD_STAT.ovr : Fld := ⟨0x10008, 30, 30⟩
def CMD_STAT.part : Fld := ⟨0x10008, 29, 29⟩
def CMD_STAT.hunt : Fld := ⟨0x10008, 28, 28⟩
def CMD_STAT.gap : Fld := ⟨0x10008, 27, 27⟩
def CMD_STAT.inprog : Fld := ⟨0x10008, 22, 16⟩
def CMD_STAT.eseq : Fld := ⟨0x10008, 15, 0⟩
def CMD_HUNT.units : Fld := ⟨0x1000C, 31, 16⟩
def CMD_HUNT.off : Fld := ⟨0x1000C, 15, 0⟩
def CMD_RPL_LO.addr : Fld := ⟨0x10010, 31, 12⟩
def CMD_RPL_HI.addr_hi : Fld := ⟨0x10014, 31, 0⟩
def CMD_RPL_CFG.lsz : Fld := ⟨0x10018, 4, 0⟩
def CMD_RPL_HEAD.head : Fld := ⟨0x1001C, 15, 0⟩
def CMD_RPL_TAIL.phase : Fld := ⟨0x10020, 16, 16⟩
def CMD_RPL_TAIL.tail : Fld := ⟨0x10020, 15, 0⟩
def CMD_TMO.ms : Fld := ⟨0x10024, 9, 0⟩
def GUARD_STAT.rel : Fld := ⟨0x20000, 31, 31⟩
def GUARD_STAT.elock : Fld := ⟨0x20000, 30, 30⟩
def GUARD_STAT.flt : Fld := ⟨0x20000, 4, 0⟩
def GUARD_FLT_LAST.valid : Fld := ⟨0x20004, 31, 31⟩
def GUARD_FLT_LAST.idx : Fld := ⟨0x20004, 30, 28⟩
def GUARD_FLT_LAST.unit : Fld := ⟨0x20004, 23, 16⟩
def GUARD_FLT_LAST.count : Fld := ⟨0x20004, 15, 0⟩
def GUARD_LIM_SEL.idx : Fld := ⟨0x20008, 6, 0⟩
def GUARD_LIM.val : Fld := ⟨0x2000C, 31, 0⟩
def SEC_BOOT.ver : Fld := ⟨0x30000, 31, 31⟩
def SEC_BOOT.rec : Fld := ⟨0x30000, 30, 30⟩
def SEC_BOOT.fb : Fld := ⟨0x30000, 29, 29⟩
def SEC_BOOT.pend : Fld := ⟨0x30000, 28, 28⟩
def SEC_BOOT.run : Fld := ⟨0x30000, 27, 26⟩
def SEC_BOOT.next : Fld := ⟨0x30000, 25, 24⟩
def SEC_BOOT.svn : Fld := ⟨0x30000, 13, 8⟩
def SEC_BOOT.fres : Fld := ⟨0x30000, 7, 0⟩
def SEC_MEAS_SEL.ext : Fld := ⟨0x30004, 23, 8⟩
def SEC_MEAS_SEL.idx : Fld := ⟨0x30004, 6, 4⟩
def SEC_MEAS_SEL.word : Fld := ⟨0x30004, 3, 0⟩
def SEC_MEAS.val : Fld := ⟨0x30008, 31, 0⟩
def CLK_REF_STAT.lock : Fld := ⟨0x40000, 31, 31⟩
def CLK_REF_STAT.hold : Fld := ⟨0x40000, 30, 30⟩
def CLK_REF_STAT.lost : Fld := ⟨0x40000, 29, 29⟩
def CLK_REF_STAT.cand : Fld := ⟨0x40000, 28, 28⟩
def CLK_REF_STAT.sel : Fld := ⟨0x40000, 27, 26⟩
def CLK_REF_STAT.port : Fld := ⟨0x40000, 25, 22⟩
def CLK_REF_STAT.ppb : Fld := ⟨0x40000, 15, 0⟩
def CLK_CORR.xo_ok : Fld := ⟨0x40004, 31, 31⟩
def CLK_CORR.rc_ok : Fld := ⟨0x40004, 30, 30⟩
def CLK_CORR.xo_ofs : Fld := ⟨0x40004, 15, 0⟩
def CLK_DOM_SEL.dom : Fld := ⟨0x40008, 4, 0⟩
def CLK_DOM_STAT.run : Fld := ⟨0x4000C, 31, 31⟩
def CLK_DOM_STAT.pll : Fld := ⟨0x4000C, 30, 30⟩
def CLK_DOM_STAT.src : Fld := ⟨0x4000C, 29, 28⟩
def CLK_DOM_STAT.ramp : Fld := ⟨0x4000C, 27, 27⟩
def CLK_DOM_STAT.div : Fld := ⟨0x4000C, 26, 24⟩
def CLK_DOM_STAT.gated : Fld := ⟨0x4000C, 15, 8⟩
def CLK_DOM_STAT.flt : Fld := ⟨0x4000C, 7, 0⟩
def CLK_SW_LAST.valid : Fld := ⟨0x40010, 31, 31⟩
def CLK_SW_LAST.forced : Fld := ⟨0x40010, 30, 30⟩
def CLK_SW_LAST.dom : Fld := ⟨0x40010, 29, 25⟩
def CLK_SW_LAST.from : Fld := ⟨0x40010, 24, 23⟩
def CLK_SW_LAST.to : Fld := ⟨0x40010, 22, 21⟩
def CLK_SW_LAST.us : Fld := ⟨0x40010, 15, 0⟩
def CLK_GATE_DIS.fab : Fld := ⟨0x40014, 7, 7⟩
def CLK_GATE_DIS.dom : Fld := ⟨0x40014, 5, 0⟩
def CLK_XRST.valid : Fld := ⟨0x40018, 31, 31⟩
def CLK_XRST.rdom : Fld := ⟨0x40018, 30, 26⟩
def CLK_XRST.sdom : Fld := ⟨0x40018, 25, 21⟩
def CLK_XRST.count : Fld := ⟨0x40018, 15, 0⟩
def CLK_RST_CAUSE.por : Fld := ⟨0x4001C, 7, 7⟩
def CLK_RST_CAUSE.pin : Fld := ⟨0x4001C, 6, 6⟩
def CLK_RST_CAUSE.resc : Fld := ⟨0x4001C, 5, 5⟩
def CLK_RST_CAUSE.wdog : Fld := ⟨0x4001C, 4, 4⟩
def CLK_RST_CAUSE.fwr : Fld := ⟨0x4001C, 3, 3⟩
def CLK_RST_CAUSE.perst : Fld := ⟨0x4001C, 2, 2⟩
def CLK_RST_CAUSE.flr : Fld := ⟨0x4001C, 1, 1⟩
def CLK_RST_CAUSE.rlost : Fld := ⟨0x4001C, 0, 0⟩
def PWR_STAT.state : Fld := ⟨0x50000, 31, 29⟩
def PWR_STAT.phase : Fld := ⟨0x50000, 28, 27⟩
def PWR_STAT.target : Fld := ⟨0x50000, 26, 24⟩
def PWR_STAT.mgmt : Fld := ⟨0x50000, 23, 23⟩
def PWR_STAT.nref : Fld := ⟨0x50000, 22, 22⟩
def PWR_STAT.blk : Fld := ⟨0x50000, 21, 16⟩
def PWR_STAT.ents : Fld := ⟨0x50000, 7, 0⟩
def PWR_ENT_TMO.ms : Fld := ⟨0x50004, 9, 0⟩
def PWR_RAIL_SEL.rail : Fld := ⟨0x50008, 3, 0⟩
def PWR_RAIL_STAT.on : Fld := ⟨0x5000C, 31, 31⟩
def PWR_RAIL_STAT.pg : Fld := ⟨0x5000C, 30, 30⟩
def PWR_RAIL_STAT.fails : Fld := ⟨0x5000C, 23, 16⟩
def PWR_RAIL_STAT.mv : Fld := ⟨0x5000C, 15, 0⟩
def PWR_WAKE.code : Fld := ⟨0x50010, 31, 24⟩
def PWR_WAKE.retries : Fld := ⟨0x50010, 23, 22⟩
def PWR_WAKE.ms : Fld := ⟨0x50010, 15, 0⟩
def PWR_SAVE.valid : Fld := ⟨0x50014, 31, 31⟩
def PWR_SAVE.chk : Fld := ⟨0x50014, 30, 30⟩
def PWR_SAVE.bfail : Fld := ⟨0x50014, 25, 18⟩
def PWR_SAVE.bytes : Fld := ⟨0x50014, 17, 0⟩
def PWR_PMB_LAST.valid : Fld := ⟨0x50018, 31, 31⟩
def PWR_PMB_LAST.fw : Fld := ⟨0x50018, 30, 30⟩
def PWR_PMB_LAST.rail : Fld := ⟨0x50018, 29, 26⟩
def PWR_PMB_LAST.cmd : Fld := ⟨0x50018, 25, 18⟩
def PWR_PMB_LAST.data : Fld := ⟨0x50018, 15, 0⟩
def PWR_INPUT.watts : Fld := ⟨0x5001C, 15, 0⟩
def THM_STAT.trip : Fld := ⟨0x60000, 31, 31⟩
def THM_STAT.pwr : Fld := ⟨0x60000, 24, 24⟩
def THM_STAT.exc : Fld := ⟨0x60000, 23, 16⟩
def THM_STAT.brk : Fld := ⟨0x60000, 15, 8⟩
def THM_STAT.mod : Fld := ⟨0x60000, 7, 0⟩
def THM_SEL.sensor : Fld := ⟨0x60004, 9, 0⟩
def THM_SENS.brk : Fld := ⟨0x60008, 31, 31⟩
def THM_SENS.fast : Fld := ⟨0x60008, 30, 30⟩
def THM_SENS.state : Fld := ⟨0x60008, 29, 28⟩
def THM_SENS.rate : Fld := ⟨0x60008, 27, 20⟩
def THM_SENS.temp : Fld := ⟨0x60008, 15, 0⟩
def THM_LIM.trip : Fld := ⟨0x60010, 23, 16⟩
def THM_LIM.thr : Fld := ⟨0x60010, 15, 8⟩
def THM_LIM.warn : Fld := ⟨0x60010, 7, 0⟩
def THM_RATE.act : Fld := ⟨0x60020, 15, 8⟩
def THM_RATE.warn : Fld := ⟨0x60020, 7, 0⟩
def THM_LVL.lvl : Fld := ⟨0x60024, 31, 0⟩
def THM_LAST.valid : Fld := ⟨0x60028, 31, 31⟩
def THM_LAST.kind : Fld := ⟨0x60028, 30, 28⟩
def THM_LAST.bays : Fld := ⟨0x60028, 17, 10⟩
def THM_LAST.sensor : Fld := ⟨0x60028, 9, 0⟩
def THM_TRIP.latched : Fld := ⟨0x6002C, 31, 31⟩
def THM_TRIP.sensor : Fld := ⟨0x6002C, 25, 16⟩
def THM_TRIP.temp : Fld := ⟨0x6002C, 15, 0⟩
def LSA_STAT.spare : Fld := ⟨0x70000, 26, 0⟩
def LSA_SRC_SEL.line : Fld := ⟨0x70004, 20, 16⟩
def LSA_SRC_SEL.comb : Fld := ⟨0x70004, 10, 8⟩
def LSA_SRC_SEL.src : Fld := ⟨0x70004, 3, 0⟩
def LSA_SRC_STAT.deg : Fld := ⟨0x70008, 31, 31⟩
def LSA_SRC_STAT.wdr : Fld := ⟨0x70008, 30, 30⟩
def LSA_SRC_STAT.spos : Fld := ⟨0x70008, 29, 27⟩
def LSA_SRC_STAT.lost : Fld := ⟨0x70008, 23, 16⟩
def LSA_SRC_STAT.aff : Fld := ⟨0x70008, 15, 8⟩
def LSA_SRC_STAT.arms : Fld := ⟨0x70008, 7, 0⟩
def LSA_COMB_STAT.state : Fld := ⟨0x7000C, 31, 29⟩
def LSA_COMB_STAT.pos : Fld := ⟨0x7000C, 28, 26⟩
def LSA_COMB_STAT.boost : Fld := ⟨0x7000C, 25, 23⟩
def LSA_COMB_STAT.clamp : Fld := ⟨0x7000C, 22, 22⟩
def LSA_COMB_STAT.ma : Fld := ⟨0x7000C, 21, 10⟩
def LSA_COMB_STAT.mw : Fld := ⟨0x7000C, 9, 0⟩
def LSA_LINE.lost : Fld := ⟨0x70010, 31, 31⟩
def LSA_LINE.aff : Fld := ⟨0x70010, 30, 30⟩
def LSA_LINE.arm : Fld := ⟨0x70010, 29, 29⟩
def LSA_LINE.warn : Fld := ⟨0x70010, 28, 28⟩
def LSA_LINE.fast : Fld := ⟨0x70010, 27, 27⟩
def LSA_LINE.rel : Fld := ⟨0x70010, 15, 0⟩
def LSA_ARM_LAST.valid : Fld := ⟨0x70014, 31, 31⟩
def LSA_ARM_LAST.fail : Fld := ⟨0x70014, 30, 30⟩
def LSA_ARM_LAST.src : Fld := ⟨0x70014, 29, 26⟩
def LSA_ARM_LAST.pos : Fld := ⟨0x70014, 25, 23⟩
def LSA_ARM_LAST.time : Fld := ⟨0x70014, 15, 0⟩
def LSA_CFG.mtol : Fld := ⟨0x70018, 23, 16⟩
def LSA_CFG.wmin : Fld := ⟨0x70018, 7, 0⟩
def TRIM_STAT.pin : Fld := ⟨0x80000, 31, 31⟩
def TRIM_STAT.gflt : Fld := ⟨0x80000, 30, 30⟩
def TRIM_STAT.rel : Fld := ⟨0x80000, 29, 29⟩
def TRIM_STAT.forced : Fld := ⟨0x80000, 12, 0⟩
def TRIM_SEL.out : Fld := ⟨0x80004, 12, 0⟩
def TRIM_OUT.class : Fld := ⟨0x80008, 31, 29⟩
def TRIM_OUT.why : Fld := ⟨0x80008, 28, 26⟩
def TRIM_OUT.mcnt : Fld := ⟨0x80008, 23, 20⟩
def TRIM_OUT.code : Fld := ⟨0x80008, 15, 0⟩
def TRIM_RB.exp : Fld := ⟨0x8000C, 27, 16⟩
def TRIM_RB.meas : Fld := ⟨0x8000C, 11, 0⟩
def TRIM_SCAN.cnt : Fld := ⟨0x80010, 15, 12⟩
def TRIM_SCAN.tol : Fld := ⟨0x80010, 11, 0⟩
def TRIM_MISM.valid : Fld := ⟨0x80014, 31, 31⟩
def TRIM_MISM.out : Fld := ⟨0x80014, 28, 16⟩
def TRIM_MISM.count : Fld := ⟨0x80014, 15, 0⟩
def TRIM_NCO_SEL.eng : Fld := ⟨0x80018, 7, 4⟩
def TRIM_NCO_SEL.nco : Fld := ⟨0x80018, 3, 0⟩
def TRIM_NCO_FREQ.f : Fld := ⟨0x8001C, 31, 0⟩
def TRIM_NCO_CFG.pofs : Fld := ⟨0x80020, 31, 22⟩
def TRIM_NCO_CFG.amp : Fld := ⟨0x80020, 11, 0⟩
def TRIM_TEST.en : Fld := ⟨0x80024, 31, 31⟩
def TRIM_TEST.nco : Fld := ⟨0x80024, 19, 16⟩
def TRIM_TEST.out : Fld := ⟨0x80024, 12, 0⟩
def BAY_SEQ_CTL.step : Fld := ⟨0x100000, 0, 0⟩
def BAY_SEQ_STAT.a_run : Fld := ⟨0x100004, 31, 31⟩
def BAY_SEQ_STAT.s_run : Fld := ⟨0x100004, 30, 30⟩
def BAY_SEQ_STAT.a_flt : Fld := ⟨0x100004, 29, 29⟩
def BAY_SEQ_STAT.s_flt : Fld := ⟨0x100004, 28, 28⟩
def BAY_SEQ_STAT.a_str : Fld := ⟨0x100004, 27, 21⟩
def BAY_SEQ_STAT.s_str : Fld := ⟨0x100004, 20, 14⟩
def BAY_SEQ_STAT.rdy : Fld := ⟨0x100004, 6, 0⟩
def BAY_STRAND_SEL.strand : Fld := ⟨0x100008, 5, 0⟩
def BAY_STRAND_STAT.state : Fld := ⟨0x10000C, 31, 28⟩
def BAY_STRAND_STAT.fault : Fld := ⟨0x10000C, 27, 24⟩
def BAY_STRAND_STAT.cls : Fld := ⟨0x10000C, 23, 23⟩
def BAY_STRAND_STAT.depth : Fld := ⟨0x10000C, 22, 20⟩
def BAY_STRAND_STAT.t_neg : Fld := ⟨0x10000C, 19, 19⟩
def BAY_STRAND_STAT.t_zero : Fld := ⟨0x10000C, 18, 18⟩
def BAY_STRAND_STAT.t_pep : Fld := ⟨0x10000C, 17, 17⟩
def BAY_STRAND_STAT.t_val : Fld := ⟨0x10000C, 16, 16⟩
def BAY_STRAND_STAT.pc : Fld := ⟨0x10000C, 13, 0⟩
def BAY_ISSUE_CNT.count : Fld := ⟨0x100010, 31, 0⟩
def BAY_FAULT.valid : Fld := ⟨0x100014, 31, 31⟩
def BAY_FAULT.strand : Fld := ⟨0x100014, 30, 25⟩
def BAY_FAULT.code : Fld := ⟨0x100014, 24, 21⟩
def BAY_FAULT.pc : Fld := ⟨0x100014, 13, 0⟩
def BAY_DARK.count : Fld := ⟨0x100018, 31, 16⟩
def BAY_DARK.align : Fld := ⟨0x100018, 8, 0⟩
def BAY_EV_SEL.ev : Fld := ⟨0x10001C, 8, 0⟩
def BAY_EV_VAL.alloc : Fld := ⟨0x100020, 16, 16⟩
def BAY_EV_VAL.count : Fld := ⟨0x100020, 15, 0⟩
def BAY_TRACE_CTL.en : Fld := ⟨0x100024, 31, 31⟩
def BAY_TRACE_CTL.drops : Fld := ⟨0x100024, 23, 8⟩
def BAY_TRACE_CTL.size : Fld := ⟨0x100024, 3, 0⟩
def BAY_TRACE_ADDR.addr : Fld := ⟨0x100028, 31, 6⟩
def BAY_TRACE_PTR.next : Fld := ⟨0x10002C, 24, 4⟩
def BAY_IMEM_ECC.corr : Fld := ⟨0x100030, 31, 16⟩
def BAY_IMEM_ECC.uncorr : Fld := ⟨0x100030, 15, 0⟩
def TILE_PLANE_CTL.zero_idle : Fld := ⟨0x200000, 1, 1⟩
def TILE_PLANE_CTL.swap : Fld := ⟨0x200000, 0, 0⟩
def TILE_PLANE_STAT.age : Fld := ⟨0x200004, 31, 12⟩
def TILE_PLANE_STAT.stale : Fld := ⟨0x200004, 7, 7⟩
def TILE_PLANE_STAT.swap_pend : Fld := ⟨0x200004, 6, 6⟩
def TILE_PLANE_STAT.load_busy : Fld := ⟨0x200004, 5, 5⟩
def TILE_PLANE_STAT.tbl_wait : Fld := ⟨0x200004, 4, 4⟩
def TILE_PLANE_STAT.idle_valid : Fld := ⟨0x200004, 3, 3⟩
def TILE_PLANE_STAT.active : Fld := ⟨0x200004, 0, 0⟩
def TILE_WIN_CNT.count : Fld := ⟨0x200008, 31, 0⟩
def TILE_CAPT_CTL.busy : Fld := ⟨0x200010, 31, 31⟩
def TILE_CAPT_CTL.start : Fld := ⟨0x200010, 30, 30⟩
def TILE_CAPT_CTL.mode : Fld := ⟨0x200010, 29, 28⟩
def TILE_CAPT_CTL.err : Fld := ⟨0x200010, 27, 27⟩
def TILE_CAPT_CTL.row : Fld := ⟨0x200010, 24, 16⟩
def TILE_CAPT_CTL.count : Fld := ⟨0x200010, 15, 0⟩
def TILE_CAPT_ADDR.addr : Fld := ⟨0x200014, 31, 6⟩
def TILE_NOISE_SEL.row : Fld := ⟨0x200018, 8, 0⟩
def TILE_NOISE_STAT.sigma : Fld := ⟨0x20001C, 31, 16⟩
def TILE_NOISE_STAT.mean : Fld := ⟨0x20001C, 15, 0⟩
def TILE_ERR_COEF0.k_sym : Fld := ⟨0x200020, 31, 16⟩
def TILE_ERR_COEF0.n_fe : Fld := ⟨0x200020, 15, 0⟩
def TILE_ERR_COEF1.sig_wl : Fld := ⟨0x200024, 31, 16⟩
def TILE_ERR_COEF1.sig_wp : Fld := ⟨0x200024, 15, 0⟩
def TILE_ERR_COEF2.gam : Fld := ⟨0x200028, 31, 16⟩
def TILE_ERR_COEF2.bet : Fld := ⟨0x200028, 15, 0⟩
def TILE_ERR_COEF3.kap : Fld := ⟨0x20002C, 15, 0⟩
def TILE_SCALE.s_e : Fld := ⟨0x200030, 31, 24⟩
def TILE_SCALE.s_m : Fld := ⟨0x200030, 15, 0⟩
def TILE_DITH_SEED.seed : Fld := ⟨0x200038, 31, 0⟩
def TILE_OVF_STAT.sats : Fld := ⟨0x20003C, 31, 16⟩
def TILE_OVF_STAT.replays : Fld := ⟨0x20003C, 15, 0⟩
def TILE_OVF_LAST.valid : Fld := ⟨0x200040, 31, 31⟩
def TILE_OVF_LAST.sat : Fld := ⟨0x200040, 30, 30⟩
def TILE_OVF_LAST.row : Fld := ⟨0x200040, 29, 21⟩
def TILE_OVF_LAST.win : Fld := ⟨0x200040, 20, 0⟩
def TILE_PD_STAT.clamps : Fld := ⟨0x200044, 31, 16⟩
def TILE_PD_STAT.dt : Fld := ⟨0x200044, 15, 0⟩
def TILE_ROW_SEL.plane : Fld := ⟨0x200048, 9, 9⟩
def TILE_ROW_SEL.row : Fld := ⟨0x200048, 8, 0⟩
def TILE_ROW_INFO.sumw : Fld := ⟨0x20004C, 31, 16⟩
def TILE_ROW_INFO.h : Fld := ⟨0x20004C, 11, 8⟩
def TILE_ROW_INFO.g : Fld := ⟨0x20004C, 2, 0⟩
def TILE_PEW_SEED_LO.seed_lo : Fld := ⟨0x200050, 31, 0⟩
def TILE_PEW_SEED_HI.seed_hi : Fld := ⟨0x200054, 31, 0⟩
def TILE_PEW_STATE_LO.state_lo : Fld := ⟨0x200058, 31, 0⟩
def TILE_PEW_STATE_HI.state_hi : Fld := ⟨0x20005C, 31, 0⟩
def TILE_CHAIN_CFG.act : Fld := ⟨0x200060, 31, 31⟩
def TILE_CHAIN_CFG.rin : Fld := ⟨0x200060, 30, 30⟩
def TILE_CHAIN_CFG.rout : Fld := ⟨0x200060, 29, 29⟩
def TILE_CHAIN_CFG.len : Fld := ⟨0x200060, 28, 24⟩
def TILE_CHAIN_CFG.pos : Fld := ⟨0x200060, 20, 16⟩
def TILE_CHAIN_CFG.head : Fld := ⟨0x200060, 12, 8⟩
def TILE_CHAIN_CFG.tmo : Fld := ⟨0x200060, 7, 0⟩
def TILE_PEW_STAT.raises : Fld := ⟨0x200064, 31, 16⟩
def TILE_PEW_STAT.sats : Fld := ⟨0x200064, 15, 0⟩
def TILE_PEW_LAST.valid : Fld := ⟨0x200068, 31, 31⟩
def TILE_PEW_LAST.group : Fld := ⟨0x200068, 14, 10⟩
def TILE_PEW_LAST.entry : Fld := ⟨0x200068, 9, 0⟩
def TILE_DRAIN_STAT.busy : Fld := ⟨0x20006C, 31, 31⟩
def TILE_DRAIN_STAT.queue : Fld := ⟨0x20006C, 20, 16⟩
def TILE_DRAIN_STAT.count : Fld := ⟨0x20006C, 15, 0⟩
def LOOP_STAT.run : Fld := ⟨0x400000, 31, 31⟩
def LOOP_STAT.exc : Fld := ⟨0x400000, 30, 30⟩
def LOOP_STAT.oob : Fld := ⟨0x400000, 25, 16⟩
def LOOP_STAT.trk : Fld := ⟨0x400000, 9, 0⟩
def LOOP_SEL.loop : Fld := ⟨0x400004, 8, 0⟩
def LOOP_MODE.pend : Fld := ⟨0x400008, 31, 31⟩
def LOOP_MODE.hflt : Fld := ⟨0x400008, 30, 30⟩
def LOOP_MODE.aflt : Fld := ⟨0x400008, 29, 29⟩
def LOOP_MODE.region : Fld := ⟨0x400008, 28, 26⟩
def LOOP_MODE.hcnt : Fld := ⟨0x400008, 25, 10⟩
def LOOP_MODE.cur : Fld := ⟨0x400008, 5, 4⟩
def LOOP_MODE.req : Fld := ⟨0x400008, 1, 0⟩
def LOOP_SETPT.clp : Fld := ⟨0x40000C, 31, 31⟩
def LOOP_SETPT.tgt : Fld := ⟨0x40000C, 23, 0⟩
def LOOP_PROF.amax : Fld := ⟨0x400014, 31, 16⟩
def LOOP_PROF.vmax : Fld := ⟨0x400014, 15, 0⟩
def LOOP_OBS0.r : Fld := ⟨0x40001C, 23, 0⟩
def LOOP_OBS1.yf : Fld := ⟨0x400020, 23, 0⟩
def LOOP_OBS2.oob : Fld := ⟨0x400024, 31, 31⟩
def LOOP_OBS2.frz : Fld := ⟨0x400024, 30, 30⟩
def LOOP_OBS2.ramp : Fld := ⟨0x400024, 29, 29⟩
def LOOP_OBS2.code : Fld := ⟨0x400024, 15, 0⟩
def LOOP_FOLLOW.valid : Fld := ⟨0x400028, 31, 31⟩
def LOOP_FOLLOW.auth : Fld := ⟨0x400028, 30, 30⟩
def LOOP_FOLLOW.lim : Fld := ⟨0x400028, 29, 29⟩
def LOOP_FOLLOW.loop : Fld := ⟨0x400028, 28, 20⟩
def LOOP_FOLLOW.count : Fld := ⟨0x400028, 15, 0⟩
def LOOP_GAIN_SEL.cmt : Fld := ⟨0x40002C, 31, 31⟩
def LOOP_GAIN_SEL.busy : Fld := ⟨0x40002C, 30, 30⟩
def LOOP_GAIN_SEL.loop : Fld := ⟨0x40002C, 24, 16⟩
def LOOP_GAIN_SEL.rec : Fld := ⟨0x40002C, 3, 0⟩
def LOOP_REC.word : Fld := ⟨0x400030, 31, 0⟩
def LOOP_VH.mv : Fld := ⟨0x400050, 31, 16⟩
def LOOP_VH.gv : Fld := ⟨0x400050, 15, 0⟩
def LOOP_RECAL.pend : Fld := ⟨0x400054, 31, 24⟩
def LOOP_RECAL.next : Fld := ⟨0x400054, 23, 22⟩
def LOOP_RECAL.ivl : Fld := ⟨0x400054, 15, 0⟩
def LOOP_TEL_CTL.en : Fld := ⟨0x400058, 31, 31⟩
def LOOP_TEL_CTL.drops : Fld := ⟨0x400058, 23, 8⟩
def LOOP_TEL_CTL.size : Fld := ⟨0x400058, 7, 4⟩
def LOOP_TEL_CTL.dec : Fld := ⟨0x400058, 3, 0⟩
def LOOP_TEL_SEL.n : Fld := ⟨0x40005C, 28, 27⟩
def LOOP_TEL_SEL.lc : Fld := ⟨0x40005C, 26, 18⟩
def LOOP_TEL_SEL.lb : Fld := ⟨0x40005C, 17, 9⟩
def LOOP_TEL_SEL.la : Fld := ⟨0x40005C, 8, 0⟩
def LOOP_TEL_ADDR.addr : Fld := ⟨0x400060, 31, 6⟩
def FAB_PORT_STAT.state : Fld := ⟨0x500000, 31, 29⟩
def FAB_PORT_STAT.light : Fld := ⟨0x500000, 28, 28⟩
def FAB_PORT_STAT.fport : Fld := ⟨0x500000, 27, 24⟩
def FAB_PORT_STAT.fid : Fld := ⟨0x500000, 23, 12⟩
def FAB_PORT_CTL.retrain : Fld := ⟨0x500004, 1, 1⟩
def FAB_PORT_CTL.dis : Fld := ⟨0x500004, 0, 0⟩
def FAB_GRP_STAT.state : Fld := ⟨0x500010, 31, 29⟩
def FAB_GRP_STAT.rxl : Fld := ⟨0x500010, 28, 25⟩
def FAB_GRP_STAT.txl : Fld := ⟨0x500010, 24, 21⟩
def FAB_GRP_STAT.bound : Fld := ⟨0x500010, 20, 20⟩
def FAB_GRP_STAT.cls : Fld := ⟨0x500010, 19, 19⟩
def FAB_GRP_STAT.rbuf : Fld := ⟨0x500010, 11, 8⟩
def FAB_GRP_STAT.cred : Fld := ⟨0x500010, 7, 0⟩
def FAB_GRP_OWN.partner : Fld := ⟨0x500020, 27, 16⟩
def FAB_GRP_OWN.score : Fld := ⟨0x500020, 15, 0⟩
def FAB_FEC.corr : Fld := ⟨0x500030, 31, 16⟩
def FAB_FEC.unc : Fld := ⟨0x500030, 15, 0⟩
def FAB_RETRY.rsnt : Fld := ⟨0x500034, 31, 20⟩
def FAB_RETRY.lost : Fld := ⟨0x500034, 19, 10⟩
def FAB_RETRY.cpl : Fld := ⟨0x500034, 9, 5⟩
def FAB_RETRY.drop : Fld := ⟨0x500034, 4, 0⟩
def FAB_TRAIN.count : Fld := ⟨0x500038, 31, 24⟩
def FAB_TRAIN.ms : Fld := ⟨0x500038, 23, 16⟩
def FAB_TRAIN.fstep : Fld := ⟨0x500038, 2, 0⟩
def FAB_PID.asg : Fld := ⟨0x508000, 31, 31⟩
def FAB_PID.dup : Fld := ⟨0x508000, 30, 30⟩
def FAB_PID.id : Fld := ⟨0x508000, 11, 0⟩
def FAB_REF.lock : Fld := ⟨0x508004, 31, 31⟩
def FAB_REF.hold : Fld := ⟨0x508004, 30, 30⟩
def FAB_REF.self : Fld := ⟨0x508004, 29, 29⟩
def FAB_REF.hops : Fld := ⟨0x508004, 28, 26⟩
def FAB_REF.port : Fld := ⟨0x508004, 25, 22⟩
def FAB_REF.rid : Fld := ⟨0x508004, 11, 0⟩
def FAB_PT_SEL.ent : Fld := ⟨0x508008, 6, 0⟩
def FAB_PT_ENT.state : Fld := ⟨0x50800C, 31, 30⟩
def FAB_PT_ENT.kind : Fld := ⟨0x50800C, 29, 29⟩
def FAB_PT_ENT.hops : Fld := ⟨0x50800C, 28, 26⟩
def FAB_PT_ENT.cand : Fld := ⟨0x50800C, 25, 25⟩
def FAB_PT_ENT.id : Fld := ⟨0x50800C, 11, 0⟩
def FAB_PT_PORTS.anum : Fld := ⟨0x508010, 31, 16⟩
def FAB_PT_PORTS.dir : Fld := ⟨0x508010, 15, 0⟩
def FAB_PT_SER_LO.ser_lo : Fld := ⟨0x508014, 31, 0⟩
def FAB_PT_SER_HI.ser_hi : Fld := ⟨0x508018, 31, 0⟩
def FAB_PT_STAT.full : Fld := ⟨0x50801C, 31, 31⟩
def FAB_PT_STAT.pres : Fld := ⟨0x50801C, 23, 16⟩
def FAB_PT_STAT.chg : Fld := ⟨0x50801C, 15, 0⟩
def FAB_START.trn : Fld := ⟨0x508020, 31, 16⟩
def FAB_START.cnv : Fld := ⟨0x508020, 15, 0⟩
def MEM_STAT.trained : Fld := ⟨0x600000, 31, 31⟩
def MEM_STAT.dev : Fld := ⟨0x600000, 15, 0⟩
def MEM_FRAME_SEL.bank : Fld := ⟨0x600004, 5, 0⟩
def MEM_FRAME_LO.own : Fld := ⟨0x600008, 31, 0⟩
def MEM_FRAME_HI.own : Fld := ⟨0x60000C, 31, 0⟩
def MEM_ECC.corr : Fld := ⟨0x600010, 31, 16⟩
def MEM_ECC.uncorr : Fld := ⟨0x600010, 15, 0⟩
def MEM_GERR.retry : Fld := ⟨0x600014, 31, 16⟩
def MEM_GERR.crcf : Fld := ⟨0x600014, 15, 8⟩
def MEM_GERR.eccf : Fld := ⟨0x600014, 7, 0⟩
def MEM_MARKLIST.ovf : Fld := ⟨0x600018, 31, 31⟩
def MEM_MARKLIST.gran : Fld := ⟨0x600018, 30, 24⟩
def MEM_MARKLIST.used : Fld := ⟨0x600018, 12, 0⟩
def MEM_APER_BASE.refused : Fld := ⟨0x60001C, 31, 21⟩
def MEM_APER_BASE.base : Fld := ⟨0x60001C, 4, 0⟩
def STRM_Q_SEL.q : Fld := ⟨0x700000, 8, 0⟩
def STRM_Q_CFG.en : Fld := ⟨0x700004, 31, 31⟩
def STRM_Q_CFG.cls : Fld := ⟨0x700004, 30, 30⟩
def STRM_Q_CFG.lim : Fld := ⟨0x700004, 23, 16⟩
def STRM_Q_CFG.score : Fld := ⟨0x700004, 15, 0⟩
def STRM_Q_STAT.state : Fld := ⟨0x700008, 31, 29⟩
def STRM_Q_STAT.on : Fld := ⟨0x700008, 28, 20⟩
def STRM_Q_STAT.out : Fld := ⟨0x700008, 8, 0⟩
def STRM_WG_TMO.cuts : Fld := ⟨0x70000C, 25, 10⟩
def STRM_WG_TMO.tmo : Fld := ⟨0x70000C, 9, 0⟩
def STRM_FLT_PTR.ovf : Fld := ⟨0x700010, 31, 31⟩
def STRM_FLT_PTR.wr : Fld := ⟨0x700010, 25, 16⟩
def STRM_FLT_PTR.rd : Fld := ⟨0x700010, 9, 0⟩
def STRM_WIN_SEL.win : Fld := ⟨0x700014, 5, 0⟩
def STRM_WIN_CFG.valid : Fld := ⟨0x700018, 31, 31⟩
def STRM_WIN_CFG.grp : Fld := ⟨0x700018, 30, 29⟩
def STRM_WIN_CFG.port : Fld := ⟨0x700018, 28, 25⟩
def STRM_WIN_CFG.partner : Fld := ⟨0x700018, 24, 13⟩
def STRM_WIN_CFG.pages : Fld := ⟨0x700018, 12, 0⟩
def STRM_TLB_STAT.miss : Fld := ⟨0x70001C, 31, 16⟩
def STRM_TLB_STAT.flt : Fld := ⟨0x70001C, 15, 0⟩

end Sys2Proof.Machine
end

