-- ==== Sys2Proof/Config.lean ====
section
/-! DEFINITION. What one implementation fixes, and the values that the manual leaves open. An `opaque`
constant has no body: nothing can be proved of its value, so that a statement holds whatever it is. -/

namespace Sys2Proof
namespace Config

/-- The shot and front-end noise e_shot + e_fe in dot units of one conversion of one row (R59, R60): independent
across rows and windows, so the n-th free value. -/
opaque windowError : Nat → Rat

/-- The error of a ring's weight that one load realises, the part σ_wl of e_w: the load's free value and the ring,
128 · row + lane (R59, R60). -/
opaque loadError : Nat → Nat → Rat

/-- The error of a ring's weight that stays from one recalibration to the next, the part σ_wp of e_w: the
recalibration's free value and the ring (R59, R60). -/
opaque holdError : Nat → Nat → Rat

/-- SHAKE256 taken to 64 bytes of output (R208, R438); uninterpreted (log 9). -/
opaque shake256 : List Byte → List Byte

/-- The time in ps that admission counts for an instruction of a strand beyond what the manual gives for it: waits, remote
replies, issue (R218; log 10). -/
opaque stepTime : BitVec 128 → Nat

/-- The latency that admission recomputes for a promised latency on the lines that remain (R232; log 10). -/
opaque lineLatency : Nat → Nat → Nat

/-- The latency that admission recomputes for a promised latency on a wavelength group's remaining lanes (R320; log 10). -/
opaque laneLatency : Nat → Nat → Nat

/-- The records that firmware gives the loops at power-up: engine, slot and record (R247; log 35). -/
opaque loopRecord : Nat → Nat → Nat → BitVec 256

/-- The bias of a port transmitter's channel at a tick, whose record has no place in the manual (R235; log 36). -/
opaque transmitterBias : Nat → Nat → BitVec 16

/-- The choice of slot numbers that admission makes (R489); the n-th free value. -/
opaque slotChoice : Nat → Nat

/-- Whether a translation misses its cache, whose replacement the manual leaves open (R198); the n-th free value. -/
opaque tlbMiss : Nat → Bool

/-- The rescue nonce (R376); the n-th free value. -/
opaque nonce : Nat → BitVec 32

/-- The body of a DOE or SPDM response (R348) to a request, given the measurements and the certificate chain, and the answer to a
request outside a session; not in the manual. -/
opaque spdmResponse : Byte → List Byte → List (List Byte) → List (List Byte) → List Byte
opaque spdmRestart : List Byte → List Byte

/-- SHA3-512, the base hash of SPDM (R348); uninterpreted (log 9). -/
opaque sha3 : List Byte → List Byte

/-- The fused device secret (15), and the keys that the Guard derives: the identity key from the secret, the alias key from the
secret and registers 1 to 3 (R440; log 152). -/
opaque deviceSecret : List Byte
opaque identityKey : List Byte → List Byte
opaque aliasKey : List Byte → List (List Byte) → List Byte

/-- Ed448: the public key of a private one, and the signature of a message (R440; uninterpreted, log 9). -/
opaque ed448Public : List Byte → List Byte
opaque ed448Sign : List Byte → List Byte → List Byte

/-- Certificates (R440): Magamer's root, the device identity certificate written at test, and what the alias certificate says of
its public key before it is signed. -/
opaque rootCert : List Byte
opaque identityCert : List Byte
opaque aliasBody : List Byte → List Byte

/-- Values that a calibration stores and that the manual leaves to the measurement (R57, R64, R267). -/
opaque calibration : Nat → BitVec 16

/-- The fit of a ring's record (field 0 to 2) to measurements that do not determine it (R269; log 134). -/
opaque ringFit : List (Int × Int) → Nat → BitVec 16

/-- The error that noise shaping leaves in the mean duty of an output's stream over a sample (R289): output, tick, code. -/
opaque shaping : Nat → Nat → Nat → Rat

/-- The frequency word and the configuration that firmware gives an oscillator at power-up: engine, oscillator (R301; log
35). -/
opaque oscillator : Nat → Nat → BitVec 32 × BitVec 32

/-- Fuses (15): serial, security version counter and the digests that the ROM extends (R436, R438). -/
opaque fuseSerial : BitVec 64
opaque fuseSvn : BitVec 6
opaque romDigest : List Byte
opaque strapDigest : List Byte

/-- The firmware version that IDENTIFY returns when no image of known version runs (R366). -/
opaque bootVersion : BitVec 32

/-- Whether a port is connected over more than 4 m of fibre: the board's wiring (R303; log 61). -/
opaque longFibre : Nat → Bool

/-- The share of a converter reading, current or voltage that the module samples by itself (R240, R296). -/
opaque reading : Nat → BitVec 16

end Config
end Sys2Proof
end

