-- ==== Sys2Proof/Machine/State.lean ====
section
/-! DEFINITION. The state of the module as plain data, the reasons a step can stop, and the state after reset.
Numbered units stand in sparse tables; what an unlisted unit holds is its `reset` value. -/

namespace Sys2Proof
namespace Machine

/-- Why the block stops. Raised by the meanings of commands whose operands name a unit that the module does
not have (comb 3 of the fabric source, a recalibration slot of LE8). Safe: the hardware has no such event. -/
inductive Fault where
  | noSuchUnit
deriving DecidableEq, Repr

/-- Why a command has no meaning here. `notModelled` would be raised by an arm of `exec` without a meaning
(there is none); safe. -/
inductive Refusal where
  | notModelled (mnemonic : String)
deriving DecidableEq, Repr

/-- Strand states (R134). -/
inductive StrandState where
  | unused | idle | ready | waitQueue | waitTable | waitStream | waitEvent | waitTest | halted | faulted
deriving DecidableEq, Repr

/-- An active loop of a strand (R155): first and last instruction of the body and the iterations left. -/
structure LoopFrame where
  first : BitVec 14
  last  : BitVec 14
  left  : Nat
deriving DecidableEq, Repr

/-- A strand (R134). `waitFrom` is the tick at which its next instruction was fetched (R154, log 121), `tstOut` the test
drains issued and not yet recorded, `tstEver` whether any has been issued (R156). -/
structure Strand where
  state    : StrandState
  fault    : BitVec 4
  cls      : Cls
  pc       : BitVec 14
  loops    : List LoopFrame
  neg      : Bool
  zero     : Bool
  pep      : Bool
  valid    : Bool
  tstEver  : Bool
  tstOut   : Nat
  waitFrom : Option Nat
deriving DecidableEq, Repr

def Strand.reset : Strand :=
  ⟨.unused, 0, .assured, 0, [], false, false, false, false, false, 0, none⟩

/-- An issued instruction that has not completed on every tile (R138). -/
structure Job where
  left   : Nat
  ev     : Option (BitVec 9)
  strand : Nat
  pc     : Nat
  cls    : Cls
deriving DecidableEq, Repr

def Job.reset : Job := ⟨0, none, 0, 0, .assured⟩

/-- A running sequence (R132): what it holds, its descriptor cache (R194), and how it is ending. -/
structure SeqRun where
  score    : ScoreId
  index    : Nat
  tiles    : BitVec 4
  strands  : List Nat
  first    : Nat
  count    : Nat
  queues   : List (Nat × Nat)
  events   : List Nat
  descs    : List (Nat × Desc)
  ranges   : List (Nat × Nat)
  faulted  : Bool
  stopping : Bool
deriving DecidableEq, Repr

/-- A bay and its sequencer (05). `pauseTrim`, `pauseFollow` and `pauseClock` are the causes of a pause
(R262, R295, R387), `inBand` the consecutive samples with every loop in band, `before` the bay state to return to from debug
or rebinding, `upset` what has put the loops of a rebind outside their band (R40), `lostSeen` the lost lines that its promises
have been judged by (R284). -/
structure Bay where
  strands     : Tab Strand
  imem        : Tab (BitVec 128)
  events      : Tab (BitVec 16)
  assured     : Option SeqRun
  spare       : Option SeqRun
  jobs        : Tab Job
  nextJob     : Nat
  role        : Nat
  minLines    : Nat
  activity    : BitVec 2
  pauseFollow : Bool
  pauseTrim   : Bool
  pauseClock  : Bool
  inBand      : Nat
  darkDue     : Bool
  darkOn      : Bool
  before      : BitVec 3
  brokenZones : Bool
  levelTick   : Nat
  floorTick   : Option Nat
  floorFault  : Bool
  calibrated  : Bool
  slotTick    : Option Nat
  upset       : BitVec 2
  lostSeen    : Nat
deriving DecidableEq, Repr

def Bay.reset : Bay :=
  ⟨[], [], [], none, none, [], 0, 0, 0, 0, false, false, false, 0, false, false, 0, false, 0, none, false, false, none, 0, 0⟩

/-- A row header of a plane image (R80). -/
structure RowHdr where
  g : BitVec 3
  h : BitVec 4
deriving DecidableEq, Repr

/-- One hold plane of a tile (R48, R75, R77, R80, R278): weight codes by 128 · row + lane, DAC codes alike,
headers, sums of weight codes and comb-use bits by row, the tick at which it settled, the mark that its image
carried (R201), whether the load was outside the table range (R79), whether it holds the measurement pattern
(R270), whether its last completed load was of zero codes (R54), and the free value drawn when it was loaded (R60). -/
structure Plane where
  codes   : Tab Byte
  dac     : Tab (BitVec 10)
  hdrs    : Tab RowHdr
  sums    : Tab Int
  combs   : Tab (BitVec 4)
  settled : Nat
  image   : Mark
  range   : Bool
  pattern : Bool
  zeros   : Bool
  draw    : Nat
deriving DecidableEq, Repr

def Plane.reset : Plane := ⟨[], [], [], [], [], 0, none, false, false, true, 0⟩

/-- The role of a window in a chain (R117); `pos` takes the role of the tile's position (R141). -/
inductive Role where
  | none | head | member | tail | pos
deriving DecidableEq, Repr

/-- An entry of a tile's window queue (R160). -/
inductive WinEntry where
  | win (stamp job strand wl entry estep left iq : Nat) (role : Role) (pl : BitVec 2) (pc : BitVec 14) (begun : Bool)
  | psw (stamp job : Nat)
  | ssc (stamp : Nat) (word : Word)
  | ccf (stamp : Nat) (head len : Nat) (rin rout dis : Bool) (tmo : Byte) (wgr : BitVec 6)
deriving DecidableEq, Repr

/-- A load in the load queue (R142, R184): `phase` 0 waiting, 1 image fetched, 2 writing or settling. -/
structure Load where
  stamp  : Nat
  job    : Nat
  strand : Nat
  pc     : BitVec 14
  pl     : BitVec 2
  zero   : Bool
  addr   : Nat
  phase  : Nat
  buf    : Nat
  plane  : Bool
deriving DecidableEq, Repr

/-- An image buffer (R184): the image, its mark, the load that it serves, and whether it is free to be
overwritten. -/
structure ImgBuf where
  stamp : Nat
  bytes : Tab Byte
  mark  : Mark
  full  : Bool
  busy  : Bool
  plane : Option Bool
deriving DecidableEq, Repr

def ImgBuf.reset : ImgBuf := ⟨0, [], none, false, false, none⟩

/-- A drain in the drain queue (R148). `gens` are the generator states of its entries (R112), `released`
whether the head entry is released and being read (R127, R128). -/
structure Drain where
  stamp    : Nat
  job      : Nat
  strand   : Nat
  entry    : Nat
  left     : Nat
  fmt      : BitVec 3
  rnd      : Bool
  clr      : Bool
  k        : Byte
  dst      : BitVec 2
  addr     : Nat
  tst      : Bool
  trow     : Nat
  gens     : List (BitVec 64)
  first    : Bool
  released : Bool
deriving DecidableEq, Repr

/-- How far a window has come (R55, R56, R90, R91). -/
inductive WinPhase where
  | integrating | converted | replaying
deriving DecidableEq, Repr

/-- A pepper mark on its way to Pewter: its reason, whether a window or a unit of this module originates it and
so counts it where it is set (R451), and the window that carries it (R114). -/
structure CMark where
  reason : BitVec 4
  orig   : Bool
  no     : Nat
deriving DecidableEq, Repr

/-- A window between its first symbol and its delivery to the combiner. `no` numbers the windows of the
tile, `outs` are the dither outputs (R70), `input` the mark of its inputs (R449), `band`, `aff` and `lost` the
flags that met its integration (R261, R279, R387), `cap` its place in a capture (R62), `codes` the ADC codes,
`marks` the marks of the 32 groups, `integ` the integrator of each row that takes it, `no` mod 2 (R55), and `since` the
symbols of the windows issued since its replay was decided (R93). -/
structure Win where
  no     : Nat
  gid    : Nat
  job    : Nat
  final  : Bool
  wl     : Nat
  entry  : Nat
  plane  : Bool
  scale  : Word
  role   : Role
  inputs : List Byte
  outs   : List (BitVec 32)
  input  : Mark
  band   : Bool
  aff    : List Nat
  lost   : Bool
  cap    : Option Nat
  phase  : WinPhase
  codes  : List Int
  marks  : List (Option CMark)
  integ  : Bool
  since  : Nat
deriving DecidableEq, Repr

/-- A combined group (R114): the windows issued into it and delivered, the sums of the partials with their
exponents, the marks, and the generator state of its position (R112). `strand` and `pc` name the WIN of its first
window (R147), `inst` the instance of the chain configuration that it belongs to (R117). -/
structure Group where
  gid       : Nat
  stamp     : Nat
  strand    : Nat
  pc        : BitVec 14
  entry     : Nat
  wl        : Nat
  plane     : Bool
  scale     : Word
  role      : Role
  issued    : Nat
  delivered : Nat
  closed    : Bool
  p         : List Int
  e         : List Int
  marks     : List (Option CMark)
  jobs      : List Nat
  gen       : BitVec 64
  inst      : Nat
deriving DecidableEq, Repr

/-- An update formed and not yet applied (R128), with its partials, marks and generator state; `chain` marks a
step of a chain at its end tile, of the configuration instance `inst` (R117). -/
structure Update where
  gid   : Nat
  stamp : Nat
  entry : Nat
  chain : Bool
  p     : List Int
  e     : List Int
  marks : List (Option CMark)
  ovfs  : List Bool
  jobs  : List Nat
  gen   : BitVec 64
  inst  : Nat
deriving DecidableEq, Repr

/-- A chain word (R118, R147, R447) and the instance of the configuration that formed it (R117). -/
structure ChainWord where
  head  : Nat
  len   : Nat
  m     : List Int
  e     : List Int
  ovfs  : List Bool
  marks : List (Option CMark)
  inst  : Nat
deriving DecidableEq, Repr

/-- A group word of Pewter with its side-table reason (R104, R106). -/
structure GroupWord where
  mark : Mark
  ovf  : Bool
  e    : Int
deriving DecidableEq, Repr

def GroupWord.cleared : GroupWord := ⟨none, false, -128⟩

/-- An input block in a tile's input buffer (R195): its queue (bay queue number), bytes and mark. -/
structure InBlock where
  q     : Nat
  block : Block
deriving DecidableEq, Repr

/-- A remote entry that a target entry takes (R120, R121): the position in issue order of the round that it starts,
the generator state of that position (R112), the tick at which it fell due, and whether it has been added or has
timed out. -/
structure Remote where
  pos   : Nat
  gen   : BitVec 64
  since : Nat
  done  : Bool
deriving DecidableEq, Repr

/-- The remote entries of a target entry: the rounds that have not been drained, in order, and the blocks that have
arrived and have not been added, 64 to an entry (R120). -/
structure Rounds where
  due  : List Remote
  held : List Block
deriving DecidableEq, Repr

def Rounds.reset : Rounds := ⟨[], []⟩

/-- A tile (02, 03, 04). `loading` is the plane that a started load is writing (R48), `kept` the windows whose
inputs the buffer keeps (R25), `inRes` the blocks that started transfers have reserved (R195), `wgr` the
wavelength-group role of its chain configuration (R146), `lastWin` the WIN of the last window issued (R147),
`quality` whether a tile-quality fault holds its table invalid (R61), `failed` whether a table check has failed and the
table has not been rebuilt (R20), `inst` the instance of its chain configuration (R117), `calDraw` the free value drawn
at its last recalibration (R60), `points` the last eight measurements of each ring, latest first (R269). -/
structure Tile where
  planeA   : Plane
  planeB   : Plane
  loading  : Option Plane
  kept     : Nat
  inRes    : Nat
  wgr      : BitVec 6
  winQ     : List WinEntry
  loadQ    : List Load
  drainQ   : List Drain
  buf0     : ImgBuf
  buf1     : ImgBuf
  wins     : List Win
  groups   : List Group
  updQ     : List Update
  chainIn  : List ChainWord
  ownQ     : List Group
  mant     : Tab Int
  gword    : Tab GroupWord
  remote   : Tab Rounds
  lastWin  : Option (Nat × BitVec 14)
  gen      : BitVec 64
  hop      : BitVec 64
  dither   : BitVec 32
  reseed   : Option (BitVec 32)
  inbuf    : List InBlock
  stamp    : Nat
  nextGid  : Nat
  started  : Nat
  ended    : Nat
  tblOk    : Bool
  table    : Tab Byte
  zeroReq  : Bool
  swapReq  : Bool
  capLeft  : Nat
  capOff   : Nat
  band     : Bool
  aff      : List Nat
  noise    : Tab RowMeas
  scaleBad : Bool
  quality  : Bool
  failed   : Bool
  inst     : Nat
  calDraw  : Nat
  points   : Tab (List (Int × Int))
deriving DecidableEq, Repr

def RowMeas.zero : RowMeas := ⟨0, 0, 0, 0, 0, 0, 0, 0, 0, 0⟩

def Tile.reset : Tile where
  planeA := Plane.reset
  planeB := Plane.reset
  loading := none
  kept := 0
  inRes := 0
  wgr := 0
  winQ := []
  loadQ := []
  drainQ := []
  buf0 := ImgBuf.reset
  buf1 := ImgBuf.reset
  wins := []
  groups := []
  updQ := []
  chainIn := []
  ownQ := []
  mant := []
  gword := []
  remote := []
  lastWin := none
  gen := 1
  hop := 1
  dither := 1
  reseed := none
  inbuf := []
  stamp := 0
  nextGid := 0
  started := 0
  ended := 0
  quality := false
  failed := false
  inst := 0
  calDraw := 0
  points := []
  tblOk := false
  table := []
  zeroReq := false
  swapReq := false
  capLeft := 0
  capOff := 0
  band := false
  aff := []
  noise := []
  scaleBad := false

/-- Stage memory (R175, R179): bytes as written, the bits of them found flipped since, the marks of the blocks, the owners of
the frame slots, and the bits found flipped in the SECDED code of a word, by the word's address / 8. -/
structure Stage where
  bytes : Tab Byte
  flips : Tab Byte
  marks : Tab Mark
  owner : Tab (BitVec 4)
  chk   : Tab Byte
deriving DecidableEq, Repr

/-- GDDR7 (R185 to R189, R225): bytes, the mark list by block number, the overflow flags of the granules, the accesses whose
retry is due (block, queue and, for a write, the data). The spans marked as zero are those of the granules in `zero`, less
the spans in `opened`. -/
structure Gddr where
  bytes  : Tab Byte
  list   : Tab Mark
  ovf    : Tab Bool
  zero   : Tab Bool
  opened : Tab Bool
  retry  : List (Nat × Nat × Option Block)
  trained : Bool
deriving DecidableEq, Repr

/-- A transfer of a stream queue (R191, R202, R205). `bay` and `cls` name the sequence that issued it,
`next` is the linear index of the next block to be read, `done` counts the blocks delivered, `acc` holds the blocks of
a remote write message that is being filled and `accAt` the partner address of the first of them with its space, as
translated when it joined (R198); `refused` is the reason with which the blocks still to come are delivered as zeros (R202);
`waitTick` is the tick since which it waits. -/
structure Transfer where
  bay     : Nat
  cls     : Cls
  strand  : Nat
  job     : Nat
  tag     : Byte
  desc    : Desc
  started : Bool
  next    : Nat
  total   : Nat
  done    : Nat
  acc     : List Block
  accAt   : Nat × Bool
  refused : Mark
  waitTick : Option Nat
deriving DecidableEq, Repr

/-- A stream queue (R190, R191). -/
structure Queue where
  owner : ScoreId
  cls   : Cls
  en    : Bool
  limit : Nat
  xfers : List Transfer
deriving DecidableEq, Repr

def Queue.reset : Queue := ⟨0, .assured, false, 1, []⟩

/-- A stream buffer of a running sequence (R196): 64-byte blocks present and reserved, the pointers, the producer and
consumer queues, and the blocks to be discarded as they arrive (R205). -/
structure SBuf where
  base     : Nat
  blocks   : Nat
  rd       : Nat
  wr       : Nat
  present  : Nat
  reserved : Nat
  prod     : Nat
  cons     : Nat
  skip     : Nat
deriving DecidableEq, Repr

def SBuf.reset : SBuf := ⟨0, 0, 0, 0, 0, 0, 0, 0, 0⟩

/-- A remote window (R197). -/
structure RWin where
  valid   : Bool
  score   : ScoreId
  partner : BitVec 12
  port    : Nat
  group   : Nat
  pages   : Nat
deriving DecidableEq, Repr

def RWin.reset : RWin := ⟨false, 0, 0, 0, 0, 0⟩

/-- Stream queues, buffers (by 64 · bay and class + buffer number), remote windows and the number of the next stream
fault record (06). -/
structure Streams where
  seq    : Byte
  queues : Tab Queue
  bufs   : Tab SBuf
  wins   : Tab RWin
deriving DecidableEq, Repr

/-- Score states (R210 to R214). -/
inductive ScoreState where
  | none | loading | analysing | loaded | running | unloading
deriving DecidableEq, Repr

/-- A trigger of a claim that has not completed (R232): its time in ns, the replays and fabric retries within it, and the
rows of the events' table that have occurred within it (R233). -/
structure OpenTrigger where
  at_     : Nat
  replays : Nat
  retries : Nat
  causes  : List Nat
deriving DecidableEq, Repr

/-- A promise of an assured timing claim (R218, R232). `swaps` is the time in ns of the last spare swap, plus 1; `roles` are the bay
roles that the claim uses (R214). -/
structure Promise where
  state  : BitVec 2
  floor  : BitVec 3
  bound  : Nat
  worst  : Nat
  misses : Nat
  cause  : Byte
  swaps  : Nat
  since  : List OpenTrigger
  roles  : List Nat
deriving DecidableEq, Repr

def Promise.reset : Promise := ⟨0, 0, 0, 0, 0, 0, 0, [], []⟩

/-- A request in a batch (R228): the wavelength group (4 · port + group) that it came over, its length in blocks and the
payload blocks that have arrived. -/
structure Request where
  partner : BitVec 12
  tag     : BitVec 32
  group   : Nat
  len     : Nat
  blocks  : List Block
deriving DecidableEq, Repr

/-- A reply slot that the score still has to write (R230); no request stands behind an unfilled one. -/
structure DueReply where
  filled  : Bool
  partner : BitVec 12
  tag     : BitVec 32
  group   : Nat
deriving DecidableEq, Repr

/-- The open batch of a service (R228), the number of the next batch, and the reply slots due. -/
structure Batch where
  reqs  : List Request
  since : Option Nat
  bseq  : Nat
  due   : List DueReply
deriving DecidableEq, Repr

def Batch.reset : Batch := ⟨[], none, 0, []⟩

/-- A score (07). `running` lists the sequences running, `bound` the roles bound: kind, role, resource; `plim` is the admission
power limit that its analysis began with (R234), `power` what R221 counts for it once it is accepted, in mW. -/
structure Score where
  state    : ScoreState
  order    : Byte
  length   : Nat
  digest   : List Byte
  image    : List Byte
  nextBlk  : Nat
  homes    : List Nat
  ghomes   : List Nat
  pkg      : Option Package
  refusal  : Option Byte
  bound    : List (Nat × Nat × Nat)
  running  : List Nat
  started  : List Nat
  promises : Tab Promise
  counters : Tab (BitVec 16)
  notify   : Tab (BitVec 6)
  batches  : Tab Batch
  bayState : Nat
  plim     : Nat
  power    : Nat
deriving DecidableEq, Repr

def Score.reset : Score :=
  ⟨.none, 0, 0, [], [], 0, [], [], none, none, [], [], [], [], [], [], [], 0, 0, 0⟩

/-- Scores, loads and the resources bound to them (R31). A resource that is not listed is bound to no score. -/
structure Scores where
  scores  : Tab Score
  loads   : List ScoreId
  sgran   : Tab ScoreId
  ggran   : Tab ScoreId
  pewter  : Tab ScoreId
  groups  : Tab ScoreId
deriving DecidableEq, Repr

/-- Loop modes (R252). -/
inductive Mode where
  | hold | acquire | track | manual
deriving DecidableEq, Repr

/-- A loop slot (08). Values are exact; the ones that the law rounds are multiples of their stage's LSB. `mtgt`, `mr`
and `mv` are the target and the profile of MANUAL (log 31), `held` whether the last code was held back by the slew
limit, `clamped` whether the output stood outside its limits, `fired` whether the sample's following fault has been
raised, `saved` the profile limits that firmware's ramp has replaced (R250, R282), `pairBad`
whether its stored set-point or profile pair disagrees (R458), `sat` the saturation flags of the sample by stage in the order of
R242's table, `ended` whether the sweep of ACQUIRE has ended at its crossing (R256), `sensorBad` and `forced` whether its
sensor was broken and its output forced in the last sample (R257, R293). -/
structure Loop where
  recs   : Tab (BitVec 256)
  target : BitVec 24
  clp    : Bool
  prof   : Word
  r      : Rat
  v      : Rat
  a      : Rat
  mode   : Mode
  req    : BitVec 2
  pend   : Option Mode
  hcnt   : Nat
  hflt   : Bool
  aflt   : Bool
  yf     : Rat
  e      : Rat
  i      : Rat
  d      : Rat
  s      : Rat
  o      : Rat
  delta  : Rat
  c      : Rat
  te     : Rat
  te0    : Rat
  tb     : Bool
  region : BitVec 3
  frz    : Bool
  oob    : Bool
  count  : Nat
  inBand : Nat
  swept  : Nat
  peak   : Bool
  before : Option Mode
  held   : Bool
  clamped : Bool
  fired  : Bool
  mtgt   : BitVec 24
  mr     : Rat
  mv     : Rat
  saved  : Option Word
  pairBad : Bool
  sat    : BitVec 7
  ended  : Bool
  sensorBad : Bool
  forced : Bool
deriving DecidableEq, Repr

def Loop.reset : Loop where
  recs := []
  target := 0
  clp := false
  prof := 0x02190418
  r := 0
  v := 0
  a := 0
  mode := .hold
  req := 0
  pend := none
  hcnt := 0
  hflt := false
  aflt := false
  yf := 0
  e := 0
  i := 0
  d := 0
  s := 0
  o := 0
  delta := 0
  c := 0
  te := 0
  te0 := 0
  tb := false
  region := 0
  frz := false
  oob := false
  count := 0
  inBand := 0
  swept := 0
  peak := false
  before := none
  held := false
  clamped := false
  fired := false
  mtgt := 0
  mr := 0
  mv := 0
  saved := none
  pairBad := false
  sat := 0
  ended := false
  sensorBad := false
  forced := false

/-- The state of a zone loop after reset: target 65.0 °C (R248, LOOP_SETPT). -/
def Loop.zoneReset : Loop := { Loop.reset with target := 0x041000, r := 65 }

/-- A loop engine (08). `meas`, `temps` and `supply` are the inputs latched at the last tick; `staged` are
the eight record words of the record window, `commit` the record that waits for the tick, by 16 · slot + record (R247). -/
structure Engine where
  loops  : Tab Loop
  meas   : Tab Rat
  temps  : Tab Rat
  broken : List Nat
  supply : Nat
  staged : Tab Word
  commit : Option (Nat × BitVec 256)
  telPtr : Nat
  telTick : Option Nat
  exc    : Bool
  nco    : Tab (Word × Word × Word)
deriving DecidableEq, Repr

def Engine.reset : Engine := ⟨[], [], [], [], 1800, [], none, 0, none, false, []⟩

/-- A line of a comb (R274, R275). `hist` holds the last 64 samples relative to the reference in 1/256 dB, latest first, `uw`
its power and `ref` its reference in µW, `hot` the samples in succession above the cap of one line (R287). -/
structure Line where
  hist : List Int
  warn : Bool
  arm  : Bool
  fast : Bool
  lost : Bool
  aff  : Bool
  uw   : Nat
  ref  : Nat
  hot  : Nat
deriving DecidableEq, Repr

def Line.reset : Line := ⟨[], false, false, false, false, false, 0, 0, 0⟩

/-- A comb (R274 to R282): state code and position of LSA_COMB_STAT, boost steps, clamp, current, mean line power in 1/8 mW,
samples in succession above the cap on it (R287), the tick of its last boost step, the mean reference power that its drive is
held at before boost in units of 2^-12 mW (R276, R281), and whether the Guard has cut its drive. -/
structure Comb where
  state : BitVec 3
  pos   : BitVec 3
  boost : Nat
  clamp : Bool
  ma    : Nat
  mw    : Nat
  exceeded : Nat
  boostTick : Nat
  ref   : Int
  cut   : Bool
deriving DecidableEq, Repr

def Comb.reset : Comb := ⟨0, 7, 0, false, 0, 0, 0, 0, 0, false⟩

/-- A light source (R280 to R286). -/
structure Source where
  combs  : Tab Comb
  lines  : Tab Line
  armPos : Option Nat
  armTick : Nat
  suspended : Bool
  spos   : BitVec 3
  arms   : Byte
  locked : Bool
deriving DecidableEq, Repr

def Source.reset : Source := ⟨[], [], none, 0, false, 7, 0, false⟩

/-- A trim output (R288 to R297): the codes of the last tick and of the tick before it, whether read-back forces it, its
mismatching scans and the values of its last dwell. -/
structure TrimOut where
  code  : BitVec 16
  prev  : BitVec 16
  rb    : Bool
  mcnt  : Nat
  exp   : BitVec 12
  meas  : BitVec 12
deriving DecidableEq, Repr

def TrimOut.reset : TrimOut := ⟨0, 0, false, 0, 0, 0⟩

/-- A temperature sensor (R419 to R424): the last reading, the readings of the last 400 µs with their ticks (latest
first), the change over 200 µs, the state code of THM_SENS, the ticks at which a condition of R421 and a rate warning
last held, the samples in succession at or above the trip threshold, and the readouts missed in succession. -/
structure Sensor where
  temp   : BitVec 16
  hist   : List (Nat × Int)
  rate   : Int
  fast   : Bool
  fastTick : Nat
  state  : BitVec 2
  broken : Bool
  warnTick : Option Nat
  above  : Nat
  misses : Nat
deriving DecidableEq, Repr

def Sensor.reset : Sensor := ⟨0, [], 0, false, 0, 0, false, none, 0, 0⟩

/-- A Guard limit as value and complement (R444). -/
structure GuardLim where
  val  : Word
  cmpl : Word
deriving DecidableEq, Repr

/-- A committed image: version, security version and digest (R435). -/
structure FwImage where
  ver    : Word
  svn    : Nat
  digest : List Byte
deriving DecidableEq, Repr

/-- An update slot of the non-volatile memory: its loader and its main image (R436, R441). -/
structure FwSlot where
  loader : Option FwImage
  main   : Option FwImage
deriving DecidableEq, Repr

def FwSlot.reset : FwSlot := ⟨none, none⟩

/-- The alias key of the running image and its certificate (R440). -/
structure AliasKey where
  key  : List Byte
  cert : List Byte
deriving DecidableEq, Repr

/-- Firmware trust (15): measurement registers and their extension counts (R438), slots, the staging buffer, the fuses that
raise the counter, the tick at which the running image started, its version, the slot tried first by the boot under way,
the Guard limits, the alias key that the Guard holds (R440) and the transcript of the SPDM session, `none` outside one. -/
structure Security where
  meas    : Tab (List Byte)
  exts    : Tab Nat
  slots   : Tab FwSlot
  staging : Option Image
  svn     : Nat
  runTick : Nat
  ver     : Word
  pendingBoot : Option (BitVec 2)
  guard   : Tab GuardLim
  akey    : Option AliasKey
  session : Option (List Byte)
deriving DecidableEq, Repr

/-- A write or read request that waits for its answer (R309): its tag, queue, transfer, first block and blocks. -/
structure Outstanding where
  tag : BitVec 32
  q   : Nat
  key : Nat
  lin : Nat
  n   : Nat
deriving DecidableEq, Repr

/-- A codeword pair that has left: its block header and its five flit slots (R304, R306). -/
structure LinePair where
  header : BitVec 40
  slots  : List Flit
deriving DecidableEq, Repr

/-- A wavelength group of a port (10): lanes, binding, credits and sequence numbers, messages waiting to be sent
(`out`), sent and not acknowledged (`replay` on an assured group; of a spare group only the headers, in `heads`, which its loss
notices carry), to be resent, received behind a lost one (`held`), and received in order and not yet applied (`arrived`), the
pairs that have left (`line`), the numbers of the next slot sent and received (R305), the flits of the message being received
(`rx`, a lost one as none) and those of messages that came with losses (`frags`), the loss notices to be sent, the message that
a nak names and whether the nak has yet to leave, credits to be returned, announced lane sets, undecoded pairs within the
millisecond from `badTick`, the outstanding reads and writes, and the hello received. `serial` is the serial of the binding's
partner (R332). -/
structure FabGroup where
  state   : BitVec 3
  rxl     : BitVec 4
  txl     : BitVec 4
  bound   : Bool
  cls     : Cls
  score   : ScoreId
  partner : BitVec 12
  serial  : BitVec 64
  role    : Nat
  pend    : Bool
  cred    : Nat
  txSeq   : BitVec 12
  rxSeq   : BitVec 12
  out     : List Msg
  replay  : List Msg
  resend  : List Msg
  heads   : List Msg
  held    : List Msg
  arrived : List Msg
  line    : List LinePair
  txSlot  : BitVec 6
  rxSlot  : BitVec 6
  rx      : List (Option (List Byte))
  frags   : List (List (Option (List Byte)))
  notices : List Msg
  nakOut  : Option (BitVec 12)
  nakDue  : Bool
  owed    : Nat
  newRx   : Option (BitVec 4)
  newTx   : Option (BitVec 4)
  bad     : Nat
  badTick : Nat
  reads   : List Outstanding
  writes  : List Outstanding
  helloOf : Option Hello
deriving DecidableEq, Repr

def FabGroup.reset : FabGroup where
  state := 0
  rxl := 0
  txl := 0
  bound := false
  cls := .assured
  score := 0
  partner := 0
  serial := 0
  role := 0
  pend := false
  cred := 0
  txSeq := 0
  rxSeq := 0
  out := []
  replay := []
  resend := []
  heads := []
  held := []
  arrived := []
  line := []
  txSlot := 0
  rxSlot := 0
  rx := []
  frags := []
  notices := []
  nakOut := none
  nakDue := false
  owed := 0
  newRx := none
  newTx := none
  bad := 0
  badTick := 0
  reads := []
  writes := []
  helloOf := none

/-- A fabric port (10). -/
structure Port where
  fails  : Nat
  groups : Tab FabGroup
deriving DecidableEq, Repr

def Port.reset : Port := ⟨0, []⟩

/-- An entry of the partner table (R329). `other` is the serial of the second node of a duplicate ID, `heard` and
`otherHeard` the ticks of the last announcements of the two (R330). -/
structure Partner where
  present : Bool
  gone    : Bool
  dup     : Bool
  bridge  : Bool
  cand    : Bool
  hops    : Nat
  id      : BitVec 12
  anum    : BitVec 16
  serial  : BitVec 64
  ports   : List (Nat × BitVec 12 × Nat)
  heard   : Nat
  other   : BitVec 64
  otherHeard : Nat
deriving DecidableEq, Repr

def Partner.reset : Partner := ⟨false, false, false, false, false, 7, 0, 0, 0, [], 0, 0, 0⟩

/-- The fabric (10): ports, the partner table by entry, the own announcement's number and contents (port list and reference
state), and the announcements that have been sent on (by port). -/
structure Fabric where
  ports   : Tab Port
  table   : Tab Partner
  anum    : BitVec 16
  lastAnn : List (Nat × BitVec 12 × Nat) × Bool
  nextTag : BitVec 32
  annTick : Nat
  flooded : List (Nat × Announcement)
  leaves  : Nat
deriving DecidableEq, Repr

/-- A packet that has been taken (R352, R356): `no` counts the taken packets, `subj` are the things that it names and
`whole` whether it names the whole module (R362), `tick` when it was taken, `begun` when it was started (for a command
that completes later), `mute` whether its reply is to be discarded (R346). -/
structure Taken where
  no      : Nat
  opcode  : BitVec 16
  plen    : Nat
  tag     : Word
  seq     : BitVec 16
  irq     : Bool
  fence   : Bool
  gap     : Bool
  params  : List Word
  tick    : Nat
  begun   : Option Nat
  subj    : List Nat
  whole   : Bool
  mute    : Bool
deriving DecidableEq, Repr

/-- A completed command's reply, waiting to be written (R358, R361). -/
structure Reply where
  no     : Nat
  tag    : Word
  seq    : BitVec 16
  opcode : BitVec 16
  irq    : Bool
  gap    : Bool
  status : Byte
  detail : BitVec 16
  time   : Word
  vs     : List Word
deriving DecidableEq, Repr

/-- The command path (11): window dwords, the first-packet flag of R357, the tick at which the packet at
CMD_CONS was first partly present (R354), taken commands in stream order, replies in completion order, the
host memory that the module has written, the messages sent per MSI-X vector, and the translation entries that take
effect with a reply (number, address, entry; R198). -/
structure CmdPath where
  window  : Tab (Option Word)
  fresh   : Bool
  partial_ : Option Nat
  taken   : List Taken
  done    : List Reply
  nextNo  : Nat
  ringNew : Bool
  host    : Tab Byte
  sent    : Tab Nat
  msix    : Tab Word
  maps    : List (Nat × Nat × Nat)
deriving DecidableEq, Repr

/-- A clock domain (R381, R384). -/
structure Dom where
  run  : Bool
  pll  : Bool
  src  : BitVec 2
  ramp : Bool
  div  : BitVec 3
  share : Byte
  flt  : Byte
deriving DecidableEq, Repr

def Dom.reset : Dom := ⟨false, false, 0, false, 0, 0, 0⟩

/-- Clocks (12): domains, crossings that are closed (resetting and surviving side), the ticks of the last corrections of
the oscillators, of the start of holdover, and at which the on-module oscillator started; the corrections applied, in
units of their largest step (R392): 0 RC trim, 1 read-back converters, 2 + t the ADC references of tile t. -/
structure Clocks where
  doms   : Tab Dom
  closed : List (Nat × Nat)
  xoTick : Option Nat
  rcTick : Option Nat
  holdTick : Nat
  xoOn   : Option Nat
  corr   : Tab Int
deriving DecidableEq, Repr

/-- A rail (R396, R397). -/
structure Rail where
  on    : Bool
  pg    : Bool
  fails : Byte
  mv    : BitVec 16
deriving DecidableEq, Repr

def Rail.reset : Rail := ⟨false, false, 0, 0⟩

/-- The save list of A2 (R404): registers and unit state as they stood. -/
structure SaveImage where
  regs    : Tab Word
  tiles   : Tab (BitVec 64 × BitVec 64)
  events  : Tab (Tab (BitVec 16))
  loops   : Tab (Tab Loop)
  ncos    : Tab (Tab (Word × Word × Word))
deriving DecidableEq, Repr

/-- A power-state entry in progress (R407, R409): target, the number of its command, the tick at which it times out. -/
structure Entry where
  target : Nat
  no     : Option Nat
  due    : Nat
deriving DecidableEq, Repr

/-- A wake in progress (R412, R413): the state left, retries used, the number of its command, the tick of its start, and the
tick at which its last attempt failed. -/
structure Wake where
  src     : Nat
  retries : Nat
  no      : Option Nat
  start   : Nat
  failed  : Option Nat
deriving DecidableEq, Repr

/-- Power (13): rails, the entry and the wake in progress, the save image and whether its header was found bad, and the step
of R474 that power-up comes to next. -/
structure Power where
  rails  : Tab Rail
  entry  : Option Entry
  wake   : Option Wake
  img    : Option SaveImage
  imgBad : Bool
  step   : Nat
deriving DecidableEq, Repr

/-- Fault records (R452 to R455): the ring, the newest record's sequence number and the last-record store. -/
structure FaultRing where
  ring    : Tab (BitVec 256)
  nextSeq : BitVec 16
  newest  : Option Nat
  last    : Option (BitVec 256)
  marks   : Tab (BitVec 32)
deriving DecidableEq, Repr

/-- Pins and supplies (17), and whether power-up and CLR_TRIM_N force every trim output (R291, R293). -/
structure Pins where
  modReset : Bool
  clrTrim  : Bool
  perst    : Bool
  trip     : Bool
  vbrz     : Bool
  refclk   : Bool
  trimRise : Option Nat
  powForce : Bool
  pinForce : Bool
deriving DecidableEq, Repr

/-- The PCI Express link and the DOE mailbox (R341, R348), the data of the last host read and the status of the last
completion (0 successful, 1 Unsupported Request, 2 Configuration Request Retry Status; R344, R476), the tick at which
PERST_N rose, errors reported through AER (R349), the response of the last sideband read and what ALERT_N has reported (R375
to R377). `heart` is a heartbeat that is missing (R394). -/
structure Link where
  up      : Bool
  flit    : Bool
  width   : BitVec 3
  gen     : BitVec 4
  aer     : Nat
  doe     : List Byte
  read    : List Byte
  cpl     : Nat
  perstTick : Nat
  sb      : List Byte
  pec     : Byte
  regAddr : Word
  nonce   : Word
  alerted : Byte
  heart   : Bool
deriving DecidableEq, Repr

/-- The state of the module. `regs` holds the registers by absolute BAR0 offset (R7); `armed` the pending
values of paired registers (R10); `arb` the rotating pointers of R164; `sensors` the sensors of R419;
`scan` the output within its 32 that a read-back converter dwells on next (R296);
`free` feeds the free values and is the model's own. -/
structure State where
  pending : List Instr
  tick    : Nat
  core    : Nat
  free    : Nat
  regs    : Tab Word
  armed   : Tab (Option Word)
  arb     : Tab Nat
  pins    : Pins
  bays    : Tab Bay
  tiles   : Tab Tile
  stage   : Stage
  gddr    : Gddr
  strm    : Streams
  scores  : Scores
  engines : Tab Engine
  light   : Tab Source
  trims   : Tab TrimOut
  scan    : Tab Nat
  sensors : Tab Sensor
  sec     : Security
  fab     : Fabric
  cmd     : CmdPath
  clk     : Clocks
  pwr     : Power
  faults  : FaultRing
  link    : Link
deriving DecidableEq, Repr

/-- The module just after its power-on reset (R393, R468): VBRZ is good, MOD_RESET_N still low, so that power good
(R473) comes next; straps read 0 (R470), no rail is on. Every table is empty: a unit that is not listed holds its own
reset value. -/
def State.reset : State where
  pending := []
  tick := 0
  core := 0
  free := 0
  regs := []
  armed := []
  arb := []
  pins := ⟨false, true, true, true, true, true, none, true, false⟩
  bays := []
  tiles := []
  stage := ⟨[], [], [], [], []⟩
  gddr := ⟨[], [], [], [], [], [], false⟩
  strm := ⟨0, [], [], []⟩
  scores := ⟨[], [], [], [], [], []⟩
  engines := []
  light := []
  trims := []
  scan := []
  sensors := []
  sec := ⟨[], [], [], none, 0, 0, 0, none, [], none, none⟩
  fab := ⟨[], [], 0, ([], false), 0, 0, [], 0⟩
  cmd := ⟨[], true, none, [], [], 0, false, [], [], [], []⟩
  clk := ⟨[], [], none, none, 0, none, []⟩
  pwr := ⟨[], none, none, none, false, 0⟩
  faults := ⟨[], 0, none, none, []⟩
  link := ⟨false, false, 0, 0, 0, [], [], 0, 0, [], 0, 0, 0, 0, false⟩

end Machine
end Sys2Proof
end

