-- ==== Sys2Proof/Machine/Ops.lean ====
section
/-! DEFINITION. The named operations on the state that every family uses: units by number, register fields,
interrupts, marks, fault records, bay states, event counters and promises, memory blocks. -/

namespace Sys2Proof.Machine

/-! ### Plain data -/

/-- The bits `hi` down to `lo` of a number. -/
def bits (n hi lo : Nat) : Nat := n / 2 ^ lo % 2 ^ (hi - lo + 1)

/-- Two's complement value of an `n`-bit field. -/
def signed (n v : Nat) : Int := if v % 2 ^ n < 2 ^ (n - 1) then (v % 2 ^ n : Nat) else (v % 2 ^ n : Nat) - (2 : Int) ^ n

/-- The `n`-bit two's complement encoding of an integer. -/
def unsigned (n : Nat) (v : Int) : Nat := (v % (2 : Int) ^ n).toNat

/-- A word with a number put into its bits `hi` down to `lo`. -/
def putBits (w : Word) (hi lo v : Nat) : Word :=
  BitVec.ofNat 32 (w.toNat % 2 ^ lo + v % 2 ^ (hi - lo + 1) * 2 ^ lo + w.toNat / 2 ^ (hi + 1) * 2 ^ (hi + 1))

/-- The `n` bytes of a number, least significant first (R487). -/
def leBytes : Nat → Nat → List Byte
  | 0, _ => []
  | n + 1, v => BitVec.ofNat 8 v :: leBytes n (v / 256)

/-- The number that bytes spell, least significant first (R487). -/
def leNat : List Byte → Nat
  | [] => 0
  | b :: r => b.toNat + 256 * leNat r

/-- The dwords of a byte string, least significant byte first (R487). -/
def leDword (bs : List Byte) (i : Nat) : Nat := leNat ((bs.drop (4 * i)).take 4)

/-- Clamp of an integer to a range. -/
def clampI (v lo hi : Int) : Int := if v < lo then lo else if hi < v then hi else v

/-- Pads bytes to a length. -/
def padTo (n : Nat) (pad : Byte) (l : List Byte) : List Byte := (l ++ List.replicate (n - l.length) pad).take n

/-- A list in pieces of `n`, as many as `k`. -/
def chunks {α : Type} (n : Nat) : Nat → List α → List (List α)
  | 0, _ => []
  | k + 1, l => l.take n :: chunks n k (l.drop n)

/-- Whether a number stands in a mask. -/
def inMask (m i : Nat) : Bool := m / 2 ^ i % 2 == 1

/-- The numbers below `n` that a mask holds, in rising order. -/
def maskList (n m : Nat) : List Nat := (List.range n).filter (inMask m)

/-! ### Units by number -/

def dBay : Nat → Bay := fun _ => Bay.reset
def dTile : Nat → Tile := fun _ => Tile.reset
def dStrand : Nat → Strand := fun _ => Strand.reset
def dEngine : Nat → Engine := fun _ => Engine.reset
def dSource : Nat → Source := fun _ => Source.reset
def dComb : Nat → Comb := fun _ => Comb.reset
def dLine : Nat → Line := fun _ => Line.reset
def dTrim : Nat → TrimOut := fun _ => TrimOut.reset
def dSensor : Nat → Sensor := fun _ => Sensor.reset
def dScore : Nat → Score := fun _ => Score.reset
def dQueue : Nat → Queue := fun _ => Queue.reset
def dBuf : Nat → SBuf := fun _ => SBuf.reset
def dRWin : Nat → RWin := fun _ => RWin.reset
def dDom : Nat → Dom := fun _ => Dom.reset
def dRail : Nat → Rail := fun _ => Rail.reset
def dPort : Nat → Port := fun _ => Port.reset
def dGroup : Nat → FabGroup := fun _ => FabGroup.reset
def dPartner : Nat → Partner := fun _ => Partner.reset
def dPromise : Nat → Promise := fun _ => Promise.reset
def dBatch : Nat → Batch := fun _ => Batch.reset
def dJob : Nat → Job := fun _ => Job.reset
def dFwSlot : Nat → FwSlot := fun _ => FwSlot.reset
/-- A table whose unlisted entries hold zero. -/
def dZero {α : Type} [OfNat α 0] : Nat → α := fun _ => 0
def dMark : Nat → Mark := fun _ => none
def dNil {α : Type} : Nat → List α := fun _ => []
def dFalse : Nat → Bool := fun _ => false
def dNone {α : Type} : Nat → Option α := fun _ => none
/-- Every slot of banks 46 and 47 belongs to firmware, but for read slot 14 (R182, R207). -/
def dOwner : Nat → BitVec 4 := fun k => if 46 * 16 ≤ k ∧ k < 48 * 16 then (if k % 16 = 14 then 5 else 6) else 0
/-- The loops of LE0 to LE7 numbered 0 to 63 are the zone loops (R235). -/
def dLoop (e : Nat) : Nat → Loop := fun l => if e < 8 ∧ l < 64 then Loop.zoneReset else Loop.reset
def dRowMeas : Nat → RowMeas := fun _ => RowMeas.zero
def dGroupWord : Nat → GroupWord := fun _ => GroupWord.cleared
def dRounds : Nat → Rounds := fun _ => Rounds.reset
def dHdr : Nat → RowHdr := fun _ => ⟨0, 0⟩
def dNco : Nat → Word × Word × Word := fun _ => (0, 0, 0)

def State.bay (s : State) (b : Nat) : Bay := Tab.get dBay s.bays b
def State.setBay (s : State) (b : Nat) (v : Bay) : State := { s with bays := Tab.set dBay s.bays b v }
def State.modBay (s : State) (b : Nat) (f : Bay → Bay) : State := s.setBay b (f (s.bay b))

def State.tile (s : State) (t : Nat) : Tile := Tab.get dTile s.tiles t
def State.setTile (s : State) (t : Nat) (v : Tile) : State := { s with tiles := Tab.set dTile s.tiles t v }
def State.modTile (s : State) (t : Nat) (f : Tile → Tile) : State := s.setTile t (f (s.tile t))

def Bay.strand (b : Bay) (j : Nat) : Strand := Tab.get dStrand b.strands j
def Bay.setStrand (b : Bay) (j : Nat) (v : Strand) : Bay := { b with strands := Tab.set dStrand b.strands j v }

def State.strand (s : State) (b j : Nat) : Strand := (s.bay b).strand j
def State.setStrand (s : State) (b j : Nat) (v : Strand) : State := s.modBay b fun y => y.setStrand j v

def State.engine (s : State) (e : Nat) : Engine := Tab.get dEngine s.engines e
def State.setEngine (s : State) (e : Nat) (v : Engine) : State := { s with engines := Tab.set dEngine s.engines e v }
def State.loopOf (s : State) (e l : Nat) : Loop := Tab.get (dLoop e) (s.engine e).loops l
def State.setLoop (s : State) (e l : Nat) (v : Loop) : State :=
  s.setEngine e { s.engine e with loops := Tab.set (dLoop e) (s.engine e).loops l v }

def State.source (s : State) (i : Nat) : Source := Tab.get dSource s.light i
def State.setSource (s : State) (i : Nat) (v : Source) : State := { s with light := Tab.set dSource s.light i v }
def State.comb (s : State) (i c : Nat) : Comb := Tab.get dComb (s.source i).combs c
def State.setComb (s : State) (i c : Nat) (v : Comb) : State :=
  s.setSource i { s.source i with combs := Tab.set dComb (s.source i).combs c v }
/-- Line `n` of comb `c`. -/
def State.line (s : State) (i c n : Nat) : Line := Tab.get dLine (s.source i).lines (32 * c + n)
def State.setLine (s : State) (i c n : Nat) (v : Line) : State :=
  s.setSource i { s.source i with lines := Tab.set dLine (s.source i).lines (32 * c + n) v }

def State.trimOut (s : State) (o : Nat) : TrimOut := Tab.get dTrim s.trims o
def State.setTrimOut (s : State) (o : Nat) (v : TrimOut) : State := { s with trims := Tab.set dTrim s.trims o v }
def State.sensor (s : State) (n : Nat) : Sensor := Tab.get dSensor s.sensors n
def State.setSensor (s : State) (n : Nat) (v : Sensor) : State := { s with sensors := Tab.set dSensor s.sensors n v }

def State.score (s : State) (i : ScoreId) : Score := Tab.get dScore s.scores.scores i.toNat
def State.setScore (s : State) (i : ScoreId) (v : Score) : State :=
  { s with scores := { s.scores with scores := Tab.set dScore s.scores.scores i.toNat v } }
def State.queue (s : State) (q : Nat) : Queue := Tab.get dQueue s.strm.queues q
def State.setQueue (s : State) (q : Nat) (v : Queue) : State :=
  { s with strm := { s.strm with queues := Tab.set dQueue s.strm.queues q v } }
def State.sbuf (s : State) (n : Nat) : SBuf := Tab.get dBuf s.strm.bufs n
def State.setSbuf (s : State) (n : Nat) (v : SBuf) : State :=
  { s with strm := { s.strm with bufs := Tab.set dBuf s.strm.bufs n v } }
def State.rwin (s : State) (w : Nat) : RWin := Tab.get dRWin s.strm.wins w
def State.setRwin (s : State) (w : Nat) (v : RWin) : State :=
  { s with strm := { s.strm with wins := Tab.set dRWin s.strm.wins w v } }
def State.dom (s : State) (d : Nat) : Dom := Tab.get dDom s.clk.doms d
def State.setDom (s : State) (d : Nat) (v : Dom) : State :=
  { s with clk := { s.clk with doms := Tab.set dDom s.clk.doms d v } }
def State.rail (s : State) (r : Nat) : Rail := Tab.get dRail s.pwr.rails r
def State.setRail (s : State) (r : Nat) (v : Rail) : State :=
  { s with pwr := { s.pwr with rails := Tab.set dRail s.pwr.rails r v } }
def State.port (s : State) (p : Nat) : Port := Tab.get dPort s.fab.ports p
def State.setPort (s : State) (p : Nat) (v : Port) : State :=
  { s with fab := { s.fab with ports := Tab.set dPort s.fab.ports p v } }
def State.group (s : State) (p g : Nat) : FabGroup := Tab.get dGroup (s.port p).groups g
def State.setGroup (s : State) (p g : Nat) (v : FabGroup) : State :=
  s.setPort p { s.port p with groups := Tab.set dGroup (s.port p).groups g v }
def State.partner (s : State) (n : Nat) : Partner := Tab.get dPartner s.fab.table n
def State.setPartner (s : State) (n : Nat) (v : Partner) : State :=
  { s with fab := { s.fab with table := Tab.set dPartner s.fab.table n v } }

/-! ### Registers and fields -/

def State.reg (s : State) (off : Nat) : Word := Tab.get regReset s.regs off
def State.setReg (s : State) (off : Nat) (v : Word) : State := { s with regs := Tab.set regReset s.regs off v }

/-- The value of a register's field. -/
def State.fld (s : State) (f : Fld) : Nat := bits (s.reg f.off).toNat f.hi f.lo
/-- Sets a field and leaves the register's other bits. -/
def State.setFld (s : State) (f : Fld) (v : Nat) : State := s.setReg f.off (putBits (s.reg f.off) f.hi f.lo v)
def State.flag (s : State) (f : Fld) : Bool := s.fld f != 0
def State.setFlag (s : State) (f : Fld) (b : Bool) : State := s.setFld f b.toNat
/-- Sets or clears bit `i` of a field that holds one bit per unit. -/
def State.setBitOf (s : State) (f : Fld) (i : Nat) (b : Bool) : State :=
  s.setFld f (s.fld f - (if inMask (s.fld f) i then 2 ^ i else 0) + (if b then 2 ^ i else 0))
def State.bitOf (s : State) (f : Fld) (i : Nat) : Bool := inMask (s.fld f) i
/-- A saturating count: the manual's counters stop at all ones. -/
def State.bump (s : State) (f : Fld) (n : Nat := 1) : State :=
  s.setFld f (min (s.fld f + n) (2 ^ (f.hi - f.lo + 1) - 1))
/-- A wrapping count. -/
def State.wrapInc (s : State) (f : Fld) (n : Nat := 1) : State := s.setFld f (s.fld f + n)
/-- A field holds a number only up to all ones (the manual's saturating fields). -/
def State.setSat (s : State) (f : Fld) (v : Nat) : State := s.setFld f (min v (2 ^ (f.hi - f.lo + 1) - 1))

/-- Time since reset in ns: sample ticks of 1 µs and CORE cycles of 0.5 ns (R158, R236). -/
def State.nowNs (s : State) : Nat := 1000 * s.tick + s.core / 2
/-- CORE cycles since the last reset (R158). -/
def State.coreCycles (s : State) : Nat := 2000 * s.tick + s.core

/-- A free value: the count advances, so that no two are the same draw (log 2). -/
def State.draw (s : State) (n : Nat := 1) : State := { s with free := s.free + n }

/-! ### Interrupts (R347) -/

/-- MSI-X table and pending bits, by offset in the CMD block; a vector's mask is bit 0 of its fourth dword and
is set after reset (18, log 6). -/
def dMsix : Nat → Word := fun o => if 0x8000 ≤ o ∧ o < 0x8400 ∧ o % 16 = 12 then 1 else 0

def State.masked (s : State) (v : Nat) : Bool := (Tab.get dMsix s.cmd.msix (0x8000 + 16 * v + 12)).getLsbD 0

/-- Sends an MSI-X vector, or sets its pending bit while it is masked (R347). -/
def State.sendMsix (s : State) (v : Nat) : State :=
  if s.masked v then
    let o := 0x9000 + 4 * (v / 32)
    let m := Tab.set dMsix s.cmd.msix o (Tab.get dMsix s.cmd.msix o ||| BitVec.ofNat 32 (2 ^ (v % 32)))
    { s with cmd := { s.cmd with msix := m } }
  else
    { s with cmd := { s.cmd with sent := Tab.set dZero s.cmd.sent v (Tab.get dZero s.cmd.sent v + 1) } }

/-! ### Marks (R446 to R451) -/

def State.markCount (s : State) (r : Nat) : Word := Tab.get dZero s.faults.marks r

/-- Counts `n` marks originated with reason `r`, saturating (R451). -/
def State.countMark (s : State) (r : Nat) (n : Nat := 1) : State :=
  let m := Tab.set dZero s.faults.marks r (BitVec.ofNat 32 (min ((s.markCount r).toNat + n) (2 ^ 32 - 1)))
  { s with faults := { s.faults with marks := m } }

/-- The lower-numbered of two marks (R448). -/
def Mark.lower : Mark → Mark → Mark
  | none, m => m
  | m, none => m
  | some a, some b => if b < a then some b else some a

/-- The first mark set stays (R106, R114). -/
def Mark.first : Mark → Mark → Mark
  | none, m => m
  | some a, _ => some a

/-! ### Fault records (R452 to R456) -/

/-- The contents of a fault record. -/
structure FaultRec where
  cls   : Nat
  code  : Nat
  act   : Nat := 0
  score : ScoreId := 0
  unit  : Nat := 0
  arg0  : Nat := 0
  arg1  : Nat := 0
  arg2  : Nat := 0

/-- The value half of a record (R452). -/
def FaultRec.encode (f : FaultRec) (seq : BitVec 16) (rep time : Nat) : BitVec 256 :=
  BitVec.ofNat 256 (seq.toNat * 2 ^ 240 + f.cls % 16 * 2 ^ 236 + f.code % 256 * 2 ^ 228 + rep % 256 * 2 ^ 220
    + f.act % 16 * 2 ^ 216 + f.score.toNat * 2 ^ 200 + f.unit % 65536 * 2 ^ 184 + time % 2 ^ 32 * 2 ^ 152
    + f.arg0 % 2 ^ 32 * 2 ^ 120 + f.arg1 % 2 ^ 32 * 2 ^ 88 + f.arg2 % 2 ^ 32 * 2 ^ 56)

def State.ringRec (s : State) (i : Nat) : BitVec 256 := Tab.get dZero s.faults.ring i

/-- The ring has no room: wr + 1 equals rd modulo 256 (GLB_FLT_PTR). -/
def State.ringFull (s : State) : Bool := (s.fld GLB_FLT_PTR.wr + 1) % 256 == s.fld GLB_FLT_PTR.rd

/-- Whether a fault repeats the newest record of the ring: same class, code, unit and score, within 1 ms, and
software has not read past it (R454). -/
def State.coalesces (s : State) (f : FaultRec) (i : Nat) : Bool :=
  let r := (s.ringRec i).toNat
  bits r 239 236 == f.cls % 16 && bits r 235 228 == f.code % 256 && bits r 199 184 == f.unit % 65536
    && bits r 215 200 == f.score.toNat && s.tick % 2 ^ 32 - bits r 183 152 ≤ 1000
    && bits r 183 152 ≤ s.tick % 2 ^ 32 && s.fld GLB_FLT_PTR.rd != s.fld GLB_FLT_PTR.wr

/-- A record with its repeat count raised by one, saturating at 255 (R452, R454). -/
def bumpRep (r : BitVec 256) : BitVec 256 :=
  if bits r.toNat 227 220 = 255 then r else BitVec.ofNat 256 (r.toNat + 2 ^ 220)

/-- An occurrence that R454 coalesces: rep of the newest record rises, in the ring and in the last-record
store when that holds the same record (R455). -/
def State.coalesce (s : State) (i : Nat) : State :=
  let r := s.ringRec i
  let last := match s.faults.last with
    | some l => if bits l.toNat 255 240 = bits r.toNat 255 240 then some (bumpRep r) else some l
    | none => none
  { s with faults := { s.faults with ring := Tab.set dZero s.faults.ring i (bumpRep r), last := last } }

/-- A new record: numbered, stored if the ring has room, copied to the last-record store, vector 2 sent
(R452, R455). -/
def State.newRecord (s : State) (f : FaultRec) : State :=
  let r := f.encode s.faults.nextSeq 0 s.tick
  let wr := s.fld GLB_FLT_PTR.wr
  let s1 : State := { s with faults := { s.faults with nextSeq := s.faults.nextSeq + 1, last := some r } }
  let s2 := if s.ringFull then (s1.setFlag GLB_FLT_PTR.ovf true).bump GLB_FLT_PTR.lost
    else
      let ring := Tab.set dZero s1.faults.ring wr r
      let s' : State := { s1 with faults := { s1.faults with ring := ring, newest := some wr } }
      s'.setFld GLB_FLT_PTR.wr ((wr + 1) % 256)
  s2.sendMsix 2

/-- Raises a fault (R452, R454, R455). -/
def State.raise (s : State) (f : FaultRec) : State :=
  match s.faults.newest with
  | some i => if s.coalesces f i then s.coalesce i else s.newRecord f
  | none => s.newRecord f

/-! ### Bays (R41 to R44) -/

/-- The four-bit field of a bay in GLB_BAY_STATE. -/
def bayFld (b : Nat) : Fld := ⟨0x10, 4 * b + 3, 4 * b⟩
def State.bayField (s : State) (b : Nat) : Nat := s.fld (bayFld b)
/-- The state code of a bay: 0 offline, 1 free, 2 bound, 3 running, 4 rebinding, 5 debug, 6 withdrawn (R42). -/
def State.bayState (s : State) (b : Nat) : Nat := s.bayField b % 8
def State.degraded (s : State) (b : Nat) : Bool := 8 ≤ s.bayField b

/-- Sets the field of a bay; a change sends vector 5 (R42, R347). -/
def State.setBayField (s : State) (b v : Nat) : State :=
  if s.bayField b = v % 16 then s else (s.setFld (bayFld b) v).sendMsix 5
def State.setBayState (s : State) (b v : Nat) : State :=
  s.setBayField b (v % 8 + if s.degraded b then 8 else 0)
def State.setDegraded (s : State) (b : Nat) (d : Bool) : State :=
  s.setBayField b (s.bayState b + if d then 8 else 0)

/-- The score that holds a bay (GLB_BAY_OWNER). -/
def State.bayScore (s : State) (b : Nat) : ScoreId := BitVec.ofNat 16 (s.fld (GLB_BAY_OWNER.score.nth b))
def State.setBayScore (s : State) (b : Nat) (i : ScoreId) : State := s.setFld (GLB_BAY_OWNER.score.nth b) i.toNat

def Bay.run (y : Bay) : Cls → Option SeqRun
  | .assured => y.assured
  | .spare => y.spare
def Bay.setRun (y : Bay) (c : Cls) (r : Option SeqRun) : Bay :=
  match c with
  | .assured => { y with assured := r }
  | .spare => { y with spare := r }
/-- The running sequence that a strand belongs to. -/
def Bay.seqOf (y : Bay) (j : Nat) : Option SeqRun := y.run (y.strand j).cls
def Bay.anyRun (y : Bay) : Bool := y.assured.isSome || y.spare.isSome
/-- Whether a bay is paused (R262, R295, R387). -/
def Bay.paused (y : Bay) : Bool := y.pauseFollow || y.pauseTrim || y.pauseClock

/-! ### Promises (R218, R232, R233) -/

def Score.promise (c : Score) (n : Nat) : Promise := Tab.get dPromise c.promises n
def Score.setPromise (c : Score) (n : Nat) (p : Promise) : Score :=
  { c with promises := Tab.set dPromise c.promises n p }
/-- The timing claims of assured sequences of a score, by number. -/
def Score.claims (c : Score) : List (Nat × TimingClaim) :=
  match c.pkg with
  | some p => (p.timing.zipIdx.map fun x => (x.2, x.1)).filter fun x =>
      match p.seqs[x.2.seq]? with
      | some q => q.cls == .assured
      | none => false
  | none => []

/-- A change of promise state with its cause row: recorded, and vector 3 sent (R233, R347). -/
def State.setPromiseState (s : State) (i : ScoreId) (n : Nat) (st : BitVec 2) (cause : Nat) : State :=
  let c := s.score i
  let p := c.promise n
  if p.state = st then s
  else
    let s1 := s.setScore i (c.setPromise n { p with state := st, cause := BitVec.ofNat 8 cause })
    (s1.raise { cls := 9, code := st.toNat, score := i, unit := n, arg0 := cause, arg1 := p.worst }).sendMsix 3

/-- An event of the events table that puts a kept promise at risk (R232). -/
def State.promiseRisk (s : State) (i : ScoreId) (n cause : Nat) : State :=
  if ((s.score i).promise n).state = 1 then s.setPromiseState i n 2 cause else s
/-- A broken promise stays broken until a start (R232). -/
def State.promiseBreak (s : State) (i : ScoreId) (n cause : Nat) : State :=
  if ((s.score i).promise n).state = 0 then s else s.setPromiseState i n 3 cause

/-- The bay that the sequence of a claim runs on, if it runs. -/
def State.claimBays (s : State) (i : ScoreId) (c : TimingClaim) : List Nat :=
  (List.range 8).filter fun b =>
    (match (s.bay b).assured with | some r => r.score == i && r.index == c.seq | none => false)

/-- Acts on the claims of a sequence of a score, in rising order. -/
def State.scoreFold (s : State) (i : ScoreId) (q : Nat) (f : State → Nat → TimingClaim → State) : State :=
  (s.score i).claims.foldl (fun s x => if x.2.seq = q then f s x.1 x.2 else s) s

/-- The promise of a claim with its open triggers changed. -/
def State.modTriggers (s : State) (i : ScoreId) (n : Nat) (f : OpenTrigger → OpenTrigger) : State :=
  let p := (s.score i).promise n
  s.setScore i ((s.score i).setPromise n { p with since := p.since.map f })

/-- Notes that an event of row `cause` has happened within the open triggers of a claim (R233). -/
def State.noteClaim (s : State) (i : ScoreId) (n cause : Nat) : State :=
  s.modTriggers i n fun x => if x.causes.contains cause then x else { x with causes := cause :: x.causes }

/-- An event of a bay within the triggers of the claims of its assured sequence. -/
def State.noteCause (s : State) (b cause : Nat) : State :=
  match (s.bay b).assured with
  | none => s
  | some r => s.scoreFold r.score r.index fun s n _ => s.noteClaim r.score n cause

/-- A replay, or a fabric retry, within the open triggers of a claim; more than `allowed` of them within one trigger put
its promise at risk (R232). -/
def State.noteUse (s : State) (i : ScoreId) (n allowed : Nat) (replay : Bool) : State :=
  let s1 := s.modTriggers i n fun x =>
    if replay then { x with replays := x.replays + 1 } else { x with retries := x.retries + 1 }
  if ((s1.score i).promise n).since.any fun x => allowed < (if replay then x.replays else x.retries) then
    s1.promiseRisk i n (if replay then 4 else 5)
  else s1

/-- A trigger of claim `n`, which stays open to its completion. -/
def State.claimTrigger (s : State) (i : ScoreId) (n : Nat) : State :=
  let p := (s.score i).promise n
  s.setScore i ((s.score i).setPromise n { p with since := p.since ++ [⟨s.nowNs, 0, 0, []⟩] })

/-- The first cause of a miss in the order of the events' table, 0 for none (R233). -/
def OpenTrigger.cause (x : OpenTrigger) : Nat :=
  match x.causes with
  | [] => 0
  | c :: r => r.foldl min c

/-- A completion of claim `n`: the latency since the oldest open trigger; above L it is a miss (R232, R233). -/
def State.claimComplete (s : State) (i : ScoreId) (n : Nat) : State :=
  let p := (s.score i).promise n
  match p.since with
  | [] => s
  | x :: rest =>
    let lat := s.nowNs - x.at_
    let miss := p.bound < lat
    let p' := { p with since := rest, worst := max p.worst (min lat (2 ^ 32 - 1))
                       misses := if miss then min (p.misses + 1) 65535 else p.misses }
    let s1 := s.setScore i ((s.score i).setPromise n p')
    if miss then s1.promiseBreak i n x.cause else s1

/-! ### Event counters (R152, R165, R368) -/

def Score.counter (c : Score) (ev : Nat) : BitVec 16 := Tab.get dZero c.counters (ev - 256)

/-- The value of a counter as a strand of a bay names it. -/
def State.counter (s : State) (b ev : Nat) : Nat :=
  if ev < 256 then (Tab.get dZero (s.bay b).events ev).toNat
  else ((s.score (s.bayScore b)).counter ev).toNat

def State.setCounter (s : State) (b : Nat) (i : ScoreId) (ev v : Nat) : State :=
  if ev < 256 then s.modBay b fun y => { y with events := Tab.set dZero y.events ev (BitVec.ofNat 16 v) }
  else s.setScore i { s.score i with counters := Tab.set dZero (s.score i).counters (ev - 256) (BitVec.ofNat 16 v) }

/-- The completions and triggers of timing claims that an addition to a counter makes (R218, R232). -/
def State.claimsOf (s : State) (b : Nat) (i : ScoreId) (ev : Nat) : State :=
  (s.score i).claims.foldl (fun s x =>
    let here := 256 ≤ ev || (s.claimBays i x.2).contains b
    let s1 := if x.2.completion = ev && here then s.claimComplete i x.1 else s
    if x.2.trigger = .event ev && here then s1.claimTrigger i x.1 else s1) s

/-- Adds to a counter, with the saturation and the fault of R152, the vector of R368 and the timing claims of
R232. `unit` and `pc` name the strand that signals. -/
def State.signal (s : State) (b : Nat) (i : ScoreId) (ev inc unit pc : Nat) : State :=
  let old := if ev < 256 then (Tab.get dZero (s.bay b).events ev).toNat else ((s.score i).counter ev).toNat
  let s1 := s.setCounter b i ev (min (old + inc) 65535)
  let s2 := if 65535 < old + inc then
      s1.raise { cls := 1, code := 16, score := i, unit := unit, arg0 := pc, arg1 := ev } else s1
  let v := Tab.get dZero (s2.score i).notify (ev - 256)
  let s3 := if 256 ≤ ev ∧ v ≠ 0 then s2.sendMsix v.toNat else s2
  s3.claimsOf b i ev

/-! ### Issued work and its completion (R138) -/

def Bay.job (y : Bay) (n : Nat) : Job := Tab.get dJob y.jobs n
def State.dropJob (s : State) (b n : Nat) : State :=
  s.modBay b fun y => { y with jobs := Tab.set dJob y.jobs n Job.reset }

/-- One tile, or the transfer, has completed its part of an instruction; the last part signals the event. -/
def State.jobDone (s : State) (b n : Nat) : State :=
  let j := (s.bay b).job n
  if j.left = 0 then s
  else if j.left = 1 then
    let s1 := s.dropJob b n
    match j.ev with
    | some ev => s1.signal b (s.bayScore b) ev.toNat 1 (64 * b + j.strand) j.pc
    | none => s1
  else s.modBay b fun y => { y with jobs := Tab.set dJob y.jobs n { j with left := j.left - 1 } }

/-- A job of an issued instruction with `left` parts, and its number; number 0 is no job. -/
def State.newJob (s : State) (b left : Nat) (ev : Option (BitVec 9)) (j pc : Nat) (c : Cls) : Nat × State :=
  let n := (s.bay b).nextJob + 1
  (n, s.modBay b fun y => { y with nextJob := n, jobs := Tab.set dJob y.jobs n ⟨left, ev, j, pc, c⟩ })

/-! ### Strand faults (R172, R173) -/

def StrandState.stopped : StrandState → Bool
  | .unused | .idle | .faulted => true
  | _ => false

/-! ### Finished combined groups (R94, R114) -/

def Role.chained (r : Role) : Bool := match r with | .none => false | _ => true
def Group.done (g : Group) : Bool := g.closed && g.delivered == g.issued && g.issued != 0
/-- The update that a closed group without a chain forms. -/
def Group.update (g : Group) : Update :=
  ⟨g.gid, g.stamp, g.entry, false, g.p, g.e, g.marks, List.replicate 32 false, g.jobs, g.gen, g.inst⟩

/-- Takes the finished groups out of the combiner: updates, and in issue order the chain's own groups (R94,
R114). -/
def formGroups : List Group → Bool → List Group × List Update × List Group
  | [], _ => ([], [], [])
  | g :: r, held =>
    let chain := g.role.chained
    if g.done && !(chain && held) then
      let q := formGroups r held
      if chain then (q.1, q.2.1, g :: q.2.2) else (q.1, g.update :: q.2.1, q.2.2)
    else
      let q := formGroups r (held || chain)
      (g :: q.1, q.2.1, q.2.2)

def Tile.form (x : Tile) : Tile :=
  let q := formGroups x.groups false
  { x with groups := q.1, updQ := x.updQ ++ q.2.1, ownQ := x.ownQ ++ q.2.2 }

/-! ### What a stopped sequence leaves at its tiles (R172) -/

def WinEntry.job? : WinEntry → Option Nat
  | .win _ job .. => some job
  | .psw _ job => some job
  | _ => none

/-- A requested swap of TILE_PLANE_CTL belongs to no sequence (R65). -/
def WinEntry.requested : WinEntry → Bool
  | .psw _ job => job == 0
  | _ => false

/-- A tile's queues after its sequence has faulted: window entries that have not begun, the rest of a WIN in
progress, and loads that have not started their DAC writes are discarded; drains stay (R172). -/
def Tile.discard (t : Tile) : Tile :=
  Tile.form { t with
    winQ := t.winQ.filter WinEntry.requested, groups := t.groups.map fun g => { g with closed := true }
    loadQ := t.loadQ.filter (fun l => l.phase == 2 || l.job == 0)
    buf0 := if t.loadQ.any (fun l => l.phase == 1 && l.buf == 0) then ImgBuf.reset else t.buf0
    buf1 := if t.loadQ.any (fun l => l.phase == 1 && l.buf == 1) then ImgBuf.reset else t.buf1 }

/-- The jobs whose work a tile discards. A window entry whose windows are all issued is no longer queued. -/
def Tile.discarded (t : Tile) : List Nat :=
  t.winQ.filterMap WinEntry.job? ++ (t.loadQ.filter (fun l => l.phase != 2)).map (·.job)

/-- Stops a sequence of a bay as on a strand fault: every other strand of it records code 15, one that is idle too (R147,
R172), its queued work at the tiles is discarded and signals no event, and the combined groups that are open close
behind their last window (R114). -/
def State.stopSeq (s : State) (b : Nat) (c : Cls) : State :=
  match (s.bay b).run c with
  | none => s
  | some r =>
    let s1 := s.modBay b fun y => (r.strands.foldl (fun y j =>
      if (y.strand j).state == .faulted then y
      else y.setStrand j { y.strand j with state := .faulted, fault := 15, waitFrom := none }) y).setRun c
        (some { r with faulted := true })
    (maskList 4 r.tiles.toNat).foldl (fun s k =>
      let t := 4 * b + k
      let s2 := (s.tile t).discarded.foldl (fun s n => s.dropJob b n) s
      s2.modTile t Tile.discard) s1

/-- A fault of strand `j` with code `code` at address `pc`: its record, BAY_FAULT and the flag of its class, and
the stop of its sequence (R172, R173, R452). -/
def State.strandFault (s : State) (b j code pc : Nat) : State :=
  let c := (s.strand b j).cls
  let s1 := s.stopSeq b c
  let s2 := s1.setStrand b j { s1.strand b j with state := .faulted, fault := BitVec.ofNat 4 code, waitFrom := none }
  let s3 := s2.setFlag ((if c = .assured then BAY_SEQ_STAT.a_flt else BAY_SEQ_STAT.s_flt).on b) true
  let s4 := (((s3.setFlag (BAY_FAULT.valid.on b) true).setFld (BAY_FAULT.strand.on b) j).setFld
    (BAY_FAULT.code.on b) code).setFld (BAY_FAULT.pc.on b) pc
  s4.raise { cls := 1, code := code, act := 3, score := s.bayScore b, unit := 64 * b + j, arg0 := pc }

/-- Withdrawal and the module-wide stops act on both sequences of a bay as on a strand fault (R172). -/
def State.stopBay (s : State) (b : Nat) : State := (s.stopSeq b .assured).stopSeq b .spare

/-- The promises of every claim of a bay's assured sequence break (R232). -/
def State.breakBayPromises (s : State) (b cause : Nat) : State :=
  match (s.bay b).assured with
  | none => s
  | some r => s.scoreFold r.score r.index fun s n _ => s.promiseBreak r.score n cause

/-- The resource that a role of a kind is bound to. Kinds are those of BIND: 0 bay, 1 Pewter range, 2 wavelength
group numbered 4 · port + group, 3 remote window (R366). -/
def Score.roleRes (c : Score) (kind role : Nat) : Option Nat :=
  (c.bound.find? fun y => y.1 == kind && y.2.1 == role).map (·.2.2)

/-! ### Stage memory (R175, R179) -/

def State.stageByte (s : State) (a : Nat) : Byte := Tab.get dZero s.stage.bytes a
def State.stageFlip (s : State) (a : Nat) : Byte := Tab.get dZero s.stage.flips a
/-- The mark of the block that an address lies in. -/
def State.stageMark (s : State) (a : Nat) : Mark := Tab.get dMark s.stage.marks (a / 64)

/-- Set bits of a byte. -/
def popByte (b : Byte) : Nat := (List.range 8).foldl (fun n i => n + (b.getLsbD i).toNat) 0
/-- Bits flipped in the 64-bit word at `a` and in its code. -/
def State.wordFlips (s : State) (a : Nat) : Nat :=
  (List.range 8).foldl (fun n i => n + popByte (s.stageFlip (a + i))) (popByte (Tab.get dZero s.stage.chk (a / 8)))

/-- Uncorrectable: some 64-bit word of the block has more than one bit flipped (R179). -/
def State.blockBad (s : State) (a : Nat) : Bool := (List.range 8).any fun i => 2 ≤ s.wordFlips (a + 8 * i)
def State.blockCorr (s : State) (a : Nat) : Nat :=
  ((List.range 8).filter fun i => s.wordFlips (a + 8 * i) == 1).length

/-- What a read of the block at `a` delivers (R179): corrected, or with its bits as stored and marked. -/
def State.blockAt (s : State) (a : Nat) : Block :=
  if s.blockBad a then
    ⟨(List.range 64).map fun i => s.stageByte (a + i) ^^^ s.stageFlip (a + i), Mark.first (s.stageMark a) (some 9)⟩
  else ⟨(List.range 64).map fun i => s.stageByte (a + i), s.stageMark a⟩

/-- What a read of a block counts (R179, R451). -/
def State.countRead (s : State) (a : Nat) : State :=
  if s.blockBad a then
    let s1 := s.bump MEM_ECC.uncorr
    if s.stageMark a = none then s1.countMark 9 else s1
  else if s.blockCorr a = 0 then s
  else s.bump MEM_ECC.corr (s.blockCorr a)

def State.readBlock (s : State) (a : Nat) : Block × State := (s.blockAt a, s.countRead a)

/-- Counts the reads of every block of a range; only blocks with an error count. -/
def State.countReads (s : State) (a n : Nat) : State :=
  let wrong : List Nat := s.stage.flips.map (·.1 / 64) ++ s.stage.chk.map (·.1 / 8)
  (wrong.eraseDups.filter fun k => a ≤ 64 * k && 64 * k < a + n).foldl (fun s k => s.countRead (64 * k)) s

/-- Writes bytes from address `a`; the code of each written byte's word is made anew. -/
def State.writeBytes (s : State) (a : Nat) : List Byte → State
  | [] => s
  | x :: r =>
    let bytes := Tab.set dZero s.stage.bytes a x
    let flips := Tab.set dZero s.stage.flips a 0
    let chk := Tab.set dZero s.stage.chk (a / 8) 0
    State.writeBytes { s with stage := { s.stage with bytes := bytes, flips := flips, chk := chk } } (a + 1) r

/-- Writes a whole block with its mark (R179). -/
def State.writeBlock (s : State) (a : Nat) (x : Block) : State :=
  let s1 := s.writeBytes a x.data
  { s1 with stage := { s1.stage with marks := Tab.set dMark s1.stage.marks (a / 64) x.mark } }

/-- A write of part of a block ends the error of the block: what it does not write is stored as a read delivers it, with the
mark that a read delivers (R179; DEDUCED, log 139). -/
def State.refreshBlock (s : State) (a : Nat) : State :=
  if s.blockBad a || s.blockCorr a != 0 then s.writeBlock a (s.blockAt a) else s

/-- Writes bytes that need not fill their blocks. -/
def State.storeBytes (s : State) (a : Nat) (bs : List Byte) : State :=
  ((List.range ((a % 64 + bs.length + 63) / 64)).foldl (fun s k => s.refreshBlock (a / 64 * 64 + 64 * k)) s).writeBytes a bs

/-- The stored bits of a block flipped (R179), those of its 64 bytes and, from offset 64 on, those of the codes of its
eight words: what an upset leaves until the block is written. -/
def State.upset (s : State) (a : Nat) (u : Upset) : State :=
  u.foldl (fun s p =>
    if p.1 < 64 then
      { s with stage := { s.stage with flips := Tab.set dZero s.stage.flips (a + p.1) (s.stageFlip (a + p.1) ^^^ p.2) } }
    else
      let k := a / 8 + (p.1 - 64)
      { s with stage := { s.stage with chk := Tab.set dZero s.stage.chk k (Tab.get dZero s.stage.chk k ^^^ p.2) } }) s

/-- The score a stage address's granule is bound to; 0 for none (R31, R44). -/
def State.granScore (s : State) (a : Nat) : ScoreId := Tab.get dZero s.scores.sgran (a / 0x400000)
def State.slotOwner (s : State) (bank slot : Nat) : BitVec 4 := Tab.get dOwner s.stage.owner (16 * bank + slot)

/-- Whether a bank has a slot of the given kind (`s mod 4`, R180) with the given owner code. -/
def State.hasSlot (s : State) (a : Nat) (kinds : List Nat) (code : BitVec 4) : Bool :=
  (List.range 16).any fun n => kinds.contains (n % 4) && s.slotOwner (a / 0x800000) n == code

/-- The owner code of a class of the score that holds an address's granule (R182, R207). -/
def ownerCode (a : Nat) (c : Cls) : BitVec 4 :=
  BitVec.ofNat 4 (1 + (if c = .spare then 1 else 0) + 2 * (a / 0x400000 % 2))

def readKinds : List Nat := [0, 2]
def writeKinds : List Nat := [1]
def remoteKinds : List Nat := [3]

/-- Stage memory with the contents of some addresses alone: the others hold zeros, unmarked and without error. -/
def Stage.keep (g : Stage) (f : Nat → Bool) : Stage :=
  { g with bytes := g.bytes.filter fun p => f p.1, flips := g.flips.filter fun p => f p.1
           marks := g.marks.filter fun p => f (64 * p.1), chk := g.chk.filter fun p => f (8 * p.1) }

/-! ### The descriptor region of a score (R194) -/

/-- An address in the descriptor region of the score that holds its granule. -/
def State.holdsDesc (s : State) (a : Nat) : Bool :=
  match (s.score (s.granScore a)).pkg with
  | some p => p.descBase ≤ a && a < p.descBase + p.descLen
  | none => false

/-- A dropped write raises a fault of class 3 (R131, R175, R194, R206). -/
def State.droppedWrite (s : State) (unit : Nat) (i : ScoreId) (a : Nat) : State :=
  s.raise { cls := 3, code := 3, score := i, unit := unit, arg0 := a }

/-- Writes a block for a score's work of unit `q`; into a descriptor region it is dropped. -/
def State.putBlock (s : State) (q a : Nat) (x : Block) : State :=
  if s.holdsDesc a then s.droppedWrite q (s.granScore a) a else s.writeBlock a x

/-- Writes bytes for a score's work of unit `q`; into a descriptor region they are dropped. -/
def State.putBytes (s : State) (q a : Nat) (bs : List Byte) : State :=
  if s.holdsDesc a || s.holdsDesc (a + bs.length - 1) then s.droppedWrite q (s.granScore a) a else s.storeBytes a bs

/-- A range of stage addresses lies wholly in granules bound to a score. -/
def State.rangeBound (s : State) (a n : Nat) (i : ScoreId) : Bool :=
  n != 0 && a + n ≤ 0x17000000 &&
    (List.range ((a + n - 1) / 0x400000 - a / 0x400000 + 1)).all fun k =>
      Tab.get dZero s.scores.sgran (a / 0x400000 + k) == i

end Sys2Proof.Machine
end

