-- ==== Sys2Proof/Machine/Operands.lean ====
section
/-! DEFINITION. The instructions of a bay's sequencer and their field maps (R137 to R158, R192, R197). -/

namespace Sys2Proof.Machine

/-- An instruction of a strand, decoded. -/
inductive SInstr where
  | nop
  | win (tiles wl role pl entry : Nat) (estep : Int) (cnt iq : Nat) (shr : Bool) (ev : Option (BitVec 9))
  | pld (tiles pl : Nat) (zero : Bool) (addr : Nat) (ev : Option (BitVec 9))
  | psw (tiles : Nat) (ev : Option (BitVec 9))
  | ssc (tiles : Nat) (word cmpl : Word)
  | ccf (head len : Nat) (rin rout dis : Bool) (tmo wgr : Nat)
  | drn (tile entry cnt fmt : Nat) (rnd clr : Bool) (k dst addr : Nat) (tst : Bool) (trow : Nat) (ev : Option (BitVec 9))
  | smv (q desc tag : Nat) (ev : Option (BitVec 9))
  | swt (q : Nat) (mode : Bool) (n tag tmo : Nat)
  | evs (ev inc : Nat)
  | evw (ev n tmo : Nat)
  | loop (cm1 last : Nat)
  | brt (cond tgt : Nat)
  | mrk (val : Word)
  | endStrand
deriving DecidableEq, Repr

/-- The event request of an instruction: flag `evf` and number `ev` (R138). -/
def evField (w flag hi lo : Nat) : Option (BitVec 9) :=
  if inMask w flag then some (BitVec.ofNat 9 (bits w hi lo)) else none

/-- A DRN's reserved bits and field values other than fmt and dst (R137, R148). -/
def drnReserved (w : Nat) : Bool :=
  bits w 44 0 != 0 ||
    (bits w 90 89 == 1 && (48 ≤ bits w 70 65 || bits w 88 71 != 0)) ||
    (bits w 90 89 == 2 && bits w 88 65 != 0)

/-- Decodes an instruction; a reserved opcode, bit or field value gives the strand fault code of R137. -/
def decodeStrand (x : BitVec 128) : Except Nat SInstr :=
  let w := x.toNat
  let op := bits w 127 122
  if op = 0 then if bits w 121 0 = 0 then .ok .nop else .error 1
  else if op = 1 then
    if 6 ≤ bits w 117 115 ∨ 5 ≤ bits w 114 112 ∨ bits w 111 110 = 3 ∨ bits w 61 0 ≠ 0 then .error 1
    else .ok (.win (bits w 121 118) (bits w 117 115) (bits w 114 112) (bits w 111 110) (bits w 109 100)
      (signed 10 (bits w 99 90)) (bits w 89 78) (bits w 77 73) (inMask w 72) (evField w 71 70 62))
  else if op = 2 then
    if bits w 117 116 = 3 ∨ bits w 80 0 ≠ 0 then .error 1
    else .ok (.pld (bits w 121 118) (bits w 117 116) (inMask w 115) (64 * bits w 114 91) (evField w 90 89 81))
  else if op = 3 then
    if bits w 107 0 ≠ 0 then .error 1 else .ok (.psw (bits w 121 118) (evField w 117 116 108))
  else if op = 4 then
    if bits w 117 64 ≠ 0 then .error 1
    else .ok (.ssc (bits w 121 118) (BitVec.ofNat 32 (bits w 63 32)) (BitVec.ofNat 32 (bits w 31 0)))
  else if op = 5 then
    if bits w 116 112 = 0 ∨ bits w 108 101 = 0 ∨ bits w 94 0 ≠ 0 then .error 1
    else .ok (.ccf (bits w 121 117) (bits w 116 112 + 1) (inMask w 111) (inMask w 110) (inMask w 109)
      (bits w 108 101) (bits w 100 95))
  else if op = 6 then
    if drnReserved w then .error 1
    else if 5 ≤ bits w 103 101 ∨ bits w 90 89 = 3 then .error 10
    else .ok (.drn (bits w 121 120) (bits w 119 110) (bits w 109 104) (bits w 103 101) (inMask w 100) (inMask w 99)
      (bits w 98 91) (bits w 90 89) (bits w 88 65) (inMask w 64) (bits w 63 55) (evField w 54 53 45))
  else if op = 8 then
    if 48 ≤ bits w 121 116 ∨ bits w 73 0 ≠ 0 then .error 1
    else .ok (.smv (bits w 121 116) (64 * bits w 115 92) (bits w 91 84) (evField w 83 82 74))
  else if op = 9 then
    if 48 ≤ bits w 121 116 ∨ bits w 81 0 ≠ 0 then .error 1
    else .ok (.swt (bits w 121 116) (inMask w 115) (bits w 114 106) (bits w 105 98) (bits w 97 82))
  else if op = 10 then
    if bits w 112 105 = 0 ∨ bits w 104 0 ≠ 0 then .error 1 else .ok (.evs (bits w 121 113) (bits w 112 105))
  else if op = 11 then
    if bits w 112 105 = 0 ∨ bits w 88 0 ≠ 0 then .error 1
    else .ok (.evw (bits w 121 113) (bits w 112 105) (bits w 104 89))
  else if op = 12 then
    if bits w 87 0 ≠ 0 then .error 1 else .ok (.loop (bits w 121 102) (bits w 101 88))
  else if op = 13 then
    if bits w 121 119 = 7 ∨ bits w 104 0 ≠ 0 then .error 1 else .ok (.brt (bits w 121 119) (bits w 118 105))
  else if op = 14 then
    if bits w 89 0 ≠ 0 then .error 1 else .ok (.mrk (BitVec.ofNat 32 (bits w 121 90)))
  else if op = 15 then if bits w 121 0 = 0 then .ok .endStrand else .error 1
  else .error 1

/-- Symbols of a window (WIN wl). -/
def winLen (wl : Nat) : Nat := 8 * 2 ^ wl

/-- Windows of a combined group: 4 at W8, 2 at W16, 1 from W32 on; in the Yellia 2 order 4 at W8, W16 and W32
and 2 at W64 (R114, R123). -/
def groupSize (compat : Bool) (wl : Nat) : Nat :=
  if compat then (if wl ≤ 2 then 4 else if wl = 3 then 2 else 1)
  else (if wl = 0 then 4 else if wl = 1 then 2 else 1)

/-- Bytes of an entry in a drain format (R148). -/
def drainBytes (fmt : Nat) : Nat := if fmt = 0 then 4096 else if fmt = 1 then 2048 else if fmt = 4 then 512 else 1024

/-- A stream descriptor from its 64 bytes (R192). -/
def decodeDesc (bs : List Byte) : Desc :=
  let q := fun i => leNat ((bs.drop (8 * i)).take 8)
  { srcSp := BitVec.ofNat 3 (bits (q 0) 63 61), srcBuf := BitVec.ofNat 5 (bits (q 0) 60 56)
    srcWin := BitVec.ofNat 6 (bits (q 0) 55 50), srcAddr := BitVec.ofNat 48 (bits (q 0) 47 0)
    dstSp := BitVec.ofNat 3 (bits (q 1) 63 61), dstBuf := BitVec.ofNat 5 (bits (q 1) 60 56)
    dstWin := BitVec.ofNat 6 (bits (q 1) 55 50), dstAddr := BitVec.ofNat 48 (bits (q 1) 47 0)
    n0 := bits (q 2) 15 0 + 1, n1 := bits (q 2) 31 16 + 1, n2 := bits (q 2) 47 32 + 1, n3 := bits (q 2) 63 48 + 1
    ss1 := signed 32 (bits (q 3) 31 0), ss2 := signed 32 (bits (q 3) 63 32)
    ss3 := signed 32 (bits (q 4) 31 0), ds1 := signed 32 (bits (q 4) 63 32)
    ds2 := signed 32 (bits (q 5) 31 0), ds3 := signed 32 (bits (q 5) 63 32) }

end Sys2Proof.Machine

namespace Sys2Proof

/-- Blocks of a transfer. -/
def Desc.blocks (d : Desc) : Nat := d.n0 * d.n1 * d.n2 * d.n3

/-- The coordinates of the block with a linear index, i0 fastest (R191, R192). -/
def Desc.coords (d : Desc) (lin : Nat) : Nat × Nat × Nat × Nat :=
  (lin % d.n0, lin / d.n0 % d.n1, lin / (d.n0 * d.n1) % d.n2, lin / (d.n0 * d.n1 * d.n2) % d.n3)

/-- The byte address of a block on the source side (R192). -/
def Desc.srcOf (d : Desc) (lin : Nat) : Nat :=
  let c := d.coords lin
  ((d.srcAddr.toNat : Int) + 64 * ((c.1 : Int) + c.2.1 * d.ss1 + c.2.2.1 * d.ss2 + c.2.2.2 * d.ss3)).toNat

/-- The byte address of a block on the destination side (R192). -/
def Desc.dstOf (d : Desc) (lin : Nat) : Nat :=
  let c := d.coords lin
  ((d.dstAddr.toNat : Int) + 64 * ((c.1 : Int) + c.2.1 * d.ds1 + c.2.2.1 * d.ds2 + c.2.2.2 * d.ds3)).toNat

/-- The pairs of spaces that R193 allows. -/
def Desc.pairOk (d : Desc) : Bool :=
  let a := d.srcSp.toNat
  let b := d.dstSp.toNat
  (a == 0 && b ≤ 3) || ((a == 1 || a == 2) && b == 0)

end Sys2Proof

namespace Sys2Proof.Machine

/-- A translation entry of a remote window (R197). -/
structure TransEntry where
  v     : Bool
  wr    : Bool
  gd    : Bool
  frame : Nat
deriving DecidableEq, Repr

def decodeTrans (x : Nat) : TransEntry :=
  ⟨inMask x 63, inMask x 62, inMask x 61, bits x 47 20 * 2 ^ 20⟩

end Sys2Proof.Machine
end

