-- ==== Sys2Proof/Machine/Arith.lean ====
section
/-! DEFINITION. The exact arithmetic of the tiles: dither and rounding generators, the four-level stream, row
values, pre-distortion, Pewter updates and drain conversions (03, 04, 08). -/

namespace Sys2Proof.Machine

/-! ### Generators (R70, R111) -/

/-- One advance of the input dither generator (R70). -/
def ditherNext (s : BitVec 32) : BitVec 32 :=
  let a := s ^^^ (s <<< 13)
  let b := a ^^^ (a >>> 17)
  b ^^^ (b <<< 5)

/-- The outputs of `n` successive advances, and the state after them (R70). -/
def ditherRun : Nat → BitVec 32 → List (BitVec 32) × BitVec 32
  | 0, s => ([], s)
  | n + 1, s =>
    let a := ditherNext s
    let r := ditherRun n a
    (a :: r.1, r.2)

/-- One advance of an update or hop generator (R111). -/
def genNext (s : BitVec 64) : BitVec 64 :=
  let a := s ^^^ (s <<< 13)
  let b := a ^^^ (a >>> 7)
  b ^^^ (b <<< 17)

/-- `n` advances. -/
def genRun : Nat → BitVec 64 → BitVec 64
  | 0, s => s
  | n + 1, s => genRun n (genNext s)

/-- The function mix of R111. -/
def mix (s : BitVec 64) (key : Nat) : BitVec 64 :=
  let z0 := s ^^^ (BitVec.ofNat 64 key * 0x9E3779B97F4A7C15)
  let z1 := (z0 ^^^ (z0 >>> 30)) * 0xBF58476D1CE4E5B9
  let z2 := (z1 ^^^ (z1 >>> 27)) * 0x94D049BB133111EB
  z2 ^^^ (z2 >>> 31)

/-- The 24-bit row number of a generator state (R111). -/
def rho (s : BitVec 64) (key : Nat) : Nat := (mix s key).toNat / 2 ^ 40

/-- Key of an update of row `r` of tile `t`, and of a hop add (R111). -/
def updateKey (t r : Nat) : Nat := 512 * t + r + 1
def hopKey (t r : Nat) : Nat := 16385 + 512 * t + r

/-- A seed of 0 is loaded as 1 (R70, R113). -/
def seed64 (v : BitVec 64) : BitVec 64 := if v = 0 then 1 else v
def seed32 (v : BitVec 32) : BitVec 32 := if v = 0 then 1 else v

/-! ### The four-level stream (R67 to R71) -/

/-- The levels that the noise shaper emits: error states e1 and e2, target t, symbols left (R71). -/
def shape : Nat → Int → Int → Int → List Nat
  | 0, _, _, _ => []
  | n + 1, t, e1, e2 =>
    let v := t - 2 * e1 + e2
    let k := (clampI ((v + 32768) / 65536) 0 3).toNat
    k :: shape n t ((k : Int) * 65536 - v) e1

/-- The levels of one lane in one window of `w` symbols: codes −128 and 127 are fixed (R69, R71). -/
def laneLevels (w : Nat) (x : Byte) (o : BitVec 32) : List Nat :=
  let c := x.toInt
  if c = -128 then List.replicate w 0
  else if c = 127 then List.replicate w 3
  else shape w (((c + 128) * 393216 + 255) / 510) ((o.toNat / 65536 : Nat) - 32768) ((o.toNat % 65536 : Nat) - 32768)

/-- The sum of the levels, from which the mean intensity of the lane follows: a = sum / (3 · W) (R68). -/
def laneSum (w : Nat) (x : Byte) (o : BitVec 32) : Nat := (laneLevels w x o).foldl (· + ·) 0

/-! ### Row values (R46, R47, R73, R76, R85, R91) -/

/-- Nearest integer, halves away from zero (R85). -/
def roundAway (x : Rat) : Int := if 0 ≤ x then (x + 1 / 2).floor else -((-x + 1 / 2).floor)

/-- Dot units per ADC code at a gain step (R85). -/
def gainQ (g : Nat) : Rat := 4 / (5 * 2 ^ g)

/-- The ADC code of a row value at a gain step (R85). -/
def adcCode (d : Rat) (g : Nat) : Int := clampI (roundAway (d / gainQ g)) (-128) 127

/-- A code at either rail overflows (R89). -/
def railCode (c : Int) : Bool := c == -128 || c == 127

/-- Product units per ADC code: 51 · 2^(9 − G) (R76). -/
def unitsPerCode (g : Nat) : Int := 51 * 2 ^ (9 - g)

/-- The converted row value from a code of the window itself (R76), or from a replay's code (R91). -/
def rowValue (g : Nat) (sumw c : Int) : Int := unitsPerCode g * c - 128 * sumw
def replayValue (g : Nat) (sumw c : Int) : Int := 2 * unitsPerCode g * c - 128 * sumw

/-! ### Pre-distortion (R77 to R79, R264) -/

/-- Nearest integer, halves up (R77). -/
def roundUp (x : Rat) : Int := (x + 1 / 2).floor

/-! ### Exact values m · 2^E -/

/-- floor(S · 2^b / 2^e), and whether the division is exact, and the rounding of R108: S an integer at exponent b. -/
def floorAt (s : Int) (b e : Int) : Int := if e ≤ b then s * 2 ^ (b - e).toNat else s / 2 ^ (e - b).toNat
/-- The remainder of that division, in units of 2^b. -/
def remAt (s : Int) (b e : Int) : Int := if e ≤ b then 0 else s % 2 ^ (e - b).toNat
def ceilAt (s : Int) (b e : Int) : Int := floorAt s b e + (if remAt s b e = 0 then 0 else 1)

/-- Stochastic rounding: floor(v) + 1 when f · 2^24 > ρ (R108). -/
def stochAt (s : Int) (b e : Int) (r : Nat) : Int :=
  floorAt s b e + (if r * (2 : Int) ^ (e - b).toNat < remAt s b e * 2 ^ 24 then 1 else 0)

/-- Rounding to nearest, ties to even (R126). -/
def evenAt (s : Int) (b e : Int) : Int :=
  let f := floorAt s b e
  let two := 2 * remAt s b e
  let one := (2 : Int) ^ (e - b).toNat
  if two < one then f else if one < two then f + 1 else if f % 2 = 0 then f else f + 1

def mantMax : Int := 2 ^ 39 - 1
def mantMin : Int := -(2 ^ 39)

/-- Whether a row's exact sum fits at exponent `e` (R107). -/
def fitsAt (b e : Int) (s : Int) : Bool := mantMin ≤ floorAt s b e && ceilAt s b e ≤ mantMax

/-- The smallest exponent from `e` on at which every row fits, but at most 127 (R107); `fuel` exponents left. -/
def searchExp : Nat → Int → Int → List Int → Int
  | 0, _, e, _ => e
  | n + 1, b, e, l => if l.all (fitsAt b e) then e else searchExp n b (e + 1) l

/-! ### Updates (R106 to R110) -/

/-- A group of 16 rows of an entry or of a chain word. -/
structure GroupVal where
  m    : List Int
  e    : Int
  ovf  : Bool
  mark : Mark
deriving DecidableEq, Repr

def GroupVal.cleared : GroupVal := ⟨List.replicate 16 0, -128, false, none⟩

/-- The least exponent of a group and its partials. -/
def baseExp (e : Int) (es : List Int) : Int := es.foldl (fun a b => if b < a then b else a) e

/-- The exact sums of the old values and the partials, at a common exponent. -/
def exactSums (b : Int) (m : List Int) (e : Int) (p es : List Int) : List Int :=
  (List.range 16).map fun i =>
    m.getD i 0 * 2 ^ (e - b).toNat + p.getD i 0 * 2 ^ (es.getD i 0 - b).toNat

/-- One update of a group: partials `p` with exponents `es`, a carried mark, the rounding numbers of its rows
(R107 to R109). The second component is whether a row saturated. -/
def groupUpdate (g : GroupVal) (p es : List Int) (carried : Mark) (rhos : List Nat) : GroupVal × Bool :=
  let b := baseExp g.e es
  let s := exactSums b g.m g.e p es
  let e' := searchExp (127 - g.e).toNat b g.e s
  let v := (List.range 16).map fun i => stochAt (s.getD i 0) b e' (rhos.getD i 0)
  let sat := v.any fun x => x < mantMin || mantMax < x
  let set := Mark.lower carried (if sat then some 2 else none)
  (⟨v.map fun x => clampI x mantMin mantMax, e', g.ovf || sat, Mark.first g.mark set⟩, sat)

/-- Renormalisation: the largest shift that keeps every mantissa in range, not below exponent −128 (R125). -/
def renormShift : Nat → List Int → Nat
  | 0, _ => 0
  | n + 1, m =>
    let d := m.map (2 * ·)
    if d.all (fun x => mantMin ≤ x && x ≤ mantMax) then renormShift n d + 1 else 0

def GroupVal.renorm (g : GroupVal) : GroupVal :=
  if g.m.all (· == 0) then { g with e := -128 }
  else
    let n := renormShift (g.e + 128).toNat g.m
    { g with m := g.m.map (· * 2 ^ n), e := g.e - n }

/-! ### Drain conversions (R124, R126) -/

/-- Rounds m · 2^E to a multiple of 2^q in the drain's mode. -/
def roundTo (stoch : Bool) (m e q : Int) (r : Nat) : Int := if stoch then stochAt m e q r else evenAt m e q

/-- floor(log2 |m|) of a non-zero integer. -/
def log2Abs (m : Int) : Int := (Nat.log2 m.natAbs : Nat)

/-- The encoding of n · 2^q as a binary32 with `p`-bit significands, least exponent `qmin`, in 32 bits;
the sign is that of the value before rounding. -/
def encodeFloat (p : Nat) (qmin : Int) (neg : Bool) (n q : Int) : Nat :=
  let a := n.natAbs
  let carry := a = 2 ^ p
  let sig := if carry then 2 ^ (p - 1) else a
  let q' := if carry then q + 1 else q
  let frac := sig * 2 ^ (24 - p)
  (if neg then 2 ^ 31 else 0) +
    (if a = 0 then 0
     else if sig < 2 ^ (p - 1) then frac
     else (q' - qmin + 1).toNat * 2 ^ 23 + (frac - 2 ^ 23))

/-- Converts m · 2^E to binary32 (`p` = 24) or to the upper half of one (`p` = 8): the 32-bit encoding, the
sign and zero of the result, and whether it lay beyond the largest finite value (R124, R126). -/
def toFloat (p : Nat) (stoch : Bool) (m e : Int) (r : Nat) : Nat × Int × Bool :=
  let qmin : Int := -125 - p
  if m = 0 then (0, 0, false)
  else
    let q0 := log2Abs m + e - (p - 1)
    let q := if q0 < qmin then qmin else q0
    let n := roundTo stoch m e q r
    let top := 127 < log2Abs n + q && n != 0
    if top then (encodeFloat p qmin (m < 0) (2 ^ p - 1) (128 - p), if m < 0 then -1 else 1, true)
    else (encodeFloat p qmin (m < 0) n q, n, false)

/-- Converts m · 2^E to an `n`-bit integer of value round(V · 2^(−k)), clamped (R124, R126). -/
def toInt (n : Nat) (stoch : Bool) (m e k : Int) (r : Nat) : Int × Bool :=
  let v := roundTo stoch m e k r
  let c := clampI v (-(2 ^ (n - 1))) (2 ^ (n - 1) - 1)
  (c, c != v)

/-- The raw row word (R124, R129). -/
def rawWord (g : GroupVal) (m : Int) : Nat :=
  unsigned 40 m + unsigned 8 g.e * 2 ^ 40 + g.ovf.toNat * 2 ^ 48 + g.mark.isSome.toNat * 2 ^ 49
    + (match g.mark with | some r => r.toNat * 2 ^ 50 | none => 0)

/-- A row converted: its bytes, its sign as an integer, and whether it was out of range. -/
def convertRow (fmt : Nat) (stoch : Bool) (k : Int) (g : GroupVal) (m : Int) (r : Nat) : List Byte × Int × Bool :=
  if fmt = 0 then (leBytes 8 (rawWord g m), m, false)
  else if fmt = 1 then
    let x := toFloat 24 stoch m g.e r
    (leBytes 4 x.1, x.2.1, x.2.2)
  else if fmt = 2 then
    let x := toFloat 8 stoch m g.e r
    (leBytes 2 (x.1 / 65536), x.2.1, x.2.2)
  else if fmt = 3 then
    let x := toInt 16 stoch m g.e k r
    (leBytes 2 (unsigned 16 x.1), x.1, x.2)
  else
    let x := toInt 8 stoch m g.e k r
    (leBytes 1 (unsigned 8 x.1), x.1, x.2)

end Sys2Proof.Machine
end

