-- ==== Sys2Proof/Machine/Flags.lean ====
section
/-! DEFINITION. The test flags of a strand and the conditions of a branch (R150, R156). -/

namespace Sys2Proof.Machine

/-- The test flags neg, zero and pep of a converted row (R150). -/
def testFlags (v : Int) (marked : Bool) : Bool × Bool × Bool := (decide (v < 0), decide (v = 0), marked)

/-- Whether a branch's condition holds on a strand's flags (R156). -/
def branchTaken (cond : Nat) (neg zero pep : Bool) : Bool :=
  match cond with
  | 0 => neg
  | 1 => zero
  | 2 => !neg && !zero
  | 3 => !neg
  | 4 => !zero
  | 5 => neg || zero
  | _ => pep

end Sys2Proof.Machine
end

