-- ==== Sys2Proof/Machine/Sequencer.lean ====
section
/-! DEFINITION. The bay sequencers: fetch, wait conditions, arbitration, issue of the fifteen instructions, wait
timeouts, single steps and the end of a sequence (05). -/

namespace Sys2Proof.Machine

/-! ### What a sequence holds (R132, R137, R151) -/

def SeqRun.holdsTiles (r : SeqRun) (m : Nat) : Bool := (maskList 4 m).all fun k => inMask r.tiles.toNat k

/-- Global number of queue `q` of bay `b` (R190). -/
def globalQueue (b q : Nat) : Nat := if q < 32 then 32 * b + q else 256 + (q - 32)

/-- A bay queue belongs to one sequence, a module queue to one class of one score (R190). -/
def State.holdsQueue (s : State) (b : Nat) (c : Cls) (r : SeqRun) (q : Nat) : Bool :=
  if q < 32 then r.queues.any (·.1 == q)
  else
    let x := s.queue (globalQueue b q)
    x.en && x.owner == r.score && x.cls == c

/-- The module event counters allocated to a score (R153). -/
def Score.hasCounter (c : Score) (ev : Nat) : Bool :=
  match c.pkg with
  | some p => p.counters.contains ev
  | none => false

def State.holdsEvent (s : State) (r : SeqRun) (ev : Nat) : Bool :=
  if ev < 256 then r.events.contains ev else (s.score r.score).hasCounter ev

def State.holdsEv (s : State) (r : SeqRun) : Option (BitVec 9) → Bool
  | none => true
  | some ev => s.holdsEvent r ev.toNat

/-- The score that a Pewter range is bound to (R31). -/
def State.rangeScore (s : State) (t entry : Nat) : ScoreId := Tab.get dZero s.scores.pewter (16 * t + entry / 64)

/-- The tiles of a bay that a chain covers (R117, R146). -/
def chainTiles (b head len : Nat) : List Nat := (List.range 4).filter fun k => (4 * b + k + 32 - head) % 32 < len

/-- The chain configuration of a tile. -/
def State.chainAct (s : State) (t : Nat) : Bool := s.flag (TILE_CHAIN_CFG.act.on t)
def State.chainHead (s : State) (t : Nat) : Nat := s.fld (TILE_CHAIN_CFG.head.on t)
def State.chainLen (s : State) (t : Nat) : Nat := s.fld (TILE_CHAIN_CFG.len.on t) + 1
def State.chainPos (s : State) (t : Nat) : Nat := s.fld (TILE_CHAIN_CFG.pos.on t)
def State.chainEnd (s : State) (t : Nat) : Bool := s.chainAct t && s.chainPos t + 1 == s.chainLen t

/-! ### Fetch and wait conditions (R135, R136, R159) -/

/-- The next instruction of a strand: a fetch outside the region faults with code 3, an instruction that R137
reserves with code 1 or 10. -/
def State.fetch (s : State) (b j : Nat) (r : SeqRun) : Except Nat SInstr :=
  let pc := (s.strand b j).pc.toNat
  if pc < r.first ∨ r.first + r.count ≤ pc then .error 3
  else decodeStrand (Tab.get dZero (s.bay b).imem pc)

/-- A wavelength group is of a class: spare work never uses one of assured work, nor the other way round (R28, R29). -/
def State.groupOfClass (s : State) (p g : Nat) (c : Cls) : Bool := !(s.group p g).bound || (s.group p g).cls == c

/-- The group that a role of a score is bound to is of a class. -/
def State.roleOfClass (s : State) (i : ScoreId) (role : Nat) (c : Cls) : Bool :=
  match (s.score i).roleRes 2 role with
  | some n => s.groupOfClass (n / 4) (n % 4) c
  | none => true

/-- The remote windows that a descriptor names travel on groups of a class. A sequence does not hold a group of the other class, so
that an SMV or CCF that names one faults with code 14 (DESIGN CHOICE, log 141). -/
def State.windowsOf (s : State) (c : Cls) (d : Desc) : Bool :=
  let ok := fun (w : BitVec 6) => s.groupOfClass (s.rwin w.toNat).port (s.rwin w.toNat).group c
  (d.srcSp != 2 || ok d.srcWin) && (d.dstSp != 2 || ok d.dstWin)

/-- The fault that an instruction raises when it issues (R137, R141 to R151, R155, R156, R193, R194). Of two faults of one
DRN, code 14 comes before 10 and 10 before 7 (DESIGN CHOICE, log 131). -/
def State.faultOf (s : State) (b j : Nat) (r : SeqRun) (i : SInstr) : Option Nat :=
  let st := s.strand b j
  match i with
  | .win m _ _ _ _ _ _ iq shr ev =>
    let n := if shr then 1 else (maskList 4 m).length
    if !r.holdsTiles m || !(List.range n).all (fun k => s.holdsQueue b st.cls r (iq + k) && decide (iq + k < 32))
      || !s.holdsEv r ev then some 14 else none
  | .pld m _ zero addr ev =>
    if !r.holdsTiles m || !s.holdsEv r ev ||
      !(zero || (List.range (maskList 4 m).length).all fun n => s.rangeBound (addr + n * 0x10400) 0x10400 r.score)
    then some 14 else none
  | .psw m ev => if !r.holdsTiles m || !s.holdsEv r ev then some 14 else none
  | .ssc m w c => if !r.holdsTiles m then some 14 else if c ≠ ~~~w then some 8 else none
  | .ccf head len rin rout _ _ wgr =>
    if !(chainTiles b head len).all (inMask r.tiles.toNat) || ((rin || rout) && !s.roleOfClass r.score wgr st.cls) then some 14
    else none
  | .drn k entry cnt fmt _ _ _ dst addr _ _ ev =>
    let t := 4 * b + k
    if !inMask r.tiles.toNat k || !s.holdsEv r ev then some 14
    else if dst = 2 ∧ ¬(s.chainEnd t = true ∧ s.flag (TILE_CHAIN_CFG.rout.on t) = true ∧ fmt = 0) then some 10
    else if !(List.range (cnt + 1)).all (fun n => s.rangeScore t ((entry + n) % 1024) == r.score) then some 7
    else if dst = 0 ∧ !s.rangeBound (64 * addr) ((cnt + 1) * drainBytes fmt) r.score then some 14
    else if dst = 1 ∧ !s.holdsQueue b st.cls r (addr % 64) then some 14
    else none
  | .smv q desc _ ev =>
    if !s.holdsQueue b st.cls r q || !s.holdsEv r ev then some 14
    else match r.descs.find? (·.1 == desc) with
      | none => some 14
      | some d =>
        if !d.2.pairOk || (d.2.dstSp.toNat == 3 && !r.holdsTiles (d.2.dstAddr.toNat % 16)) || !s.windowsOf st.cls d.2 then some 14
        else none
  | .swt q _ _ _ _ => if !s.holdsQueue b st.cls r q then some 14 else none
  | .evs ev _ => if !s.holdsEvent r ev then some 14 else none
  | .evw ev _ _ => if !s.holdsEvent r ev then some 14 else none
  | .loop _ _ => if 4 ≤ st.loops.length then some 13 else none
  | .brt _ _ => if !st.tstEver then some 12 else none
  | .mrk _ | .endStrand | .nop => none

/-- Transfers outstanding on a queue that the sequence of class `c` of bay `b` issued (R151). -/
def State.ownXfers (s : State) (b : Nat) (c : Cls) (q : Nat) : List Transfer :=
  (s.queue (globalQueue b q)).xfers.filter fun x => x.bay == b && x.cls == c

/-- A strand that issues: neither ended, halted nor stopped. -/
def StrandState.live : StrandState → Bool
  | .ready | .waitQueue | .waitTable | .waitStream | .waitEvent | .waitTest => true
  | _ => false

/-- The next instruction of a live strand, with the sequence that it belongs to. -/
def State.nextInstr (s : State) (b j : Nat) : Option (SeqRun × Except Nat SInstr) :=
  if (s.strand b j).state.live then
    match (s.bay b).seqOf j with
    | some r => some (r, s.fetch b j r)
    | none => none
  else none

/-! ### Requesters, grants and pointers (R163, R164) -/

/-- A requester of a resource in one cycle: class, strand number and source number. -/
structure Req where
  cls    : Cls
  strand : Nat
  source : Nat
deriving DecidableEq, Repr

/-- The smallest of the numbers that a function gives over a list. -/
def minOf (f : Req → Nat) : List Req → Nat
  | [] => 0
  | [r] => f r
  | r :: l => min (f r) (minOf f l)

/-- The grant of one resource in one cycle, with rotating pointer `p` (R163, R164). -/
def arbitrate (p : Nat) (l : List Req) : Option Req :=
  let a := if l.any (·.cls == .assured) then l.filter (·.cls == .assured) else l
  let b := a.filter fun r => r.strand == minOf (·.strand) a
  let d := fun (r : Req) => (r.source + 10 - p % 10) % 10
  b.find? fun r => d r == minOf d b

/-- The pointer of an arbitrated resource. -/
def State.arbPtr (s : State) (k : Nat) : Nat := Tab.get dZero s.arb k
def State.granted (s : State) (k source : Nat) : State :=
  { s with arb := Tab.set dZero s.arb k ((source + 1) % 10) }

/-- Keys of the arbitrated resources: module stream queues by global number, banks, tile maps, counters. -/
def keyBank (bank : Nat) : Nat := 300 + bank
def keyMap (t : Nat) : Nat := 400 + t
def keyCounter (i : ScoreId) (ev : Nat) : Nat := 1000 + 512 * i.toNat + ev

/-! ### The grant of a module event counter (R152, R159, R165) -/

/-- The requesters that a counter serves in one cycle: in the order of R163, each against the count that the grants before
it leave; one that the count does not cover is passed over. -/
def grantsOf : Nat → Nat → Nat → List (Req × Nat) → List Req
  | 0, _, _, _ => []
  | k + 1, p, left, l =>
    match arbitrate p (l.map (·.1)) with
    | none => []
    | some w =>
      let n := match l.find? fun x => x.1 == w with | some x => x.2 | none => 0
      let rest := l.filter fun x => x.1 != w
      if n ≤ left then w :: grantsOf k ((w.source + 1) % 10) (left - n) rest else grantsOf k p left rest

/-- What the strands of a bay claim of module counter `ev` of a score in this cycle. -/
def State.evwClaims (s : State) (i : ScoreId) (ev b : Nat) : List (Req × Nat) :=
  (List.range 64).filterMap fun j =>
    match s.nextInstr b j with
    | some (r, .ok (.evw e n _)) =>
      if r.score = i ∧ e = ev ∧ s.faultOf b j r (.evw e n 0) = none then some (⟨(s.strand b j).cls, j, b⟩, n) else none
    | _ => none

/-- Whether an EVW is granted its counter in this cycle. A bay's own counter has no other requester than the bay's issue
slot. -/
def State.evwGranted (s : State) (b j ev n : Nat) : Bool :=
  n ≤ s.counter b ev &&
    (ev < 256 ||
      let i := s.bayScore b
      let l := (List.range 8).flatMap (s.evwClaims i ev)
      (grantsOf l.length (s.arbPtr (keyCounter i ev)) (s.counter b ev) l).contains ⟨(s.strand b j).cls, j, b⟩)

/-- The wait that an instruction stands in: none when its wait condition is met (R134, R159). -/
def State.waitOf (s : State) (b j : Nat) (i : SInstr) : Option StrandState :=
  let st := s.strand b j
  let winFull := fun (l : List Nat) => l.any fun k => 8 ≤ (s.tile (4 * b + k)).winQ.length
  match i with
  | .win m .. => if winFull (maskList 4 m) then some .waitQueue else none
  | .psw m _ => if winFull (maskList 4 m) then some .waitQueue else none
  | .ssc m _ _ => if winFull (maskList 4 m) then some .waitQueue else none
  | .ccf head len .. => if winFull (chainTiles b head len) then some .waitQueue else none
  | .pld m .. =>
    if (maskList 4 m).any fun k => !(s.tile (4 * b + k)).tblOk then some .waitTable
    else if (maskList 4 m).any fun k => 2 ≤ (s.tile (4 * b + k)).loadQ.length then some .waitQueue
    else none
  | .drn k .. => if 4 ≤ (s.tile (4 * b + k)).drainQ.length then some .waitQueue else none
  | .smv q .. =>
    let x := s.queue (globalQueue b q)
    if x.limit ≤ x.xfers.length then some .waitStream else none
  | .swt q mode n tag _ =>
    let own := s.ownXfers b st.cls q
    if mode then (if own.any (·.tag.toNat == tag) then some .waitStream else none)
    else if n < own.length then some .waitStream else none
  | .evw ev n _ => if s.evwGranted b j ev n then none else some .waitEvent
  | .brt _ _ => if st.valid then none else some .waitTest
  | .evs .. | .loop .. | .mrk _ | .endStrand | .nop => none

/-- Whether a strand claims the issue slot: its next instruction is fetched and does not wait (R159). -/
def State.ready (s : State) (b j : Nat) : Bool :=
  match s.nextInstr b j with
  | some (r, .ok i) => (s.faultOf b j r i).isSome || (s.waitOf b j i).isNone
  | some (_, .error _) => true
  | none => false

/-! ### The issue slot (R159, R163) -/

/-- The strand that wins a bay's issue slot: assured before spare, then the lower number (R163). -/
def State.bayWinner (s : State) (b : Nat) : Option Nat :=
  let l := (List.range 64).filter (s.ready b)
  match l.find? fun j => (s.strand b j).cls == .assured with
  | some j => some j
  | none => l.head?

/-- The shared resource, beside a module counter, that an instruction claims when it issues (R164). -/
def claimOf (b : Nat) (i : SInstr) : Option Nat :=
  match i with
  | .smv q .. => if 32 ≤ q then some (globalQueue b q) else none
  | _ => none

/-- The claim that bay `b` makes in this cycle on a shared resource. -/
def State.bayClaim (s : State) (k b : Nat) : Option Req :=
  match s.bayWinner b with
  | none => none
  | some j =>
    match s.nextInstr b j with
    | some (_, .ok i) => if claimOf b i = some k then some ⟨(s.strand b j).cls, j, b⟩ else none
    | _ => none

/-- Whether another bay of the score issues an EVS to a module counter in this cycle (R165). -/
def State.signalsFirst (s : State) (b : Nat) (i : SInstr) : Bool :=
  match i with
  | .evw ev _ _ => 256 ≤ ev && (List.range 8).any fun c =>
      c != b && s.bayScore c == s.bayScore b &&
        match s.bayWinner c with
        | none => false
        | some k => match s.nextInstr c k with
          | some (r, .ok (.evs e n)) => e == ev && (s.faultOf c k r (.evs e n)).isNone
          | _ => false
  | _ => false

/-- Whether a strand's instruction is granted what it claims: the bay's issue slot and the shared resource (R29, R163). An
EVW waits for the signals that its counter gets in the same cycle (R165). -/
def State.wins (s : State) (b j : Nat) (i : SInstr) : Bool :=
  s.bayWinner b == some j && !s.signalsFirst b i &&
    match claimOf b i with
    | none => true
    | some k =>
      match arbitrate (s.arbPtr k) ((List.range 8).filterMap (s.bayClaim k)) with
      | some r => r.source == b
      | none => false

/-! ### The tiles' window queues (R160) -/

/-- Scale words at the head of a window queue take effect at once (R145, R160). -/
def leadScale : Word → List WinEntry → Word × List WinEntry
  | _, .ssc _ w :: r => leadScale w r
  | w, q => (w, q)

def scaleOff (t : Nat) : Nat := 0x200030 + t * 0x10000

/-- Requests of TILE_PLANE_CTL that waited for a place enter their queues (R65). -/
def Tile.admitHeld (x : Tile) : Tile :=
  let x1 := if x.zeroReq ∧ x.loadQ.length < 2 then
      { x with zeroReq := false, stamp := x.stamp + 1
               loadQ := x.loadQ ++ [⟨x.stamp, 0, 64, 0, 0, true, 0, 0, 0, false⟩] } else x
  if x1.swapReq ∧ x1.winQ.length < 8 then
    { x1 with swapReq := false, stamp := x1.stamp + 1, winQ := x1.winQ ++ [.psw x1.stamp 0] } else x1

/-- Brings a tile's queues to rest after an entry has come or gone. -/
def State.settle (s : State) (t : Nat) : State :=
  let x := (s.tile t).admitHeld
  let q := leadScale (s.reg (scaleOff t)) x.winQ
  let r := (q.1 &&& 0xFF00FFFF, q.2)
  let s1 := s.setTile t { x with winQ := r.2, scaleBad := x.scaleBad && r.2.length == x.winQ.length }
  if r.2.length = x.winQ.length then s1 else s1.setReg (scaleOff t) r.1

/-- Puts an entry at the end of a tile's window queue. -/
def State.pushWin (s : State) (t : Nat) (mk : Nat → WinEntry) : State :=
  (s.modTile t fun x => { x with winQ := x.winQ ++ [mk x.stamp], stamp := x.stamp + 1 }).settle t

/-! ### Issue (R137 to R158) -/

/-- The address after an instruction: back to the first of the body at the end of one, or on (R155). -/
def nextPc : BitVec 14 → List LoopFrame → BitVec 14 × List LoopFrame
  | pc, [] => (pc + 1, [])
  | pc, f :: r =>
    if pc = f.last then
      if 0 < f.left then (f.first, { f with left := f.left - 1 } :: r) else nextPc pc r
    else (pc + 1, f :: r)

/-- A strand after an instruction that falls through. -/
def Strand.advance (st : Strand) (halted : Bool) : Strand :=
  let n := nextPc st.pc st.loops
  { st with pc := n.1, loops := n.2, state := if halted then .halted else .ready }

def roleOf (n : Nat) : Role :=
  match n with
  | 0 => .none
  | 1 => .head
  | 2 => .member
  | 3 => .tail
  | _ => .pos

/-- An instruction with no masked tile is complete as it issues (R138). -/
def State.signalAt (s : State) (b j pc : Nat) : Option (BitVec 9) → State
  | none => s
  | some ev => s.signal b (s.bayScore b) ev.toNat 1 (64 * b + j) pc

/-- The trace record of an MRK (R158). -/
def traceRecord (time j : Nat) (c : Cls) (b pc : Nat) (val : Word) : Nat :=
  time % 2 ^ 48 * 2 ^ 80 + j * 2 ^ 74 + (if c = .spare then 2 ^ 73 else 0) + b * 2 ^ 70 + pc * 2 ^ 56 + val.toNat

/-- Writes a record of `n` bytes to a ring in observability write slots, or drops and counts it (R158, R271). -/
def State.ringWrite (s : State) (addr next drops : Fld) (n size : Nat) (slotFree : Bool) (v : Nat) : State :=
  let a := 64 * s.fld addr + n * s.fld next
  if slotFree && s.hasSlot a writeKinds 5 then
    (s.putBytes 0xFFFF a (leBytes n v)).setFld next ((s.fld next + 1) % (size / n))
  else s.bump drops

def State.issueMrk (s : State) (b j pc : Nat) (val : Word) (slotFree : Bool) : State :=
  if s.flag (BAY_TRACE_CTL.en.on b) then
    s.ringWrite (BAY_TRACE_ADDR.addr.on b) (BAY_TRACE_PTR.next.on b) (BAY_TRACE_CTL.drops.on b) 16
      (2 ^ (s.fld (BAY_TRACE_CTL.size.on b) + 10)) slotFree
      (traceRecord s.coreCycles j (s.strand b j).cls b pc val)
  else s

/-- Closes the open combined group of a tile when a drain of its entry is issued (R114). -/
def Tile.closeFor (x : Tile) (entry cnt : Nat) : Tile :=
  { x with groups := x.groups.map fun g => if (g.entry + 1024 - entry) % 1024 ≤ cnt then { g with closed := true } else g }

/-- The effect of an instruction that issues, beyond the strand's own address (R139 to R158). -/
def State.effect (s : State) (b j pc : Nat) (r : SeqRun) (slotFree : Bool) (i : SInstr) : State :=
  let c := (s.strand b j).cls
  match i with
  | .nop => s
  | .win m wl role pl entry estep cnt iq shr ev =>
    let ms := maskList 4 m
    if ms.isEmpty then s.signalAt b j pc ev
    else
      let n := s.newJob b ms.length ev j pc c
      ms.zipIdx.foldl (fun s x => s.pushWin (4 * b + x.1) fun st =>
        .win st n.1 j wl entry (estep % 1024).toNat (cnt + 1) (if shr then iq else iq + x.2) (roleOf role)
          (BitVec.ofNat 2 pl) (BitVec.ofNat 14 pc) false) n.2
  | .pld m pl zero addr ev =>
    let ms := maskList 4 m
    if ms.isEmpty then s.signalAt b j pc ev
    else
      let n := s.newJob b ms.length ev j pc c
      ms.zipIdx.foldl (fun s x => s.modTile (4 * b + x.1) fun y =>
        { y with stamp := y.stamp + 1
                 loadQ := y.loadQ ++ [⟨y.stamp, n.1, j, BitVec.ofNat 14 pc, BitVec.ofNat 2 pl, zero,
                   addr + x.2 * 0x10400, 0, 0, false⟩] }) n.2
  | .psw m ev =>
    let ms := maskList 4 m
    if ms.isEmpty then s.signalAt b j pc ev
    else
      let n := s.newJob b ms.length ev j pc c
      ms.foldl (fun s k => s.pushWin (4 * b + k) fun st => .psw st n.1) n.2
  | .ssc m w _ => (maskList 4 m).foldl (fun s k => s.pushWin (4 * b + k) fun st => .ssc st w) s
  | .ccf head len rin rout dis tmo wgr =>
    (chainTiles b head len).foldl (fun s k => s.pushWin (4 * b + k) fun st =>
      .ccf st head len rin rout dis (BitVec.ofNat 8 tmo) (BitVec.ofNat 6 wgr)) s
  | .drn k entry cnt fmt rnd clr kk dst addr tst trow ev =>
    let n := s.newJob b 1 ev j pc c
    let t := 4 * b + k
    let s1 := n.2.modTile t fun x =>
      let y := x.closeFor entry cnt
      { y with stamp := y.stamp + 1
               drainQ := y.drainQ ++ [⟨y.stamp, n.1, j, entry, cnt + 1, BitVec.ofNat 3 fmt, rnd, clr,
                 BitVec.ofNat 8 kk, BitVec.ofNat 2 dst, if dst = 0 then 64 * addr else addr, tst, trow, [],
                 true, false⟩] }
    if tst then
      s1.setStrand b j { s1.strand b j with valid := false, tstEver := true, tstOut := (s1.strand b j).tstOut + 1 }
    else s1
  | .smv q desc tag ev =>
    match r.descs.find? (·.1 == desc) with
    | none => s
    | some d =>
      let n := s.newJob b 1 ev j pc c
      let g := globalQueue b q
      let x := n.2.queue g
      let s1 := n.2.setQueue g { x with xfers := x.xfers ++
        [⟨b, c, j, n.1, BitVec.ofNat 8 tag, d.2, false, 0, d.2.blocks, 0, [], (0, false), none, none⟩] }
      if 32 ≤ q then s1.granted g b else s1
  | .swt .. => s
  | .evs ev inc => s.signal b (s.bayScore b) ev inc (64 * b + j) pc
  | .evw ev n _ =>
    let s1 := s.setCounter b (s.bayScore b) ev (s.counter b ev - n)
    if 256 ≤ ev then s1.granted (keyCounter (s.bayScore b) ev) b else s1
  | .loop cm1 last =>
    s.setStrand b j { s.strand b j with
      loops := ⟨BitVec.ofNat 14 (pc + 1), BitVec.ofNat 14 last, cm1⟩ :: (s.strand b j).loops }
  | .brt cond tgt =>
    let st := s.strand b j
    if branchTaken cond st.neg st.zero st.pep then s.setStrand b j { st with pc := BitVec.ofNat 14 tgt } else s
  | .mrk val => s.issueMrk b j pc val slotFree
  | .endStrand => s.setStrand b j { s.strand b j with state := .idle }

/-- The strand's own step past its instruction. A LOOP enters its body; END stays where it is. -/
def Strand.past (st : Strand) (halted : Bool) : SInstr → Strand
  | .endStrand => st
  | .loop .. => { st with pc := st.pc + 1, state := if halted then .halted else .ready }
  | _ => st.advance halted

/-- Issues an instruction: its fault, or its effect and the strand's next address (R159, R172). The scale word of
an SSC that disagrees is a paired-word fault too (R87). -/
def State.issue (s : State) (b j : Nat) (r : SeqRun) (i : SInstr) (halted slotFree : Bool) : State :=
  let pc := (s.strand b j).pc.toNat
  let s0 := s.wrapInc (BAY_ISSUE_CNT.count.on b)
  match s0.faultOf b j r i with
  | some code =>
    let s1 := s0.strandFault b j code pc
    match i with
    | .ssc m w c =>
      if code = 8 then s1.raise { cls := 4, code := 1, score := r.score, arg0 := 0x30, arg1 := w.toNat, arg2 := c.toNat
                                  unit := 0x20 + 4 * b + (maskList 4 m).headD 0 }
      else s1
    | _ => s1
  | none =>
    let s1 := s0.setStrand b j { (s0.strand b j).past halted i with waitFrom := some s0.tick }
    s1.effect b j pc r slotFree i

/-- What the SECDED code finds when an instruction is fetched (R135). -/
def State.imemEcc (s : State) (b : Nat) : Ecc → State
  | .clean => s
  | .single => s.bump (BAY_IMEM_ECC.corr.on b)
  | .double => s.bump (BAY_IMEM_ECC.uncorr.on b)

def StrandState.waiting : StrandState → Bool
  | .waitQueue | .waitTable | .waitStream | .waitEvent | .waitTest => true
  | _ => false

/-- The state of a strand (R134): of a live one, what its next instruction gives it. -/
def State.strandState (s : State) (b j : Nat) : StrandState :=
  match s.nextInstr b j with
  | some (r, .ok i) => if (s.faultOf b j r i).isSome then .ready else (s.waitOf b j i).getD .ready
  | some (_, .error _) => .ready
  | none => (s.strand b j).state

/-- A strand whose wait condition is not met stands in its wait (R134, R154). -/
def State.standWait (s : State) (b j : Nat) (w : StrandState) : State :=
  let st := s.strand b j
  s.setStrand b j { st with state := w, waitFrom := some (st.waitFrom.getD s.tick) }

/-- The row of one instruction on a strand: the strand's next instruction is fetched and, if it is the row's, waits,
faults or issues. A strand whose next instruction is another, or that another strand goes before, is as before. -/
def State.strandRow (s : State) (b j : Nat) (ecc : Ecc) (slotFree : Bool) (mine : SInstr → Bool) : State :=
  match s.nextInstr b j with
  | none => s
  | some (_, f) =>
    let st := s.strand b j
    let e := if st.state.waiting then Ecc.clean else ecc
    let s0 := s.imemEcc b e
    if e = .double then s0.strandFault b j 2 st.pc.toNat
    else match f with
      | .error code => s0.strandFault b j code st.pc.toNat
      | .ok i =>
        if !mine i then s
        else match (s0.nextInstr b j).map (·.1) with
          | none => s0
          | some r =>
            if (s0.faultOf b j r i).isNone && (s0.waitOf b j i).isSome then
              s0.standWait b j ((s0.waitOf b j i).getD .ready)
            else if s0.wins b j i then s0.issue b j r i false slotFree
            else s0

/-! ### The rows (R137 to R158) -/

def isNop : SInstr → Bool | .nop => true | _ => false
def isWin : SInstr → Bool | .win .. => true | _ => false
def isPld : SInstr → Bool | .pld .. => true | _ => false
def isPsw : SInstr → Bool | .psw .. => true | _ => false
def isSsc : SInstr → Bool | .ssc .. => true | _ => false
def isCcf : SInstr → Bool | .ccf .. => true | _ => false
def isDrn : SInstr → Bool | .drn .. => true | _ => false
def isSmv : SInstr → Bool | .smv .. => true | _ => false
def isSwt : SInstr → Bool | .swt .. => true | _ => false
def isEvs : SInstr → Bool | .evs .. => true | _ => false
def isEvw : SInstr → Bool | .evw .. => true | _ => false
def isLoop : SInstr → Bool | .loop .. => true | _ => false
def isBrt : SInstr → Bool | .brt .. => true | _ => false
def isMrk : SInstr → Bool | .mrk _ => true | _ => false
def isEnd : SInstr → Bool | .endStrand => true | _ => false

/-- NOP does nothing but issue (R137). -/
def execNop (b : BayId) (j : StrandId) (ecc : Ecc) (s : State) : Host.Outcome State Fault Refusal :=
  .next (s.strandRow b j ecc false isNop)
/-- WIN; each window issue selects its length (R83, R139). -/
def execWin (b : BayId) (j : StrandId) (ecc : Ecc) (s : State) : Host.Outcome State Fault Refusal :=
  .next (s.strandRow b j ecc false isWin)
/-- PLD (R142, R143). -/
def execPld (b : BayId) (j : StrandId) (ecc : Ecc) (s : State) : Host.Outcome State Fault Refusal :=
  .next (s.strandRow b j ecc false isPld)
/-- PSW (R144). -/
def execPsw (b : BayId) (j : StrandId) (ecc : Ecc) (s : State) : Host.Outcome State Fault Refusal :=
  .next (s.strandRow b j ecc false isPsw)
/-- SSC (R145). -/
def execSsc (b : BayId) (j : StrandId) (ecc : Ecc) (s : State) : Host.Outcome State Fault Refusal :=
  .next (s.strandRow b j ecc false isSsc)
/-- CCF (R146). -/
def execCcf (b : BayId) (j : StrandId) (ecc : Ecc) (s : State) : Host.Outcome State Fault Refusal :=
  .next (s.strandRow b j ecc false isCcf)
/-- DRN (R148, R149). -/
def execDrn (b : BayId) (j : StrandId) (ecc : Ecc) (s : State) : Host.Outcome State Fault Refusal :=
  .next (s.strandRow b j ecc false isDrn)
/-- SMV (R151). -/
def execSmv (b : BayId) (j : StrandId) (ecc : Ecc) (s : State) : Host.Outcome State Fault Refusal :=
  .next (s.strandRow b j ecc false isSmv)
/-- SWT (R151). -/
def execSwt (b : BayId) (j : StrandId) (ecc : Ecc) (s : State) : Host.Outcome State Fault Refusal :=
  .next (s.strandRow b j ecc false isSwt)
/-- EVS (R152). -/
def execEvs (b : BayId) (j : StrandId) (ecc : Ecc) (s : State) : Host.Outcome State Fault Refusal :=
  .next (s.strandRow b j ecc false isEvs)
/-- EVW (R152, R165). -/
def execEvw (b : BayId) (j : StrandId) (ecc : Ecc) (s : State) : Host.Outcome State Fault Refusal :=
  .next (s.strandRow b j ecc false isEvw)
/-- LOOP (R155). -/
def execLoop (b : BayId) (j : StrandId) (ecc : Ecc) (s : State) : Host.Outcome State Fault Refusal :=
  .next (s.strandRow b j ecc false isLoop)
/-- BRT (R156). -/
def execBrt (b : BayId) (j : StrandId) (ecc : Ecc) (s : State) : Host.Outcome State Fault Refusal :=
  .next (s.strandRow b j ecc false isBrt)
/-- MRK (R158). -/
def execMrk (b : BayId) (j : StrandId) (ecc : Ecc) (slotFree : Bool) (s : State) :
    Host.Outcome State Fault Refusal :=
  .next (s.strandRow b j ecc slotFree isMrk)
/-- END: the strand becomes idle (R133). -/
def execEndStrand (b : BayId) (j : StrandId) (ecc : Ecc) (s : State) : Host.Outcome State Fault Refusal :=
  .next (s.strandRow b j ecc false isEnd)

/-- A write of BAY_SEQ_CTL with step set, in bay debug state, issues the next instruction of the selected strand
if its wait condition is met; otherwise it does nothing (R171). -/
def State.stepStrand (s : State) (b : Nat) (ecc : Ecc) (slotFree : Bool) : State :=
  let j := s.fld (BAY_STRAND_SEL.strand.on b)
  if s.bayState b ≠ 5 ∨ (s.strand b j).state ≠ .halted then s
  else match (s.bay b).seqOf j with
    | none => s
    | some r =>
      let s0 := s.imemEcc b ecc
      let pc := (s.strand b j).pc.toNat
      if ecc = .double then s0.strandFault b j 2 pc
      else match s0.fetch b j r with
        | .error code => s0.strandFault b j code pc
        | .ok i =>
          if (s0.faultOf b j r i).isNone && (s0.waitOf b j i).isSome then s
          else s0.issue b j r i true slotFree

/-- STEP (R171). -/
def execStepBay (b : BayId) (v : Word) (ecc : Ecc) (slotFree : Bool) (s : State) :
    Host.Outcome State Fault Refusal :=
  .next (if v.getLsbD 0 then s.stepStrand b ecc slotFree else s)

/-- The timeout of an SWT or EVW that waits (R154). -/
def SInstr.timeout : SInstr → Nat
  | .swt _ _ _ _ tmo => tmo
  | .evw _ _ tmo => tmo
  | _ => 0

/-- WAIT_TIMEOUT: a wait that has lasted its timeout faults the strand with code 11 (R154). -/
def execWaitTimeout (b : BayId) (j : StrandId) (s : State) : Host.Outcome State Fault Refusal :=
  .next (match s.nextInstr b j, (s.strand b j).waitFrom with
    | some (_, .ok i), some t =>
      if i.timeout ≠ 0 ∧ t + i.timeout ≤ s.tick ∧ (s.waitOf b j i).isSome then
        s.strandFault b j 11 (s.strand b j).pc.toNat
      else s
    | _, _ => s)

/-! ### The end of a sequence (R133, R172, R214) -/

/-- Nothing of a sequence's work stands in a tile. -/
def Tile.quiet (x : Tile) : Bool :=
  x.winQ.isEmpty && x.wins.isEmpty && x.loadQ.isEmpty && x.drainQ.isEmpty && x.updQ.isEmpty && x.groups.isEmpty

/-- No transfer of the sequence of class `c` of bay `b` is outstanding. -/
def State.xfersDone (s : State) (b : Nat) (c : Cls) : Bool :=
  s.strm.queues.all fun q => q.2.xfers.all fun x => !(x.bay == b && x.cls == c)

/-- Whether every strand of a sequence is idle, or was stopped by a fault, and all its work has completed (R133).
After a fault, chain words without a partner are no work that completes. -/
def State.seqEnded (s : State) (b : Nat) (c : Cls) (r : SeqRun) : Bool :=
  r.strands.all (fun j => let st := (s.strand b j).state; st == .idle || st == .faulted) &&
    (maskList 4 r.tiles.toNat).all (fun k => (s.tile (4 * b + k)).quiet &&
      (r.faulted || (s.tile (4 * b + k)).ownQ.isEmpty)) &&
    s.xfersDone b c

/-- The input buffers of a faulted sequence's tiles are emptied when it has ended (R172). -/
def Tile.empty (x : Tile) : Tile := { x with inbuf := [], inRes := 0, kept := 0, ownQ := [], chainIn := [] }

/-- A score with no sequence running is loaded (R214). -/
def State.scoreRuns (s : State) (i : ScoreId) : Bool :=
  (List.range 8).any fun b =>
    (match (s.bay b).assured with | some r => r.score == i | none => false) ||
    (match (s.bay b).spare with | some r => r.score == i | none => false)

/-- A sequence ends: its strands become unused and hold no fault code (DEDUCED, log 132), its queues and buffers free, its
bay bound when no other runs. -/
def State.endSeq (s : State) (b : Nat) (c : Cls) (r : SeqRun) : State :=
  let s1 := s.modBay b fun y =>
    { (r.strands.foldl (fun y j => y.setStrand j Strand.reset) y).setRun c none with
      activity := if (y.run (if c = .assured then .spare else .assured)).isSome then y.activity else 0 }
  let s2 := (maskList 4 r.tiles.toNat).foldl (fun s k => s.modTile (4 * b + k) fun x =>
    { (if r.faulted then x.empty else x) with lastWin := none }) s1
  let s3 := r.queues.foldl (fun s q => s.setQueue (32 * b + q.1) Queue.reset) s2
  let s4 := (List.range 32).foldl (fun s n =>
    s.setSbuf (64 * b + (if c = .spare then 32 else 0) + n) SBuf.reset) s3
  let s5 := if s4.bayState b = 3 ∧ !(s4.bay b).anyRun then s4.setBayState b 2 else s4
  if s5.scoreRuns r.score then s5
  else
    let x := s5.score r.score
    if x.state = .running then s5.setScore r.score { x with state := .loaded } else s5

end Sys2Proof.Machine
end

