-- ==== Sys2Proof/Machine/Entries.lean ====
section
/-! DEFINITION. Pewter entries: their groups, clearing, one update of a whole entry, and the add of a remote entry
(R102 to R110, R120, R121, R123). -/

namespace Sys2Proof.Machine

def State.compat (s : State) : Bool := s.flag GLB_STRAP.compat

/-! ### Entries (R102, R104, R105) -/

/-- Group `g` of entry `e`: mantissas by 512 · entry + row, group words by 32 · entry + group. -/
def Tile.groupVal (x : Tile) (e g : Nat) : GroupVal :=
  let w := Tab.get dGroupWord x.gword (32 * e + g)
  ⟨(List.range 16).map fun i => Tab.get dZero x.mant (512 * e + 16 * g + i), w.e, w.ovf, w.mark⟩

def Tile.setMant (x : Tile) (e r : Nat) (m : Int) : Tile := { x with mant := Tab.set dZero x.mant (512 * e + r) m }

def Tile.setGroupVal (x : Tile) (e g : Nat) (v : GroupVal) : Tile :=
  let y : Tile := { x with gword := Tab.set dGroupWord x.gword (32 * e + g) ⟨v.mark, v.ovf, v.e⟩ }
  (List.range 16).foldl (fun y i => y.setMant e (16 * g + i) (v.m.getD i 0)) y

/-- Leaves an entry cleared (R105). -/
def Tile.clearEntry (x : Tile) (e : Nat) : Tile :=
  { x with mant := x.mant.filter (fun p => p.1 / 512 != e), gword := x.gword.filter (fun p => p.1 / 32 != e) }

/-! ### One update of an entry (R106 to R109, R451) -/

/-- What one step did to a group: before, after, and whether it saturated. -/
structure GroupStep where
  old : GroupVal
  new : GroupVal
  sat : Bool

def CMark.plain : Option CMark → Mark
  | none => none
  | some c => some c.reason

/-- The 32 group steps of adding partials to groups, with the generator state and the key of each row. -/
def groupSteps (olds : List GroupVal) (p e : List Int) (marks : List (Option CMark)) (ovfs : List Bool)
    (gen : BitVec 64) (key : Nat → Nat) : List GroupStep :=
  (List.range 32).map fun g =>
    let old := olds.getD g GroupVal.cleared
    let q := groupUpdate old ((p.drop (16 * g)).take 16) ((e.drop (16 * g)).take 16) (CMark.plain (marks.getD g none))
      ((List.range 16).map fun i => rho gen (key (16 * g + i)))
    ⟨old, { q.1 with ovf := q.1.ovf || ovfs.getD g false }, q.2⟩

/-- Counts what the steps of one update originate: raises, saturations with the latest one, and marks (R109, R451,
TILE_PEW_STAT, TILE_PEW_LAST). -/
def State.countSteps (s : State) (t e : Nat) (l : List GroupStep) (marks : List (Option CMark)) : State :=
  let s1 := if l.any fun x => x.old.e < x.new.e then s.bump (TILE_PEW_STAT.raises.on t) else s
  (List.range 32).foldl (fun s g =>
    match l[g]? with
    | none => s
    | some x =>
      let s2 := if x.sat then
          let s3 := ((s.bump (TILE_PEW_STAT.sats.on t)).setFlag (TILE_PEW_LAST.valid.on t) true).setFld
            (TILE_PEW_LAST.group.on t) g
          let s4 := s3.setFld (TILE_PEW_LAST.entry.on t) e
          if x.old.ovf then s4 else s4.countMark 2
        else s
      match x.old.mark, marks.getD g none with
      | none, some c => if c.orig then s2.countMark c.reason.toNat else s2
      | _, _ => s2) s1

/-- Adds a set of partials to an entry as one update (R107 to R109). -/
def State.addToEntry (s : State) (t e : Nat) (p ex : List Int) (marks : List (Option CMark)) (ovfs : List Bool)
    (gen : BitVec 64) : State :=
  let x := s.tile t
  let l := groupSteps ((List.range 32).map (x.groupVal e)) p ex marks ovfs gen (updateKey t)
  let y := (List.range 32).foldl (fun y g =>
    match l[g]? with
    | some z => y.setGroupVal e g z.new
    | none => y) x
  (s.setTile t y).countSteps t e l marks

/-! ### Generator positions (R112) -/

/-- Generator states for the stochastic drains that stand before a position (R112). A raw drain with rnd = 1 counts as
one (DEDUCED, log 124). -/
def assignDrains (pos : Nat) : BitVec 64 → List Drain → BitVec 64 × List Drain
  | g, [] => (g, [])
  | g, d :: r =>
    if d.stamp < pos ∧ d.rnd ∧ d.gens.isEmpty then
      let n := (List.range d.left).map fun i => genRun (i + 1) g
      let q := assignDrains pos (genRun d.left g) r
      (q.1, { d with gens := n } :: q.2)
    else
      let q := assignDrains pos g r
      (q.1, d :: q.2)

/-! ### Remote entries (R120, R121, R123) -/

/-- The raw row words of an entry's 64 blocks (R124). -/
def rowWords (bs : List Block) : List Nat :=
  (List.range 512).map fun r => leNat ((((bs.getD (r / 8) ⟨[], none⟩).data).drop (8 * (r % 8))).take 8)

/-- The mark that a group of a remote entry arrives with: that of its words, else that of its blocks (R121, R312). -/
def remoteMark (bs : List Block) (w : List Nat) (g : Nat) : Option CMark :=
  let word := (List.range 16).foldl (fun (m : Mark) i =>
    let v := w.getD (16 * g + i) 0
    Mark.first m (if inMask v 49 then some (BitVec.ofNat 4 (bits v 53 50)) else none)) none
  let blk := Mark.first (bs.getD (2 * g) ⟨[], none⟩).mark (bs.getD (2 * g + 1) ⟨[], none⟩).mark
  (Mark.first word blk).map fun r => ⟨r, false, 0⟩

def Tile.rounds (x : Tile) (e : Nat) : Rounds := Tab.get dRounds x.remote e
def Tile.setRounds (x : Tile) (e : Nat) (v : Rounds) : Tile := { x with remote := Tab.set dRounds x.remote e v }

/-- Adds a remote entry to its target, which is cleared first; in the Yellia 2 order the add comes last and clears
nothing (R120, R123). The ovf bits of its words join the target's (DEDUCED, log 122). -/
def State.remoteAdd (s : State) (t e : Nat) (bs : List Block) (gen : BitVec 64) : State :=
  let w := rowWords bs
  let s1 := if s.compat then s else s.modTile t (·.clearEntry e)
  s1.addToEntry t e (w.map fun v => signed 40 (bits v 39 0)) (w.map fun v => signed 8 (bits v 47 40))
    ((List.range 32).map (remoteMark bs w)) ((List.range 32).map fun g => inMask (w.getD (16 * g) 0) 48) gen

/-- A drain that clears an entry and stands between two positions of the issue order. -/
def Drain.clears (d : Drain) (e lo hi : Nat) : Bool :=
  d.clr && lo ≤ d.stamp && d.stamp < hi && (e + 1024 - d.entry) % 1024 < d.left

/-- Whether an event at a position belongs to the newest round of its entry: no queued drain clears the entry between
the two (R120). -/
def Tile.inRound (x : Tile) (e pos : Nat) : Bool :=
  match (x.rounds e).due.getLast? with
  | none => false
  | some r => !x.drainQ.any fun d => d.clears e r.pos pos

/-- Whether a round's remote entry may be added or time out: it is the first that is not done, and every drain of the
entry before it has been read (R120, R128). -/
def Tile.roundOpen (x : Tile) (e : Nat) (r : Remote) : Bool :=
  ((x.rounds e).due.find? fun v => !v.done) == some r &&
    !x.drainQ.any fun d => d.stamp < r.pos && (e + 1024 - d.entry) % 1024 < d.left

/-- The remote entries of a target that have arrived are added to the rounds that are open, each as it comes first
(R120). -/
def State.addArrived (s : State) (t e : Nat) : State :=
  let x := s.tile t
  let v := x.rounds e
  match v.due.find? fun r => !r.done with
  | none => s
  | some r =>
    if 64 ≤ v.held.length ∧ x.roundOpen e r then
      let due := v.due.map fun w => if w.pos = r.pos then { w with done := true } else w
      (s.setTile t (x.setRounds e ⟨due, v.held.drop 64⟩)).remoteAdd t e (v.held.take 64) r.gen
    else s

/-- A remote entry falls due at the first window of a round that names its target, or in the Yellia 2 order at its drain
(R112, R120, R121, R123). From here its timeout runs (DEDUCED, log 123). -/
def State.reserveRemote (s : State) (t e pos : Nat) : State :=
  let x := s.tile t
  if s.flag (TILE_CHAIN_CFG.rin.on t) ∧ x.inRound e pos = false then
    let a := assignDrains pos x.gen x.drainQ
    let g := genNext a.1
    let v := x.rounds e
    (s.setTile t { x.setRounds e { v with due := v.due ++ [⟨pos, g, s.tick, false⟩] } with gen := g, drainQ := a.2
      }).addArrived t e
  else s

/-- Whether an event of an entry at a position waits for the remote entry of its round (R120). -/
def State.remotePending (s : State) (t e pos : Nat) : Bool :=
  s.flag (TILE_CHAIN_CFG.rin.on t) && ((s.tile t).rounds e).due.any fun r => !r.done && r.pos ≤ pos

end Sys2Proof.Machine
end

