-- ==== Sys2Proof/Machine/Windows.lean ====
section
/-! DEFINITION. Windows of a tile from issue to the delivery of their partials: inputs, dither, integration and
conversion, marks, overflow and replay, combined groups (02, 03, 04). -/

namespace Sys2Proof.Machine

def State.active (s : State) (t : Nat) : Bool := s.flag (TILE_PLANE_STAT.active.on t)
def Tile.planeOf (x : Tile) (b : Bool) : Plane := if b then x.planeB else x.planeA
def Tile.setPlane (x : Tile) (b : Bool) (p : Plane) : Tile := if b then { x with planeB := p } else { x with planeA := p }

/-- Throttle level of a bay (THM_LVL). -/
def levelFld (b : Nat) : Fld := ⟨0x60024, 4 * b + 3, 4 * b⟩
def State.level (s : State) (b : Nat) : Nat := s.fld (levelFld b)

/-! ### Issue (R55, R70, R88, R103, R114, R119, R128, R140, R141, R161, R162, R169) -/

/-- Takes the next block that queue `q` has delivered into an input buffer (R195). -/
def takeBlock (q : Nat) : List InBlock → Option (Block × List InBlock)
  | [] => none
  | x :: r =>
    if x.q = q then some (x.block, r)
    else match takeBlock q r with
      | some p => some (p.1, x :: p.2)
      | none => none

/-- The two blocks of a window, and the buffer without them (R195, R449). -/
def takeInputs (q : Nat) (l : List InBlock) : Option (Block × Block × List InBlock) :=
  match takeBlock q l with
  | none => none
  | some (a, l1) =>
    match takeBlock q l1 with
    | none => none
    | some (b, l2) => some (a, b, l2)

/-- A tile that issues no window: in a paused bay, before or in a dark window, or of a spare sequence at level 8 or
above (R166, R169, R262, R426). -/
def State.tileHeld (s : State) (t : Nat) : Bool :=
  let y := s.bay (t / 4)
  let spare := match y.spare with | some r => inMask r.tiles.toNat (t % 4) | none => false
  y.paused || y.darkDue || y.darkOn || (spare && 8 ≤ s.level (t / 4))

/-- The role that a window takes: its own, or that of the tile's position; `none` where R141 faults. -/
def State.resolveRole (s : State) (t : Nat) (r : Role) : Option Role :=
  let at_ : Role := if s.chainPos t = 0 then .head else if s.chainEnd t then .tail else .member
  match r with
  | .none => some .none
  | .pos => if s.chainAct t then some at_ else none
  | r => if s.chainAct t ∧ r = at_ then some r else none

/-- Whether the named plane is the active one (R140). -/
def planeMatches (active : Bool) (pl : BitVec 2) : Bool :=
  pl = 0 || (pl = 1 && !active) || (pl = 2 && active)

/-- The fault of the window at the head of a queue: the first window's plane and role checks, and every window's
entry (R34, R103, R140, R141). -/
def State.winFault (s : State) (t entry : Nat) (pl : BitVec 2) (role : Role) (begun : Bool) : Option Nat :=
  if !begun && !planeMatches (s.active t) pl then some 6
  else if !begun && (s.resolveRole t role).isNone then some 9
  else if s.rangeScore t entry ≠ s.bayScore (t / 4) ∨ s.bayScore (t / 4) = 0 then some 7
  else none

/-- Whether a window joins an open combined group: nothing of R114 differs, the chain configuration is the same, and
no drain of the entry stands between the two. -/
def Tile.joins (x : Tile) (g : Group) (pos entry wl : Nat) (plane : Bool) (scale : Word) (role : Role) : Bool :=
  !g.closed && g.entry == entry && g.wl == wl && g.plane == plane && g.scale == scale && g.role == role &&
    g.inst == x.inst &&
    !x.drainQ.any fun d => g.stamp ≤ d.stamp && d.stamp < pos && (entry + 1024 - d.entry) % 1024 < d.left

/-- The group that a window of a tile joins, if it joins one. -/
def State.joinedGroup (s : State) (t pos entry wl : Nat) (role : Role) : Option Group :=
  let x := s.tile t
  match x.groups.getLast? with
  | some g =>
    if x.joins g pos entry wl (s.active t) (s.reg (scaleOff t)) ((s.resolveRole t role).getD .none) then some g else none
  | none => none

/-- Opens a combined group: the Pewter events before its first window take their states first, then the group
takes the next one (R112). -/
def Tile.openGroup (x : Tile) (pos strand : Nat) (pc : BitVec 14) (entry wl : Nat) (plane : Bool) (scale : Word) (role : Role) : Tile :=
  let a := assignDrains pos x.gen x.drainQ
  let chain := role == .head || role == .member
  let g := if chain then a.1 else genNext a.1
  { x with drainQ := a.2, gen := g, nextGid := x.nextGid + 1
           groups := x.groups ++ [⟨x.nextGid, pos, strand, pc, entry, wl, plane, scale, role, 0, 0, false,
             List.replicate 512 0, List.replicate 512 0, List.replicate 32 none, [], g, x.inst⟩] }

/-- The state codes of the activity class: 0 idle, 1 at grade 6 or finer, 2 at grade 5 (R23). While windows of both
run at once the class is 2 (DESIGN CHOICE, log 125). -/
def State.reportActivity (s : State) (b wl : Nat) : State :=
  let w8 := wl = 0 ∨ (List.range 4).any fun k => (s.tile (4 * b + k)).wins.any (·.wl == 0)
  s.modBay b fun y => { y with activity := if w8 then 2 else 1 }

/-- Issues one window of the WIN at the head of a tile's queue. -/
def State.startWindow (s : State) (t : Nat) (pos job strand wl entry estep left : Nat) (role : Role)
    (pl : BitVec 2) (pc : BitVec 14) (iq : Nat) (rest : List WinEntry) (a b : Block) (inbuf : List InBlock) : State :=
  let s0 := s.reportActivity (t / 4) wl
  let s1 := if s0.compat then s0 else s0.reserveRemote t entry pos
  let x := s1.tile t
  let plane := s1.active t
  let scale := s1.reg (scaleOff t)
  let r := (s1.resolveRole t role).getD .none
  let joined := (s1.joinedGroup t pos entry wl role).isSome
  let x0 : Tile := { x with groups := x.groups.map fun g => { g with closed := true } }
  let x1 : Tile := if joined then x else x0.openGroup pos strand pc entry wl plane scale r
  let gid := match x1.groups.getLast? with | some g => g.gid | none => 0
  let n := groupSize s1.compat wl
  let groups := x1.groups.map fun g =>
    if g.gid = gid then { g with issued := g.issued + 1, closed := g.issued + 1 == n } else g
  let seed := match x1.reseed with | some v => seed32 v | none => x1.dither
  let d := ditherRun 128 seed
  let w : Win := ⟨x1.started + 1, gid, job, left == 1, wl, entry, plane, scale, r, a.data ++ b.data, d.1,
    Mark.first a.mark b.mark, x1.band, x1.aff, false, if x1.capLeft = 0 then none else some x1.capOff,
    .integrating, [], [], (x1.started + 1) % 2 == 1, 0⟩
  let passed := x1.wins.map fun (v : Win) =>
    if v.phase = .replaying then { v with since := v.since + winLen wl } else v
  let winQ := if left = 1 then rest
    else .win pos job strand wl ((entry + estep) % 1024) estep (left - 1) iq role pl pc true :: rest
  let x2 := { x1 with
    groups := groups, dither := d.2, reseed := none, wins := passed ++ [w], started := x1.started + 1
    lastWin := some (strand, pc), inbuf := inbuf, kept := min 4 (x1.kept + 1), winQ := winQ
    capLeft := x1.capLeft - 1, capOff := if x1.capLeft = 0 then x1.capOff else x1.capOff + 1 }
  (s1.setTile t x2).settle t

/-- A role whose groups update an entry of their own tile. -/
def Role.updates (r : Role) : Bool := r == .none || r == .tail

/-- Updates formed and not yet applied, and groups that will form one (R128). -/
def Tile.updates (x : Tile) : Nat :=
  x.updQ.length + (x.groups.filter (·.role.updates)).length + (x.ownQ.filter (·.role.updates)).length

/-- Own groups of a chain that wait for a word, or will (R119). -/
def Tile.ownGroups (x : Tile) : Nat := (x.groups.filter (·.role.chained)).length + x.ownQ.length

/-- Whether a window may begin: the update queue has a place for the update of its group, and its tile's own groups are
less than 8 ahead of the chain words that have come (R119, R128). -/
def State.windowRoom (s : State) (t pos entry wl : Nat) (role : Role) : Bool :=
  let x := s.tile t
  let r := (s.resolveRole t role).getD .none
  (s.joinedGroup t pos entry wl role).isSome ||
    ((!r.updates || x.updates < 16) && (!r.chained || x.ownGroups < 8 + x.chainIn.length))

/-- The symbols of the windows behind the oldest one whose integration has not ended. -/
def behindFirst (l : List Win) : Nat := ((l.filter (·.phase == .integrating)).drop 1).foldl (fun n w => n + winLen w.wl) 0

/-- A symbol boundary at which a window may leave: at most one integrator of each row collects, so that the windows
behind one that still integrates are under way for less than the longest flight of 330 ps, 18.5 symbols (R55, R57); and a
replay that was decided 168 symbols (3.0 ns) of windows ago takes the boundary first (R93). -/
def Tile.mayLeave (x : Tile) : Bool :=
  behindFirst x.wins < 19 && !x.wins.any fun w => w.phase == .replaying && 168 ≤ w.since

/-- WINDOW_ISSUE: the next queued window starts (R161). -/
def State.windowIssue (s : State) (t : Nat) : State :=
  let x := s.tile t
  if s.tileHeld t ∨ x.scaleBad ∨ !x.mayLeave then s
  else match x.winQ with
    | .win pos job strand wl entry estep left iq role pl pc begun :: rest =>
      match s.winFault t entry pl role begun with
      | some code => s.strandFault (t / 4) strand code pc.toNat
      | none =>
        match takeInputs iq x.inbuf with
        | none => s
        | some (a, b, inbuf) =>
          if s.windowRoom t pos entry wl role then
            s.startWindow t pos job strand wl entry estep left role pl pc iq rest a b inbuf
          else s
    | _ => s

/-- WINDOW_ISSUE (R161). -/
def execWindowIssue (t : TileId) (s : State) : Host.Outcome State Fault Refusal := .next (s.windowIssue t)

/-! ### Row values and marks of a window (R47, R53, R85, R201, R261, R278, R448) -/

/-- The sums of the emitted levels of the 128 lanes (R68). -/
def Win.sums (w : Win) : List Nat :=
  (List.range 128).map fun n => laneSum (winLen w.wl) (w.inputs.getD n 0) (w.outs.getD n 0)

/-- Σ_n w_rn · S_n over the lanes of a row. -/
def Plane.dot (p : Plane) (sums : List Nat) (r : Nat) : Int :=
  (p.codes.filter fun k => k.1 / 128 == r).foldl (fun a k => a + k.2.toInt * (sums.getD (k.1 % 128) 0 : Nat)) 0

def Plane.hdr (p : Plane) (r : Nat) : RowHdr := Tab.get dHdr p.hdrs r
def Plane.sum (p : Plane) (r : Nat) : Int := Tab.get dZero p.sums r
def Plane.comb (p : Plane) (r : Nat) : BitVec 4 := Tab.get dZero p.combs r

/-- The mean intensities of the 128 lanes over a window, as emitted: the residual e_in of the stream is in them, the same
for every row. A replay runs at half optical scale (R60, R68, R91). -/
def Win.light (w : Win) (half : Bool) : List Rat :=
  w.sums.map fun (n : Nat) => (n : Rat) / (3 * winLen w.wl * (if half then 2 else 1))

/-- The nominal weight of a ring (R46). -/
def Plane.weight (p : Plane) (r n : Nat) : Rat := ((Tab.get dZero p.codes (128 * r + n)).toInt : Rat) / 128

/-- e_sys of a row from the coefficients that the last recalibration measured, in units of 2^-16 (R59, R263). -/
def sysError (m : RowMeas) (p : Plane) (a : List Rat) (d : Rat) (r : Nat) : Rat :=
  let at_ := fun (n : Nat) => a.getD n 0
  let cross := (List.range 128).foldl (fun x n =>
    x + p.weight r n * ((if n = 0 then 0 else at_ (n - 1)) + at_ (n + 1))) (0 : Rat)
  ((signed 16 m.gam.toNat : Rat) * d + (signed 16 m.bet.toNat : Rat) * a.sum + (signed 16 m.kap.toNat : Rat) * cross) / 65536

/-- e_w of a row: the errors of its weights, those of the plane's load and those that last from one recalibration to the
next, each with the light of its lane (R59, R60). -/
def weightError (load hold : Nat) (a : List Rat) (r : Nat) : Rat :=
  (List.range 128).foldl (fun x n =>
    x + (Config.loadError load (128 * r + n) + Config.holdError hold (128 * r + n)) * a.getD n 0) 0

/-- The ADC codes of a window's 512 rows: the row value of the light as emitted, with its errors, at the row's gain step,
whose rounding is e_adc (R47, R59, R60, R85, R97). -/
def Tile.convert (x : Tile) (w : Win) (p : Plane) (half : Bool) (free : Nat) : List Int :=
  let sums := w.sums
  let a := w.light half
  (List.range 512).map fun r =>
    let d : Rat := (p.dot sums r : Rat) / (384 * winLen w.wl * (if half then 2 else 1))
    adcCode (d + Config.windowError (free + r) + weightError p.draw x.calDraw a r +
      sysError (Tab.get dRowMeas x.noise r) p a d r) (p.hdr r).g.toNat

/-- Whether the light of an affected lane reaches a row of a group (R278). -/
def Win.lightLow (w : Win) (p : Plane) (aff : List Nat) (g : Nat) : Bool :=
  aff.any fun n => w.inputs.getD n 0 != 0x80 &&
    (List.range 16).any fun i => (p.comb (16 * g + i)).getLsbD (n / 32)

/-- The mark that a window's causes set on a group: the lowest-numbered (R448). Marked inputs and a marked image
are copies, the others originate here (R201, R451). -/
def Win.groupMark (w : Win) (p : Plane) (stale band : Bool) (aff : List Nat) (g : Nat) : Option CMark :=
  let own := [if w.lost then some 14 else none, if stale || p.pattern then some 4 else none,
    if p.range then some 5 else none, if band then some 3 else none,
    if w.lightLow p aff g then some 6 else none].foldl Mark.lower none
  match Mark.lower own (Mark.lower w.input p.image) with
  | none => none
  | some r => some ⟨r, own == some r, w.no⟩

def Win.groupMarks (w : Win) (p : Plane) (stale band : Bool) (aff : List Nat) : List (Option CMark) :=
  (List.range 32).map (w.groupMark p stale band aff)

/-- The window of a tile that stands first in a phase. -/
def Tile.firstIn (x : Tile) (ph : WinPhase) : Option Win := x.wins.find? (·.phase == ph)
def Tile.setWin (x : Tile) (w : Win) : Tile := { x with wins := x.wins.map fun v => if v.no = w.no then w else v }

/-- Writes the codes that a capture takes from a window (R62). Mode, row and address are those that the registers hold at
the window's end (DESIGN CHOICE, log 126). -/
def State.captureCode (s : State) (t : Nat) (w : Win) (codes : List Int) : State :=
  match w.cap with
  | none => s
  | some i =>
    let a := 64 * s.fld (TILE_CAPT_ADDR.addr.on t)
    if s.fld (TILE_CAPT_CTL.mode.on t) = 0 then
      s.putBytes 0xFFFF (a + i) (leBytes 1 (unsigned 8 (codes.getD (s.fld (TILE_CAPT_CTL.row.on t)) 0)))
    else s.putBytes 0xFFFF (a + 512 * i) (codes.map fun c => BitVec.ofInt 8 c)

/-! ### Combined groups and partials (R76, R86, R91, R94, R114) -/

def scaleM (w : Word) : Int := signed 16 w.toNat
def scaleE (w : Word) : Int := signed 8 (w.toNat / 2 ^ 24)

/-- The marks of a group of windows: that of the earliest window in issue order (R114, R448). -/
def CMark.earlier : Option CMark → Option CMark → Option CMark
  | none, m => m
  | m, none => m
  | some a, some b => if b.no < a.no then some b else some a

/-- Adds a window's partials to its group (R114). -/
def Group.deliver (g : Group) (w : Win) (y : List Int) (p : Plane) (marks : List (Option CMark)) : Group :=
  { g with
    delivered := g.delivered + 1
    p := (List.range 512).map fun r => g.p.getD r 0 + y.getD r 0 * scaleM w.scale
    e := (List.range 512).map fun r => scaleE w.scale + (p.hdr r).h.toInt
    marks := (List.range 32).map fun i => CMark.earlier (g.marks.getD i none) (marks.getD i none)
    jobs := if w.final then g.jobs ++ [w.job] else g.jobs }

/-- A window's rows are delivered to its group, and the window leaves the tile. -/
def Tile.deliver (x : Tile) (w : Win) (y : List Int) (marks : List (Option CMark)) : Tile :=
  let x1 : Tile := { x with
    wins := x.wins.filter (·.no != w.no)
    groups := x.groups.map fun (g : Group) => if g.gid = w.gid then g.deliver w y (x.planeOf w.plane) marks else g }
  x1.form

/-- The open group closes after its last window when no further window is queued or the next waits for its
inputs (R114). -/
def Tile.closeIdle (x : Tile) : Tile :=
  let next := x.winQ.findSome? fun e => match e with | .win _ _ _ _ _ _ _ iq .. => some iq | _ => none
  let waits := match next with | none => true | some iq => (takeInputs iq x.inbuf).isNone
  if waits && !x.wins.any (·.phase == .integrating) then
    let x1 : Tile := { x with groups := x.groups.map fun g => { g with closed := true } }
    x1.form
  else x

/-! ### Window end, overflow and replay (R56, R62, R89 to R93) -/

/-- Band loss marks the bay in GLB_INTERLOCK (R21). -/
def State.bandMark (s : State) (t : Nat) (band : Bool) : State :=
  if band then s.setBitOf GLB_INTERLOCK.band (t / 4) true else s

/-- WINDOW_END: the row ADCs convert the oldest window that integrates (R56, R85). -/
def State.windowEnd (s : State) (t : Nat) : State :=
  let x := s.tile t
  match x.firstIn .integrating with
  | none => s
  | some w =>
    let p := x.planeOf w.plane
    let codes := x.convert w p false s.free
    let band := w.band || x.band
    let stale := s.flag (TILE_PLANE_STAT.stale.on t) && w.plane == s.active t
    let w1 := { w with phase := .converted, codes := codes
                       marks := w.groupMarks p stale band (w.aff ++ x.aff) }
    let x1 : Tile := { x.setWin w1 with ended := x.ended + 1 }
    let s1 := (s.draw 512).setTile t x1.closeIdle
    (s1.bandMark t band).captureCode t w codes

/-- WINDOW_END (R56). -/
def execWindowEnd (t : TileId) (s : State) : Host.Outcome State Fault Refusal := .next (s.windowEnd t)

/-- Whether a window can be replayed: its inputs are still in the buffer, and its plane is active (R90). -/
def State.replayable (s : State) (t : Nat) (w : Win) : Bool :=
  (s.tile t).ended < w.no + 4 && w.plane == s.active t

/-- The rows that keep a rail code mark their groups with saturation, the lowest code (R92, R448). -/
def satMarks (w : Win) (sat : List Nat) (marks : List (Option CMark)) : List (Option CMark) :=
  (List.range 32).map fun g =>
    if sat.any (· / 16 == g) then some ⟨1, false, w.no⟩ else marks.getD g none

/-- TILE_OVF_LAST: the latest overflow, set as it is decided (R90, R92). -/
def State.setOvfLast (s : State) (t : Nat) (w : Win) (exceeded : List Nat) (sat : Bool) : State :=
  (((s.setFlag (TILE_OVF_LAST.valid.on t) true).setFlag (TILE_OVF_LAST.sat.on t) sat).setFld
    (TILE_OVF_LAST.row.on t) (exceeded.headD 0)).setFld (TILE_OVF_LAST.win.on t) w.no

def overRows (codes : List Int) : List Nat := (List.range 512).filter fun r => railCode (codes.getD r 0)

/-- Delivers a window whose saturated rows are `sat` (R92). -/
def State.deliverWin (s : State) (t : Nat) (w : Win) (y : List Int) (sat : List Nat) (marks : List (Option CMark)) :
    State :=
  let s1 := s.modTile t fun x => x.deliver w y (satMarks w sat marks)
  if sat.isEmpty then s1 else (s1.bump (TILE_OVF_STAT.sats.on t) sat.length).countMark 1 sat.length

/-- OVERFLOW_DECISION: the rail codes of the oldest converted window are judged (R89, R90, R92). -/
def State.overflowDecision (s : State) (t : Nat) : State :=
  let x := s.tile t
  match x.firstIn .converted with
  | none => s
  | some w =>
    let exceeded := overRows w.codes
    let p := x.planeOf w.plane
    if exceeded.isEmpty = false ∧ s.replayable t w then
      (s.modTile t fun x => x.setWin { w with phase := .replaying, since := 0 }).setOvfLast t w exceeded false
    else
      let y := (List.range 512).map fun r => rowValue (p.hdr r).g.toNat (p.sum r) (w.codes.getD r 0)
      let s1 := s.deliverWin t w y exceeded w.marks
      if exceeded.isEmpty then s1 else s1.setOvfLast t w exceeded true

/-- OVERFLOW_DECISION (R90). -/
def execOverflowDecision (t : TileId) (s : State) : Host.Outcome State Fault Refusal := .next (s.overflowDecision t)

/-- A replay counts against the allowance of the claims of the assured sequence that holds its tile (R232). -/
def State.noteReplay (s : State) (t : Nat) : State :=
  match (s.bay (t / 4)).assured with
  | none => s
  | some r =>
    if inMask r.tiles.toNat (t % 4) then
      (s.noteCause (t / 4) 4).scoreFold r.score r.index fun s n c => s.noteUse r.score n c.replays true
    else s

/-- A boundary at which a replay may leave: no window integrates, and a dark window that is due or on goes first (R72,
R93, R168). -/
def State.replayDue (s : State) (t : Nat) : Bool :=
  !(s.tile t).wins.any (·.phase == .integrating) && !(s.bay (t / 4)).darkDue && !(s.bay (t / 4)).darkOn

/-- Rows that saturate in a replay: TILE_OVF_LAST tells so while it describes the replay's window (DEDUCED, log 127). -/
def State.ovfSaturated (s : State) (t : Nat) (w : Win) (sat : List Nat) : State :=
  if !sat.isEmpty && s.fld (TILE_OVF_LAST.win.on t) == w.no % 2 ^ 21 then s.setFlag (TILE_OVF_LAST.sat.on t) true else s

/-- REPLAY: the window's inputs are emitted again at half optical scale (R91, R92). -/
def State.replay (s : State) (t : Nat) : State :=
  let x := s.tile t
  match (if s.replayDue t then x.firstIn .replaying else none) with
  | none => s
  | some w =>
    let p := x.planeOf w.plane
    let c2 := x.convert w p true s.free
    let exceeded := overRows w.codes
    let sat := exceeded.filter fun r => railCode (c2.getD r 0)
    let y := (List.range 512).map fun r =>
      if railCode (w.codes.getD r 0) && !railCode (c2.getD r 0) then
        replayValue (p.hdr r).g.toNat (p.sum r) (c2.getD r 0)
      else rowValue (p.hdr r).g.toNat (p.sum r) (w.codes.getD r 0)
    let own := { w with input := none }.groupMarks { p with image := none, range := false, pattern := false } false
      x.band x.aff
    let marks := (List.range 32).map fun g =>
      match w.marks.getD g none, own.getD g none with
      | none, m => m
      | m, none => m
      | some a, some b => if b.reason < a.reason then some b else some a
    let s1 := ((s.draw 512).bump (TILE_OVF_STAT.replays.on t)).deliverWin t w y sat marks
    ((s1.ovfSaturated t w sat).bandMark t x.band).noteReplay t

/-- REPLAY (R91). -/
def execReplay (t : TileId) (s : State) : Host.Outcome State Fault Refusal := .next (s.replay t)

end Sys2Proof.Machine
end

