-- ==== Sys2Proof/Machine/Planes.lean ====
section
/-! DEFINITION. The hold planes of a tile: image fetch, plane loads with their pre-distortion, swaps and the hold
limit (R48 to R54, R75 to R81, R142 to R144, R184). -/

namespace Sys2Proof.Machine

/-! ### Image fetch (R184) -/

def imageSize : Nat := 0x10400

def Tile.buf (x : Tile) (i : Nat) : ImgBuf := if i = 0 then x.buf0 else x.buf1
def Tile.setBuf (x : Tile) (i : Nat) (v : ImgBuf) : Tile := if i = 0 then { x with buf0 := v } else { x with buf1 := v }

/-- Whether a buffer takes a new fetch: the DAC writes of the load it holds have ended, and while the table is not
valid it does not hold the image of the idle plane's last completed load (R184). -/
def ImgBuf.free (v : ImgBuf) (active tblOk : Bool) : Bool := !v.busy && (tblOk || v.plane != some (!active))

/-- The buffer that a fetch goes into: an empty one first, then the one filled longer ago. -/
def Tile.pickBuf (x : Tile) (active : Bool) : Option Nat :=
  let f0 := x.buf0.free active x.tblOk
  let f1 := x.buf1.free active x.tblOk
  if f0 && f1 then
    (if !x.buf0.full then some 0 else if !x.buf1.full then some 1
     else if x.buf1.stamp < x.buf0.stamp then some 1 else some 0)
  else if f0 then some 0 else if f1 then some 1 else none

/-- The load whose fetch is next: the first one not fetched, when the fetches before it have ended. -/
def nextFetch (l : List Load) : Option Load := l.find? fun x => x.phase == 0 && !x.zero

/-- Reads the 1,040 blocks of an image: its bytes, the mark of its lowest-addressed marked block (R179, R201), and
the state with the errors counted. -/
def State.readImage (s : State) (a : Nat) : Tab Byte × Mark × State :=
  let blocks := (List.range 1040).map fun i => s.blockAt (a + 64 * i)
  let bytes := (blocks.flatMap (·.data)).zipIdx.filterMap fun p => if p.1 = 0 then none else some (p.2, p.1)
  (bytes, (blocks.map (·.mark)).foldl Mark.first none, s.countReads a imageSize)

/-- Whether the banks of a range have a slot of the kinds for the class (R182). -/
def State.rangeSlots (s : State) (a n : Nat) (kinds : List Nat) (c : Cls) : Bool :=
  (List.range ((a + n - 1) / 0x400000 - a / 0x400000 + 1)).all fun k =>
    let g := (a / 0x400000 + k) * 0x400000
    s.hasSlot g kinds (ownerCode g c)

/-- IMAGE_FETCH: the image of the next load arrives in a free image buffer (R184). -/
def State.imageFetch (s : State) (t : Nat) : State :=
  let x := s.tile t
  match nextFetch x.loadQ with
  | none => s
  | some l =>
    match x.pickBuf (s.active t) with
    | none => s
    | some i =>
      if s.rangeSlots l.addr imageSize readKinds ((s.bay (t / 4)).job l.job).cls then
        let r := s.readImage l.addr
        let v : ImgBuf := ⟨l.stamp, r.1, r.2.1, true, true, none⟩
        let q := x.loadQ.map fun y => if y.stamp = l.stamp then { y with phase := 1, buf := i } else y
        r.2.2.setTile t { x.setBuf i v with loadQ := q }
      else s


/-! ### Pre-distortion (R77 to R79, R263, R264) -/

def Tile.tableNat (x : Tile) (off n : Nat) : Nat :=
  leNat ((List.range n).map fun i => Tab.get dZero x.table (off + i))

/-- The temperature of zone `z` of a tile less the table's reference, in 1/256 K (R78, R263, log 20). -/
def State.zoneDelta (s : State) (t z : Nat) : Int :=
  let temp := Tab.get (dZero (α := Rat)) (s.engine (t / 4)).meas (16 * (t % 4) + z)
  let tref : Rat := (signed 32 ((s.tile t).tableNat (16 + 8 * z) 4) : Rat) / 4096
  roundUp ((temp - tref) * 256)

/-- The sum of R77 before rounding, in units of 2^-30 DAC codes, rounded with halves up (R264). -/
def dacSum (c o s1 s2 d : Int) : Int :=
  (c * 2 ^ 24 + o * 2 ^ 24 + s1 * d * 2 ^ 12 + s2 * d * d + 2 ^ 29) / 2 ^ 30

/-- The DAC code of a ring before the clamp (R77). -/
def Tile.dacOf (x : Tile) (row lane : Nat) (w : Byte) (d : Int) : Int :=
  let r := 0x5000 + 6 * (128 * row + lane)
  dacSum (x.tableNat (0x100 + 4 * (w.toInt + 128).toNat) 2) (signed 16 (x.tableNat r 2))
    (signed 16 (x.tableNat (r + 2) 2)) (signed 16 (x.tableNat (r + 4) 2)) d

/-- A plane that a load makes: its codes by 128 · row + lane, its headers, and what R75, R77 to R79 and R278 derive
from them; the second component is the number of clamped rings. -/
def State.makePlane (s : State) (t : Nat) (codes : Nat → Byte) (hdr : Nat → RowHdr) (image : Mark) (zeros : Bool) :
    Plane × Nat :=
  let x := s.tile t
  let ds := (List.range 16).map (s.zoneDelta t)
  let raw := (List.range 65536).map fun k =>
    x.dacOf (k / 128) (k % 128) (codes k) (ds.getD (k / 4096) 0)
  let clamps := (raw.filter fun v => v < 0 || 1023 < v).length
  let dac := raw.zipIdx.filterMap fun p =>
    let v := BitVec.ofInt 10 (clampI p.1 0 1023)
    if v = 0 then none else some (p.2, v)
  let cs := (List.range 65536).filterMap fun k => if codes k = 0 then none else some (k, codes k)
  let hs := (List.range 512).filterMap fun r => if hdr r = ⟨0, 0⟩ then none else some (r, hdr r)
  let sums := (List.range 512).filterMap fun r =>
    let v := (List.range 128).foldl (fun a n => a + (codes (128 * r + n)).toInt) (0 : Int)
    if v = 0 then none else some (r, v)
  let combs := (List.range 512).filterMap fun r =>
    let v := (List.range 4).foldl (fun (a : Nat) c =>
      if (List.range 32).any (fun n => codes (128 * r + 32 * c + n) != 0) then a + 2 ^ c else a) 0
    if v = 0 then none else some (r, BitVec.ofNat 4 v)
  let range := ds.any (fun d => d < -2048 || 2048 < d) || clamps != 0
  (⟨cs, dac, hs, sums, combs, s.tick, image, range, false, zeros, s.free⟩, clamps)

/-- The zone ΔT of largest magnitude. -/
def largest (l : List Int) : Int := l.foldl (fun a d => if a.natAbs < d.natAbs then d else a) 0

/-- Records the clamped rings and the largest ΔT of a load (R79). -/
def State.recordLoad (s : State) (t clamps : Nat) : State :=
  let d := largest ((List.range 16).map (s.zoneDelta t))
  (s.setSat (TILE_PD_STAT.clamps.on t) clamps).setFld (TILE_PD_STAT.dt.on t) (unsigned 16 (clampI d (-32768) 32767))

/-- The plane that a load of zero codes makes, with its clamped rings. Where the tile's table is not valid there is nothing
to pre-distort the codes with, and the DAC codes are zero (log 133). -/
def State.zeroPlane (s : State) (t : Nat) : Plane × Nat :=
  if (s.tile t).tblOk then s.makePlane t (fun _ => 0) (fun _ => ⟨0, 0⟩) none true
  else ({ Plane.reset with settled := s.tick, draw := s.free }, 0)

/-- Zero codes go into both planes of a tile, as the load of R54 writes them, and are recorded as a load is (R79). -/
def State.zeroPlanes (s : State) (t : Nat) : State :=
  let r := s.zeroPlane t
  let s1 := s.modTile t fun x => { x with planeA := r.1, planeB := { r.1 with draw := r.1.draw + 1 } }
  (if (s.tile t).tblOk then s1.recordLoad t r.2 else s1).draw 2

/-! ### Loads (R48, R49, R80, R81, R142, R143) -/

/-- The plane that a load names: the idle one, A or B. -/
def Load.target (l : Load) (active : Bool) : Bool := if l.pl = 0 then !active else l.pl == 2

/-- A header word of an image (R80). -/
def ImgBuf.hdrWord (v : ImgBuf) (r : Nat) : Nat :=
  (Tab.get dZero v.bytes (2 * r)).toNat + 256 * (Tab.get dZero v.bytes (2 * r + 1)).toNat

/-- Gain step 7 or a reserved bit set (R81). -/
def badHdr (w : Nat) : Bool := bits w 2 0 == 7 || inMask w 3 || bits w 15 8 != 0

/-- The conditions of the first DAC write other than the image: no load writes or settles, the table is valid, and
every swap issued before the load has taken effect (R142, R143, R184). -/
def Tile.mayStart (x : Tile) (l : Load) : Bool :=
  x.tblOk && !x.loadQ.any (·.phase == 2) && (l.zero || l.phase == 1) &&
    !x.winQ.any fun e => match e with | .psw st _ => st < l.stamp | _ => false

/-- A load begins its DAC writes (R48). -/
def State.startLoad (s : State) (t : Nat) (l : Load) : State :=
  let x := s.tile t
  let v := x.buf l.buf
  let r := if l.zero then s.makePlane t (fun _ => 0) (fun _ => ⟨0, 0⟩) none true
    else s.makePlane t (fun k => Tab.get dZero v.bytes (1024 + k))
      (fun k => ⟨BitVec.ofNat 3 (v.hdrWord k), BitVec.ofNat 4 (v.hdrWord k / 16)⟩) v.mark false
  let q := x.loadQ.map fun y => if y.stamp = l.stamp then { y with phase := 2, plane := l.target (s.active t) } else y
  ((s.setTile t { x with loadQ := q, loading := some r.1 }).recordLoad t r.2).draw

/-- PLANE_LOAD_START: the first load of the queue begins its DAC writes, or faults its strand (R49, R81). -/
def State.planeLoadStart (s : State) (t : Nat) : State :=
  let x := s.tile t
  match x.loadQ with
  | [] => s
  | l :: _ =>
    if (s.bay (t / 4)).paused ∨ !x.mayStart l then s
    else if l.target (s.active t) = s.active t then s.strandFault (t / 4) l.strand 4 l.pc.toNat
    else if !l.zero && (List.range 512).any (fun r => badHdr ((x.buf l.buf).hdrWord r)) then
      s.strandFault (t / 4) l.strand 5 l.pc.toNat
    else s.startLoad t l

/-- PLANE_LOAD_START (R48). -/
def execPlaneLoadStart (t : TileId) (s : State) : Host.Outcome State Fault Refusal := .next (s.planeLoadStart t)

/-- A buffer after a load of plane `p` from buffer `own` has completed: it is free again, and the older image of that
plane is no longer its last (R184, R270). -/
def ImgBuf.completed (v : ImgBuf) (p own : Bool) : ImgBuf :=
  if own then { v with busy := false, plane := some p }
  else if v.plane = some p then { v with plane := none } else v

/-- PLANE_LOAD_VALID: the load that writes has settled (R48). -/
def State.planeLoadValid (s : State) (t : Nat) : State :=
  let x := s.tile t
  match x.loadQ.find? (·.phase == 2), x.loading with
  | some l, some p =>
    let x1 := x.setPlane l.plane { p with settled := s.tick }
    let x2 : Tile := { x1 with
      loading := none, loadQ := x.loadQ.filter (·.stamp != l.stamp)
      buf0 := x.buf0.completed l.plane (!l.zero && l.buf == 0)
      buf1 := x.buf1.completed l.plane (!l.zero && l.buf == 1) }
    let s1 := (s.setTile t x2).setFlag (TILE_PLANE_STAT.idle_valid.on t) (l.plane != s.active t)
    (s1.settle t).jobDone (t / 4) l.job
  | _, _ => s

/-- PLANE_LOAD_VALID (R48, R138). -/
def execPlaneLoadValid (t : TileId) (s : State) : Host.Outcome State Fault Refusal := .next (s.planeLoadValid t)

/-! ### Swap and hold limit (R50 to R53, R144) -/

/-- The active plane is past its hold limit (R53). -/
def State.pastHold (s : State) (t : Nat) : Bool := ((s.tile t).planeOf (s.active t)).settled + 1000 ≤ s.tick

/-- The other plane becomes active (R50). -/
def State.flipPlane (s : State) (t : Nat) : State :=
  let s1 := (s.setFlag (TILE_PLANE_STAT.active.on t) (!s.active t)).setFlag (TILE_PLANE_STAT.idle_valid.on t) false
  s1.setFlag (TILE_PLANE_STAT.stale.on t) (s1.pastHold t)

/-- A boundary at which a swap may take effect: no window integrates and no replay is pending (R50, R93). -/
def Tile.boundary (x : Tile) : Bool := !x.wins.any fun w => w.phase != .converted

/-- PLANE_SWAP: the swap at the head of the window queue takes effect when every earlier load is valid, at a boundary
with no replay pending (R50 to R52, R93, R168). -/
def State.planeSwap (s : State) (t : Nat) : State :=
  let x := s.tile t
  match x.winQ with
  | .psw st job :: rest =>
    if x.loadQ.any (·.stamp < st) ∨ !x.boundary ∨ (s.bay (t / 4)).paused then s
    else ((s.setTile t { x with winQ := rest }).flipPlane t |>.settle t).jobDone (t / 4) job
  | _ => s

/-- PLANE_SWAP (R50, R138, R144). -/
def execPlaneSwap (t : TileId) (s : State) : Host.Outcome State Fault Refusal := .next (s.planeSwap t)

/-- HOLD_LIMIT_EXPIRY: the active plane has passed its hold limit of 1 ms (R53). -/
def execHoldLimitExpiry (t : TileId) (s : State) : Host.Outcome State Fault Refusal :=
  .next (if s.pastHold t then s.setFlag (TILE_PLANE_STAT.stale.on t) true else s)

end Sys2Proof.Machine
end

