-- ==== Sys2Proof/Machine/Pewter.lean ====
section
/-! DEFINITION. Pewter updates, chain steps, chain configurations, the remote chain timeout and drains (04, R146 to
R150). -/

namespace Sys2Proof.Machine

/-! ### PEWTER_UPDATE (R94, R112, R120, R127, R128, R138) -/

/-- A group in the combiner or waiting on the chain that updates an entry before position `gid`. -/
def Group.ahead (g : Group) (entry gid : Nat) : Bool :=
  g.entry == entry && g.gid < gid && (g.role == .none || g.role == .tail)

/-- A drain that stands before an update and has still to read its entry (R128). -/
def Drain.before (d : Drain) (stamp entry : Nat) : Bool := d.stamp < stamp && (entry + 1024 - d.entry) % 1024 < d.left

/-- Whether an update may be applied: no earlier window or drain of its entry is outstanding, and its remote entry
has been added. -/
def State.updReady (s : State) (t : Nat) (u : Update) : Bool :=
  let x := s.tile t
  !(x.groups.any (·.ahead u.entry u.gid)) && !(x.ownQ.any (·.ahead u.entry u.gid)) &&
    !(x.updQ.any fun v => v.entry == u.entry && v.gid < u.gid) &&
    !(x.drainQ.any (·.before u.stamp u.entry)) &&
    !(!s.compat && s.remotePending t u.entry u.stamp)

/-- Jobs whose last window's update has been applied, or whose last chain word has gone on (R138). -/
def State.jobsDone (s : State) (b : Nat) (l : List Nat) : State := l.foldl (fun s n => s.jobDone b n) s

/-- PEWTER_UPDATE: the first applicable update of the queue is applied (R107, R128). -/
def State.pewterUpdate (s : State) (t : Nat) : State :=
  match (s.tile t).updQ.find? (s.updReady t) with
  | none => s
  | some u =>
    let s1 := s.modTile t fun x => { x with updQ := x.updQ.filter (·.gid != u.gid) }
    (s1.addToEntry t u.entry u.p u.e u.marks u.ovfs u.gen).jobsDone (t / 4) u.jobs

/-- PEWTER_UPDATE (R107). -/
def execPewterUpdate (t : TileId) (s : State) : Host.Outcome State Fault Refusal := .next (s.pewterUpdate t)

/-! ### CHAIN_STEP (R26, R117 to R119, R122, R147, R447) -/

def nextTile (t : Nat) : Nat := (t + 1) % 32

/-- The strand and the address that a chain mismatch is recorded against, in the order of R147. -/
def State.mismatchStrand (s : State) (t : Nat) (r : SeqRun) : Nat × Nat :=
  let x := s.tile t
  let queued := x.winQ.findSome? fun e => match e with
    | .win _ _ strand _ _ _ _ _ role _ pc _ => if role.chained then some (strand, pc.toNat) else none
    | _ => none
  let first := match x.ownQ.head?, x.groups.find? fun g => g.role.chained with
    | some g, _ => some (g.strand, g.pc.toNat)
    | none, some g => some (g.strand, g.pc.toNat)
    | none, none => queued
  match first, x.lastWin with
  | some p, _ => p
  | none, some p => (p.1, p.2.toNat)
  | none, none =>
    let j := r.strands.foldl min (r.strands.headD 0)
    (j, (s.strand (t / 4) j).pc.toNat)

/-- The sequence that holds a tile and has not been stopped. -/
def State.holder (s : State) (t : Nat) : Option SeqRun :=
  let y := s.bay (t / 4)
  let f := fun (o : Option SeqRun) => match o with
    | some r => if inMask r.tiles.toNat (t % 4) && !r.faulted then some r else none
    | none => none
  match f y.assured with
  | some r => some r
  | none => f y.spare

/-- A chain word of another configuration is discarded and the sequence holding the tile faults (R147). -/
def State.chainMismatch (s : State) (t : Nat) : State :=
  let s1 := s.modTile t fun x => { x with chainIn := x.chainIn.drop 1 }
  match s1.holder t with
  | none => s1
  | some r =>
    let p := s1.mismatchStrand t r
    s1.strandFault (t / 4) p.1 9 p.2

/-- A chain goes from a tile to another of its bay, or to a bay bound to the same score (R35). -/
def State.mayCross (s : State) (t u : Nat) : Bool := t / 4 == u / 4 || s.bayScore (t / 4) == s.bayScore (u / 4)

/-- Passes a word to the next tile, or forms the end tile's update from it (R118). No word enters a bay of another score:
there it ends (R35; DESIGN CHOICE, log 129). -/
def State.passWord (s : State) (t : Nat) (w : ChainWord) (g : Group) : State :=
  if s.chainEnd t then
    s.modTile t fun x => { x with updQ := x.updQ ++
      [⟨g.gid, g.stamp, g.entry, true, w.m, (List.range 512).map fun r => w.e.getD (r / 16) 0, w.marks, w.ovfs, g.jobs, g.gen,
        g.inst⟩] }
  else if !s.mayCross t (nextTile t) then s.jobsDone (t / 4) g.jobs
  else
    (s.modTile (nextTile t) fun x => { x with chainIn := x.chainIn ++ [w] }).jobsDone (t / 4) g.jobs

/-- The chain word that 32 group steps give. -/
def stepsWord (head len inst : Nat) (l : List GroupStep) (old new : List (Option CMark)) : ChainWord :=
  ⟨head, len, l.flatMap (·.new.m), l.map (·.new.e), l.map (·.new.ovf),
    (List.range 32).map fun g =>
      let own := match new.getD g none, l[g]? with
        | some c, some x => if x.sat && 2 < c.reason then some ⟨2, false, c.no⟩ else some c
        | none, some x => if x.sat then some ⟨2, false, 0⟩ else none
        | c, none => c
      match old.getD g none with
      | some c => some c
      | none => own, inst⟩

/-- One hop: the own group joins the word with the hop generator (R111, R112, R118). -/
def State.hop (s : State) (t : Nat) (olds : List GroupVal) (oldMarks : List (Option CMark)) (g : Group) : State :=
  let x := s.tile t
  let gen := genNext x.hop
  let l := groupSteps olds g.p g.e g.marks (List.replicate 32 false) gen (hopKey t)
  let w := stepsWord (s.chainHead t) (s.chainLen t) g.inst l oldMarks g.marks
  let s1 := s.setTile t { x with hop := gen, ownQ := x.ownQ.drop 1 }
  let s2 := (List.range 32).foldl (fun s i =>
    match l[i]? with
    | some y => if y.sat then
        let s3 := ((s.bump (TILE_PEW_STAT.sats.on t)).setFlag (TILE_PEW_LAST.valid.on t) true).setFld
          (TILE_PEW_LAST.group.on t) i
        let s4 := s3.setFld (TILE_PEW_LAST.entry.on t) g.entry
        if y.old.ovf then s4 else s4.countMark 2
      else s
    | none => s) s1
  s2.passWord t w g

/-- The groups of a chain word. -/
def ChainWord.vals (w : ChainWord) : List GroupVal :=
  (List.range 32).map fun g =>
    ⟨(w.m.drop (16 * g)).take 16, w.e.getD g 0, w.ovfs.getD g false, CMark.plain (w.marks.getD g none)⟩

/-- CHAIN_STEP: the head forms a word from its next own group; a later position adds its own group to the word that
has arrived; a word of another configuration is discarded (R118, R119, R147). -/
def State.chainStep (s : State) (t : Nat) : State :=
  let x := s.tile t
  match x.chainIn, x.ownQ with
  | w :: rest, own =>
    if !s.chainAct t || w.head != s.chainHead t || w.len != s.chainLen t then s.chainMismatch t
    else match own with
      | [] => s
      | g :: _ =>
        if !s.chainEnd t && 8 ≤ (s.tile (nextTile t)).chainIn.length then s
        else (s.setTile t { x with chainIn := rest }).hop t w.vals w.marks g
  | [], g :: _ =>
    if s.chainAct t && s.chainPos t == 0 && (s.tile (nextTile t)).chainIn.length < 8 &&
        (s.compat || !s.remotePending t g.entry g.stamp)
    then s.hop t (List.replicate 32 GroupVal.cleared) (List.replicate 32 none) g
    else s
  | [], [] => s

/-- CHAIN_STEP (R118). -/
def execChainStep (t : TileId) (s : State) : Host.Outcome State Fault Refusal := .next (s.chainStep t)

/-! ### CHAIN_CONFIGURATION_CHANGE (R117, R146) -/

/-- No step of an instance of a chain configuration is under way in a tile. -/
def Tile.chainQuiet (x : Tile) (inst : Nat) : Bool :=
  !x.chainIn.any (·.inst == inst) && !x.ownQ.any (·.inst == inst) &&
    !(x.groups.any fun g => g.role.chained && g.inst == inst) && !(x.updQ.any fun u => u.chain && u.inst == inst)

/-- The end of the tile's present configuration has applied every step of it, whichever tile the step began in; what a tile
that has changed already does is no step of it (R117). -/
def State.chainIdle (s : State) (t : Nat) : Bool :=
  !s.chainAct t ||
    (List.range (s.chainLen t)).all fun k => (s.tile ((s.chainHead t + k) % 32)).chainQuiet (s.tile t).inst

/-- The instance of a configuration that a tile enters: that of a tile of the chain which has entered a later one than this
tile's, else a new one. -/
def State.nextInst (s : State) (t head len : Nat) : Nat :=
  let own := (s.tile t).inst
  let others := (List.range len).filterMap fun k =>
    let u := (head + k) % 32
    if s.chainAct u && s.chainHead u == head && s.chainLen u == len && own < (s.tile u).inst then some (s.tile u).inst else none
  match others with
  | i :: _ => i
  | [] => s.tiles.foldl (fun n p => max n p.2.inst) 0 + 1

/-- The rounds of remote entries of a configuration end with it; entries that have arrived are kept. -/
def Tile.dropRounds (x : Tile) : Tile :=
  { x with remote := (x.remote.filter fun p => !p.2.held.isEmpty).map fun p => (p.1, { p.2 with due := [] }) }

/-- A tile's chain configuration from a CCF (R120, R146, TILE_CHAIN_CFG). -/
def State.configureChain (s : State) (t head len : Nat) (rin rout dis : Bool) (tmo : Byte) (wgr : BitVec 6) : State :=
  let off := (TILE_CHAIN_CFG.act.on t).off
  let pos := (t + 32 - head) % 32
  if dis then
    if s.chainAct t ∧ s.chainHead t = head ∧ s.chainLen t = len then
      (s.setReg off (regReset off)).modTile t fun x => { x with remote := [] }
    else s
  else
    let s1 := (((s.setFlag (TILE_CHAIN_CFG.act.on t) true).setFlag (TILE_CHAIN_CFG.rin.on t) (rin && pos == 0)).setFlag
      (TILE_CHAIN_CFG.rout.on t) (rout && pos + 1 == len)).setFld (TILE_CHAIN_CFG.len.on t) (len - 1)
    let s2 := ((s1.setFld (TILE_CHAIN_CFG.pos.on t) pos).setFld (TILE_CHAIN_CFG.head.on t) head).setFld
      (TILE_CHAIN_CFG.tmo.on t) tmo.toNat
    s2.modTile t fun x => { x.dropRounds with wgr := wgr, inst := s.nextInst t head len }

/-- CHAIN_CONFIGURATION_CHANGE: the CCF at the head of the window queue takes effect (R117, R146). The group that is
open closes (R114). -/
def State.chainChange (s : State) (t : Nat) : State :=
  let x := s.tile t
  match x.winQ with
  | .ccf _ head len rin rout dis tmo wgr :: rest =>
    if s.chainIdle t && !(s.bay (t / 4)).paused then
      let x1 : Tile := { x with winQ := rest, groups := x.groups.map fun g => { g with closed := true } }
      ((s.setTile t x1.form).configureChain t head len rin rout dis tmo wgr).settle t
    else s
  | _ => s

/-- CHAIN_CONFIGURATION_CHANGE (R117). -/
def execChainConfigurationChange (t : TileId) (s : State) : Host.Outcome State Fault Refusal := .next (s.chainChange t)

/-! ### REMOTE_CHAIN_TIMEOUT (R121) -/

/-- The target of a remote entry that does not come is cleared and marked, and a fault raised (R121). Its timeout runs
from the event that needs it first (log 123). -/
def State.remoteTimeout (s : State) (t e : Nat) : State :=
  let x := s.tile t
  let v := x.rounds e
  match v.due.find? fun r => !r.done with
  | none => s
  | some r =>
    if s.flag (TILE_CHAIN_CFG.rin.on t) && x.roundOpen e r && r.since + s.fld (TILE_CHAIN_CFG.tmo.on t) ≤ s.tick then
      let y := x.clearEntry e
      let z := (List.range 32).foldl (fun z g => Tile.setGroupVal z e g { GroupVal.cleared with mark := some 8 }) y
      let due := v.due.map fun w => if w.pos = r.pos then { w with done := true } else w
      let s1 := (s.setTile t (z.setRounds e ⟨due, v.held.drop 64⟩)).countMark 8 32
      s1.raise { cls := 2, code := 2, act := 1, score := s.bayScore (t / 4), unit := t, arg0 := e }
    else s

/-- REMOTE_CHAIN_TIMEOUT (R121). -/
def execRemoteChainTimeout (t : TileId) (entry : EntryId) (s : State) : Host.Outcome State Fault Refusal :=
  .next (s.remoteTimeout t entry)

/-! ### DRAIN_RELEASE (R112, R127) -/

/-- Whether a queued WIN has still to issue a window that updates an entry. -/
def WinEntry.names (e stamp : Nat) : WinEntry → Bool
  | .win st _ _ _ entry estep left _ role .. =>
    st < stamp && !(role == .head || role == .member) &&
      (List.range left).any fun i => (entry + i * estep) % 1024 == e
  | _ => false

def WinEntry.stamp : WinEntry → Nat
  | .win st .. | .psw st _ | .ssc st _ | .ccf st .. => st

/-- The updates of every window issued before a drain have been applied to its entry (R127). In a sequence that has
faulted a chain step whose word does not come is not waited for (R172; DEDUCED, log 130). -/
def Tile.drainClear (x : Tile) (d : Drain) (faulted : Bool) : Bool :=
  let ahead := fun (g : Group) => g.entry == d.entry && g.stamp < d.stamp && g.role.updates
  !(x.winQ.any (WinEntry.names d.entry d.stamp)) && !(x.groups.any ahead) &&
    !((!faulted || !x.chainIn.isEmpty) && x.ownQ.any ahead) &&
    !(x.updQ.any fun u => u.entry == d.entry && u.stamp < d.stamp)

/-- A stochastic drain has its generator states: every window before it has issued, and no group that began before
it is open (R112, R127). -/
def Tile.drainGen (x : Tile) (d : Drain) : Bool :=
  !d.rnd || !d.gens.isEmpty ||
    (!(x.winQ.any fun e => match e with | .win st .. => st < d.stamp | _ => false) &&
      !(x.groups.any fun g => !g.closed && g.stamp < d.stamp))

/-- The sequence that holds a tile has faulted. -/
def State.tileFaulted (s : State) (t : Nat) : Bool :=
  let f := fun (o : Option SeqRun) => match o with
    | some r => inMask r.tiles.toNat (t % 4) && r.faulted
    | none => false
  f (s.bay (t / 4)).assured || f (s.bay (t / 4)).spare

/-- DRAIN_RELEASE: the first drain's entry may be read (R127). The queues of a paused bay wait (R262). -/
def State.drainRelease (s : State) (t : Nat) : State :=
  match (s.tile t).drainQ with
  | [] => s
  | d :: _ =>
    if d.released ∨ (s.bay (t / 4)).paused ∨ !(s.tile t).drainClear d (s.tileFaulted t) ∨ !(s.tile t).drainGen d then s
    else
      let s1 := s.reserveRemote t d.entry d.stamp
      if s1.remotePending t d.entry d.stamp then s1
      else s1.modTile t fun x =>
        let a := assignDrains (d.stamp + 1) x.gen x.drainQ
        match a.2 with
        | d1 :: r => { x with gen := a.1, drainQ := { d1 with released := true } :: r }
        | [] => x

/-- DRAIN_RELEASE (R127). -/
def execDrainRelease (t : TileId) (s : State) : Host.Outcome State Fault Refusal := .next (s.drainRelease t)

/-! ### DRAIN_READ_END (R124 to R126, R128, R148 to R150) -/

/-- One group of a drained entry: its renormalised value, its converted rows, and its mark in the drained data. -/
structure DrainedGroup where
  val  : GroupVal
  rows : List (List Byte × Int × Bool)
  mark : Mark

def drainGroup (d : Drain) (t : Nat) (gen : BitVec 64) (v : GroupVal) (g : Nat) : DrainedGroup :=
  let n := v.renorm
  let rows := (List.range 16).map fun i =>
    convertRow d.fmt.toNat d.rnd (signed 8 d.k.toNat) n (n.m.getD i 0) (rho gen (updateKey t (16 * g + i)))
  ⟨n, rows, Mark.first n.mark (if rows.any (·.2.2) then some 7 else none)⟩

/-- The stream blocks of a drained entry: 64 bytes each, marked as its lowest-numbered marked group (R124). -/
def drainBlocks (fmt : Nat) (l : List DrainedGroup) : List Block :=
  let bytes := l.flatMap fun g => g.rows.flatMap (·.1)
  let per := drainBytes fmt / 32
  (List.range (drainBytes fmt / 64)).map fun i =>
    let lo := 64 * i / per
    let hi := (64 * i + 63) / per
    ⟨(bytes.drop (64 * i)).take 64,
      ((l.drop lo).take (hi + 1 - lo)).foldl (fun m g => Mark.first m g.mark) none⟩

/-- Writes a run of blocks to stage memory. -/
def State.writeBlocks (s : State) (a : Nat) : List Block → State
  | [] => s
  | x :: r => State.writeBlocks (s.putBlock 0xFFFF a x) (a + 64) r

/-- The stream buffer of a bay's class that a queue produces (R196). -/
def State.bufOf (s : State) (b : Nat) (c : Cls) (q : Nat) : Option Nat :=
  let base := 64 * b + (if c = .spare then 32 else 0)
  ((List.range 31).map (base + 1 + ·)).find? fun n => (s.sbuf n).blocks != 0 && (s.sbuf n).prod == q

/-- A block arrives at a stream buffer's write pointer, into room reserved for it or not; one that a cut has discarded counts as
read (R196, R205). -/
def State.bufArrive (s : State) (n res : Nat) (b : Block) : State :=
  let v := s.sbuf n
  let s1 := s.putBlock 0xFFFF (v.base + 64 * v.wr) b
  let y := { v with wr := (v.wr + 1) % v.blocks, reserved := v.reserved - res }
  if v.skip = 0 then s1.setSbuf n { y with present := v.present + 1 }
  else s1.setSbuf n { y with rd := (v.rd + 1) % v.blocks, skip := v.skip - 1 }

/-- Puts blocks into a stream buffer. -/
def State.bufPut (s : State) (n : Nat) (l : List Block) : State := l.foldl (fun s b => s.bufArrive n 0 b) s

/-- The two messages of a remote chain hop, addressed to the entry of the same index (R120, R149; log 24). -/
def hopMsgs (f : FabGroup) (src : BitVec 12) (grp e : Nat) (l : List Block) : List Msg :=
  let m := fun (bs : List Block) (a : Nat) =>
    (⟨0x04, f.partner, src, 0, f.cls, false, BitVec.ofNat 2 grp, BitVec.ofNat 4 ((bs.length - 3 + 3) / 4),
      BitVec.ofNat 6 bs.length, BitVec.ofNat 32 e, f.score, 0, 0, false, BitVec.ofNat 48 a, bs⟩ : Msg)
  [m (l.take 63) (0x18000000 + 0x1000 * e), m (l.drop 63) (0x18000000 + 0x1000 * e + 63 * 64)]

/-- Sends a hop on the group of the tile's configuration. It goes behind earlier hops and ahead of the score's other traffic that
waits on the group (R337). -/
def State.sendHop (s : State) (t e : Nat) (l : List Block) : State :=
  match (s.score (s.bayScore (t / 4))).roleRes 2 (s.tile t).wgr.toNat with
  | none => s
  | some r =>
    let f := s.group (r / 4) (r % 4)
    let id := BitVec.ofNat 12 (s.fld FAB_PID.id)
    s.setGroup (r / 4) (r % 4) { f with
      out := f.out.filter (·.type == 4) ++ hopMsgs f id (r % 4) e l ++ f.out.filter (·.type != 4) }

/-- Whether a drain's destination takes the data: write slots of its class, or room in the buffer (R148, R181,
R196). -/
def State.drainRoom (s : State) (t : Nat) (d : Drain) : Bool :=
  let j := (s.bay (t / 4)).job d.job
  let n := drainBytes d.fmt.toNat
  if d.dst = 0 then s.rangeSlots d.addr n writeKinds j.cls
  else if d.dst = 1 then
    match s.bufOf (t / 4) j.cls (d.addr % 64) with
    | some i => (s.sbuf i).present + (s.sbuf i).reserved + n / 64 ≤ (s.sbuf i).blocks
    | none => true
  else true

/-- Records the test flags of a drain's first entry (R150). -/
def State.recordTest (s : State) (b : Nat) (d : Drain) (l : List DrainedGroup) : State :=
  if d.tst ∧ d.first then
    match l[d.trow / 16]? with
    | none => s
    | some g =>
      let v := (g.rows.getD (d.trow % 16) ([], 0, false)).2.1
      let f := testFlags v g.mark.isSome
      let st := s.strand b d.strand
      s.setStrand b d.strand { st with
        neg := f.1, zero := f.2.1, pep := f.2.2, tstOut := st.tstOut - 1, valid := st.tstOut == 1 }
  else s

/-- Sends a drained entry to its destination (R148, R149). A stream queue that produces no buffer faults the strand
with code 14 (log 25). -/
def State.deliverDrain (s : State) (t : Nat) (d : Drain) (l : List Block) : State :=
  let j := (s.bay (t / 4)).job d.job
  if d.dst = 0 then s.writeBlocks d.addr l
  else if d.dst = 1 then
    match s.bufOf (t / 4) j.cls (d.addr % 64) with
    | some i => s.bufPut i l
    | none => s.strandFault (t / 4) d.strand 14 j.pc
  else s.sendHop t d.entry l

/-- The conversion-range marks that a drained entry originates (R126, R451). -/
def convMarks (l : List DrainedGroup) : Nat := (l.filter fun g => g.val.mark.isNone && g.mark.isSome).length

/-- Keeps the renormalised entry or clears it. The round of a remote entry ends with the drain that clears its target, and
a drain with keep leaves it open (R105, R120, R126; DEDUCED, log 128). -/
def Tile.afterDrain (x : Tile) (d : Drain) (l : List DrainedGroup) : Tile :=
  if d.clr then
    let v := x.rounds d.entry
    (x.clearEntry d.entry).setRounds d.entry { v with due := v.due.filter fun r => d.stamp < r.pos }
  else (List.range 32).foldl (fun y g =>
    match l[g]? with
    | some z => Tile.setGroupVal y d.entry g z.val
    | none => y) x

/-- The drain queue after an entry has been read. -/
def Tile.nextDrain (x : Tile) (d : Drain) : Tile :=
  if d.left ≤ 1 then { x with drainQ := x.drainQ.drop 1 }
  else { x with drainQ := { d with entry := (d.entry + 1) % 1024, left := d.left - 1, gens := d.gens.drop 1
                                   first := false, released := false
                                   addr := if d.dst = 0 then d.addr + drainBytes d.fmt.toNat else d.addr } :: x.drainQ.drop 1 }

/-- DRAIN_READ_END: the released drain's entry is renormalised, converted and written to its destination (R124 to
R128, R138, R148 to R150). -/
def State.drainReadEnd (s : State) (t : Nat) : State :=
  match (s.tile t).drainQ with
  | [] => s
  | d :: _ =>
    if !d.released || (s.bay (t / 4)).paused || !s.drainRoom t d then s
    else
      let gen := d.gens.headD 0
      let l := (List.range 32).map fun g => drainGroup d t gen ((s.tile t).groupVal d.entry g) g
      let s1 := (s.modTile t fun x => (x.afterDrain d l).nextDrain d).addArrived t d.entry
      let s2 := (s1.countMark 7 (convMarks l)).recordTest (t / 4) d l
      let s3 := s2.deliverDrain t d (drainBlocks d.fmt.toNat l)
      if d.left ≤ 1 then (s3.bump (TILE_DRAIN_STAT.count.on t)).jobDone (t / 4) d.job else s3


end Sys2Proof.Machine
end

