-- ==== Sys2Proof/Machine/Memory.lean ====
section
/-! DEFINITION. Stage memory as streams reach it, the Pewter map, and GDDR7 (R129 to R131, R175 to R189, R225). -/

namespace Sys2Proof.Machine

/-- A block of zeros. -/
def zeroBlock (r : Mark) : Block := ⟨List.replicate 64 0, r⟩

/-- A refused read: zeros marked access refused (R131, R175). -/
def State.refusedRead (s : State) : Block × State := (zeroBlock (some 15), s.countMark 15)

/-! ### The Pewter map (R129, R130, R131) -/

/-- A tile that the map reaches: open, or its bay in bay debug state (R18, R129). -/
def State.mapVisible (s : State) (t : Nat) : Bool := t % 4 == 3 || s.bayState (t / 4) == 5

/-- Tile, entry and row of a map address. -/
def mapTile (a : Nat) : Nat := (a - 0x18000000) / 0x400000
def mapEntry (a : Nat) : Nat := (a - 0x18000000) % 0x400000 / 0x1000
def mapRow (a : Nat) : Nat := (a - 0x18000000) % 0x1000 / 8
def inMap (a : Nat) : Bool := 0x18000000 ≤ a && a < 0x20000000

/-- The row word that the map shows, without renormalisation (R129). -/
def Tile.mapWord (x : Tile) (e r : Nat) : Nat :=
  let g := x.groupVal e (r / 16)
  rawWord g (g.m.getD (r % 16) 0)

/-- A write of a row word; the first row of a group sets its group word too (R130). -/
def Tile.mapWrite (x : Tile) (e r w : Nat) : Tile :=
  let y := x.setMant e r (signed 40 (bits w 39 0))
  if r % 16 = 0 then
    let m : Mark := if inMask w 49 then some (BitVec.ofNat 4 (bits w 53 50)) else none
    let v : GroupWord := GroupWord.mk m (inMask w 48) (signed 8 (bits w 47 40))
    { y with gword := Tab.set dGroupWord y.gword (32 * e + r / 16) v }
  else y

/-- A carried mark on a group (R106, R130). -/
def Tile.carryMark (x : Tile) (e g : Nat) (m : Mark) : Tile :=
  let v := Tab.get dGroupWord x.gword (32 * e + g)
  { x with gword := Tab.set dGroupWord x.gword (32 * e + g) { v with mark := Mark.first v.mark m } }

/-- A map access waits for the updates of its entry that are queued (R130). -/
def State.mapBusy (s : State) (t e : Nat) : Bool := (s.tile t).updQ.any (·.entry == e)

/-- Whether a score reaches an entry through the map (R129, R131). -/
def State.mapOpen (s : State) (t e : Nat) (i : ScoreId) : Bool :=
  s.mapVisible t && s.rangeScore t e == i && i != 0

/-- A stream read of a block of the map (R129, R131). -/
def State.mapReadBlock (s : State) (a : Nat) (i : ScoreId) : Block × State :=
  let t := mapTile a
  let e := mapEntry a
  if s.mapOpen t e i then
    let x := s.tile t
    (⟨(List.range 8).flatMap fun k => leBytes 8 (x.mapWord e (mapRow a + k)),
      (Tab.get dGroupWord x.gword (32 * e + mapRow a / 16)).mark⟩, s)
  else s.refusedRead

/-- A stream write of a block of the map (R130, R131). -/
def State.mapWriteBlock (s : State) (a : Nat) (x : Block) (i : ScoreId) (q : Nat) : State :=
  let t := mapTile a
  let e := mapEntry a
  if s.mapOpen t e i then
    let y := (List.range 8).foldl (fun y k => Tile.mapWrite y e (mapRow a + k) (leNat ((x.data.drop (8 * k)).take 8)))
      (s.tile t)
    s.setTile t (y.carryMark e (mapRow a / 16) x.mark)
  else s.droppedWrite q i a

/-! ### Stage memory as a stream reaches it (R175, R176, R193, R194) -/

def State.ownsStage (s : State) (a : Nat) (i : ScoreId) : Bool := a < 0x17000000 && s.granScore a == i && i != 0

def State.stageRead (s : State) (a : Nat) (i : ScoreId) : Block × State :=
  if s.ownsStage a i then s.readBlock a
  else if inMap a then s.mapReadBlock a i
  else s.refusedRead

def State.stageWrite (s : State) (a : Nat) (x : Block) (i : ScoreId) (q : Nat) : State :=
  if s.ownsStage a i then s.putBlock q a x
  else if inMap a then s.mapWriteBlock a x i q
  else s.droppedWrite q i a

/-- Whether the bank of a stage address has a slot of a kind for a class; the map and unmapped addresses take none
(R181, R182). -/
def State.slotFor (s : State) (a : Nat) (kinds : List Nat) (c : Cls) : Bool :=
  0x17000000 ≤ a || s.hasSlot a kinds (ownerCode a c)

/-! ### GDDR7 (R185 to R189, R225) -/

def spanOf (a : Nat) : Nat := a / 4096
/-- A span is marked as zero. -/
def State.spanZero (s : State) (k : Nat) : Bool := Tab.get dFalse s.gddr.zero (k / 0x20000) && !Tab.get dFalse s.gddr.opened k
def State.gSpanZero (s : State) (a : Nat) : Bool := s.spanZero (spanOf a)
def State.gByte (s : State) (a : Nat) : Byte := Tab.get dZero s.gddr.bytes a
def State.gListed (s : State) (a : Nat) : Mark := Tab.get dMark s.gddr.list (a / 64)
def State.gOvf (s : State) (a : Nat) : Bool := Tab.get dFalse s.gddr.ovf (a / 0x20000000)

/-- The bytes of a block with the bits that arrived wrong. -/
def flipBytes (u : Upset) (bs : List Byte) : List Byte :=
  u.foldl (fun bs p => bs.modify p.1 (· ^^^ p.2)) bs

/-- The mark of a block as read: listed, or of its granule's overflow flag, or of the error found. R189 gives a block that is
listed while its granule's flag is set two reasons; the listed one, as the first, stands, and a span marked as zero is read
unmarked under R225 whatever the flag (DEDUCED, log 142; R188, R189). -/
def State.gMark (s : State) (a : Nat) (err : Mark) : Mark :=
  Mark.first (s.gListed a) (Mark.first (if s.gOvf a then some 10 else none) err)

/-- A GDDR7 read that is not retried any more: the block and what is counted (R188, R189, R225, R451). -/
def State.gddrRead (s : State) (a : Nat) (find : GddrFind) : Block × State :=
  if s.gSpanZero a then (zeroBlock none, s)
  else
    let data := (List.range 64).map fun i => s.gByte (a + i)
    let bad := find.crcBad || find.eccBad
    let m := s.gMark a (if bad then some 9 else none)
    let s1 := if find.crcBad then s.bump MEM_GERR.crcf else if find.eccBad then s.bump MEM_GERR.eccf else s
    let s2 := match s.gListed a, m with
      | none, some r => s1.countMark r.toNat
      | _, _ => s1
    (⟨if bad then flipBytes find.flips data else data, m⟩, s2)

/-- The bytes of a span that was marked as zero (R225). -/
def Gddr.openSpan (g : Gddr) (k : Nat) : Gddr :=
  { g with bytes := g.bytes.filter (fun p => spanOf p.1 != k), opened := Tab.set dFalse g.opened k true }

/-- The mark list after a block has been written (R189). -/
def Gddr.listMark (g : Gddr) (a : Nat) (m : Mark) : Gddr :=
  let k := a / 64
  match m with
  | none => { g with list := Tab.set dMark g.list k none }
  | some r =>
    if Tab.get dMark g.list k = none ∧ 4096 ≤ g.list.length then
      { g with ovf := Tab.set dFalse g.ovf (a / 0x20000000) true }
    else { g with list := Tab.set dMark g.list k (some r) }

/-- Writes a block to GDDR7 (R189, R225). -/
def State.gddrWrite (s : State) (a : Nat) (x : Block) : State :=
  let g1 := if s.gSpanZero a then s.gddr.openSpan (spanOf a) else s.gddr
  let bytes := x.data.zipIdx.foldl (fun t p => Tab.set dZero t (a + p.2) p.1) g1.bytes
  { s with gddr := { g1 with bytes := bytes }.listMark a x.mark }

/-- A GDDR7 write that is not retried any more: after a CRC error the block holds what the device received, with its mark
(R188). -/
def State.gddrWriteLast (s : State) (a : Nat) (b : Block) (find : GddrFind) : State :=
  if find.crcBad then
    let s1 := s.bump MEM_GERR.crcf
    (if b.mark.isNone then s1.countMark 9 else s1).gddrWrite a ⟨flipBytes find.flips b.data, Mark.first b.mark (some 9)⟩
  else s.gddrWrite a b

/-- A partner's access to GDDR7, with what its two attempts find (R188; log 69). -/
def State.gddrReadTwice (s : State) (a : Nat) (e : GddrFind × GddrFind) : Block × State :=
  if e.1.crcBad ∧ !s.gSpanZero a then (s.bump MEM_GERR.retry).gddrRead a e.2 else s.gddrRead a e.1
def State.gddrWriteTwice (s : State) (a : Nat) (b : Block) (e : GddrFind × GddrFind) : State :=
  if e.1.crcBad then (s.bump MEM_GERR.retry).gddrWriteLast a b e.2 else s.gddrWrite a b

/-- GDDR7_SPAN_CLEAR: zeros are written into a span that is marked as zero, and it is unmarked (R225). -/
def execGddr7SpanClear (span : BitVec 24) (s : State) : Host.Outcome State Fault Refusal :=
  .next (if s.spanZero span.toNat then { s with gddr := s.gddr.openSpan span.toNat } else s)

/-- A GDDR7 granule is cleared for its new holder: every span marked as zero, its mark-list entries and its flag
removed (R36, R189, R225). -/
def State.clearGddr (s : State) (n : Nat) : State :=
  { s with gddr := { s.gddr with
      zero := Tab.set dFalse s.gddr.zero n true, opened := s.gddr.opened.filter fun p => p.1 / 0x20000 != n
      list := s.gddr.list.filter fun p => p.1 / 0x800000 != n, ovf := Tab.set dFalse s.gddr.ovf n false } }

/-- A stage granule is cleared: zero bytes, unmarked (R36, R179). -/
def State.clearStage (s : State) (n : Nat) : State :=
  { s with stage := s.stage.keep fun a => a / 0x400000 != n }

end Sys2Proof.Machine
end

