-- ==== Sys2Proof/Machine/Slots.lean ====
section
/-! DEFINITION. Who is served first: what transfers, plane loads, drains and partners' messages claim of the banks' frame slots
and of the Pewter map ports, and the grants (R163, R164, R180 to R184, R206, R316). -/

namespace Sys2Proof.Machine

/-! ### Transfers and buffers (R191, R195, R196) -/

/-- The number of a transfer's buffer `n` among all buffers. -/
def Transfer.bufIdx (x : Transfer) (n : Nat) : Nat := 64 * x.bay + (if x.cls = .spare then 32 else 0) + n
def Transfer.srcBufIdx (x : Transfer) : Option Nat :=
  if x.desc.srcSp = 0 ∧ x.desc.srcBuf ≠ 0 then some (x.bufIdx x.desc.srcBuf.toNat) else none
def Transfer.dstBufIdx (x : Transfer) : Option Nat :=
  if x.desc.dstSp = 0 ∧ x.desc.dstBuf ≠ 0 then some (x.bufIdx x.desc.dstBuf.toNat) else none
/-- A number that names a transfer's work over all bays. -/
def Transfer.key (x : Transfer) : Nat := 8 * x.job + x.bay
/-- The masked tiles of an input-buffer destination. -/
def Transfer.tiles (x : Transfer) : List Nat :=
  if x.desc.dstSp = 3 then (maskList 4 x.desc.dstAddr.toNat).map (4 * x.bay + ·) else []

/-! ### What a transfer's next block takes (R181, R182, R187, R195) -/

/-- The transfer of a queue that reads now. -/
def readingIdx (l : List Transfer) : Option Nat := l.findIdx? fun x => x.started && x.next < x.total

/-- The stage address of the next block on the source side, and on the destination side. -/
def State.srcStage (s : State) (x : Transfer) : Option Nat :=
  if x.desc.srcSp ≠ 0 then none
  else match x.srcBufIdx with
    | some n => some ((s.sbuf n).base + 64 * (s.sbuf n).rd)
    | none => some (x.desc.srcOf x.next)
def State.dstStage (s : State) (x : Transfer) : Option Nat :=
  if x.desc.dstSp ≠ 0 then none
  else match x.dstBufIdx with
    | some n => some ((s.sbuf n).base + 64 * (s.sbuf n).wr)
    | none => some (x.desc.dstOf x.next)

def Transfer.srcKinds (x : Transfer) : List Nat :=
  if x.desc.dstSp = 1 ∨ x.desc.dstSp = 2 then remoteKinds else readKinds
def Transfer.dstKinds (x : Transfer) : List Nat :=
  if x.desc.srcSp = 1 ∨ x.desc.srcSp = 2 then remoteKinds else writeKinds

/-- The slots that a block's two sides take are there (R181, R182). -/
def State.xferSlots (s : State) (x : Transfer) : Bool :=
  (match s.srcStage x with | some a => s.slotFor a x.srcKinds x.cls | none => true) &&
    (match s.dstStage x with | some a => s.slotFor a x.dstKinds x.cls | none => true)

/-- The Pewter map waits for the updates queued on an entry (R130). -/
def State.xferMapBusy (s : State) (x : Transfer) : Bool :=
  let busy := fun (o : Option Nat) => match o with
    | some a => inMap a && s.mapBusy (mapTile a) (mapEntry a)
    | none => false
  busy (s.srcStage x) || busy (s.dstStage x)

/-- A GDDR7 slot of the score's class (R187). -/
def State.gddrSlots (s : State) (i : ScoreId) (x : Transfer) : Bool :=
  if x.desc.srcSp = 1 ∨ x.desc.dstSp = 1 then
    match (s.score i).pkg with
    | some p => p.gslots.any fun y => y.1 == x.cls && (if x.desc.srcSp = 1 then 0 < y.2.1 else 0 < y.2.2)
    | none => false
  else true

/-- The data of the next block is there: a source buffer holds a block, and no retry of the queue is due. -/
def State.xferData (s : State) (q : Nat) (x : Transfer) : Bool :=
  (match x.srcBufIdx with | some n => (s.sbuf n).present != 0 | none => true) &&
    !s.gddr.retry.any (·.2.1 == q)

/-! ### Claims (R163, R164, R181, R182) -/

/-- A claim of one cycle: the resource, with the slot kind and owner code where it is a bank, and the requester. -/
structure Claim where
  res : Nat
  sub : Nat
  req : Req
deriving DecidableEq, Repr

/-- The claim that an access to an address makes: on its bank's slots of a kind and owner, or on its tile's map port. The
reserved regions are firmware's, and an unmapped address claims nothing. -/
def claimAt (a : Nat) (kinds : List Nat) (r : Req) : Option Claim :=
  if a < 0x17000000 then some ⟨keyBank (a / 0x800000), 16 * kinds.headD 0 + (ownerCode a r.cls).toNat, r⟩
  else if inMap a then some ⟨keyMap (mapTile a), 0, r⟩
  else none

def Transfer.req (x : Transfer) : Req := ⟨x.cls, x.strand, x.bay⟩

/-- The transfer of a queue whose next block could move, but for the grant of its slots. -/
def State.moving (s : State) (q : Nat) : Option Transfer :=
  match (readingIdx (s.queue q).xfers).bind fun i => (s.queue q).xfers[i]? with
  | some x =>
    if s.xferData q x && s.xferSlots x && s.gddrSlots (s.queue q).owner x && !s.xferMapBusy x then some x else none
  | none => none

/-- What a queue's next block claims on its source side, and on its destination side. -/
def State.srcClaim (s : State) (q : Nat) : Option Claim :=
  (s.moving q).bind fun x => (s.srcStage x).bind fun a => claimAt a x.srcKinds x.req
def State.dstClaim (s : State) (q : Nat) : Option Claim :=
  (s.moving q).bind fun x => (s.dstStage x).bind fun a => claimAt a x.dstKinds x.req

/-- The image fetch that a tile makes next, with its buffer (R184). -/
def State.fetching (s : State) (t : Nat) : Option (Load × Nat) :=
  (nextFetch (s.tile t).loadQ).bind fun l => ((s.tile t).pickBuf (s.active t)).map fun i => (l, i)

/-- What a tile's image fetch claims: its first line's slot stands for the whole fetch (DEDUCED, log 140). -/
def State.fetchClaim (s : State) (t : Nat) : Option Claim :=
  (s.fetching t).bind fun y =>
    let c := ((s.bay (t / 4)).job y.1.job).cls
    if s.rangeSlots y.1.addr imageSize readKinds c then claimAt y.1.addr readKinds ⟨c, y.1.strand, t / 4⟩ else none

/-- What a tile's drain claims in stage memory (R181). -/
def State.drainClaim (s : State) (t : Nat) : Option Claim :=
  match (s.tile t).drainQ with
  | [] => none
  | d :: _ =>
    let c := ((s.bay (t / 4)).job d.job).cls
    if d.released && d.dst == 0 && !(s.bay (t / 4)).paused && s.drainRoom t d then
      claimAt d.addr writeKinds ⟨c, d.strand, t / 4⟩
    else none

/-- The addresses of a message's blocks. -/
def msgAddrs (m : Msg) : List Nat := (List.range m.nblk.toNat).map fun k => m.addr.toNat + 64 * k

/-- The slots of the score that holds the group are there for every block (R316). -/
def State.msgSlots (s : State) (f : FabGroup) (m : Msg) (write : Bool) : Bool :=
  if m.gddr then match (s.score f.score).pkg with
    | some q => q.gslots.any fun y => y.1 == f.cls && (if write then 0 < y.2.2 else 0 < y.2.1)
    | none => false
  else (msgAddrs m).all fun a => s.slotFor a remoteKinds f.cls

/-- The Pewter map waits for the updates queued on an entry that a message names (R130). -/
def State.msgMapBusy (s : State) (m : Msg) : Bool :=
  !m.gddr && (msgAddrs m).any fun a => inMap a && s.mapBusy (mapTile a) (mapEntry a)

/-- What the first message that has arrived on a group claims in stage memory: the fabric is source 9 and has no strand. -/
def State.msgClaim (s : State) (p g : Nat) : Option Claim :=
  let f := s.group p g
  match f.arrived with
  | m :: _ =>
    if (m.type == 1 || m.type == 2 || m.type == 6) && !m.gddr && s.msgSlots f m (m.type != 2) && !s.msgMapBusy m then
      claimAt m.addr.toNat remoteKinds ⟨f.cls, 64, 9⟩
    else none
  | [] => none

/-! ### Grants (R163, R164) -/

/-- The requesters of the resource of a claim among a list of claims. -/
def rivals (c : Claim) (l : List Claim) : List Req := (l.filter fun d => d.res == c.res && d.sub == c.sub).map (·.req)

/-- Every claim that stands in this cycle but those of the destination sides of transfers. -/
def State.firstClaims (s : State) : List Claim :=
  (s.strm.queues.filterMap fun p => s.srcClaim p.1) ++ ((List.range 32).filterMap s.fetchClaim) ++
    ((List.range 32).filterMap s.drainClaim) ++ (List.range 64).filterMap fun n => s.msgClaim (n / 4) (n % 4)

/-- Whether a claim is granted against those of its resource. -/
def State.grants (s : State) (l : List Claim) (c : Claim) : Bool := arbitrate (s.arbPtr c.res) (rivals c l) == some c.req

def State.grantsOpt (s : State) (l : List Claim) : Option Claim → Bool
  | some c => s.grants l c
  | none => true

/-- All claims of this cycle. The destination side of a transfer claims once its source side has won, so that two transfers never
hold each other back (DEDUCED, log 140). -/
def State.claims (s : State) : List Claim :=
  let l := s.firstClaims
  l ++ s.strm.queues.filterMap fun p => if s.grantsOpt l (s.srcClaim p.1) then s.dstClaim p.1 else none

/-- Whether a transfer wins both its sides. -/
def State.slotWins (s : State) (q : Nat) : Bool :=
  s.grantsOpt s.firstClaims (s.srcClaim q) && s.grantsOpt s.claims (s.dstClaim q)

/-- A claim is granted: the pointer of its resource moves on. -/
def State.grantTo (s : State) : Option Claim → State
  | some c => s.granted c.res c.req.source
  | none => s

def State.slotGranted (s : State) (q : Nat) : State := (s.grantTo (s.srcClaim q)).grantTo (s.dstClaim q)

/-- Some stream transfer or partner claims the map port of a tile. -/
def State.mapClaimed (s : State) (t : Nat) : Bool :=
  s.claims.any (·.res == keyMap t) || s.strm.queues.any fun p => (s.dstClaim p.1).any (·.res == keyMap t)

/-- The work of one claim, done when it is granted. -/
def State.whenGranted (s : State) (c : Option Claim) (act : State → State) : State :=
  if s.grantsOpt s.claims c then act (s.grantTo c) else s

/-! ### IMAGE_FETCH and DRAIN_READ_END (R128, R184) -/

/-- IMAGE_FETCH (R184). -/
def execImageFetch (t : TileId) (s : State) : Host.Outcome State Fault Refusal :=
  .next (s.whenGranted (s.fetchClaim t) (·.imageFetch t))

/-- DRAIN_READ_END (R128). -/
def execDrainReadEnd (t : TileId) (s : State) : Host.Outcome State Fault Refusal :=
  .next (s.whenGranted (s.drainClaim t) (·.drainReadEnd t))

end Sys2Proof.Machine
end

