-- ==== Sys2Proof/Machine/Aperture.lean ====
section
/-! DEFINITION. Accesses that rank after every stream transfer: the diagnostic aperture on stage memory and the Pewter map, and the
map's own 8-byte accesses (R14, R27, R129 to R131, R206). -/

namespace Sys2Proof.Machine

/-! ### PEWTER_MAP_ACCESS (R129 to R131) -/

/-- PEWTER_MAP_ACCESS: one aligned 8-byte access of a stream or of the aperture to a row word. What a read returns is
the word, or zeros where it is refused (R129 to R131, R206). -/
def State.mapAccess (s : State) (r : MapRequester) (t off : Nat) (wr : Option (BitVec 64)) (mark : Mark) : State :=
  let e := off / 0x1000
  let row := off % 0x1000 / 8
  let give := fun (s : State) (w : Nat) => { s with link := { s.link with read := leBytes 8 w } }
  if off % 8 ≠ 0 ∨ s.mapBusy t e ∨ (r = .aperture ∧ s.mapClaimed t) then s
  else match r, wr with
    | .stream i, none =>
      if s.mapOpen t e i then give s ((s.tile t).mapWord e row) else give s.refusedRead.2 0
    | .stream i, some v =>
      if s.mapOpen t e i then s.setTile t (((s.tile t).mapWrite e row v.toNat).carryMark e (row / 16) mark)
      else s.droppedWrite 0xFFFF i (0x18000000 + 0x400000 * t + off)
    | .aperture, none => if s.mapVisible t then give s ((s.tile t).mapWord e row) else give s.refusedRead.2 0
    | .aperture, some _ => s.droppedWrite 0xFFFF 0 (0x18000000 + 0x400000 * t + off)

/-- PEWTER_MAP_ACCESS (R129, R130). -/
def execPewterMapAccess (r : MapRequester) (t : TileId) (off : BitVec 22) (wr : Option (BitVec 64)) (mark : Mark)
    (s : State) : Host.Outcome State Fault Refusal := .next (s.mapAccess r t off.toNat wr mark)

/-! ### The diagnostic aperture (R14, R27, R206) -/

/-- The stage address that an aperture offset shows. -/
def State.aperAddr (s : State) (off : Nat) : Nat := s.fld MEM_APER_BASE.base * 0x1000000 + off

/-- The result of an aperture read. -/
def State.aperGive (s : State) (bs : List Byte) : State := { s with link := { s.link with read := bs } }

/-- A refused aperture read: all ones, and counted (R206). -/
def State.aperRefuse (s : State) (len : Nat) : State :=
  (s.bump MEM_APER_BASE.refused).aperGive (List.replicate len 0xFF)

/-- The owner code of the remote slots that an aperture access to a granule uses: observability for a bound granule,
no one for another (R206). -/
def State.aperCode (s : State) (a : Nat) : BitVec 4 := if s.granScore a = 0 then 0 else 5

/-- The bytes of an aperture read that is served: as corrected, the marks left behind (R179). -/
def State.aperServe (s : State) (a len : Nat) : State :=
  let r := s.readBlock (a / 64 * 64)
  r.2.aperGive ((r.1.data.drop (a % 64)).take len)

/-- APERTURE_READ of `len` bytes within one 64-byte block. Where the slot is not there yet the read waits (R206). A read of the
Pewter map is served behind every stream transfer that claims its tile's port (R163), and one that is not an aligned 8-byte
access is refused (R130; DEDUCED, log 50). -/
def State.apertureRead (s : State) (off len : Nat) (slotFree : Bool) : State :=
  let a := s.aperAddr off
  if a < 0x17000000 then
    if !s.hasSlot a remoteKinds (s.aperCode a) then s.aperRefuse len
    else if slotFree then s.aperServe a len else s
  else if a < 0x18000000 then (if slotFree then s.aperServe a len else s)
  else if a < 0x20000000 then
    let t := mapTile a
    let e := mapEntry a
    if !s.mapVisible t ∨ a % 8 ≠ 0 ∨ len ≠ 8 then s.refusedRead.2.aperGive (List.replicate len 0)
    else if s.mapBusy t e || s.mapClaimed t then s
    else s.aperGive (leBytes 8 ((s.tile t).mapWord e (mapRow a)))
  else s.refusedRead.2.aperGive (List.replicate len 0)

/-- APERTURE_READ (R206). -/
def execApertureRead (off : BitVec 28) (len : Nat) (slotFree : Bool) (s : State) : Host.Outcome State Fault Refusal :=
  .next (s.apertureRead off.toNat len slotFree)

/-- APERTURE_WRITE: only granules bound to no score are written, in remote slots of no one; every other write is
dropped and raises a fault (R27, R206). A write of part of a block leaves the block's mark (log 26). -/
def State.apertureWrite (s : State) (off : Nat) (bs : List Byte) (slotFree : Bool) : State :=
  let a := s.aperAddr off
  if a < 0x17000000 ∧ s.granScore a = 0 ∧ s.hasSlot a remoteKinds 0 then
    if slotFree then
      (if bs.length = 64 ∧ a % 64 = 0 then s.writeBlock a ⟨bs, none⟩ else s.storeBytes a bs)
    else s
  else s.droppedWrite 0xFFFF 0 a

/-- APERTURE_WRITE (R206). -/
def execApertureWrite (off : BitVec 28) (bytes : List Byte) (slotFree : Bool) (s : State) :
    Host.Outcome State Fault Refusal := .next (s.apertureWrite off.toNat bytes slotFree)

end Sys2Proof.Machine
end

