-- ==== Sys2Proof/Machine/Streams.lean ====
section
/-! DEFINITION. Stream queues: starting, moving and completing transfers, stream buffers, remote windows, stream
faults, the wait-graph timer and GDDR7 retries (R181 to R205). -/

namespace Sys2Proof.Machine

/-- Replaces the `i`-th transfer of a queue. -/
def State.putXfer (s : State) (q i : Nat) (x : Transfer) : State :=
  s.setQueue q { s.queue q with xfers := (s.queue q).xfers.set i x }

/-- Room for the whole of a transfer at its destination (R195, R196). -/
def State.xferRoom (s : State) (x : Transfer) : Bool :=
  (match x.dstBufIdx with
    | some n => (s.sbuf n).present + (s.sbuf n).reserved + x.total ≤ (s.sbuf n).blocks
    | none => true) &&
  x.tiles.all fun t => (s.tile t).inbuf.length + 2 * (s.tile t).kept + (s.tile t).inRes + x.total ≤ 128

/-- Reserves the whole destination span (R204). -/
def State.reserve (s : State) (x : Transfer) : State :=
  let s1 := match x.dstBufIdx with
    | some n => s.setSbuf n { s.sbuf n with reserved := (s.sbuf n).reserved + x.total }
    | none => s
  x.tiles.foldl (fun s t => s.modTile t fun y => { y with inRes := y.inRes + x.total }) s1

def firstWaiting (l : List Transfer) : Option Nat := l.findIdx? fun x => !x.started

/-- A transfer has made its last read. The reads of a remote window are made when their replies are there. -/
def Transfer.readAll (x : Transfer) : Bool := x.next == x.total && (x.desc.srcSp != 2 || x.done == x.total)

/-- TRANSFER_START: the next transfer of a queue starts when the one before it has made its last read and its
destination has room for all of it; otherwise it waits (R191, R195, R196, R204). -/
def State.transferStart (s : State) (q : Nat) : State :=
  match firstWaiting (s.queue q).xfers with
  | none => s
  | some i =>
    match (s.queue q).xfers[i]? with
    | none => s
    | some x =>
      if !((s.queue q).xfers.take i).all (·.readAll) then s
      else if s.xferRoom x then (s.reserve x).putXfer q i { x with started := true, waitTick := none }
      else s.putXfer q i { x with waitTick := some (x.waitTick.getD s.tick) }

/-- TRANSFER_START (R191). -/
def execTransferStart (q : QueueId) (s : State) : Host.Outcome State Fault Refusal := .next (s.transferStart q)

/-- TRANSFER_COMPLETE: the oldest transfer of a queue has delivered every block (R138, R191). -/
def State.transferComplete (s : State) (q : Nat) : State :=
  match (s.queue q).xfers with
  | [] => s
  | x :: r =>
    if x.started ∧ x.done = x.total then (s.setQueue q { s.queue q with xfers := r }).jobDone x.bay x.job else s

/-- TRANSFER_COMPLETE (R138). -/
def execTransferComplete (q : QueueId) (s : State) : Host.Outcome State Fault Refusal := .next (s.transferComplete q)

/-! ### Stream fault records (R202, R203) -/

/-- The value half of a stream fault record. -/
def streamRecord (seq : Byte) (rsn kind q : Nat) (tag : Byte) (i : ScoreId) (c : Nat × Nat × Nat × Nat)
    (lin addr side win : Nat) : Nat :=
  seq.toNat * 2 ^ 248 + rsn * 2 ^ 244 + kind * 2 ^ 242 + q * 2 ^ 233 + tag.toNat * 2 ^ 225 + i.toNat * 2 ^ 209
    + c.1 % 65536 * 2 ^ 193 + c.2.1 % 65536 * 2 ^ 177 + c.2.2.1 % 65536 * 2 ^ 161 + c.2.2.2 % 65536 * 2 ^ 145
    + lin % 2 ^ 32 * 2 ^ 113 + addr % 2 ^ 48 * 2 ^ 65 + side * 2 ^ 64 + win * 2 ^ 58

/-- Writes a stream fault record with its complement, and raises the fault that points to it (R203, R453). -/
def State.streamFault (s : State) (q : Nat) (x : Transfer) (rsn kind lin addr side win : Nat) : State :=
  let i := (s.queue q).owner
  let v := streamRecord s.strm.seq rsn kind q x.tag i (x.desc.coords lin) lin addr side win
  let wr := s.fld STRM_FLT_PTR.wr
  let s1 : State := { s with strm := { s.strm with seq := s.strm.seq + 1 } }
  let s2 := if (wr + 1) % 1024 = s.fld STRM_FLT_PTR.rd then s1.setFlag STRM_FLT_PTR.ovf true
    else (s1.writeBlock (0x17EC0000 + 64 * wr) ⟨leBytes 32 v ++ leBytes 32 (2 ^ 256 - 1 - v), none⟩).setFld
      STRM_FLT_PTR.wr ((wr + 1) % 1024)
  s2.raise { cls := 3, code := kind + 1, act := 1, score := i, unit := q, arg0 := wr }

/-! ### Remote windows (R197 to R199, R324) -/

/-- The address of the entry of a window's offset (R197). -/
def transAt (w off : Nat) : Nat := 0x17CC0000 + 8 * (w * 4096 + off / 2 ^ 20)

/-- The entry of a window's offset; `none` where the block raises a translation fault (R197, R199). -/
def State.translate (s : State) (i : ScoreId) (w off : Nat) (write : Bool) : Option (Nat × Bool) :=
  let v := s.rwin w
  let e := decodeTrans (leNat (((s.blockAt (transAt w off / 64 * 64)).data.drop (transAt w off % 64)).take 8))
  if !v.valid || v.score != i || v.pages * 2 ^ 20 ≤ off || !e.v || (write && !e.wr) then none
  else some (e.frame + off % 2 ^ 20, e.gd)

/-- A translation may miss its cache, which is counted; the walk then reads the table, and an error that it finds there is
counted as any other (R179, R198). -/
def State.countWalk (s : State) (w off : Nat) : State :=
  let s1 := s.draw
  if Config.tlbMiss s.free then (s1.bump STRM_TLB_STAT.miss).countRead (transAt w off / 64 * 64) else s1

/-- Whether a wavelength group carries messages: up or degraded. -/
def FabGroup.carries (f : FabGroup) : Bool := f.state == 1 || f.state == 2

def State.winGroup (s : State) (w : Nat) : FabGroup := s.group (s.rwin w).port (s.rwin w).group
def State.setWinGroup (s : State) (w : Nat) (f : FabGroup) : State := s.setGroup (s.rwin w).port (s.rwin w).group f

/-- The number of blocks from `lin` on that one message carries: to the next 63-block boundary of the linear order,
and while the addresses at the partner follow one another (R309, log 27). -/
def State.runLen (s : State) (i : ScoreId) (w : Nat) (off : Nat → Nat) (write : Bool) : Nat → Nat → Nat → Nat
  | 0, _, _ => 0
  | n + 1, lin, a =>
    match s.translate i w (off lin) write with
    | some (b, _) =>
      if b = a then 1 + (if (lin + 1) % 63 = 0 then 0 else s.runLen i w off write n (lin + 1) (a + 64)) else 0
    | none => 0

/-- The data flits of a message of `n` blocks (R307). -/
def dataFlits (n : Nat) : Nat := (n - 3 + 3) / 4

/-- A message of a remote window (R307, R308). -/
def winMsg (f : FabGroup) (src : BitVec 12) (g type n : Nat) (tag : BitVec 32) (i : ScoreId) (gd : Bool) (a : Nat)
    (bs : List Block) : Msg :=
  ⟨BitVec.ofNat 8 type, f.partner, src, 0, f.cls, false, BitVec.ofNat 2 g, BitVec.ofNat 4 (dataFlits bs.length),
    BitVec.ofNat 6 n, tag, i, 0, 0, gd, BitVec.ofNat 48 a, bs⟩

def State.ownId (s : State) : BitVec 12 := BitVec.ofNat 12 (s.fld FAB_PID.id)
def State.nextTag (s : State) : State := { s with fab := { s.fab with nextTag := s.fab.nextTag + 1 } }

/-- Sends the write message that a transfer has filled (R309). -/
def State.flushWrite (s : State) (q i : Nat) (x : Transfer) : State :=
  if x.acc.isEmpty then s.putXfer q i x
  else
    let w := x.desc.dstWin.toNat
    let f := s.winGroup w
    let m := winMsg f s.ownId (s.rwin w).group 1 x.acc.length s.fab.nextTag (s.queue q).owner x.accAt.2 x.accAt.1 x.acc
    let s1 := s.setWinGroup w { f with
      out := f.out ++ [m], writes := f.writes ++ [⟨s.fab.nextTag, q, x.key, x.next - x.acc.length, x.acc.length⟩] }
    s1.nextTag.putXfer q i { x with acc := [] }

/-- Sends what a transfer's write message holds where a block translated to `at_` does not follow on it (R309; log 27). -/
def State.flushBefore (s : State) (q i : Nat) (x : Transfer) (at_ : Nat × Bool) : State :=
  if x.acc.isEmpty || (x.accAt.1 + 64 * x.acc.length, x.accAt.2) == at_ then s.putXfer q i x else s.flushWrite q i x

/-- Adds the block just read, translated to `at_`, to a transfer's write message, and sends the message when no further block
joins it. A block keeps the address that it was translated to (R198). -/
def State.accumulate (s : State) (q i : Nat) (x : Transfer) (at_ : Nat × Bool) (b : Block) : State :=
  let s1 := s.flushBefore q i x at_
  let z := ((s1.queue q).xfers[i]?).getD x
  let y := { z with next := z.next + 1, acc := z.acc ++ [b], accAt := if z.acc.isEmpty then at_ else z.accAt }
  let more := y.next < y.total && y.next % 63 != 0 &&
    (match s1.translate (s1.queue q).owner y.desc.dstWin.toNat (y.desc.dstOf y.next) true with
      | some c => c == (at_.1 + 64, at_.2)
      | none => false)
  if more then s1.putXfer q i y else s1.flushWrite q i y

/-! ### Delivery (R191, R195, R196, R200) -/

/-- Delivers block `lin` of a transfer to stage memory, a buffer, the Pewter map, GDDR7 or the input buffers of every tile that it
names (R84). -/
def State.deliverBlock (s : State) (q : Nat) (x : Transfer) (lin : Nat) (b : Block) : State :=
  if x.desc.dstSp = 3 then
    x.tiles.foldl (fun s t => s.modTile t fun y =>
      { y with inbuf := y.inbuf ++ [⟨if q < 256 then q % 32 else q - 256 + 32, b⟩], inRes := y.inRes - 1 }) s
  else if x.desc.dstSp = 1 then s.gddrWrite (x.desc.dstOf lin) b
  else match x.dstBufIdx with
    | some n => s.bufArrive n 1 b
    | none => s.stageWrite (x.desc.dstOf lin) b (s.queue q).owner q

/-- Takes blocks of a source buffer as read: those present now, and the others as they arrive (R205). -/
def State.discardSource (s : State) (x : Transfer) (n : Nat) : State :=
  match x.srcBufIdx with
  | none => s
  | some k =>
    let v := s.sbuf k
    let c := min v.present n
    s.setSbuf k { v with present := v.present - c, rd := (v.rd + c) % v.blocks, skip := v.skip + (n - c) }

/-- Delivers a transfer's remaining blocks as zeros with a mark, and takes the rest of its source as read (R202,
R205). -/
def State.deliverRest (s : State) (q i : Nat) (x : Transfer) (r : BitVec 4) : State :=
  let n := x.total - x.next
  let s0 := (s.discardSource x n).countMark r.toNat n
  if x.desc.dstSp = 2 then
    let s1 := s0.flushWrite q i x
    (List.range n).foldl (fun s k =>
      match (s.queue q).xfers[i]? with
      | none => s
      | some y =>
        match s.translate (s.queue q).owner y.desc.dstWin.toNat (y.desc.dstOf (x.next + k)) true with
        | some c => s.accumulate q i y c (zeroBlock (some r))
        | none => s.putXfer q i { y with next := y.next + 1, done := y.done + 1 }) s1
  else
    let s1 := (List.range n).foldl (fun s k => s.deliverBlock q x (x.next + k) (zeroBlock (some r))) s0
    s1.putXfer q i { x with next := x.total, done := x.done + n, waitTick := none }

/-! ### SLOT_ACCESS (R163, R164, R179, R181 to R183, R188, R191, R195, R199, R202, R324) -/

/-- A read through a remote window sends the next read request (R309). -/
def State.readRemote (s : State) (q i : Nat) (x : Transfer) : State :=
  let w := x.desc.srcWin.toNat
  let o := (s.queue q).owner
  let f := s.winGroup w
  if !f.carries then
    (if x.done = x.next then
      ((s.countMark 13).deliverBlock q x x.next (zeroBlock (some 13))).putXfer q i
        { x with next := x.next + 1, done := x.done + 1 }
     else s)
  else match s.translate o w (x.desc.srcOf x.next) false with
    | none =>
      if x.done = x.next then
        let s1 := ((s.countWalk w (x.desc.srcOf x.next)).bump STRM_TLB_STAT.flt).deliverRest q i x 11
        s1.streamFault q x 11 0 x.next (x.desc.srcOf x.next) 0 w
      else s
    | some (a, gd) =>
      if 8 ≤ (f.reads.filter (·.q == q)).length then s
      else
        let n := s.runLen o w x.desc.srcOf false (min 63 (x.total - x.next)) x.next a
        let m := winMsg f s.ownId (s.rwin w).group 2 n s.fab.nextTag o gd a []
        let s1 := (s.countWalk w (x.desc.srcOf x.next)).setWinGroup w { f with
          out := f.out ++ [m], reads := f.reads ++ [⟨s.fab.nextTag, q, x.key, x.next, n⟩] }
        s1.nextTag.putXfer q i { x with next := x.next + n }

/-- The block that a stage-side read takes, after the upset that the read finds (R179). -/
def State.takeStage (s : State) (q : Nat) (x : Transfer) (up : Upset) : Block × State :=
  match x.srcBufIdx with
  | some n =>
    let v := s.sbuf n
    let a := v.base + 64 * v.rd
    let s1 := s.upset a up
    let r := s1.readBlock a
    (r.1, r.2.setSbuf n { v with rd := (v.rd + 1) % v.blocks, present := v.present - 1 })
  | none =>
    let a := x.desc.srcOf x.next
    (if s.ownsStage a (s.queue q).owner then s.upset a up else s).stageRead a (s.queue q).owner

/-- A block read from stage memory goes to its destination (R181, R188, R199, R202, R324). -/
def State.moveStage (s : State) (q i : Nat) (x : Transfer) (up : Upset) (find : GddrFind) : State :=
  let o := (s.queue q).owner
  if x.desc.dstSp = 2 then
    let w := x.desc.dstWin.toNat
    if !(s.winGroup w).carries then
      let r := s.takeStage q x up
      r.2.putXfer q i { x with next := x.next + 1, done := x.done + 1 }
    else match s.translate o w (x.desc.dstOf x.next) true with
      | none =>
        let s1 := ((s.countWalk w (x.desc.dstOf x.next)).bump STRM_TLB_STAT.flt).deliverRest q i x 11
        s1.streamFault q x 11 0 x.next (x.desc.dstOf x.next) 1 w
      | some c =>
        let r := s.takeStage q x up
        (r.2.countWalk w (x.desc.dstOf x.next)).accumulate q i x c r.1
  else
    let r := s.takeStage q x up
    if x.desc.dstSp = 1 ∧ find.crcBad then
      let s1 : State := { r.2 with gddr := { r.2.gddr with
        retry := r.2.gddr.retry ++ [(x.desc.dstOf x.next / 64, q, some r.1)] } }
      s1.putXfer q i { x with next := x.next + 1 }
    else (r.2.deliverBlock q x x.next r.1).putXfer q i { x with next := x.next + 1, done := x.done + 1, waitTick := none }

/-- A block read from GDDR7; a CRC error is retried in the next maintenance slot (R188). -/
def State.moveGddr (s : State) (q i : Nat) (x : Transfer) (find : GddrFind) : State :=
  let a := x.desc.srcOf x.next
  if find.crcBad ∧ !s.gSpanZero a then
    { s with gddr := { s.gddr with retry := s.gddr.retry ++ [(a / 64, q, none)] } }
  else
    let r := s.gddrRead a find
    (r.2.deliverBlock q x x.next r.1).putXfer q i { x with next := x.next + 1, done := x.done + 1 }

/-- One block of the transfer that reads now. -/
def State.moveBlock (s : State) (q i : Nat) (x : Transfer) (up : Upset) (find : GddrFind) : State :=
  if x.desc.srcSp = 2 then s.readRemote q i x
  else if x.desc.srcSp = 1 then s.moveGddr q i x find
  else s.moveStage q i x up find

/-- SLOT_ACCESS: a slot serves the next block of a queue's transfer. A transfer that finds its source buffer empty
waits from now on. -/
def State.slotAccess (s : State) (q : Nat) (up : Upset) (find : GddrFind) : State :=
  match readingIdx (s.queue q).xfers with
  | none => s
  | some i =>
    match (s.queue q).xfers[i]? with
    | none => s
    | some x =>
      if !s.xferData q x then s.putXfer q i { x with waitTick := some (x.waitTick.getD s.tick) }
      else if (s.moving q).isNone || !s.slotWins q then s
      else (s.slotGranted q).moveBlock q i { x with waitTick := none } up find

/-- SLOT_ACCESS (R182). -/
def execSlotAccess (q : QueueId) (up : Upset) (find : GddrFind) (s : State) : Host.Outcome State Fault Refusal :=
  .next (s.slotAccess q up find)

/-! ### GDDR7_RETRY (R188) -/

/-- A read whose data go to an entry of the Pewter map with updates queued waits for them (R130). -/
def State.retryBusy (s : State) (q : Nat) (w : Option Block) : Bool :=
  w.isNone && match (readingIdx (s.queue q).xfers).bind fun i => (s.queue q).xfers[i]? with
    | some x => s.xferMapBusy x
    | none => false

/-- GDDR7_RETRY: the access that met a CRC error is made again, once. -/
def State.gddrRetry (s : State) (blk : Nat) (find : GddrFind) : State :=
  match s.gddr.retry.find? (·.1 == blk) with
  | none => s
  | some (_, q, w) =>
    if s.retryBusy q w then s else
    let a := 64 * blk
    let s0 : State := { s with gddr := { s.gddr with retry := s.gddr.retry.eraseP (·.1 == blk) } }
    let s1 := s0.bump MEM_GERR.retry
    match w with
    | none =>
      match readingIdx (s1.queue q).xfers with
      | none => s1
      | some i =>
        match (s1.queue q).xfers[i]? with
        | none => s1
        | some x =>
          let r := s1.gddrRead a find
          (r.2.deliverBlock q x x.next r.1).putXfer q i { x with next := x.next + 1, done := x.done + 1 }
    | some b =>
      let s2 := s1.gddrWriteLast a b find
      match (s2.queue q).xfers.findIdx? fun x => x.started && x.done < x.total with
      | none => s2
      | some i =>
        match (s2.queue q).xfers[i]? with
        | none => s2
        | some x => s2.putXfer q i { x with done := x.done + 1 }

/-- GDDR7_RETRY (R188). -/
def execGddr7Retry (blk : BitVec 30) (find : GddrFind) (s : State) : Host.Outcome State Fault Refusal :=
  .next (s.gddrRetry blk.toNat find)

/-! ### WAIT_GRAPH_CUT (R204, R205) -/

/-- The transfer of a queue that waits, with its place. -/
def waitingIdx (l : List Transfer) : Option Nat := l.findIdx? fun x => !x.started || x.next < x.total

/-- The queue whose progress a queue's transfer waits on: the consumer of a full buffer, the producer of an empty one
(R205). -/
def State.waitsOn (s : State) (q : Nat) : Option Nat :=
  match waitingIdx (s.queue q).xfers with
  | none => none
  | some i =>
    match (s.queue q).xfers[i]? with
    | none => none
    | some x =>
      if x.started then
        match x.srcBufIdx with
        | some n => if (s.sbuf n).present = 0 then some (globalQueue x.bay (s.sbuf n).prod) else none
        | none => none
      else match x.dstBufIdx with
        | some n => if s.xferRoom x then none else some (globalQueue x.bay (s.sbuf n).cons)
        | none => none

/-- A member of a cycle that has waited for the timer's time. -/
def State.waitedLong (s : State) (q : Nat) : Bool :=
  match (waitingIdx (s.queue q).xfers).bind fun i => (s.queue q).xfers[i]? with
  | some x => (match x.waitTick with | some t => t + s.fld STRM_WG_TMO.tmo ≤ s.tick | none => false)
  | none => false

/-- Whether the members wait on one another in a cycle, in the order given. -/
def State.isCycle (s : State) (l : List Nat) : Bool :=
  match l with
  | [] => false
  | q :: r => (l.zip (r ++ [q])).all fun p => s.waitsOn p.1 == some p.2 && s.waitedLong p.1

/-- The rank of a member as a victim: spare, then started, then the higher number (R205). -/
def State.victimRank (s : State) (q : Nat) : Nat :=
  match (waitingIdx (s.queue q).xfers).bind fun i => (s.queue q).xfers[i]? with
  | some x => (if x.cls = .spare then 2048 else 0) + (if x.started then 1024 else 0) + q
  | none => 0

def State.victim (s : State) (l : List Nat) : Nat :=
  l.foldl (fun a q => if s.victimRank a < s.victimRank q then q else a) (l.headD 0)

/-- Cuts a transfer (R205). -/
def State.cutTransfer (s : State) (q : Nat) : State :=
  match waitingIdx (s.queue q).xfers with
  | none => s
  | some i =>
    match (s.queue q).xfers[i]? with
    | none => s
    | some x =>
      let side := if x.started then 0 else 1
      let addr := (if x.started then s.srcStage x else s.dstStage x).getD 0
      let s1 := if x.started then s.deliverRest q i x 12
        else (s.discardSource x x.total).putXfer q i
          { x with started := true, next := x.total, done := x.total, waitTick := none }
      (s1.streamFault q x 12 1 x.next addr side 0).bump STRM_WG_TMO.cuts

/-- WAIT_GRAPH_CUT: one member of a cycle whose members have all waited for STRM_WG_TMO is cut (R205). -/
def execWaitGraphCut (members : List QueueId) (s : State) : Host.Outcome State Fault Refusal :=
  .next (let l := members.map (·.val)
         if s.isCycle l then s.cutTransfer (s.victim l) else s)

end Sys2Proof.Machine
end

