-- ==== Sys2Proof/Machine/RegAccess.lean ====
section
/-! DEFINITION. Writes by access code, and the host's writes to a tile's and a bay's own controls (R9, R62, R63, R65,
R70, R113, R174, R486). -/

namespace Sys2Proof.Machine

/-! ### Access codes (R8, R9, R486) -/

/-- The effect of a written word on one field. -/
def State.writeField (off : Nat) (v : Word) (s : State) (f : RegField) : State :=
  let g : Fld := ⟨off, f.hi, f.lo⟩
  let n := bits v.toNat f.hi f.lo
  match f.acc with
  | .rw => s.setFld g n
  | .w1c => s.setFld g (s.fld g - (s.fld g &&& n))
  | .cnt => if n = 0 then s.setFld g 0 else s
  | .ro | .wo | .rwp => s

/-- A 32-bit write to the register at an offset by its fields' access codes; an unlisted offset ignores it (R9,
R482). -/
def State.rawWrite (s : State) (off : Nat) (v : Word) : State :=
  match regSpec off with
  | none => s
  | some r => r.fields.foldl (State.writeField off v) s

/-! ### Plane controls in bay debug state (R65) -/

/-- A request for a load of zero codes is held until the load queue takes it. -/
def State.zeroIdle (s : State) (t : Nat) : State :=
  if s.bayState (t / 4) = 5 then (s.modTile t fun x => { x with zeroReq := true }).settle t else s

/-- ZERO_IDLE (R65). -/
def execZeroIdle (t : TileId) (s : State) : Host.Outcome State Fault Refusal := .next (s.zeroIdle t)

/-- A request for a swap is held until the window queue takes it. -/
def State.swapRequest (s : State) (t : Nat) : State :=
  if s.bayState (t / 4) = 5 then (s.modTile t fun x => { x with swapReq := true }).settle t else s

/-- SWAP (R65). -/
def execSwap (t : TileId) (s : State) : Host.Outcome State Fault Refusal := .next (s.swapRequest t)

/-! ### Captures (R62, R63) -/

/-- The bytes that a capture writes. -/
def captureBytes (mode count : Nat) : Nat := if mode = 0 then count + 1 else 512 * (count + 1)

/-- Whether every bank of a range has an observability slot of the kinds. -/
def State.obsSlots (s : State) (a n : Nat) (kinds : List Nat) : Bool :=
  (List.range ((a + n - 1) / 0x400000 - a / 0x400000 + 1)).all fun k =>
    s.hasSlot ((a / 0x400000 + k) * 0x400000) kinds 5

/-- Whether a capture with the tile's settings is accepted. -/
def State.captureOk (s : State) (t : Nat) : Bool :=
  let mode := s.fld (TILE_CAPT_CTL.mode.on t)
  let count := s.fld (TILE_CAPT_CTL.count.on t)
  let a := 64 * s.fld (TILE_CAPT_ADDR.addr.on t)
  let i := s.bayScore (t / 4)
  mode < 2 && (mode == 0 || count < 128) && i != 0 && s.rangeBound a (captureBytes mode count) i &&
    s.obsSlots a (captureBytes mode count) writeKinds

/-- A write of TILE_CAPT_CTL; with start set, a capture begins with the next window issued, or is refused. -/
def State.capture (s : State) (t : Nat) (v : Word) : State :=
  let s1 := s.rawWrite (TILE_CAPT_CTL.start.on t).off v
  if !v.getLsbD 30 then s1
  else if s1.captureOk t then
    s1.modTile t fun x => { x with capLeft := s1.fld (TILE_CAPT_CTL.count.on t) + 1, capOff := 0 }
  else s1.setFlag (TILE_CAPT_CTL.err.on t) true

/-- CAPTURE (R62, R63). -/
def execCapture (t : TileId) (v : Word) (s : State) : Host.Outcome State Fault Refusal := .next (s.capture t v)

/-! ### Generator seeds (R70, R113) -/

/-- DITHER_SEED_WRITE: the new state takes effect at the next window boundary (R70). -/
def execDitherSeedWrite (t : TileId) (v : Word) (s : State) : Host.Outcome State Fault Refusal :=
  .next ((s.setReg (TILE_DITH_SEED.seed.on t).off v).modTile t fun x => { x with reseed := some v })

/-- The seed of TILE_PEW_SEED. -/
def State.pewSeed (s : State) (t : Nat) : BitVec 64 :=
  seed64 (BitVec.ofNat 64 (s.fld (TILE_PEW_SEED_LO.seed_lo.on t) + 2 ^ 32 * s.fld (TILE_PEW_SEED_HI.seed_hi.on t)))

/-- Both generators of a tile take their state from the seed. -/
def State.loadGens (s : State) (t : Nat) : State := s.modTile t fun x => { x with gen := s.pewSeed t, hop := s.pewSeed t }

/-- A write of TILE_PEW_SEED_HI, acted on while the bay is free, bound or in debug state. -/
def State.pewterSeed (s : State) (t : Nat) (v : Word) : State :=
  let b := s.bayState (t / 4)
  if b = 1 ∨ b = 2 ∨ b = 5 then (s.setReg (TILE_PEW_SEED_HI.seed_hi.on t).off v).loadGens t else s

/-- PEWTER_SEED_WRITE (R113). -/
def execPewterSeedWrite (t : TileId) (v : Word) (s : State) : Host.Outcome State Fault Refusal :=
  .next (s.pewterSeed t v)

/-- What the last host read returned. -/
def State.give (s : State) (bs : List Byte) : State := { s with link := { s.link with read := bs } }

/-- A read of TILE_PEW_STATE_LO returns the lower half of the update generator's state and latches the upper. -/
def State.pewterState (s : State) (t : Nat) : State :=
  let g := (s.tile t).gen.toNat
  (s.setReg (TILE_PEW_STATE_HI.state_hi.on t).off (BitVec.ofNat 32 (g / 2 ^ 32))).give (leBytes 4 g)

/-- PEWTER_STATE_READ (TILE_PEW_STATE_LO). -/
def execPewterStateRead (t : TileId) (s : State) : Host.Outcome State Fault Refusal := .next (s.pewterState t)

/-! ### The trace ring (R174) -/

/-- Whether a ring of `n` bytes is aligned and lies wholly in granules of a score. -/
def State.ringOk (s : State) (a n : Nat) (i : ScoreId) : Bool := a % n == 0 && s.rangeBound a n i

/-- A write of BAY_TRACE_CTL. An enable starts at record 0 (log 30). -/
def State.traceWrite (s : State) (b : Nat) (v : Word) : State :=
  let off := (BAY_TRACE_CTL.en.on b).off
  let i := s.bayScore b
  if !v.getLsbD 31 then s.rawWrite off v
  else if (s.bay b).anyRun then s
  else if i != 0 && s.ringOk (64 * s.fld (BAY_TRACE_ADDR.addr.on b)) (2 ^ (bits v.toNat 3 0 + 10)) i then
    (s.rawWrite off v).setFld (BAY_TRACE_PTR.next.on b) 0
  else s.setFlag (BAY_TRACE_CTL.en.on b) false

/-- TRACE_ENABLE (R174). -/
def execTraceEnable (b : BayId) (v : Word) (s : State) : Host.Outcome State Fault Refusal := .next (s.traceWrite b v)

end Sys2Proof.Machine
end

