-- ==== Sys2Proof/Machine/Guard.lean ====
section
/-! DEFINITION. The Guard: its limits, its faults, the emission lock, and the forcing of trim outputs with the pauses
that it makes (R277, R287, R290 to R297, R444, R445). -/

namespace Sys2Proof.Machine

/-! ### Limits (R433, R444, R458) -/

/-- The classes of trim outputs that an engine drives (R288). -/
def classOnEngine (c e : Nat) : Bool := if e < 8 then c < 3 else if e = 8 then c = 3 || c = 4 else e = 9 && c = 5

/-- Whether an index names a limit that takes commits. -/
def guardIndex (i : Nat) : Bool :=
  i < 7 || (8 ≤ i && i < 12) || (16 ≤ i && i < 76 && classOnEngine ((i - 16) / 10) ((i - 16) % 10))

/-- Default values in the units of the limit. -/
def guardDefault (i : Nat) : Nat :=
  [520, 80, 100, 1700, 640, 2048, 8192, 0, 95, 110, 75, 105].getD i 0

def dGuard : Nat → GuardLim := fun i => ⟨BitVec.ofNat 32 (guardDefault i), ~~~BitVec.ofNat 32 (guardDefault i)⟩

def State.guardPair (s : State) (i : Nat) : GuardLim := Tab.get dGuard s.sec.guard i

/-- The value that the Guard enforces: for a stored pair in disagreement the more restrictive of the two readings, and
0 for a safe code (R458). Every limit is an upper one, so that the lower reading is the more restrictive. -/
def State.guardLim (s : State) (i : Nat) : Nat :=
  let p := s.guardPair i
  if p.cmpl = ~~~p.val then p.val.toNat
  else if 16 ≤ i then 0
  else min p.val.toNat (~~~p.cmpl).toNat

/-- The throttle threshold of a class in °C (THM_LIM0 to THM_LIM3). -/
def State.throttleAt (s : State) (c : Nat) : Nat := s.fld (THM_LIM.thr.nth c)

/-- The range that a commit must lie in: trip thresholds from throttle + 5 K up to their default, which keeps the order
of R433. -/
def State.guardBound (s : State) (i v : Nat) : Bool :=
  if i = 0 then v ≤ 600
  else if i = 1 then v ≤ 80
  else if i = 2 then v ≤ 100
  else if i = 3 then v ≤ 1850
  else if i = 4 then v ≤ 700
  else if i = 5 then 1 ≤ v && v ≤ 4096
  else if i = 6 then 1 ≤ v && v ≤ 16384
  else if 8 ≤ i ∧ i < 12 then s.throttleAt (i - 8) + 5 ≤ v && v ≤ guardDefault i
  else if (i - 16) / 10 = 2 ∨ (i - 16) / 10 = 4 then v ≤ 65535
  else v ≤ 16384

/-- Extends a measurement register with a 64-byte datum (R438). -/
def State.extend (s : State) (n : Nat) (d : List Byte) : State :=
  let old := Tab.get (fun _ => List.replicate 64 (0 : Byte)) s.sec.meas n
  { s with sec := { s.sec with
      meas := Tab.set (fun _ => List.replicate 64 (0 : Byte)) s.sec.meas n (Config.shake256 (old ++ d))
      exts := Tab.set dZero s.sec.exts n (min (Tab.get dZero s.sec.exts n + 1) 65535) } }

/-- The 64-byte datum of a limit commit: index, value and complement, zero-filled (log 32). -/
def limitDatum (i : Nat) (v c : Word) : List Byte := leBytes 64 (i + v.toNat * 2 ^ 32 + c.toNat * 2 ^ 64)

/-- A stored limit, with the field of THM_LIM0 to THM_LIM3 that shows a trip threshold. -/
def State.setGuard (s : State) (i : Nat) (v c : Word) : State :=
  let s1 : State := { s with sec := { s.sec with guard := Tab.set dGuard s.sec.guard i ⟨v, c⟩ } }
  if 8 ≤ i ∧ i < 12 then s1.setFld (THM_LIM.trip.nth (i - 8)) v.toNat else s1

/-- A commit through firmware's port (R10, R11, R444): made only as a whole pair, within the bound, and not by the
recovery image (R443). Index 4 is extended (R436). -/
def State.commitLimit (s : State) (i : Nat) (v c : Word) : State :=
  if c ≠ ~~~v then s.raise { cls := 4, code := 1, unit := 0xFF, arg0 := i, arg1 := v.toNat, arg2 := c.toNat }
  else if guardIndex i && s.guardBound i v.toNat && !s.flag SEC_BOOT.rec then
    (s.setGuard i v c).extend 4 (limitDatum i v c)
  else s.raise { cls := 4, code := 2, unit := 0xFF, arg0 := i, arg1 := v.toNat, arg2 := c.toNat }

/-- GUARD_LIMIT_COMMIT (R444). -/
def execGuardLimitCommit (idx : BitVec 7) (v cmpl : Word) (s : State) : Host.Outcome State Fault Refusal :=
  .next (s.commitLimit idx.toNat v cmpl)

/-! ### Pauses (R262, R295, R387) -/

/-- A pause of a bay takes effect at each tile's next boundary: while a bay pauses no tile of it issues (see
`tileHeld`). It lasts until BAY_RESUME. -/
def State.pause (s : State) (b : Nat) (f : Bay → Bay) : State := s.modBay b f

/-- What puts the loops of a rebinding bay outside their band: 1 a thermal excursion, 2 a wake, 3 a fault; the first one
counts (R40, log 135). -/
def State.noteUpset (s : State) (b why : Nat) : State :=
  if s.bayState b = 4 ∧ (s.bay b).upset = 0 then s.modBay b fun y => { y with upset := BitVec.ofNat 2 why } else s

/-- A pause by forcing, with the trim fault that names the output and the cause (R295, R453). -/
def State.pauseForced (s : State) (b out why : Nat) : State :=
  ((s.pause b fun y => { y with pauseTrim := true }).noteUpset b 3).raise
    { cls := 6, code := 2, act := 4, score := s.bayScore b, unit := out, arg0 := why }

/-- A cause that forces every output comes into force and pauses every bay: the first output of the bay's engine is named
(log 33). -/
def State.forceAll (s : State) (why : Nat) : State :=
  (List.range 8).foldl (fun s b => s.pauseForced b (608 * b) why) s

/-- Whether a cause forces every output (R291). -/
def State.allForced (s : State) : Bool := s.pins.powForce || s.pins.pinForce || s.flag GUARD_STAT.flt
def State.isForced (s : State) (o : Nat) : Bool := s.allForced || (s.trimOut o).rb

/-- TRIM_OUT.why: the lowest cause in force. -/
def State.whyForced (s : State) (o : Nat) : Nat :=
  if s.pins.powForce then 1 else if s.pins.pinForce then 2 else if s.flag GUARD_STAT.flt then 3
  else if (s.trimOut o).rb then 4 else 0

/-- Byte 3 of STATUS (R375): Guard fault, trip, window stall, heartbeat missing, an output forced, link down. -/
def State.alertBits (s : State) : Byte :=
  BitVec.ofNat 8 ((s.flag GUARD_STAT.flt).toNat + 2 * (s.flag THM_TRIP.latched).toNat + 4 * (s.flag CMD_STAT.stall).toNat +
    8 * s.link.heart.toNat + 16 * (s.allForced || s.trims.any fun p => p.2.rb).toNat + 32 * (!s.link.up).toNat)

/-- A bit of byte 3 that has cleared asserts ALERT_N again when it sets (R377). -/
def State.settleAlert (s : State) : State := { s with link := { s.link with alerted := s.link.alerted &&& s.alertBits } }

/-! ### Guard faults (R287, R291, R323, R431, R444, R445) -/

/-- The receive and transmit directions of every group of every port go down while filters and biases are forced
(R320, R323). -/
def State.portsDown (s : State) : State :=
  (List.range 16).foldl (fun s p => (List.range 4).foldl (fun s g =>
    let f := s.group p g
    if f.state = 0 then s else s.setGroup p g { f with state := 3 }) s) s

/-- A Guard fault: recorded, and every output forced. -/
def State.guardFault (s : State) (i unit : Nat) : State :=
  let s1 := (s.setBitOf GUARD_STAT.flt i true).bump GUARD_FLT_LAST.count
  let s2 := ((s1.setFlag GUARD_FLT_LAST.valid true).setFld GUARD_FLT_LAST.idx i).setFld GUARD_FLT_LAST.unit unit
  ((if s.flag GUARD_STAT.flt then s2 else s2.forceAll 3).portsDown).raise { cls := 7, code := i, act := 4, unit := unit }

/-- HEATER_CURRENT_FAULT: a current above limit 3 or 4 for four consecutive samples (R444). -/
def execHeaterCurrentFault (t : Option TileId) (s : State) : Host.Outcome State Fault Refusal :=
  .next (match t with
    | some t => s.guardFault 1 t.val
    | none => s.guardFault 2 0)

end Sys2Proof.Machine
end

