-- ==== Sys2Proof/Machine/Loops.lean ====
section
/-! DEFINITION. The law of a stabilisation loop in one sample: stage formats, records, profile generator, gain regions,
terms, hand-over and supervision (R237 to R260), and the tone generators (R298, R299). -/

namespace Sys2Proof.Machine

/-! ### Stage formats and records (R242, R245, R246) -/

def pow2 (n : Int) : Rat := if 0 ≤ n then ((2 ^ n.toNat : Nat) : Rat) else 1 / ((2 ^ (-n).toNat : Nat) : Rat)

/-- Rounds a value to a stage of exponent `x` with `extra` bits below its LSB, halves up, and clamps it to the
mantissa range; the second component says whether it was clamped. -/
def stageX (x extra : Nat) (v : Rat) : Rat × Bool :=
  let q := pow2 ((x : Int) - 40 - extra)
  let m := roundUp (v / q)
  let c := clampI m (-(131072 * 2 ^ extra)) (131072 * 2 ^ extra - 1)
  (c * q, c != m)
def stage (x : Nat) (v : Rat) : Rat := (stageX x 0 v).1

/-- A field of a record. -/
def fieldOf (c : BitVec 256) (hi lo : Nat) : Nat := bits c.toNat hi lo
/-- An 18-bit mantissa of a record at a stage's exponent. -/
def mantOf (c : BitVec 256) (hi lo x : Nat) : Rat := signed 18 (fieldOf c hi lo) * pow2 ((x : Int) - 40)
/-- A gain: its exponent in the upper six bits, its mantissa in the lower 18. -/
def gainOf (c : BitVec 256) (lo : Nat) : Rat :=
  signed 18 (fieldOf c (lo + 17) lo) * pow2 ((fieldOf c (lo + 23) (lo + 18) : Int) - 40)
/-- A filter coefficient (R245). -/
def filterOf (c : BitVec 256) (lo : Nat) : Rat := ((fieldOf c (lo + 15) lo : Nat) + 1 : Rat) / 65536

def Loop.record (L : Loop) (n : Nat) : BitVec 256 := Tab.get dZero L.recs n
def Loop.conf (L : Loop) : BitVec 256 := L.record 8
/-- 0 zone, 1 lock-in, 2 drive, 3 slot unused. -/
def Loop.kind (L : Loop) : Nat := fieldOf L.conf 43 42
def Loop.xE (L : Loop) : Nat := fieldOf L.conf 5 0
def Loop.xP (L : Loop) : Nat := fieldOf L.conf 11 6
def Loop.xI (L : Loop) : Nat := fieldOf L.conf 17 12
def Loop.xD (L : Loop) : Nat := fieldOf L.conf 23 18
def Loop.xF (L : Loop) : Nat := fieldOf L.conf 29 24
def Loop.xS (L : Loop) : Nat := fieldOf L.conf 35 30
def Loop.xO (L : Loop) : Nat := fieldOf L.conf 41 36
def Loop.nco (L : Loop) : Nat := fieldOf L.conf 47 44
def Loop.ffv (L : Loop) : Bool := fieldOf L.conf 48 48 == 1
def Loop.sgn (L : Loop) : Bool := fieldOf L.conf 49 49 == 1
def Loop.excField (L : Loop) : Bool := fieldOf L.conf 50 50 == 1
def Loop.link (L : Loop) : Nat := fieldOf L.conf 60 52
def Loop.omin (L : Loop) : Rat := mantOf L.conf 81 64 L.xO
def Loop.omax (L : Loop) : Rat := mantOf L.conf 99 82 L.xO
def Loop.hband (L : Loop) : Rat := mantOf L.conf 117 100 L.xS
def Loop.hwait (L : Loop) : Nat := fieldOf L.conf 133 118
def Loop.fband (L : Loop) : Rat := mantOf L.conf 151 134 L.xE
def Loop.elim (L : Loop) : Rat := mantOf L.conf 169 152 L.xE
def Loop.ftmr (L : Loop) : Nat := fieldOf L.conf 185 170
def Loop.sweep (L : Loop) : Rat := mantOf L.conf 203 186 L.xS
def Loop.tband (L : Loop) : Rat := (signed 18 (fieldOf L.conf 221 204) : Rat) / 1024
def Loop.cmax (L : Loop) : Rat := mantOf L.conf 239 222 L.xE
def Loop.tsel (L : Loop) : Nat := fieldOf L.conf 246 240

def absR (x : Rat) : Rat := if x < 0 then -x else x
def clampR (v lo hi : Rat) : Rat := if v < lo then lo else if hi < v then hi else v
def signR (x : Rat) : Rat := if x < 0 then -1 else if 0 < x then 1 else 0

/-! ### The supply (R240) -/

/-- g_v for a supply in mV, computed at the nearer limit outside 1.50 V to 2.10 V. -/
def gvOf (mv : Nat) : Rat :=
  let v := max 1500 (min 2100 mv)
  (1800 / (v : Rat)) * (1800 / (v : Rat))

/-- g_v of a loop. -/
def Loop.gv (L : Loop) (mv : Nat) : Rat := if L.ffv then gvOf mv else 1

/-! ### The profile generator (R248, R249) -/

/-- r and v are kept to 2^-16 of a target unit of 2^-12 (log 34). -/
def keep28 (x : Rat) : Rat := (roundUp (x * 2 ^ 28) : Rat) / 2 ^ 28

/-- The acceleration of one sample. -/
def profileAcc (xt r v vmax amax : Rat) : Rat :=
  let d := xt - r
  if d = 0 ∧ v = 0 then 0
  else if v ≠ 0 ∧ v * d ≤ 0 then -(signR v) * amax
  else if 2 * amax * absR d ≤ v * v then
    -(signR v) * (if v * v / (2 * absR d) < amax then v * v / (2 * absR d) else amax)
  else if absR v < vmax then signR d * amax
  else 0

/-- One sample of the generator: r, v and a. -/
def profileStep (tgt : BitVec 24) (prof : Word) (r v : Rat) : Rat × Rat × Rat :=
  let xt : Rat := (tgt.toInt : Rat) / 4096
  let vmax : Rat := (bits prof.toNat 15 0 : Rat) / 2 ^ 20
  let amax : Rat := (bits prof.toNat 31 16 : Rat) / 2 ^ 28
  let a := profileAcc xt r v vmax amax
  let v1 := keep28 (clampR (v + a) (-vmax) vmax)
  let r1 := keep28 (r + (v + v1) / 2)
  if absR (xt - r1) ≤ amax ∧ absR v1 ≤ amax then (xt, 0, 0) else (r1, v1, a)

/-- Whether the generator ramps. -/
def Loop.ramping (L : Loop) : Bool :=
  if L.mode == .manual then L.mr != (L.mtgt.toInt : Rat) / 4096 else L.r != (L.target.toInt : Rat) / 4096

/-- Moves both working set-points (R249); while a stored pair disagrees, they stay (R458). -/
def Loop.profile (L : Loop) : Loop :=
  if L.pairBad then { L with v := 0, a := 0, mv := 0 }
  else
  let p := profileStep L.target L.prof L.r L.v
  let q := profileStep L.mtgt L.prof L.mr L.mv
  { L with r := p.1, v := p.2.1, a := p.2.2, mr := q.1, mv := q.2.1 }

/-! ### Targets (R248) -/

/-- The range of a committed target in target units, at a supply and with the Guard's cap on mean line power in mW. -/
def Loop.range (L : Loop) (mv cap : Nat) : Int × Int :=
  if L.mode == .manual then (((L.omin / L.gv mv) * 4096).ceil, ((L.omax / L.gv mv) * 4096).floor)
  else if L.kind = 0 then (225280, 307200)
  else if L.kind = 1 then (-1024, 1024)
  else (0, min 327680 (4096 * (cap : Int)))

/-- Commits a target: clamped to its range, with clp set when it was (R248). -/
def Loop.setTarget (L : Loop) (mv cap : Nat) (tgt : BitVec 24) : Loop :=
  let w := L.range mv cap
  let c := clampI tgt.toInt w.1 w.2
  let L1 : Loop := { L with clp := c != tgt.toInt, pairBad := false }
  if L.mode == .manual then { L1 with mtgt := BitVec.ofInt 24 c } else { L1 with target := BitVec.ofInt 24 c }

/-! ### Gain regions (R243) -/

/-- What a loop takes from outside itself in a sample: its measurement, T_e, g_v, its hold baseline before rounding,
the pilot's O / g_v − b while the pilot is in TRACK, the excursion flag, the activity class, whether its sensor is
broken, whether its output is forced and its safe code in fractions of full scale, and whether its bay holds a running
sequence. -/
structure LoopIn where
  y       : Rat
  te      : Rat
  gv      : Rat
  base    : Rat
  corr    : Option Rat
  exc     : Bool
  ac      : Nat
  broken  : Bool
  forced  : Bool
  safe    : Rat
  running : Bool

def Loop.band (L : Loop) (te : Rat) : Bool :=
  if L.tband + 1 / 2 ≤ te then true else if te < L.tband - 1 / 2 then false else L.tb

/-- The region that TRACK selects. -/
def Loop.trackRegion (L : Loop) (x : LoopIn) : Nat :=
  if L.excField && x.exc then 6 else (if L.band x.te then 3 else 0) + x.ac

/-- The region whose measurement filter the sample uses; of region 7 only ay is used. -/
def Loop.sampleRegion (L : Loop) (x : LoopIn) : Nat := if L.mode == .acquire then 7 else L.trackRegion x

/-! ### The terms (R237 to R241) -/

structure Terms where
  yf : Rat
  c  : Rat
  e  : Rat
  p  : Rat
  i  : Rat
  d  : Rat
  f  : Rat
  s  : Rat
  sat : BitVec 7

/-- Saturation flags by stage, in the order of R242's table. -/
def satBits (l : List Bool) : BitVec 7 := BitVec.ofNat 7 (l.zipIdx.foldl (fun a p => a + p.1.toNat * 2 ^ p.2) 0)

/-- The correction of a zone loop (R239). -/
def Loop.corr (L : Loop) (g : BitVec 256) (x : LoopIn) : Rat :=
  if L.kind = 0 then
    match x.corr with
    | some v => clampR (gainOf g 120 * v) (-L.cmax) L.cmax
    | none => L.c
  else 0

/-- The integral stage stands at a limit in the direction of `v` (R238). -/
def Loop.intStuck (L : Loop) (v : Rat) : Bool :=
  let q := pow2 ((L.xI : Int) - 52)
  (decide (0 < v) && L.i == (131072 * 2 ^ 12 - 1) * q) || (decide (v < 0) && L.i == -(131072 * 2 ^ 12) * q)

/-- Whether integration stops in this sample (R238). -/
def Loop.frozen (L : Loop) (v : Rat) : Bool := L.clamped || L.held || L.intStuck v

/-- The terms with the gains and derivative filter of record `g`, the measurement filter of `ft` and temperature step `dt`,
and the stages that were clamped (R242). -/
def Loop.terms (L : Loop) (g ft : BitVec 256) (x : LoopIn) (dt : Rat) : Terms :=
  let yf := stageX L.xE 6 (L.yf + filterOf ft 144 * (x.y - L.yf))
  let yv := stageX L.xE 0 yf.1
  let c := L.corr g x
  let re := stageX L.xE 0 (L.r + c)
  let e := stageX L.xE 0 (re.1 - yv.1)
  let p := stageX L.xP 0 (gainOf g 0 * e.1)
  let ke := gainOf g 24 * e.1
  let i := if L.frozen ke then (L.i, false) else stageX L.xI 12 (L.i + ke)
  let d := stageX L.xD 6 (L.d + filterOf g 160 * (-(gainOf g 48) * (yv.1 - stage L.xE L.yf) - L.d))
  let f := stageX L.xF 0 (gainOf g 72 * L.a + gainOf g 96 * dt)
  let s := stageX L.xS 0 (p.1 + stage L.xI i.1 + stage L.xD d.1 + f.1)
  ⟨yf.1, c, e.1, p.1, i.1, d.1, f.1, s.1, satBits [yf.2 || yv.2 || re.2 || e.2, p.2, i.2, d.2, f.2, s.2]⟩

/-- The terms of a sample, with the integral preset at a change of region in TRACK (R244). -/
def Loop.law (L : Loop) (x : LoopIn) : Terms :=
  let reg := L.trackRegion x
  let dt := if reg = 6 ∧ L.mode = .track ∧ L.region = 6 then x.te - L.te0 else 0
  let t := L.terms (L.record reg) (L.record (L.sampleRegion x)) x dt
  if L.mode = .track ∧ L.region.toNat ≠ reg then
    let old := L.terms (L.record L.region.toNat) (L.record (L.sampleRegion x)) x
      (if L.region = 6 then x.te - L.te0 else 0)
    { t with i := (stageX L.xI 12 (old.s - t.p - stage L.xD t.d - t.f)).1, s := old.s }
  else t

/-! ### Modes and hand-over (R252 to R257) -/

/-- δ after one sample of its decay (R255). -/
def Loop.decayed (L : Loop) : Rat :=
  let q := L.hband / 1024
  stage L.xS (if absR L.delta ≤ q then 0 else L.delta - signR L.delta * q)

/-- The modes that a kind permits. -/
def Mode.permitted (m : Mode) (kind : Nat) : Bool := m != .acquire || kind == 1

def Mode.code : Mode → Nat
  | .hold => 0
  | .acquire => 1
  | .track => 2
  | .manual => 3
def Mode.ofCode (n : Nat) : Mode := if n = 0 then .hold else if n = 1 then .acquire else if n = 2 then .track else .manual

/-- The sum of the mode that the loop is in, before any hand-over, and whether its stage was clamped. A sweep that has ended
at its crossing stays there while TRACK waits (R256). -/
def Loop.outgoingX (L : Loop) (b : Rat) (t : Terms) : Rat × Bool :=
  match L.mode with
  | .hold => stageX L.xS 0 (b + L.delta)
  | .manual => stageX L.xS 0 (L.mr + L.delta)
  | .acquire => if L.ended then (L.s, false) else stageX L.xS 0 (L.s + L.sweep)
  | .track => (t.s, t.sat.getLsbD 5)
def Loop.outgoing (L : Loop) (b : Rat) (t : Terms) : Rat := (L.outgoingX b t).1

/-- Into HOLD without the band check, with δ preset so that the sum stays (R254, R256, R257). -/
def Loop.toHold (L : Loop) (b so : Rat) : Loop :=
  { L with mode := .hold, pend := none, delta := stage L.xS (so - b), s := so }

/-- A hand-over takes effect (R254). -/
def Loop.enter (L : Loop) (m : Mode) (so b : Rat) (t : Terms) : Loop :=
  match m with
  | .track => { L with mode := .track, pend := none, s := so, i := (stageX L.xI 12 (so - t.p - stage L.xD t.d - t.f)).1 }
  | .hold => { L with mode := .hold, pend := none, s := so, delta := stage L.xS (so - b) }
  | .acquire => { L with mode := .acquire, pend := none, s := so, swept := 0, peak := false, ended := false }
  | .manual =>
    let n := roundUp (so * 4096)
    { L with mode := .manual, pend := none, s := so, before := some L.mode
             mtgt := BitVec.ofInt 24 n, mr := (n : Rat) / 4096, mv := 0, delta := stage L.xS (so - (n : Rat) / 4096) }

/-- The incoming mode's sum before preset (R254; for MANUAL, log 31). -/
def Loop.incoming (L : Loop) (m : Mode) (so b : Rat) (t : Terms) : Rat :=
  match m with
  | .track => t.p + stage L.xD t.d + t.f + (if L.mode = .acquire then so else b)
  | .hold => b
  | .acquire => so
  | .manual => (roundUp (so * 4096) : Rat) / 4096

/-- One sample of a waiting hand-over. Once hwait samples have passed the request waits for its cancelling. -/
def Loop.handOver (L : Loop) (so b : Rat) (t : Terms) : Loop :=
  match L.pend with
  | none => { L with s := so }
  | some m =>
    if max L.hwait 1 ≤ L.hcnt then { L with s := so }
    else if absR (so - L.incoming m so b t) ≤ L.hband ∨ m = .acquire then L.enter m so b t
    else { L with s := so, hcnt := L.hcnt + 1 }

/-- Whether the filtered measurement crosses zero in the direction that sgn gives the detector's sample: a lock-in loop has taken the
sign into its measurement (R256, log 14). -/
def Loop.crosses (L : Loop) (y0 y1 : Rat) : Bool :=
  if L.sgn && L.kind != 1 then decide (0 < y0) && decide (y1 ≤ 0) else decide (y0 < 0) && decide (0 ≤ y1)

/-- One sample of a sweep: its end at the crossing, its restart, and its failure (R256). The second component is the
acquire fault. Each sweep reaches its own magnitude. -/
def Loop.sweepStep (L : Loop) (x : LoopIn) (so b : Rat) (t : Terms) : Loop × List Nat :=
  let y0 := stage L.xE L.yf
  let y1 := stage L.xE t.yf
  let peak := L.peak || decide (4 * L.fband ≤ absR y1)
  if L.ended then (L.handOver so b t, [])
  else if L.peak ∧ L.crosses y0 y1 then ({ L with pend := some .track, hcnt := 0, ended := true }.handOver so b t, [])
  else if L.omax ≤ x.gv * so then
    if L.swept = 0 then ({ L with swept := 1, peak := false, s := stage L.xS (L.omin / x.gv) }, [])
    else ({ L.toHold b so with aflt := true }, [3])
  else ({ L.handOver so b t with peak := peak }, [])

/-- Out of band in a sample (R259). -/
def Loop.outOfBand (L : Loop) (x : LoopIn) : Bool :=
  match L.mode with
  | .track => decide (L.fband < absR L.e)
  | .acquire | .manual => true
  | .hold => x.running

/-- The output and the supervision of a sample (R237, R259, R260). -/
def Loop.finish (L : Loop) (x : LoopIn) : Loop :=
  let g := x.gv * L.s
  let o := stage L.xO (clampR g L.omin L.omax)
  let oob := L.outOfBand x
  { L with
    o := o, clamped := decide (g < L.omin) || decide (L.omax < g), oob := oob, fired := false
    sat := if (stageX L.xO 0 (clampR g L.omin L.omax)).2 then L.sat ||| 64 else L.sat
    count := if L.mode = .track then (if oob then L.count + 1 else 0) else 0
    inBand := if oob then 0 else L.inBand + 1 }

/-- One sample of a loop, and the codes of class 5 that it raises. While its output is forced it stands in HOLD with the sum
at the safe code; at the return δ is preset for the supply, so that its first code is the safe code (R293). A zone sensor that
breaks takes the loop to HOLD and ends a request that waits (R257). -/
def Loop.sample (L0 : Loop) (x : LoopIn) : Loop × List Nat :=
  let L := L0.profile
  let b := stage L.xS x.base
  let t := L.law x
  let reg := BitVec.ofNat 3 (L.sampleRegion x)
  let so := L.outgoing b t
  let law := L.mode == .track || L.pend == some .track
  let sums := (stageX L.xS 0 x.base).2 || (L.outgoingX b t).2
  let upd := fun (M : Loop) =>
    { M with
      sat := (if law then t.sat else t.sat &&& 1) ||| (if sums then 32 else 0), sensorBad := x.broken, forced := x.forced
      yf := t.yf, c := t.c, e := t.e, d := t.d, frz := L.frozen (gainOf (L.record (L.trackRegion x)) 24 * t.e)
      i := if M.mode = Mode.track ∧ L.mode = Mode.track then t.i else M.i
      te := x.te, te0 := if L.trackRegion x = 6 ∧ ¬ (L.mode = Mode.track ∧ L.region = 6) then x.te else L.te0, tb := L.band x.te
      region := if M.mode = Mode.track then BitVec.ofNat 3 (L.trackRegion x) else reg }
  if x.forced then
    let d := stage L.xS (x.safe - b)
    ({ (upd { L with mode := .hold, pend := none, delta := d, s := stage L.xS (b + d) }).finish x with o := x.safe }, [])
  else if L.forced then
    let d := stage L.xS (x.safe / x.gv - b)
    ((upd { L with delta := d, s := stage L.xS (b + d) }).finish x, [])
  else if x.broken ∧ L.kind = 0 ∧ (L.mode ≠ .hold ∨ !L.sensorBad) then ((upd (L.toHold b L.s)).finish x, [5])
  else if L.mode = .acquire then
    let r := L.sweepStep x so b t
    ((upd r.1).finish x, r.2)
  else
    let L1 := L.handOver so b t
    let decay := L1.mode == L.mode && (L.mode == .hold || L.mode == .manual)
    ((upd (if decay then { L1 with delta := L.decayed } else L1)).finish x, [])

/-! ### Temperatures and hold baselines (R253, R263, R419 to R423) -/

/-- The threshold class of a sensor. -/
def sensorClass (n : Nat) : Nat := if n < 512 then 0 else if n < 608 then 1 else if n < 616 then 2 else 3

/-- The sensor that a tsel value names. -/
def tselSensor (e n : Nat) : Option Nat :=
  if e < 8 then
    if n < 64 then some (64 * e + n) else if n < 74 then some (512 + 10 * e + (n - 64))
    else if n = 74 then some (608 + e) else none
  else if e = 8 then
    if n < 8 then some (592 + n) else if n = 8 then some 611 else if n = 9 then some 612 else none
  else if n < 8 then some (608 + n) else none

/-- T_e of a tsel value. A broken sensor stands at the throttle threshold of its class; a value outside the table reads
as a broken sensor of the engine's own place (log 39). -/
def State.tempOf (s : State) (e n : Nat) : Rat :=
  match tselSensor e n with
  | some g =>
    if (s.sensor g).broken then (s.throttleAt (sensorClass g) : Nat)
    else Tab.get (dZero (α := Rat)) (s.engine e).temps n
  | none => (s.throttleAt (if e < 8 then 0 else e - 7) : Nat)

/-- A number in stage memory as firmware reads it. -/
def State.stageNat (s : State) (a n : Nat) : Nat := leNat ((List.range n).map fun i => s.stageByte (a + i))

/-- The hold record of a loop: h0, h1 and th. -/
def State.holdRecord (s : State) (e l : Nat) : Option (Nat × Nat × Nat) :=
  if e < 8 then
    let x := s.tile (if l < 64 then 4 * e + l / 16 else 4 * e + (l - 64) / 8)
    let a := 0x500 + 32 * (if l < 64 then l % 16 else 16 + (l - 64) % 8)
    if x.tblOk then some (x.tableNat a 2, x.tableNat (a + 2) 2, x.tableNat (a + 4) 2) else none
  else
    let a := 0x17CA0000 + 0x10000 * (e - 8) + 32 * l
    if (s.blockAt (a / 64 * 64)).mark = none then some (s.stageNat a 2, s.stageNat (a + 2) 2, s.stageNat (a + 4) 2) else none

/-- The hold baseline before rounding (log 45). -/
def State.baseline (s : State) (e l : Nat) (te : Rat) : Rat :=
  match s.holdRecord e l with
  | some (h0, h1, th) => (h0 : Rat) / 2 ^ 16 + (signed 16 h1 : Rat) / 2 ^ 20 * (te - (th : Rat) / 2 ^ 8)
  | none => 0

/-- A loop is handed over to HOLD without the band check; its sum stays. -/
def State.holdNow (s : State) (e l : Nat) : State :=
  let L := s.loopOf e l
  s.setLoop e l (L.toHold (Machine.stage L.xS (s.baseline e l (s.tempOf e L.tsel))) L.s)

/-! ### Tone generators (R298, R299) -/

def piScaled : Int := 3797952473636338580787994

/-- The terms of the sine series in units of 2^-80: `n` terms left, term `t` of order 2k + 1. -/
def sineSeries : Nat → Int → Int → Int → Int
  | 0, _, _, _ => 0
  | n + 1, x, t, k => t + sineSeries n x (-(t * x / 2 ^ 80 * x / 2 ^ 80) / ((2 * k + 2) * (2 * k + 3))) (k + 1)

/-- The quarter-wave table: round(16,383 · sin(π(2i + 1) / 4,096)). -/
def quarterWave (i : Nat) : Int :=
  let x := piScaled * (2 * (i : Int) + 1) / 4096
  (16383 * sineSeries 14 x x 0 + 2 ^ 79) / 2 ^ 80

/-- The oscillator's value at a phase. -/
def toneAt (phase : Word) : Int :=
  let i := bits phase.toNat 29 20
  match bits phase.toNat 31 30 with
  | 0 => quarterWave i
  | 1 => quarterWave (1023 - i)
  | 2 => -quarterWave i
  | _ => -quarterWave (1023 - i)

/-- Oscillator `n` of an engine: phase, frequency word, configuration. -/
def Engine.tone (g : Engine) (n : Nat) : Word × Word × Word := Tab.get dNco g.nco n

/-- The dither that a loop's output takes (R299). -/
def ditherOf (o : Word × Word × Word) : Int := roundUp (((bits o.2.2.toNat 11 0 : Nat) * toneAt o.1 : Rat) / 16384)

/-- The demodulated measurement of a lock-in loop (R237, R299). -/
def demod (o : Word × Word × Word) (x : Rat) : Rat :=
  x * (toneAt (o.1 + BitVec.ofNat 32 (bits o.2.2.toNat 31 22 * 2 ^ 22)) : Rat) / 16384

/-- Every oscillator of an engine advances by its frequency word. -/
def Engine.advance (g : Engine) : Engine :=
  { g with nco := g.nco.map fun p => (p.1, p.2.1 + p.2.2.1, p.2.2) }

end Sys2Proof.Machine
end

