-- ==== Sys2Proof/Machine/Light.lean ====
section
/-! DEFINITION. The light supply: lines and their thresholds, boost, the spare from arming to swap, lost lines, degraded
and withdrawn bays, and the optical caps (R274 to R287, R166 to R168). -/

namespace Sys2Proof.Machine

/-! ### Numbers (R16, R45, R235, R274, R288, R302) -/

def combsOf (i : Nat) : Nat := if i < 8 then 5 else 3
def linesOf (i : Nat) : Nat := if i < 8 then 32 else 16
def spareComb (i : Nat) : Nat := combsOf i - 1
/-- The slots of a comb's loops in LE9, and its heater among the trim outputs. -/
def tuneSlot (i c : Nat) : Nat := if i < 8 then 5 * i + c else 40 + c
def driveSlot (i c : Nat) : Nat := 64 + tuneSlot i c
def combHeater (i c : Nat) : Nat := 5184 + tuneSlot i c

/-- The spare's state of a source: 0 off, 1 available, 2 arming, 3 in use, 4 failed (LSA_STAT). -/
def spareFld (i : Nat) : Fld := ⟨0x70000, 3 * i + 2, 3 * i⟩
def State.spareState (s : State) (i : Nat) : Nat := s.fld (spareFld i)
def State.setSpare (s : State) (i v : Nat) : State := s.setFld (spareFld i) v

/-- A comb that serves a position: a working one (LSA_COMB_STAT.state 2). -/
def State.combWorks (s : State) (i c : Nat) : Bool := (s.comb i c).state == 2
/-- Whether an engine-9 slot belongs to a working comb, which counts for the bay's band (R259; log 37). -/
def State.combLoops (s : State) (i : Nat) : List Nat :=
  ((List.range (combsOf i)).filter (s.combWorks i)).flatMap fun c => [tuneSlot i c, driveSlot i c]

/-- A power in µW exceeds a cap in mW by more than 0.5 dB (R287): (p / cap)^20 > 10. -/
def overCap (uw cap : Nat) : Bool := 10 * (1000 * cap) ^ 20 < uw ^ 20

/-! ### Lines (R274, R275, R278, R284) -/

/-- The mean of the samples held, as sum and count. -/
def Line.sum (l : Line) : Int := l.hist.foldl (· + ·) 0
def Line.count (l : Line) : Int := (l.hist.length : Nat)
/-- Whether the running mean is at or below a threshold in 1/256 dB. -/
def Line.meanAtMost (l : Line) (v : Int) : Bool := decide (l.sum ≤ v * l.count) && !l.hist.isEmpty
def Line.meanAbove (l : Line) (v : Int) : Bool := decide (v * l.count < l.sum)
/-- The reading of LSA_LINE.rel. -/
def Line.rel (l : Line) : Int := if l.hist.isEmpty then 0 else l.sum / l.count

/-- The greatest `k` from `lo` on with `n` bits of search left such that a · 10^(k / 2560) is at most b. -/
def decibelSearch : Nat → Nat → Nat → Nat → Nat
  | 0, lo, _, _ => lo
  | n + 1, lo, a, b =>
    if a ^ 2560 * 10 ^ (lo + 2 ^ n) ≤ b ^ 2560 then decibelSearch n (lo + 2 ^ n) a b else decibelSearch n lo a b

/-- A power relative to another in units of 1/256 dB, rounded down (log 136); 0 where there is no reference yet. -/
def relPower (p ref : Nat) : Int :=
  if ref = 0 then 0
  else if p = 0 then -32768
  else if ref ≤ p then (decibelSearch 15 0 ref p : Nat)
  else
    let k := decibelSearch 15 0 p ref
    if p ^ 2560 * 10 ^ k = ref ^ 2560 then -(k : Int) else -(k : Int) - 1

/-- A line after a sample of its power in µW. Thresholds are judged on the lines of working combs. -/
def Line.take (l : Line) (uw cap : Nat) (working : Bool) : Line :=
  let rel := relPower uw l.ref
  let m : Line := { l with hist := (rel :: l.hist).take 64, uw := uw, hot := if overCap uw cap then l.hot + 1 else 0 }
  if working then
    { m with
      warn := m.meanAtMost (-256) || (l.warn && !m.meanAbove (-192))
      arm := l.arm || m.meanAtMost (-512)
      fast := decide (rel ≤ -768) || (l.fast && !m.meanAbove (-512)) }
  else m

def Line.faded (l : Line) : Bool := l.arm || l.fast

/-- A line becomes lost when it has faded and no spare can take its position (R284). -/
def Line.judge (l : Line) (noSpare : Bool) : Line :=
  let lost := l.lost || (l.faded && noSpare)
  { l with lost := lost, aff := l.faded || lost }

/-- Whether a working comb serves a position of a source. -/
def State.served (s : State) (i pos : Nat) : Bool :=
  (List.range (combsOf i)).any fun c => s.combWorks i c && (s.comb i c).pos.toNat == pos

/-- The affected lanes of a source: those of the lines of its working combs, by the position that the comb serves, and those
of a position that no comb serves, whose lines are lost. -/
def State.affected (s : State) (i : Nat) : List Nat :=
  (List.range (combsOf i)).flatMap fun c =>
    let lanes := fun (p : Nat) => ((List.range (linesOf i)).filter fun n => (s.line i c n).aff).map fun n => 32 * p + n
    if s.combWorks i c then lanes (s.comb i c).pos.toNat
    else if c ≠ spareComb i ∧ !s.served i c then lanes c
    else []

def State.lostLines (s : State) (i : Nat) : Nat :=
  (List.range (combsOf i)).foldl (fun a c => a + ((List.range (linesOf i)).filter fun n => (s.line i c n).lost).length) 0

/-- The affected set reaches the tiles of the bay: windows that integrate meet it (R279). -/
def State.spreadAffected (s : State) (b : Nat) : State :=
  let l := s.affected b
  (List.range 4).foldl (fun s k => s.modTile (4 * b + k) fun x =>
    { x with aff := l, wins := x.wins.map fun w =>
        if w.phase = .integrating then { w with aff := w.aff ++ l } else w }) s

/-! ### Lanes of a group (R320) -/

/-- A lane stops in one direction: the set that remains is announced and takes effect at a LANE_CHANGE. -/
def State.stopLane (s : State) (p g lane : Nat) (transmit : Bool) : State :=
  let f := s.group p g
  let m := BitVec.ofNat 4 (15 - 2 ^ lane)
  if transmit then s.setGroup p g { f with newTx := some (f.newTx.getD f.txl &&& m) }
  else s.setGroup p g { f with newRx := some (f.newRx.getD f.rxl &&& m) }

/-- LANE_STOP (R320). -/
def execLaneStop (p : PortId) (g : GroupId) (lane : Fin 4) (transmit : Bool) (s : State) :
    Host.Outcome State Fault Refusal := .next (s.stopLane p.val g.val lane.val transmit)

/-- The lost lines of a source with the position that each comb serves. -/
def State.lostAt (s : State) (i : Nat) : List (Nat × Nat) :=
  (List.range (combsOf i)).flatMap fun c =>
    ((List.range (linesOf i)).filter fun n => (s.line i c n).lost).map fun n =>
      (if s.combWorks i c then (s.comb i c).pos.toNat else c, n)

/-- Lines of the fabric source that are lost now and were not in `s0` stop their wavelength in the transmit direction of the
eight ports that the comb lights (R16, R320, R321). -/
def State.darkenLanes (s s0 : State) (i : Nat) : State :=
  if i < 8 then s
  else ((s.lostAt i).filter fun x => !(s0.lostAt i).contains x).foldl (fun s x =>
    (List.range 8).foldl (fun s k => s.stopLane (8 * x.1 + k) (x.2 / 4) (x.2 % 4) true) s) s

/-! ### The spare (R280, R281, R284 to R286) -/

/-- A loop with a new target and mode request. -/
def State.driveTo (s : State) (slot : Nat) (tgt : Int) : State :=
  let L := s.loopOf 9 slot
  s.setLoop 9 slot (L.setTarget (s.engine 9).supply (s.guardLim 1) (BitVec.ofInt 24 tgt))
def State.askMode (s : State) (e l : Nat) (m : Mode) : State :=
  let L := s.loopOf e l
  s.setLoop e l { L with pend := if L.mode = m then none else some m, hcnt := 0 }

/-- Velocity and acceleration limits, as LOOP_PROF holds them, that move a drive by `d` target units within 2 ms (R282): `d` in
1.5 ms at full velocity, which is reached in 0.4 ms (log 137). -/
def driveLimits (d : Nat) : Word :=
  BitVec.ofNat 32 ((65536 * d / 600000 + 1) % 65536 * 65536 + (256 * d / 1500 + 1) % 65536)

/-- A drive loop moves to a target within 2 ms; the limits before return when it stands there. -/
def State.driveRamp (s : State) (slot : Nat) (tgt : Int) : State :=
  let s1 := s.driveTo slot tgt
  let L := s1.loopOf 9 slot
  let d := (roundUp ((L.target.toInt : Rat) - L.r * 4096)).natAbs
  s1.setLoop 9 slot { L with prof := driveLimits d, saved := some (L.saved.getD L.prof) }

/-- A comb powered down: its loops in HOLD, its drive ramped to zero. -/
def State.combDown (s : State) (i c : Nat) (st : BitVec 3) : State :=
  let s1 := s.setComb i c { s.comb i c with state := st, ma := 0, mw := 0 }
  ((s1.driveRamp (driveSlot i c) 0).holdNow 9 (driveSlot i c)).holdNow 9 (tuneSlot i c)

/-- The position whose comb has a faded line, lowest first. -/
def State.needsSpare (s : State) (i : Nat) : Option Nat :=
  ((List.range (combsOf i - 1)).find? fun c => s.combWorks i c &&
    (List.range (linesOf i)).any fun n => (s.line i c n).faded)

/-- Whether arming is held up: CLR_TRIM_N low, a Guard fault, or the bay parked (R286). -/
def State.armHeld (s : State) (i : Nat) : Bool :=
  !s.pins.clrTrim || s.flag GUARD_STAT.flt || (i < 8 && s.bayState i == 0)

/-- Step 1 of R281: the drive loop moves in HOLD to the mean reference power of the comb being replaced. What the spare's lines
were before is no sample of this arming. -/
def State.armFrom (s : State) (i pos : Nat) : State :=
  let c := spareComb i
  let s1 := ((s.setComb i c { s.comb i c with state := 1 }).holdNow 9 (driveSlot i c)).holdNow 9 (tuneSlot i c)
  let s2 := (List.range (linesOf i)).foldl (fun s n => s.setLine i c n { Line.reset with ref := (s.line i c n).ref }) s1
  let s3 := s2.driveRamp (driveSlot i c) (s2.comb i pos).ref
  s3.setSource i { s3.source i with armPos := some pos, armTick := s3.tick, suspended := false, locked := false }

/-- Arming starts when a line of a working comb fades while the spare is available (R280). -/
def State.armStart (s : State) (i : Nat) : State :=
  if s.spareState i = 1 then
    match s.needsSpare i with
    | none => s
    | some pos =>
      let s1 := (s.setSpare i 2).armFrom i pos
      s1.setSource i { s1.source i with arms := if (s1.source i).arms = 255 then 255 else (s1.source i).arms + 1 }
  else s

/-- The spare powered down. -/
def State.spareDown (s : State) (i : Nat) (st : BitVec 3) : State := s.combDown i (spareComb i) st

/-- Steps 2 and 3 of R281, and the suspension of R286, at a tick. A spare that has locked and not taken over is suspended as one
that has not: its lock and the swap that waits are gone. -/
def State.armProgress (s : State) (i : Nat) : State :=
  if s.spareState i ≠ 2 ∨ (s.source i).suspended then s
  else if s.armHeld i then
    let s1 := s.spareDown i 0
    let s2 := s1.setSource i { s1.source i with suspended := true, locked := false }
    if i < 8 then s2.modBay i fun y => { y with darkDue := false } else s2
  else if (s.source i).locked then s
  else
    let c := spareComb i
    let d := s.loopOf 9 (driveSlot i c)
    let t := s.loopOf 9 (tuneSlot i c)
    let s1 := if t.mode = .hold ∧ t.pend = none ∧ !d.ramping then s.askMode 9 (tuneSlot i c) .acquire else s
    if t.mode = .track ∧ d.mode = .hold ∧ d.pend = none then s1.askMode 9 (driveSlot i c) .track else s1

/-- ARMING_RESTART: a suspended arming begins again at step 1 (R286). -/
def State.armRestart (s : State) (i : Nat) : State :=
  match (s.source i).armPos with
  | some pos => if s.spareState i = 2 ∧ (s.source i).suspended ∧ !s.armHeld i then s.armFrom i pos else s
  | none => s

/-- ARMING_RESTART (R286). -/
def execArmingRestart (i : SourceId) (s : State) : Host.Outcome State Fault Refusal := .next (s.armRestart i.val)

/-- LSA_ARM_LAST: the latest arming that ended. -/
def State.armLast (s : State) (i : Nat) (fail : Bool) : State :=
  let y := s.source i
  let s1 := ((s.setFlag LSA_ARM_LAST.valid true).setFlag LSA_ARM_LAST.fail fail).setFld LSA_ARM_LAST.src i
  (s1.setFld LSA_ARM_LAST.pos (y.armPos.getD 0)).setSat LSA_ARM_LAST.time ((s1.tick - y.armTick) / 100)

/-- The spare is marked failed; the faded lines have no spare any more (R281, R284). -/
def State.armFail (s : State) (i : Nat) : State :=
  let s1 := ((s.armLast i true).spareDown i 4).setSpare i 4
  let s2 := s1.setSource i { s1.source i with
    armPos := none, suspended := false, lines := (s1.source i).lines.map fun p => (p.1, p.2.judge true) }
  (s2.darkenLanes s1 i).raise { cls := 6, code := 1, act := if i < 8 then 1 else 0, unit := 8 * i + spareComb i,
                                score := if i < 8 then s2.bayScore i else 0 }

/-- ARMING_FAULT: no lock within 40 ms (R281). -/
def execArmingFault (i : SourceId) (s : State) : Host.Outcome State Fault Refusal :=
  .next (if s.spareState i.val = 2 ∧ !(s.source i.val).suspended ∧ !(s.source i.val).locked ∧
        (s.source i.val).armTick + 40000 ≤ s.tick then
      s.armFail i.val
    else s)

/-- A line of the spare lies within the match tolerance of the reference of the line that it will replace (R281). -/
def State.lineMatches (s : State) (i pos n : Nat) : Bool :=
  let l := s.line i (spareComb i) n
  !l.hist.isEmpty && decide ((l.rel + relPower l.ref (s.line i pos n).ref).natAbs ≤ s.fld LSA_CFG.mtol)

/-- The spare is locked (R281). -/
def State.spareLocked (s : State) (i : Nat) : Bool :=
  let c := spareComb i
  let ok := fun (l : Nat) => (s.loopOf 9 l).mode == .track && 1000 ≤ (s.loopOf 9 l).inBand
  s.spareState i == 2 && !(s.source i).suspended && !(s.source i).locked && ok (tuneSlot i c) && ok (driveSlot i c) &&
    match (s.source i).armPos with
    | some pos => (List.range (linesOf i)).all (s.lineMatches i pos)
    | none => false

/-- The combs that pass light once the spare has taken a position. -/
def State.passing (s : State) (i pos : Nat) : Nat :=
  1 + ((List.range (combsOf i - 1)).filter fun c => c != pos && s.combWorks i c).length

/-- The spare takes the position that it was armed for, while it is locked (R168, R282). A change-over with more combs passing
light than the switch interlock lets is not made, and the arming ends with an arming fault (R287). -/
def State.takeOver (s : State) (i : Nat) : State :=
  match (s.source i).armPos with
  | none => s
  | some pos =>
    if !(s.source i).locked then s
    else if (if i < 8 then 4 else 2) < s.passing i pos then s.armFail i
    else
    let c := spareComb i
    let s1 := s.setSpare i 3
    let s2 := s1.setComb i c { s1.comb i c with state := 2, pos := BitVec.ofNat 3 pos, ref := (s1.comb i pos).ref, boost := 0 }
    let s3 := s2.setComb i pos { s2.comb i pos with boost := 0, pos := 7 }
    let s4 := s3.combDown i pos 4
    let clear := fun (p : Nat × Line) => if p.1 / 32 = pos then (p.1, { p.2 with aff := false, arm := false }) else p
    let s5 := s4.setSource i { s4.source i with
      armPos := none, spos := BitVec.ofNat 3 pos, lines := (s4.source i).lines.map clear, locked := false }
    if i < 8 then s5.spreadAffected i else s5

/-- A second swap within one latency bound puts a kept promise at risk (R232). -/
def State.noteSwap (s : State) (b : Nat) : State :=
  match (s.bay b).assured with
  | none => s
  | some r => (s.noteCause b 3).scoreFold r.score r.index fun s n _ =>
      let p := (s.score r.score).promise n
      let s1 := s.setScore r.score ((s.score r.score).setPromise n { p with swaps := s.nowNs + 1 })
      if p.swaps ≠ 0 ∧ s.nowNs + 1 - p.swaps ≤ p.bound then s1.promiseRisk r.score n 3 else s1

/-- SPARE_LOCK: the lock report. A bay that issues windows holds its tiles for a dark window; a bay that rebinds takes
the swap without one (R41, R166, R282). -/
def State.spareLock (s : State) (i : Nat) : State :=
  if !s.spareLocked i then s
  else
    let s1 := (s.armLast i false).setSource i { s.source i with locked := true }
    if i = 8 then s1
    else if s1.bayState i = 4 then s1.takeOver i
    else s1.modBay i fun y => { y with darkDue := true }

/-- SPARE_LOCK (R281, R166). -/
def execSpareLock (i : SourceId) (s : State) : Host.Outcome State Fault Refusal := .next (s.spareLock i.val)

/-- No tile of a bay has a window between its first symbol and its last, or a replay to come (R93, R166). -/
def State.bayAtBoundary (s : State) (b : Nat) : Bool :=
  (List.range 4).all fun k => !(s.tile (4 * b + k)).wins.any fun w => w.phase == .integrating

/-- DARK_WINDOW_START: every tile stands at its boundary; `align` is the wait in symbol periods (R166). -/
def execDarkWindowStart (b : BayId) (align : BitVec 9) (s : State) : Host.Outcome State Fault Refusal :=
  .next (if (s.bay b.val).darkDue && s.bayState b.val != 4 && s.bayAtBoundary b.val then
      (s.modBay b.val fun y => { y with darkDue := false, darkOn := true }).setFld (BAY_DARK.align.on b.val) align.toNat
    else s)

/-- DARK_WINDOW_END: the light of the spare is in place (R22, R167, R282). -/
def execDarkWindowEnd (b : BayId) (s : State) : Host.Outcome State Fault Refusal :=
  .next (if (s.bay b.val).darkOn then
      let s1 := s.modBay b.val fun y => { y with darkOn := false }
      let s2 := (s1.bump (BAY_DARK.count.on b.val)).setBitOf GLB_INTERLOCK.dark b.val true
      if (s2.source b.val).locked then (s2.takeOver b.val).noteSwap b.val else s2
    else s)

/-- A rebind is accepted while a swap waits: the bay issues no windows, and the swap is made without a dark window (R41). -/
def State.swapInRebind (s : State) (b : Nat) : State :=
  if (s.bay b).darkDue then (s.modBay b fun y => { y with darkDue := false }).takeOver b else s

/-! ### Boost (R276, R277) -/

/-- The least `x` from `lo` on with `n` bits of search left such that (2x + 1)^40 exceeds a bound. -/
def rootSearch : Nat → Nat → Nat → Nat
  | 0, lo, _ => lo
  | n + 1, lo, m => if (2 * (lo + 2 ^ n) - 1) ^ 40 ≤ m then rootSearch n (lo + 2 ^ n) m else rootSearch n lo m

/-- A reference raised by `k` steps of 0.25 dB, to the nearest 2^-12 mW: ref · 10^(k / 40) (log 38). -/
def boosted (ref : Int) (k : Nat) : Int := (rootSearch 21 0 ((2 * ref.toNat) ^ 40 * 10 ^ k) : Nat)

/-- BOOST_STEP: a working comb with a line in fade warning is raised by 0.25 dB, every 10 ms, up to 1 dB, from the power that
its drive was set to. -/
def State.boostStep (s : State) (i c : Nat) : State :=
  let y := s.comb i c
  if y.state = 2 ∧ y.boost < 4 ∧ ((List.range (linesOf i)).any fun n => (s.line i c n).warn) ∧
      (y.boost = 0 ∨ y.boostTick + 10000 ≤ s.tick) then
    (s.setComb i c { y with boost := y.boost + 1, boostTick := s.tick }).driveTo (driveSlot i c) (boosted y.ref (y.boost + 1))
  else s

/-- BOOST_STEP (R276). -/
def execBoostStep (i : SourceId) (c : CombId) (s : State) : Host.Outcome State Fault Refusal :=
  if c.val < combsOf i.val then .next (s.boostStep i.val c.val) else .fault .noSuchUnit

/-! ### Degraded and withdrawn bays (R42, R284, R285) -/

/-- What ends with debug state: held requests (R65), MANUAL (R258) and a tone injection (R300). -/
def State.leaveDebug (s : State) (b : Nat) : State :=
  let s1 := (List.range 4).foldl (fun s k => s.modTile (4 * b + k) fun x => { x with zeroReq := false, swapReq := false }) s
  let s2 := (List.range 512).foldl (fun s l =>
    let L := s.loopOf b l
    if L.mode = .manual then s.setLoop b l { L with pend := some (L.before.getD .hold), hcnt := 0 } else s) s1
  if s.fld TRIM_TEST.out < 4864 ∧ s.fld TRIM_TEST.out / 608 = b then s2.setFlag TRIM_TEST.en false else s2

/-- Removes a bay from service: its sequences stop, its promises break, its spare-arm states clear, and debug state ends
(R172, R275, R285). -/
def State.withdraw (s : State) (b : Nat) : State :=
  let s0 := if s.bayState b = 5 then s.leaveDebug b else s
  let s1 := (s0.breakBayPromises b 9).stopBay b
  let s2 := s1.setSource b { s1.source b with lines := (s1.source b).lines.map fun p => (p.1, { p.2 with arm := false }) }
  s2.setBayState b 6

/-- A degraded bay's promises: at risk while the recomputed latency meets the claim, else broken (R232). -/
def State.degradePromises (s : State) (b : Nat) : State :=
  match (s.bay b).assured with
  | none => s
  | some r => s.scoreFold r.score r.index fun s n c =>
      if Config.lineLatency ((s.score r.score).promise n).bound (128 - s.lostLines b) ≤ c.latency then
        s.promiseRisk r.score n 8
      else s.promiseBreak r.score n 8

/-- Lost lines degrade a bay, and withdraw it below the minimum of its role or of LSA_CFG. Its promises are judged again whenever
more lines are lost. -/
def State.judgeBay (s : State) (b : Nat) : State :=
  let lost := s.lostLines b
  let work := 128 - lost
  let s1 := if lost ≤ (s.bay b).lostSeen then s
    else ((s.modBay b fun y => { y with lostSeen := lost }).setDegraded b true).degradePromises b
  let st := s1.bayState b
  if (2 ≤ st ∧ st ≤ 5 ∧ work < (s1.bay b).minLines) ∨ (st = 1 ∧ work < s1.fld LSA_CFG.wmin) then s1.withdraw b else s1

/-! ### Optical caps (R277, R287) -/

/-- The mean power of a comb's lines in µW. -/
def State.meanPower (s : State) (i c : Nat) : Nat :=
  (List.range (linesOf i)).foldl (fun a n => a + (s.line i c n).uw) 0 / linesOf i

/-- A comb's sample, after its lines': the drive current stands at most at the Guard's cap, and at zero once it is cut. -/
def State.combSample (s : State) (i c ma : Nat) : State :=
  let y := s.comb i c
  let cap := s.guardLim 0
  let mean := s.meanPower i c
  s.setComb i c { y with
    ma := if y.cut then 0 else min ma cap, mw := mean / 125, clamp := decide (cap ≤ ma)
    exceeded := if overCap mean (s.guardLim 1) then y.exceeded + 1 else 0 }

/-- Whether a comb's mean line power, or the power of one of its lines, has been over its cap for 16 consecutive samples. -/
def State.tooBright (s : State) (i c : Nat) : Bool :=
  decide (16 ≤ (s.comb i c).exceeded) || (List.range (linesOf i)).any fun n => 16 ≤ (s.line i c n).hot

/-- OPTICAL_CUT: the comb's drive is cut to zero, and a Guard fault raised. -/
def State.opticalCut (s : State) (i c : Nat) : State :=
  if s.tooBright i c then
    let s1 := s.setComb i c { s.comb i c with cut := true, ma := 0, exceeded := 0 }
    let s2 := (List.range (linesOf i)).foldl (fun s n => s.setLine i c n { s.line i c n with hot := 0 }) s1
    ((s2.driveTo (driveSlot i c) 0).holdNow 9 (driveSlot i c)).guardFault 0 (5 * i + c)
  else s

/-- OPTICAL_CUT (R287). -/
def execOpticalCut (i : SourceId) (c : CombId) (s : State) : Host.Outcome State Fault Refusal :=
  if c.val < combsOf i.val then .next (s.opticalCut i.val c.val) else .fault .noSuchUnit

/-! ### One sample of a source (R274 to R287) -/

/-- A sample of TickInputs, or the value before where none is listed. -/
def sampleOf (l : List (Nat × Nat)) (n before : Nat) : Nat :=
  match l.find? fun p => p.1 == n with
  | some p => p.2
  | none => before

/-- Lines and combs of a source after a tick: samples, thresholds, lost lines, arming. `lines` and `combs` are the
samples of TickInputs. -/
def State.lightSample (s : State) (i : Nat) (lines combs : List (Nat × Nat)) : State :=
  let s1 := (List.range (combsOf i)).foldl (fun s c => (List.range (linesOf i)).foldl (fun s n =>
    let l := s.line i c n
    s.setLine i c n (l.take (sampleOf lines (160 * i + 32 * c + n) l.uw) (s.guardLim 2) (s.combWorks i c))) s) s
  let s2 := (List.range (combsOf i)).foldl (fun s c =>
    s.combSample i c (sampleOf combs (5 * i + c) (s.comb i c).ma)) s1
  let noSpare := s2.spareState i == 3 || s2.spareState i == 4
  let s3 := (List.range (combsOf i)).foldl (fun s c => (List.range (linesOf i)).foldl (fun s n =>
    if s.combWorks i c then s.setLine i c n ((s.line i c n).judge noSpare) else s) s) s2
  let s4 := ((s3.darkenLanes s i).armStart i).armProgress i
  if i < 8 then (s4.spreadAffected i).judgeBay i else s4

end Sys2Proof.Machine
end

