-- ==== Sys2Proof/Machine/Trim.lean ====
section
/-! DEFINITION. Trim outputs: numbering, the code applied at a tick, read-back, the return from CLR_TRIM_N, and the host's
writes to the oscillators and the tone injection (R288 to R301). -/

namespace Sys2Proof.Machine

/-! ### Numbering (R288) -/

def outEngine (o : Nat) : Nat := if o < 4864 then o / 608 else if o < 5184 then 8 else 9
def outLocal (o : Nat) : Nat := if o < 4864 then o % 608 else if o < 5184 then o - 4864 else o - 5184
/-- The loop that drives an output; none for a table channel. -/
def outLoop (o : Nat) : Option Nat :=
  let i := outLocal o
  if o < 4864 then (if i < 96 then some i else none)
  else if o < 5184 then (if i < 64 then some i else none)
  else some i
def outClass (o : Nat) : Nat :=
  let i := outLocal o
  if o < 4864 then (if i < 64 then 0 else if i < 96 then 1 else 2)
  else if o < 5184 then (if i < 64 then 3 else 4)
  else 5
/-- The output that a loop drives; drive loops drive none. -/
def loopOut (e l : Nat) : Option Nat :=
  if e < 8 then some (608 * e + l) else if e = 8 then some (4864 + l) else if l < 64 then some (5184 + l) else none

/-- The safe code of an output (R291). -/
def State.safeCode (s : State) (o : Nat) : Nat := s.guardLim (16 + 10 * outClass o + outEngine o)
/-- The slew limit of an output (R290). -/
def State.slewLimit (s : State) (o : Nat) : Nat := s.guardLim (if outClass o = 2 ∨ outClass o = 4 then 6 else 5)

/-! ### The code of a tick (R265, R289 to R291, R299, R300) -/

/-- The output of a modulator's table channel in fractions of full scale: q0 + q1 · ΔT + q2 · ΔT² (R265). -/
def State.modulatorBias (s : State) (e i : Nat) : Rat :=
  let t := 4 * e + i / 128
  let x := s.tile t
  let r := 0x800 + 16 * (i % 128)
  let tref : Rat := (signed 32 (x.tableNat 16 4) : Rat) / 4096
  let dt := Tab.get (dZero (α := Rat)) (s.engine e).meas (16 * (t % 4)) - tref
  (x.tableNat r 2 : Rat) / 2 ^ 16 + (signed 16 (x.tableNat (r + 2) 2) : Rat) / 2 ^ 20 * dt +
    (signed 16 (x.tableNat (r + 4) 2) : Rat) / 2 ^ 24 * dt * dt

/-- The dither of a lock-in loop that seeks or tracks, and of an injection into the output. An injection into an output of LEb
lasts as long as the bay's debug state. -/
def State.ditherAt (s : State) (o : Nat) : Int :=
  let g := s.engine (outEngine o)
  let own := match outLoop o with
    | some l =>
      let L := s.loopOf (outEngine o) l
      if L.kind = 1 ∧ (L.mode = .acquire ∨ L.mode = .track) then ditherOf (g.tone L.nco) else 0
    | none => 0
  own + if s.flag TRIM_TEST.en && s.fld TRIM_TEST.out == o && (4864 ≤ o || s.bayState (o / 608) == 5) then ditherOf (g.tone (s.fld TRIM_TEST.nco)) else 0

/-- The base code of an output. -/
def State.baseCode (s : State) (o : Nat) : Int :=
  let v : Int := match outLoop o with
    | some l => roundUp ((s.loopOf (outEngine o) l).o * 65536)
    | none =>
      if o < 4864 then roundUp (s.modulatorBias (outEngine o) (outLocal o - 96) * 65536)
      else (Config.transmitterBias (outLocal o - 64) s.tick).toNat
  clampI (v + s.ditherAt o) 0 65535

/-- A comb's heater stands at its safe code while the comb is off or failed, and a bay comb's in A2 (R282, R402; log 42). -/
def State.combDark (s : State) (o : Nat) : Bool :=
  if o < 5184 then false
  else
    let l := o - 5184
    let c := if l < 40 then s.comb (l / 5) (l % 5) else s.comb 8 (l - 40)
    c.state == 0 || c.state == 4 || (l < 40 && s.fld PWR_STAT.state == 2)

/-- The code that an output stands at: the safe code from the moment that it is forced (R292, R294), else the code of the last
tick. -/
def State.outCode (s : State) (o : Nat) : Nat := if s.isForced o then s.safeCode o else (s.trimOut o).code.toNat

/-- The mean duty of an output's one-bit stream over the sample since a tick: the code over 65,536, and the error that noise
shaping moves above 10 MHz, whose value the manual leaves open (R289). A forced output's modulator is held at its safe code
(R294). -/
def State.duty (s : State) (o : Nat) : Rat := (s.outCode o : Rat) / 65536 + Config.shaping o s.tick (s.outCode o)

/-- The code that an output applies, and whether the slew limit held it back. -/
def State.newCode (s : State) (o : Nat) : Nat × Bool :=
  if s.isForced o || s.combDark o then (s.safeCode o, false)
  else if !s.flag (LOOP_STAT.run.on (outEngine o)) then ((s.trimOut o).code.toNat, false)
  else
    let old : Int := (s.trimOut o).code.toNat
    let b := s.baseCode o
    let c := clampI b (old - s.slewLimit o) (old + s.slewLimit o)
    (c.toNat, c != b)

/-- Every output takes its code (R236, R290). -/
def State.applyCodes (s : State) : State :=
  let codes := (List.range 5227).map fun o => (o, s.newCode o)
  codes.foldl (fun s p =>
    let s1 := s.setTrimOut p.1 { s.trimOut p.1 with code := BitVec.ofNat 16 p.2.1, prev := (s.trimOut p.1).code }
    match outLoop p.1 with
    | some l => s1.setLoop (outEngine p.1) l { s1.loopOf (outEngine p.1) l with held := p.2.2 }
    | none => s1) s

/-! ### Read-back (R296, R297) -/

/-- A forced comb heater counts as a failure of the comb (R297): an arming spare ends with an arming fault, a comb that does not
work yet is failed, the lines of one that works enter spare arm. -/
def State.combForced (s : State) (l : Nat) : State :=
  let i := if l < 40 then l / 5 else 8
  let c := if l < 40 then l % 5 else l - 40
  let y := s.comb i c
  if c = spareComb i ∧ s.spareState i = 2 then s.armFail i
  else if y.state = 1 ∨ y.state = 3 then
    let s1 := s.combDown i c 4
    if c = spareComb i then s1.setSpare i 4 else s1
  else if y.state ≠ 2 then s
  else
    let s2 := (List.range (linesOf i)).foldl (fun s n => s.setLine i c n { s.line i c n with arm := true }) s
    if c = spareComb i then
      ((List.range (linesOf i)).foldl (fun s n => s.setLine i c n ((s.line i c n).judge true)) s2).darkenLanes s i
    else s2

/-- An output is forced by read-back: recorded, with its fault and what follows for its bay, comb or port. -/
def State.forceReadback (s : State) (o : Nat) : State :=
  let s1 := s.setTrimOut o { s.trimOut o with rb := true }
  let s2 := ((s1.setFlag TRIM_MISM.valid true).setFld TRIM_MISM.out o).bump TRIM_MISM.count
  let s3 := s2.raise { cls := 6, code := 2, act := 4, unit := o, arg0 := 4
                       score := if o < 4864 then s.bayScore (o / 608) else 0 }
  if o < 4864 then (s3.pause (o / 608) fun y => { y with pauseTrim := true }).noteUpset (o / 608) 3
  else if 5184 ≤ o then s3.combForced (o - 5184)
  else
    let i := outLocal o
    if i < 64 then s3.setGroup (i / 4) (i % 4) { s3.group (i / 4) (i % 4) with state := 3 }
    else s3.stopLane ((i - 64) / 16) ((i - 64) % 16 / 4) ((i - 64) % 4) true

/-- The place within its 32 outputs that a converter dwells on after place `k`: converter 163 scans eleven (R296). -/
def nextDwell (j k : Nat) : Nat := if k + 1 < (if j = 163 then 11 else 32) then k + 1 else 0

/-- The expected value of a dwell of two samples: the mean of the codes applied in them over 16; of a forced output its safe
code (R294, R296). -/
def State.expected (s : State) (o : Nat) : Nat :=
  if s.isForced o then s.safeCode o / 16 else ((s.trimOut o).code.toNat + (s.trimOut o).prev.toNat) / 32

/-- READBACK_DWELL: the converter's two values of one output, in the converter's order. -/
def State.readback (s0 : State) (o : Nat) (meas : BitVec 12) : State :=
  if Tab.get dZero s0.scan (o / 32) ≠ o % 32 then s0
  else
  let s : State := { s0 with scan := Tab.set dZero s0.scan (o / 32) (nextDwell (o / 32) (o % 32)) }
  let x := s.trimOut o
  let exp := BitVec.ofNat 12 (s.expected o)
  let bad := s.fld TRIM_SCAN.tol < ((meas.toNat : Int) - exp.toNat).natAbs
  let n := if bad then min (x.mcnt + 1) 15 else 0
  let s1 := s.setTrimOut o { x with exp := exp, meas := meas, mcnt := n }
  if bad ∧ s.fld TRIM_SCAN.cnt ≤ n ∧ !x.rb then s1.forceReadback o else s1

/-- READBACK_DWELL (R296). -/
def execReadbackDwell (o : OutId) (meas : BitVec 12) (s : State) : Host.Outcome State Fault Refusal :=
  .next (s.readback o.val meas)

/-- TRIM_OUTPUT_RETURN: the first tick at least 10 µs after CLR_TRIM_N has risen (R293). -/
def execTrimOutputReturn (s : State) : Host.Outcome State Fault Refusal :=
  .next (match s.pins.trimRise with
    | some t => if s.pins.pinForce && s.pins.clrTrim && t + 10 ≤ s.tick then
        { s with pins := { s.pins with pinForce := false, trimRise := none } }
      else s
    | none => s)

/-! ### Oscillators and tone injection (R298, R300, R301) -/

/-- A software write to the selected oscillator: of LEb, with its bay in debug state. -/
def State.ncoWrite (s : State) (config : Bool) (v : Word) : State :=
  let e := s.fld TRIM_NCO_SEL.eng
  let n := s.fld TRIM_NCO_SEL.nco
  let g := s.engine e
  let o := g.tone n
  if 8 ≤ e ∨ s.bayState e ≠ 5 then s
  else if config then s.setEngine e { g with nco := Tab.set dNco g.nco n (o.1, o.2.1, v &&& 0xFFC00FFF) }
  else if v = 0 ∨ (429497 ≤ v.toNat ∧ v.toNat ≤ 429496730) then
    s.setEngine e { g with nco := Tab.set dNco g.nco n (o.1, v, o.2.2) }
  else s

/-- NCO_WRITE (R301). -/
def execNcoWrite (config : Bool) (v : Word) (s : State) : Host.Outcome State Fault Refusal := .next (s.ncoWrite config v)

/-- A software write of TRIM_TEST: its output is one of LEb, with its bay in debug state. -/
def State.toneWrite (s : State) (v : Word) : State :=
  let o := bits v.toNat 12 0
  if o < 4864 ∧ s.bayState (o / 608) = 5 then s.rawWrite TRIM_TEST.en.off v else s

/-- TONE_INJECTION (R300, R301). -/
def execToneInjection (v : Word) (s : State) : Host.Outcome State Fault Refusal := .next (s.toneWrite v)

end Sys2Proof.Machine
end

