-- ==== Sys2Proof/WellFormed.lean ====
section
/-! DEFINITION. The commands whose operands name units that the module has and data of the shape that arrives. -/

namespace Sys2Proof

/-- Combs of a source: five at a bay's source, three at the fabric's (R274). -/
def SourceId.combs (s : SourceId) : Nat := if s.val < 8 then 5 else 3

/-- Whether an engine has a loop in a slot (R235). -/
def slotUsed (e l : Nat) : Bool :=
  if e < 8 then l < 96 else if e = 8 then l < 64 else l < 43 || (64 ≤ l && l < 107)

/-- A block is 64 bytes (R175). -/
def Block.wf (b : Block) : Bool := b.data.length == 64

/-- A message's blocks are whole (R307). -/
def Msg.wf (m : Msg) : Bool := m.blocks.all Block.wf

/-- Upsets lie in their 64-byte block or in the codes of its words, and flip something. -/
def Upset.wf (u : Upset) : Bool := u.all fun p => p.1 < 72 && p.2 != 0

/-- A message flit is 256 bytes (R304, R307). -/
def Flit.wf : Flit → Bool
  | .head b | .data b => b.length == 256
  | .control (.loss h) => h.length == 64
  | .control (.hello _) | .idle => true

/-- A pair holds five flit slots (R304). -/
def Pair.wf (w : Pair) : Bool := w.slots.length == 5 && w.slots.all Flit.wf

/-- What the attempts of a message's blocks at GDDR7 find lies in their blocks. -/
def findsWf (l : List (GddrFind × GddrFind)) : Bool := l.all fun e => Upset.wf e.1.flips && Upset.wf e.2.flips

/-- A slot measures every row and sixteen rings (R64, R269); a flight delay lies between 290 ps and 330 ps, 17 steps of 1/8
symbol above 290 ps (R57). -/
def SlotMeas.wf (m : SlotMeas) : Bool :=
  m.rows.length == 512 && m.rings.length == 16 && m.rows.all fun r => r.dly.toNat ≤ 17

/-- Whether a command's operands are well formed. -/
def Instr.wf : Instr → Bool
  | .boostStep i c | .opticalCut i c => c.val < i.combs
  | .handOverTimeout e l | .followingFault e l => slotUsed e l
  | .recalibrationSlotDue e => e.val < 8
  | .recalibrationSlot _ m => m.wf
  | .slotAccess _ up find => Upset.wf up && Upset.wf find.flips
  | .gddr7Retry _ find => Upset.wf find.flips
  | .write _ _ m | .readRequest _ _ m | .serviceReply _ _ m => m.msg.wf && findsWf m.finds
  | .readReply _ _ m | .chainEntry _ _ m | .serviceRequest _ _ m | .writeCompletion _ _ m => m.wf
  | .lossNotice _ _ h => h.length == 64
  | .codewordPair _ _ w => w.wf
  | .commandWindowWrite off dws _ => off.toNat % 4 == 0 && dws.length != 0
  | .registerWrite _ w _ => w == 4 || w == 8
  | .pairedValueWrite off _ | .pairedComplementWrite off _ => off.toNat % 4 == 0
  | _ => true

end Sys2Proof
end

