-- ==== Sys2Proof/Machine/Tick.lean ====
section
/-! DEFINITION. The loop tick: commits, inputs, output codes, evaluation, flags to the bays; the faults of loops, pauses and
their end, telemetry, and the host's writes to a loop engine (R235 to R273). -/

namespace Sys2Proof.Machine

/-! ### What a loop takes in a sample -/

/-- The bay that a loop acts for: of LEb bay b, of LE9 the bay of the comb's source. -/
def loopBay (e l : Nat) : Option Nat :=
  if e < 8 then some e else if e = 9 ∧ l % 64 < 40 then some (l % 64 / 5) else none

def State.loopScore (s : State) (e l : Nat) : ScoreId :=
  match loopBay e l with
  | some b => s.bayScore b
  | none => 0

/-- The inputs of a loop; `mv` is the supply of the sample before. -/
def State.loopIn (s : State) (e l mv : Nat) : LoopIn :=
  let g := s.engine e
  let L := s.loopOf e l
  let te := s.tempOf e L.tsel
  let x := Tab.get (dZero (α := Rat)) g.meas l
  let P := s.loopOf e L.link
  { y := if L.kind = 1 then (if L.sgn then -1 else 1) * demod (g.tone L.nco) x else x
    te := te, gv := L.gv g.supply, base := s.baseline e l te
    corr := if L.kind = 0 ∧ P.mode = .track then
        some (P.o / P.gv mv - Machine.stage P.xS (s.baseline e L.link (s.tempOf e P.tsel)))
      else none
    exc := g.exc, ac := if e < 8 then (s.bay e).activity.toNat else 0
    broken := g.broken.contains l
    forced := match loopOut e l with
      | some o => s.isForced o
      | none => false
    safe := match loopOut e l with
      | some o => (s.safeCode o : Nat) / 65536
      | none => 0
    running := match loopBay e l with
      | some b => (s.bay b).anyRun
      | none => false }

/-! ### One tick (R236) -/

def State.runs (s : State) (e : Nat) : Bool := s.flag (LOOP_STAT.run.on e)

/-- A staged record that has been committed takes effect at the tick (R247). -/
def State.takeCommit (s : State) (e : Nat) : State :=
  let g := s.engine e
  match g.commit with
  | some (k, v) =>
    let L := s.loopOf e (k / 16)
    let s1 := s.setLoop e (k / 16) { L with recs := Tab.set dZero L.recs (k % 16) v }
    s1.setEngine e { s1.engine e with commit := none }
  | none => s

/-- The inputs that an engine latches. -/
def State.latch (s : State) (i : TickInputs) (e : Nat) : State :=
  let g := s.engine e
  let put := fun (k : Nat) (m : Tab Rat) (p : Nat × Rat) => if p.1 / k = e then Tab.set dZero m (p.1 % k) p.2 else m
  s.setEngine e { g with
    meas := i.meas.foldl (put 512) g.meas, temps := i.temps.foldl (put 128) g.temps
    broken := (i.broken.filter fun n => n / 512 == e).map fun n => n % 512
    supply := match i.supply.find? fun p => p.1 == e with
      | some p => p.2
      | none => g.supply }

/-- A supply outside 1.50 V to 2.10 V is a fault (R240). -/
def State.judgeSupply (s : State) (e : Nat) : State :=
  let mv := (s.engine e).supply
  if mv < 1500 ∨ 2100 < mv then s.raise { cls := 5, code := 4, unit := 512 * e, arg0 := mv } else s

/-- The slots that an engine evaluates. -/
def State.slots (s : State) (e : Nat) : List Nat :=
  (List.range 512).filter fun l => slotUsed e l && (s.loopOf e l).kind != 3

/-- The current of a drive loop held at the Guard's cap counts as held back (R238, R287). -/
def State.holdDrives (s : State) : State :=
  (List.range 9).foldl (fun s i => (List.range (combsOf i)).foldl (fun s c =>
    let l := driveSlot i c
    s.setLoop 9 l { s.loopOf 9 l with held := (s.comb i c).clamp }) s) s

/-- Every loop of an engine from the values of the sample before. -/
def State.sampleEngine (s : State) (e mv : Nat) : State :=
  let res := (s.slots e).map fun l => (l, (s.loopOf e l).sample (s.loopIn e l mv))
  res.foldl (fun s r => r.2.2.foldl
    (fun s c => (match loopBay e r.1 with | some b => s.noteUpset b 3 | none => s).raise
      { cls := 5, code := c, unit := 512 * e + r.1, score := s.loopScore e r.1 })
    (s.setLoop e r.1 r.2.1)) s

/-- A loop that takes part is out of band. -/
def State.oobAt (s : State) (e l : Nat) : Bool := (s.loopOf e l).kind != 3 && (s.loopOf e l).oob

/-- The out-of-band flag of a tile: its zones, its pilots, and the loops of the working combs of its source (R259). -/
def State.bandOf (s : State) (t : Nat) : Bool :=
  let b := t / 4
  let j := t % 4
  ((List.range 16).any fun z => s.oobAt b (16 * j + z)) || ((List.range 8).any fun p => s.oobAt b (64 + 8 * j + p)) ||
    (s.combLoops b).any (s.oobAt 9)

/-- The flags reach the tiles: windows that integrate meet them (R261). -/
def State.spreadBand (s : State) (b : Nat) : State :=
  (List.range 4).foldl (fun s k =>
    let f := s.bandOf (4 * b + k)
    s.modTile (4 * b + k) fun x =>
      { x with band := f, wins := x.wins.map fun w => if w.phase = .integrating then { w with band := w.band || f } else w }) s

/-- Samples with every loop of the bay in band (R262). -/
def State.countBand (s : State) (b : Nat) : State :=
  let bad := (List.range 4).any fun k => (s.tile (4 * b + k)).band
  s.modBay b fun y => { y with inBand := if bad then 0 else y.inBand + 1 }

/-- The limits that a ramp of a drive loop replaced return when it ends (R282). -/
def State.restoreDrives (s : State) : State :=
  (List.range 43).foldl (fun s n =>
    let L := s.loopOf 9 (64 + n)
    match L.saved with
    | some v => if L.ramping then s else s.setLoop 9 (64 + n) { L with prof := v, saved := none }
    | none => s) s

/-- The limits that a rebind's ramp replaced return when the last ramp ends (R250). -/
def State.restoreLimits (s : State) (b : Nat) : State :=
  if (List.range 64).any (fun l => (s.loopOf b l).ramping) then s
  else (List.range 64).foldl (fun s l =>
    let L := s.loopOf b l
    match L.saved with
    | some v => s.setLoop b l { L with prof := v, saved := none }
    | none => s) s

/-- A sample tick: counted, and taken by every engine that evaluates (R236); bits of STATUS that have cleared are noted (R377). -/
def State.loopTick (s : State) (i : TickInputs) : State :=
  let s0 : State := { s with tick := s.tick + 1, core := 0 }
  let on := (List.range 10).filter s0.runs
  let s1 := on.foldl (fun s e => let s1 := s.takeCommit e; s1.setEngine e (s1.engine e).advance) s0
  let s2 := s1.applyCodes
  let old := on.map fun e => (e, (s2.engine e).supply)
  let s3 := (on.foldl (fun s e => s.latch i e) s2).holdDrives
  let s4 := old.foldl (fun s p => (s.judgeSupply p.1).sampleEngine p.1 p.2) s3
  let s5 := if s4.runs 9 then ((List.range 9).foldl (fun s n => s.lightSample n i.lines i.combs) s4).restoreDrives else s4
  ((on.filter (· < 8)).foldl (fun s b => ((s.spreadBand b).countBand b).restoreLimits b) s5).settleAlert

/-- LOOP_TICK (R236). -/
def execLoopTick (i : TickInputs) (s : State) : Host.Outcome State Fault Refusal := .next (s.loopTick i)

/-! ### Faults of a loop (R254, R260, R262, R323, R430) -/

/-- A waiting hand-over that has used up hwait samples. -/
def Loop.handOverDue (L : Loop) : Bool := L.pend.isSome && max L.hwait 1 ≤ L.hcnt

/-- HAND_OVER_TIMEOUT: the request is cancelled. -/
def State.handOverTimeout (s : State) (e l : Nat) : State :=
  let L := s.loopOf e l
  if L.handOverDue then
    (s.setLoop e l { L with pend := none, hflt := true, ended := false }).raise
      { cls := 5, code := 2, unit := 512 * e + l, score := s.loopScore e l }
  else s

/-- HAND_OVER_TIMEOUT (R254). -/
def execHandOverTimeout (e : EngineId) (l : SlotId) (s : State) : Host.Outcome State Fault Refusal :=
  if slotUsed e.val l.val then .next (s.handOverTimeout e.val l.val) else .fault .noSuchUnit

/-- Whether a following fault is due in the latest sample, and whether elim raised it. -/
def Loop.followLim (L : Loop) : Bool := decide (L.elim < absR L.e)
def Loop.followDue (L : Loop) : Bool :=
  L.mode == .track && !L.fired && (L.followLim || (L.count == L.ftmr && L.count != 0))

/-- What a following fault stops: a bay, unless R430 spares it, or the receive direction of a group. -/
def State.followAct (s : State) (e l : Nat) (spared : Bool) : State × Nat :=
  if e = 8 then (s.setGroup (l / 4) (l % 4) { s.group (l / 4) (l % 4) with state := 3 }, 0)
  else match loopBay e l with
    | none => (s, 0)
    | some b =>
      if spared then (s, 0)
      else ((s.pause b fun y => { y with pauseFollow := true }).noteUpset b 3, 2)

/-- FOLLOWING_FAULT. -/
def State.followingFault (s : State) (e l : Nat) : State :=
  let L := s.loopOf e l
  if !L.followDue then s
  else
    let lim := L.followLim
    let spared := e < 8 && (s.engine e).exc && !lim && !L.clamped
    let s1 := s.setLoop e l { L with fired := true, count := if spared then 0 else L.count }
    let s2 := ((s1.setFlag (LOOP_FOLLOW.valid.on e) true).setFlag (LOOP_FOLLOW.auth.on e) L.clamped).setFlag
      (LOOP_FOLLOW.lim.on e) lim
    let s3 := (s2.setFld (LOOP_FOLLOW.loop.on e) l).bump (LOOP_FOLLOW.count.on e)
    let r := s3.followAct e l spared
    r.1.raise { cls := 5, code := 1, act := r.2, unit := 512 * e + l, score := s.loopScore e l
                arg0 := L.clamped.toNat + 2 * lim.toNat }

/-- FOLLOWING_FAULT (R260, R262, R323, R430). -/
def execFollowingFault (e : EngineId) (l : SlotId) (s : State) : Host.Outcome State Fault Refusal :=
  if slotUsed e.val l.val then .next (s.followingFault e.val l.val) else .fault .noSuchUnit

/-- No output of LEb is forced, nor, for a cause that pauses, the heater of a working comb of source b (R295). -/
def State.unforced (s : State) (b : Nat) : Bool :=
  !s.allForced && (List.range 608).all fun k => !(s.trimOut (608 * b + k)).rb

/-- BAY_RESUME: the pauses of a bay end (R262, R295, R387). -/
def State.bayResume (s : State) (b : Nat) : State :=
  if 1000 ≤ (s.bay b).inBand && s.unforced b && !s.flag CLK_REF_STAT.lost then
    s.modBay b fun y => { y with pauseFollow := false, pauseTrim := false, pauseClock := false }
  else s

/-- BAY_RESUME (R262, R295). -/
def execBayResume (b : BayId) (s : State) : Host.Outcome State Fault Refusal := .next (s.bayResume b.val)

/-! ### Telemetry (R271) -/

/-- A stage value as a telemetry word: exponent and mantissa. -/
def telWord (x : Nat) (v : Rat) : Nat :=
  x % 64 * 2 ^ 18 + unsigned 18 (clampI (v / pow2 ((x : Int) - 40)).floor (-131072) 131071)

/-- The telemetry record of a loop. -/
def State.telRecord (s : State) (e l : Nat) : Nat :=
  let L := s.loopOf e l
  let code := match loopOut e l with
    | some o => s.outCode o
    | none => 0
  let r := if L.mode = .manual then L.mr else L.r
  s.tick % 2 ^ 32 * 2 ^ 224 + l * 2 ^ 215 + L.mode.code * 2 ^ 213 + L.region.toNat * 2 ^ 210 + L.oob.toNat * 2 ^ 209 +
    L.frz.toNat * 2 ^ 208 + code * 2 ^ 192 + telWord L.xE r * 2 ^ 160 + telWord L.xE L.yf * 2 ^ 128 +
    telWord L.xE L.e * 2 ^ 96 + telWord L.xI L.i * 2 ^ 64 + telWord L.xS L.s * 2 ^ 32 + telWord L.xO L.o

/-- Writes a record to the telemetry ring in an observability slot, or drops and counts it. -/
def State.telWrite (s : State) (e l : Nat) (slotFree : Bool) : State :=
  let g := s.engine e
  let a := 64 * s.fld (LOOP_TEL_ADDR.addr.on e) + 32 * g.telPtr
  if slotFree && s.hasSlot a writeKinds 5 then
    (s.putBytes 0xFFFF a (leBytes 32 (s.telRecord e l))).setEngine e
      { g with telPtr := (g.telPtr + 1) % 2 ^ (s.fld (LOOP_TEL_CTL.size.on e) + 5) }
  else s.bump (LOOP_TEL_CTL.drops.on e)

/-- TELEMETRY_RECORD: once in a sample that the decimation takes. -/
def State.telemetry (s : State) (e : Nat) (slotFree : Bool) : State :=
  let n := max 1 (s.fld (LOOP_TEL_SEL.n.on e))
  let sel := [s.fld (LOOP_TEL_SEL.la.on e), s.fld (LOOP_TEL_SEL.lb.on e), s.fld (LOOP_TEL_SEL.lc.on e)].take n
  if s.flag (LOOP_TEL_CTL.en.on e) && s.runs e && s.tick % 2 ^ min 10 (s.fld (LOOP_TEL_CTL.dec.on e)) == 0 &&
      (s.engine e).telTick != some s.tick then
    sel.foldl (fun s l => s.telWrite e l slotFree) (s.setEngine e { s.engine e with telTick := some s.tick })
  else s

/-- TELEMETRY_RECORD (R271). -/
def execTelemetryRecord (e : EngineId) (slotFree : Bool) (s : State) : Host.Outcome State Fault Refusal :=
  .next (s.telemetry e.val slotFree)

/-- A write of LOOP_TEL_CTL. An enable starts at record 0 (log 30). -/
def State.telWriteCtl (s : State) (e : Nat) (v : Word) : State :=
  let s1 := s.rawWrite (LOOP_TEL_CTL.en.on e).off v
  if !v.getLsbD 31 then s1
  else
    let i := if e < 8 then s.bayScore e else 0
    let ok := (e ≥ 8 || i != 0) &&
      s.ringOk (64 * s.fld (LOOP_TEL_ADDR.addr.on e)) (2 ^ (bits v.toNat 7 4 + 10)) i
    if ok then s1.setEngine e { s1.engine e with telPtr := 0 } else s1.setFlag (LOOP_TEL_CTL.en.on e) false

/-- TELEMETRY_ENABLE (R271). -/
def execTelemetryEnable (e : EngineId) (v : Word) (s : State) : Host.Outcome State Fault Refusal :=
  .next (s.telWriteCtl e.val v)

/-! ### Selection, mode requests and records (R247, R248, R252, R258, R272) -/

def setptOff (e : Nat) : Nat := (LOOP_SETPT.tgt.on e).off
def profOff (e : Nat) : Nat := (LOOP_PROF.vmax.on e).off

/-- Discards the value armed in a paired register. -/
def State.disarm (s : State) (off : Nat) : State := { s with armed := Tab.set dNone s.armed off none }

/-- LOOP_SELECT (R272). -/
def State.loopSelect (s : State) (e : Nat) (v : Word) : State :=
  ((s.rawWrite (LOOP_SEL.loop.on e).off v).disarm (setptOff e)).disarm (profOff e)

/-- LOOP_SELECT (R272). -/
def execLoopSelect (e : EngineId) (v : Word) (s : State) : Host.Outcome State Fault Refusal := .next (s.loopSelect e.val v)

/-- Whether software's request for a mode is acted on. -/
def State.mayAsk (s : State) (e : Nat) (L : Loop) (m : Mode) : Bool :=
  m.permitted L.kind && (m != .manual || (e < 8 && s.bayState e == 5))

/-- A write of LOOP_MODE: the fault flags of the selected loop, and the mode request (R252, R255, R258; log 44). -/
def State.handOverRequest (s : State) (e : Nat) (v : Word) : State :=
  let l := s.fld (LOOP_SEL.loop.on e)
  let m := Mode.ofCode (bits v.toNat 1 0)
  let L := s.loopOf e l
  let L1 : Loop := { L with
    req := BitVec.ofNat 2 (bits v.toNat 1 0), hflt := L.hflt && !v.getLsbD 30, aflt := L.aflt && !v.getLsbD 29 }
  if !slotUsed e l then s
  else if s.mayAsk e L m then
    s.setLoop e l (if L.mode = m then { L1 with pend := none } else { L1 with pend := some m, hcnt := 0 })
  else s.setLoop e l L1

/-- HAND_OVER_REQUEST (R252, R254). -/
def execHandOverRequest (e : EngineId) (v : Word) (s : State) : Host.Outcome State Fault Refusal :=
  .next (s.handOverRequest e.val v)

/-- The words of the record window after a choice of loop and record. -/
def State.loadStaged (s : State) (e : Nat) : State :=
  let l := s.fld (LOOP_GAIN_SEL.loop.on e)
  let n := s.fld (LOOP_GAIN_SEL.rec.on e)
  let v := if n ≤ 8 then ((s.loopOf e l).record n).toNat else 0
  let words : Tab Word :=
    (List.range 8).foldl (fun m k => Tab.set dZero m k (BitVec.ofNat 32 (bits v (32 * k + 31) (32 * k)))) []
  s.setEngine e { s.engine e with staged := words }

/-- RECORD_SELECT: a write of LOOP_GAIN_SEL without cmt (R247). -/
def State.recordSelect (s : State) (e : Nat) (v : Word) : State :=
  (s.rawWrite (LOOP_GAIN_SEL.loop.on e).off v).loadStaged e

/-- RECORD_SELECT (R247). -/
def execRecordSelect (e : EngineId) (v : Word) (s : State) : Host.Outcome State Fault Refusal := .next (s.recordSelect e.val v)

/-- RECORD_COMMIT: a write of cmt for the selected record of a loop whose bay is in debug state (R247; log 40). -/
def State.recordCommit (s : State) (e : Nat) : State :=
  let n := s.fld (LOOP_GAIN_SEL.rec.on e)
  let g := s.engine e
  if e < 8 ∧ s.bayState e = 5 ∧ n ≤ 8 then
    let v := (List.range 8).foldl (fun a k => a + (Tab.get dZero g.staged k).toNat * 2 ^ (32 * k)) 0
    s.setEngine e { g with commit := some (16 * s.fld (LOOP_GAIN_SEL.loop.on e) + n, BitVec.ofNat 256 v) }
  else s

/-- RECORD_COMMIT (R247). -/
def execRecordCommit (e : EngineId) (s : State) : Host.Outcome State Fault Refusal := .next (s.recordCommit e.val)

end Sys2Proof.Machine
end

