-- ==== Sys2Proof/Machine/Recal.lean ====
section
/-! DEFINITION. Temperature tables and recalibration: the check and the working copy, slots, the first calibration, the
rebuild of a failed table (R20, R57, R61, R64, R66, R263 to R270, R273). -/

namespace Sys2Proof.Machine

/-! ### The table and its check (R263, R266) -/

def tableBase (t : Nat) : Nat := 0x17000000 + t * 0x65000
def tableSize : Nat := 0x65000

/-- Every reference temperature of a table agrees with its complement. -/
def Tile.trefsOk (x : Tile) : Bool :=
  (List.range 16).all fun z => x.tableNat (16 + 8 * z) 4 + x.tableNat (20 + 8 * z) 4 == 2 ^ 32 - 1

/-- The table in stage memory as a working copy; a single flipped bit of a word is corrected. -/
def State.tableBytes (s : State) (t : Nat) : Tab Byte :=
  s.stage.bytes.filterMap fun p =>
    if tableBase t ≤ p.1 ∧ p.1 < tableBase t + tableSize then some (p.1 - tableBase t, p.2) else none

/-- A block of the table is marked, or becomes so as it is read. -/
def State.tableMarked (s : State) (t : Nat) : Bool :=
  (List.range (tableSize / 64)).any fun k =>
    s.blockBad (tableBase t + 64 * k) || (s.stageMark (tableBase t + 64 * k)).isSome

/-- A table check failure: the working copy keeps no part of the table, and stays not valid until firmware has rebuilt the
table (R20). -/
def State.tableFail (s : State) (t : Nat) : State :=
  (s.modTile t fun x => { x with tblOk := false, table := [], failed := true }).raise
    { cls := 5, code := 6, unit := t, score := s.bayScore (t / 4) }

/-- The module copies a table into the tile's working copy and checks it. A tile-quality fault, and a
failure whose rebuild has not come, keep it not valid (R20). -/
def State.copyTable (s : State) (t : Nat) : State :=
  let x : Tile := { s.tile t with table := s.tableBytes t }
  let s1 := s.countReads (tableBase t) tableSize
  if inMask (x.tableNat 4 4) 0 && x.trefsOk && !s.tableMarked t then s1.setTile t { x with tblOk := !x.quality && !x.failed }
  else s1.tableFail t

/-! ### Records that a slot writes (R57, R64, R264) -/

/-- A row record. -/
def rowBytes (m : RowMeas) : List Byte :=
  [m.dly, 0] ++ leBytes 2 m.mean.toNat ++ leBytes 2 m.sigma.toNat ++ leBytes 2 m.gam.toNat ++ leBytes 2 m.bet.toNat ++
    leBytes 2 m.kap.toNat

def ringBytes (m : RingRec) : List Byte := leBytes 2 m.o.toNat ++ leBytes 2 m.s1.toNat ++ leBytes 2 m.s2.toNat

/-- The curve entry of knot `k`: w + 128 of its weight code. -/
def knotEntry (k : Nat) : Nat := if k < 32 then 8 * k else 255

/-- The curve value of an entry between two knots, rounded with halves up. -/
def interpolate (ca cb a b w : Nat) : Nat :=
  (((2 * ((ca : Int) * (b - a) + ((cb : Int) - ca) * (w - a)) + (b - a)) / (2 * (b - a))) : Int).toNat

/-- A knot's curve value and the entries between it and its neighbours. -/
def State.writeKnot (s : State) (t k : Nat) (c : BitVec 16) : State :=
  let a := tableBase t + 0x100
  let s1 := s.storeBytes (a + 4 * knotEntry k) (leBytes 2 c.toNat ++ [1, 0])
  let fill := fun (s : State) (i : Nat) =>
    let p := knotEntry i
    let q := knotEntry (i + 1)
    (List.range (q - p - 1)).foldl (fun s n =>
      let w := p + n + 1
      s.storeBytes (a + 4 * w) (leBytes 2 (interpolate (s.stageNat (a + 4 * p) 2) (s.stageNat (a + 4 * q) 2) p q w) ++ [0, 0])) s
  let s2 := if k = 0 then s1 else fill s1 (k - 1)
  if k < 32 then fill s2 k else s2

/-- The slots completed since the table was built. -/
def State.tableSlots (s : State) (t : Nat) : Nat := s.stageNat (tableBase t + 8) 4

def State.writeRows (s : State) (t : Nat) (rows : List RowMeas) : State :=
  rows.zipIdx.foldl (fun s p => s.storeBytes (tableBase t + 0x1000 + 32 * p.2) (rowBytes p.1)) s

/-! ### The fit of a ring's record (R267, R269)

A measurement of a ring is the temperature of its zone less the reference, in 1/256 K, and the DAC code that the ring needs
there beyond the curve's, in 1/64 (log 134). -/

/-- A sum over the measurements. -/
def pointSum (l : List (Int × Int)) (f : Int × Int → Int) : Int := l.foldl (fun a p => a + f p) 0

/-- A quotient rounded to the nearest integer, halves up, and clamped to a field of 16 bits. -/
def fitField (n d : Int) : BitVec 16 := BitVec.ofInt 16 (clampI ((2 * n + d) / (2 * d)) (-32768) 32767)

/-- The span of the measurements' temperatures. -/
def pointSpan (l : List (Int × Int)) : Int :=
  (l.map (·.1)).foldl max (l.headD (0, 0)).1 - (l.map (·.1)).foldl min (l.headD (0, 0)).1

/-- The determinant of a 3 × 3 matrix given by its columns. -/
def det3 (a b c : Int × Int × Int) : Int :=
  a.1 * (b.2.1 * c.2.2 - b.2.2 * c.2.1) - b.1 * (a.2.1 * c.2.2 - a.2.2 * c.2.1) + c.1 * (a.2.1 * b.2.2 - a.2.2 * b.2.1)

/-- The least-squares fit of o, s1 and s2, in the units of the record. Measurements at two temperatures alone determine no
curvature: the fit is then a free value. -/
def fitAll (l : List (Int × Int)) : RingRec :=
  let x := fun (k : Nat) => pointSum l fun p => p.1 ^ k
  let c1 := (x 0, x 1, x 2)
  let c2 := (x 1, x 2, x 3)
  let c3 := (x 2, x 3, x 4)
  let y := (pointSum l fun p => p.2, pointSum l fun p => p.1 * p.2, pointSum l fun p => p.1 ^ 2 * p.2)
  let d := det3 c1 c2 c3
  if d = 0 then ⟨Config.ringFit l 0, Config.ringFit l 1, Config.ringFit l 2⟩
  else ⟨fitField (det3 y c2 c3) d, fitField (det3 c1 y c3 * 2 ^ 12) d, fitField (det3 c1 c2 y * 2 ^ 24) d⟩

/-- The fit of o alone beside s1 and s2 as they stand. -/
def fitOffset (l : List (Int × Int)) (r : RingRec) : RingRec :=
  let rest := fun (p : Int × Int) => p.2 * 2 ^ 24 - signed 16 r.s1.toNat * p.1 * 2 ^ 12 - signed 16 r.s2.toNat * p.1 ^ 2
  { r with o := fitField (pointSum l rest) (2 ^ 24 * l.length) }

/-- The record that the last eight measurements of a ring give (R269): under 2 K of zone temperature, s1 and s2 stay. -/
def fitRing (l : List (Int × Int)) (r : RingRec) : RingRec := if pointSpan l < 512 then fitOffset l r else fitAll l

/-- The record of a ring as the table in stage memory has it. -/
def State.ringRecord (s : State) (t k : Nat) : RingRec :=
  let a := tableBase t + 0x5000 + 6 * k
  ⟨BitVec.ofNat 16 (s.stageNat a 2), BitVec.ofNat 16 (s.stageNat (a + 2) 2), BitVec.ofNat 16 (s.stageNat (a + 4) 2)⟩

/-- A measurement of ring `k` joins the last eight, and the ring's record is fitted again. -/
def State.measureRing (s : State) (t k : Nat) (v : BitVec 16) : State :=
  let p := (s.zoneDelta t (k / 4096), signed 16 v.toNat)
  let l := (p :: Tab.get dNil (s.tile t).points k).take 8
  let s1 := s.modTile t fun x => { x with points := Tab.set dNil x.points k l }
  s1.storeBytes (tableBase t + 0x5000 + 6 * k) (ringBytes (fitRing l (s.ringRecord t k)))

/-- The records of a slot: every row, the next sixteen rings in index order, the next knot in rotation, and the count. -/
def State.writeSlot (s : State) (t : Nat) (m : SlotMeas) : State :=
  let n := s.tableSlots t
  let s1 := m.rings.zipIdx.foldl (fun s p => s.measureRing t ((16 * n + p.2) % 65536) p.1) (s.writeRows t m.rows)
  (s1.writeKnot t (n % 33) m.knot).storeBytes (tableBase t + 8) (leBytes 4 (n + 1))

/-! ### Coefficients and their bounds (R61, R64, R66) -/

def worst (l : List Nat) : Nat := l.foldl max 0

/-- The worst row's coefficients, in the order of R453: k_sym, n_fe, σ_wl, σ_wp, γ, β, κ. -/
def worstRows (rows : List RowMeas) : List Nat :=
  let mag := fun (v : BitVec 16) => (signed 16 v.toNat).natAbs
  [rows.foldl (fun a r => min a r.kSym.toNat) 65535, worst (rows.map fun r => r.nFe.toNat),
    worst (rows.map fun r => r.sigWl.toNat), worst (rows.map fun r => r.sigWp.toNat),
    worst (rows.map fun r => mag r.gam), worst (rows.map fun r => mag r.bet),
    worst (rows.map fun r => mag r.kap)]

/-- Whether coefficient `i` lies beyond its bound. -/
def beyond (i v : Nat) : Bool :=
  if i = 0 then v ≤ 337 else decide ([0, 450, 163, 242, 393, 98, 65].getD i 0 < v)

/-- The coefficient registers of a tile. -/
def State.setCoefs (s : State) (t : Nat) (c : List Nat) : State :=
  let v := fun i => c.getD i 0
  let s1 := (s.setFld (TILE_ERR_COEF0.k_sym.on t) (v 0)).setFld (TILE_ERR_COEF0.n_fe.on t) (v 1)
  let s2 := (s1.setFld (TILE_ERR_COEF1.sig_wl.on t) (v 2)).setFld (TILE_ERR_COEF1.sig_wp.on t) (v 3)
  ((s2.setFld (TILE_ERR_COEF2.gam.on t) (v 4)).setFld (TILE_ERR_COEF2.bet.on t) (v 5)).setFld (TILE_ERR_COEF3.kap.on t) (v 6)

/-- What a measurement of the rows leaves: statistics, coefficients, and a tile-quality fault for each coefficient beyond
its bound. -/
def State.takeRows (s : State) (t : Nat) (rows : List RowMeas) : State :=
  let c := worstRows rows
  let bad := (List.range 7).filter fun i => beyond i (c.getD i 0)
  let noise := rows.zipIdx.foldl (fun n p => Tab.set dRowMeas n p.2 p.1) ([] : Tab RowMeas)
  let s1 := ((s.modTile t fun x => { x with noise := noise, quality := !bad.isEmpty, calDraw := s.free }).setCoefs t c).draw
  bad.foldl (fun s i => s.raise
    { cls := 2, code := 1, score := s.bayScore (t / 4), unit := t, arg0 := i, arg1 := c.getD i 0 }) s1

/-! ### The idle plane after a slot (R64, R270) -/

/-- The measurement pattern: codes alternating +64 and −64 along the lanes. -/
def patternCode (k : Nat) : Byte := if k % 2 = 0 then 64 else BitVec.ofInt 8 (-64)

/-- The image buffer that still holds the image of a plane's last completed load. -/
def Tile.imageOf (x : Tile) (p : Bool) : Option ImgBuf :=
  if x.buf0.full && x.buf0.plane == some p then some x.buf0
  else if x.buf1.full && x.buf1.plane == some p then some x.buf1 else none

/-- The idle plane is restored, or keeps the measurement pattern. -/
def State.restoreIdle (s : State) (t : Nat) : State :=
  let x := s.tile t
  let p := !s.active t
  let put := fun (r : Plane × Nat) => s.setTile t (x.setPlane p r.1)
  if x.tblOk && (x.planeOf p).zeros then put (s.zeroPlane t)
  else match x.tblOk, x.imageOf p with
    | true, some v => put (s.makePlane t (fun k => Tab.get dZero v.bytes (1024 + k))
        (fun k => ⟨BitVec.ofNat 3 (v.hdrWord k), BitVec.ofNat 4 (v.hdrWord k / 16)⟩) v.mark false)
    | _, _ =>
      let r := (s.makePlane t patternCode (fun _ => ⟨2, 0⟩) none false).1
      (s.setTile t (x.setPlane p { r with pattern := true })).setFlag (TILE_PLANE_STAT.idle_valid.on t) false

/-! ### Slots (R24, R170, R268, R269) -/

/-- RECALIBRATION_SLOT_DUE: a slot falls due once at each of its ticks (R268). -/
def State.slotDue (s : State) (e : Nat) : State :=
  let ivl := s.fld (LOOP_RECAL.ivl.on e)
  if s.runs e ∧ ivl ≠ 0 ∧ e * (ivl / 8) ≤ s.tick ∧ (s.tick - e * (ivl / 8)) % ivl = 0 ∧ (s.bay e).slotTick ≠ some s.tick then
    (s.modBay e fun y => { y with slotTick := some s.tick }).bump (LOOP_RECAL.pend.on e)
  else s

/-- RECALIBRATION_SLOT_DUE (R268). LE8 and LE9 take no slots. -/
def execRecalibrationSlotDue (e : EngineId) (s : State) : Host.Outcome State Fault Refusal :=
  if e.val < 8 then .next (s.slotDue e.val) else .fault .noSuchUnit

/-- The tile whose turn it is can be held: a slot is pending, the bay is in service and not in debug state, no load
writes or settles, no window integrates, no replay and no swap of the spare is due (R95, R269). -/
def State.slotReady (s : State) (t : Nat) : Bool :=
  let b := t / 4
  s.fld (LOOP_RECAL.pend.on b) != 0 && s.fld (LOOP_RECAL.next.on b) == t % 4 && s.bayState b != 0 && s.bayState b != 5 &&
    !(s.tile t).loadQ.any (·.phase == 2) && (s.tile t).boundary && !(s.bay b).darkDue && !(s.bay b).darkOn

/-- RECALIBRATION_SLOT: the slot as one step (log 43). -/
def State.recalibrate (s : State) (t : Nat) (m : SlotMeas) : State :=
  if !s.slotReady t then s
  else
    let b := t / 4
    let s1 := ((s.takeRows t m.rows).writeSlot t m).copyTable t |>.restoreIdle t
    let s2 := (s1.setFld (LOOP_RECAL.pend.on b) (s1.fld (LOOP_RECAL.pend.on b) - 1)).setFld (LOOP_RECAL.next.on b) (t + 1)
    (s2.draw.noteCause b 6).settle t

/-- RECALIBRATION_SLOT (R64, R269, R270). -/
def execRecalibrationSlot (t : TileId) (m : SlotMeas) (s : State) : Host.Outcome State Fault Refusal :=
  .next (s.recalibrate t.val m)

/-- RECALIBRATION_INTERVAL_WRITE: while the bay is offline or free, and in range (R273). -/
def State.intervalWrite (s : State) (e : Nat) (v : Word) : State :=
  let n := bits v.toNat 15 0
  if e < 8 ∧ s.bayState e < 2 ∧ 250 ≤ n then s.setFld (LOOP_RECAL.ivl.on e) n else s

/-- RECALIBRATION_INTERVAL_WRITE (R273). -/
def execRecalibrationIntervalWrite (e : EngineId) (v : Word) (s : State) : Host.Outcome State Fault Refusal :=
  .next (s.intervalWrite e.val v)

/-! ### First calibration and rebuild (R20, R66, R267) -/

/-- The n-th value that the first calibration of a tile measures (log 41). -/
def calValue (t n : Nat) : BitVec 16 := Config.calibration (tableSize * t + n)

/-- The row that the first calibration measures; its flight delay lies between 290 ps and 330 ps (R57). -/
def calRow (t r : Nat) : RowMeas :=
  let v := fun i => calValue t (10 * r + i)
  ⟨BitVec.ofNat 8 ((v 0).toNat % 18), v 1, v 2, v 3, v 4, v 5, v 6, v 7, v 8, v 9⟩

/-- A curve entry as knots at every eighth entry and at 255 make it: a knot is flagged. -/
def curveEntry (c : Nat → Nat) (w : Nat) : List Byte :=
  if w = 255 then leBytes 2 (c 32) ++ [1, 0]
  else if w % 8 = 0 then leBytes 2 (c (w / 8)) ++ [1, 0]
  else leBytes 2 (interpolate (c (w / 8)) (c (w / 8 + 1)) (8 * (w / 8)) (knotEntry (w / 8 + 1)) w) ++ [0, 0]

/-- The set-point of zone `z` of a tile, in 2^-12 °C, which the first calibration takes as the reference temperature. -/
def State.zoneRef (s : State) (t z : Nat) : BitVec 24 := (s.loopOf (t / 4) (16 * (t % 4) + z)).target

/-- The measurements of ring `k` at zone set-points of 63.0, 65.0 and 67.0 °C (R267), latest first. -/
def State.firstPoints (s : State) (t k : Nat) : List (Int × Int) :=
  [67, 65, 63].zipIdx.map fun p =>
    (roundUp (((p.1 : Rat) - ((s.zoneRef t (k / 4096)).toInt : Rat) / 4096) * 256),
      signed 16 (calValue t (7000 + 3 * k + p.2)).toNat)

/-- The bytes of a table built by measurement (R267; log 41). The reference temperatures are the zones' targets; the ring
records are fitted to the three points. -/
def State.builtTable (s : State) (t : Nat) : List Byte :=
  let v := fun (n : Nat) => (calValue t n).toNat
  let three := fun (n : Nat) => leBytes 2 (v n) ++ leBytes 2 (v (n + 1)) ++ leBytes 2 (v (n + 2))
  let tref := fun (z : Nat) =>
    let w := (s.zoneRef t z).signExtend 32
    leBytes 4 w.toNat ++ leBytes 4 (~~~w).toNat
  leBytes 16 (3 + 2 ^ 32 * 3) ++ (List.range 16).flatMap tref ++ List.replicate 0x70 0 ++
    (List.range 256).flatMap (curveEntry fun k => v (6000 + k)) ++
    (List.range 24).flatMap (fun k => three (6100 + 3 * k) ++ List.replicate 26 0) ++
    (List.range 128).flatMap (fun k => three (6300 + 3 * k) ++ List.replicate 10 0) ++
    (List.range 512).flatMap (fun r => rowBytes (calRow t r) ++ List.replicate 20 0) ++
    (List.range 65536).flatMap fun k => ringBytes (fitAll (s.firstPoints t k))

/-- A table built by measurement: its bytes, the statistics of the rows, the measurements of the rings, and the working
copy. -/
def State.buildTable (s : State) (t : Nat) : State :=
  let a := tableBase t
  let new := (s.builtTable t).zipIdx.filterMap fun p => if p.1 = 0 then none else some (a + p.2, p.1)
  let s1 : State := { s with stage := { s.stage.keep (fun n => n < a || a + tableSize ≤ n) with
    bytes := s.stage.bytes.filter (fun p => p.1 < a) ++ new ++ s.stage.bytes.filter (fun p => a + tableSize ≤ p.1) } }
  let s2 := s1.modTile t fun x => { x with points := (List.range 65536).map fun k => (k, s.firstPoints t k), failed := false }
  (s2.takeRows t ((List.range 512).map (calRow t))).copyTable t

/-- The first calibration of a bay builds the tables of its four tiles (R267). -/
def State.firstCalibration (s : State) (b : Nat) : State :=
  ((List.range 4).foldl (fun s k => s.buildTable (4 * b + k)) s).modBay b fun y => { y with calibrated := true }

/-- TABLE_REBUILD: firmware rebuilds the table of a tile after a table check failure: the header is valid, the
reference temperatures agree with their complements, no block is marked (R20; log 41). -/
def State.tableRebuild (s : State) (t : Nat) : State :=
  let a := tableBase t
  if (s.bay (t / 4)).calibrated && !(s.tile t).tblOk && !(s.tile t).quality then
    let s1 := s.storeBytes (a + 4) (leBytes 4 (s.stageNat (a + 4) 4 / 2 * 2 + 1))
    let s2 := (List.range 16).foldl (fun s z =>
      s.storeBytes (a + 20 + 8 * z) (leBytes 4 (2 ^ 32 - 1 - s.stageNat (a + 16 + 8 * z) 4))) s1
    let inTable := fun (n : Nat) => a ≤ n && n < a + tableSize
    let s3 : State := { s2 with stage := { s2.stage with
      marks := s2.stage.marks.filter fun p => !inTable (64 * p.1), flips := s2.stage.flips.filter fun p => !inTable p.1
      chk := s2.stage.chk.filter fun p => !inTable (8 * p.1) } }
    (s3.modTile t fun x => { x with failed := false }).copyTable t
  else s

/-- TABLE_REBUILD (R20). -/
def execTableRebuild (t : TileId) (s : State) : Host.Outcome State Fault Refusal := .next (s.tableRebuild t.val)

end Sys2Proof.Machine
end

