-- ==== Sys2Proof/Machine/Resets.lean ====
section
/-! DEFINITION. What a reset and the entry to A3 leave: the stop of every bay, the contents lost and kept (R172, R393, R395,
R399, R406, R431, R434, R437, R438, R444, R445, R479, R481, R490). -/

namespace Sys2Proof.Machine

/-! ### Everything stops (R431, R479) -/

/-- Every promise of every score breaks. -/
def State.breakAll (s : State) (cause : Nat) : State :=
  s.scores.scores.foldl (fun s p =>
    p.2.promises.foldl (fun s q => s.promiseBreak (BitVec.ofNat 16 p.1) q.1 cause) s) s

/-- Every bay offline with its queued work discarded, every assured promise broken, every laser drive at zero, the emission
lock set. -/
def State.haltAll (s : State) : State :=
  let s1 := (List.range 8).foldl (fun s b => (s.stopBay b).setBayState b 0) (s.breakAll 0)
  let s2 := (List.range 9).foldl (fun s i => (List.range (combsOf i)).foldl
    (fun s c => s.setComb i c { s.comb i c with ma := 0 }) s) s1
  s2.setFlag GUARD_STAT.elock true

/-! ### Contents lost -/

/-- Stage banks 46 and 47 (R176, R177); the other banks read as zeros when anything can reach them again (R490). -/
def Stage.retained (g : Stage) : Stage := { g.keep fun a => 0x17000000 ≤ a with owner := [] }

/-- The state after everything is lost but what no reset reaches: the queue and the model's counters, the pins, the
non-volatile images and the fused counter, host memory and the messages sent, and banks 46 and 47. -/
def State.cleared (s : State) : State :=
  { State.reset with
    pending := s.pending, free := s.free, pins := { s.pins with powForce := true, trimRise := none, pinForce := !s.pins.clrTrim }
    stage := s.stage.retained
    sec := { State.reset.sec with slots := s.sec.slots, svn := s.sec.svn }
    cmd := { State.reset.cmd with host := s.cmd.host, sent := s.cmd.sent }
    pwr := { State.reset.pwr with rails := s.pwr.rails }
    link := { State.reset.link with nonce := s.link.nonce } }

/-- Copies registers from the state before. -/
def State.keepRegs (s old : State) (l : List Nat) : State := l.foldl (fun t o => t.setReg o (old.reg o)) s

/-- Registers of the Bronze retained store, and those that R434 and R481 keep; the count of firmware resets runs from
power-on. -/
def retainedRegs : List Nat := [CLK_RST_CAUSE.por.off, FAB_START.trn.off, THM_TRIP.temp.off, GLB_STRAP.compat.off]
/-- Registers that Bronze holds through A3. -/
def bronzeRegs : List Nat :=
  retainedRegs ++ [GLB_PUP.steps.off, FAB_PID.id.off, SEC_BOOT.ver.off, PWR_STAT.state.off, PWR_RAIL_SEL.rail.off,
    PWR_WAKE.code.off]

/-- Module reset (R393). A latched trip is cleared at the rising edge of MOD_RESET_N (R479). -/
def State.moduleReset (s : State) : State :=
  let h := s.haltAll
  let t := h.cleared.keepRegs h retainedRegs
  let t1 := ((t.setFld PWR_WAKE.code (s.fld PWR_WAKE.code)).setFld GLB_PUP.sba (s.fld GLB_PUP.sba)).setFld
    SEC_BOOT.fres (s.fld SEC_BOOT.fres)
  { t1 with faults := { t1.faults with last := h.faults.last } }

/-- Power-on reset (R393): everything. The RC oscillator's domain starts. -/
def State.powerOn (s : State) (sba : Nat) : State :=
  let t : State := { State.reset with
    pending := s.pending, free := s.free + 1
    pins := { s.pins with modReset := false, trip := true, powForce := true, trimRise := none, pinForce := !s.pins.clrTrim, vbrz := true }
    sec := { State.reset.sec with slots := s.sec.slots, svn := s.sec.svn }
    cmd := { State.reset.cmd with host := s.cmd.host, sent := s.cmd.sent }
    link := { State.reset.link with nonce := Config.nonce s.free } }
  t.setFld GLB_PUP.sba sba

/-- Entry to A3 (R399, R406): rails 0 to 11 off, the trim release and the verified flag gone, the link down. -/
def State.enterA3 (s : State) : State :=
  let h := s.haltAll
  let t := h.cleared.keepRegs h bronzeRegs
  let t1 := (((t.setFlag SEC_BOOT.ver false).setFlag SEC_BOOT.rec false).setFld SEC_BOOT.run 3).setFld PWR_STAT.state 3
  let t2 := ((t1.setFld PWR_STAT.phase 0).setFlag PWR_STAT.mgmt false).setFlag PWR_STAT.nref false
  let t3 := (List.range 12).foldl (fun s r => s.setRail r { s.rail r with on := false, pg := false, mv := 0 }) t2
  { t3 with
    faults := { t3.faults with last := h.faults.last }
    link := { t3.link with regAddr := s.link.regAddr, pec := s.link.pec, alerted := s.link.alerted } }

end Sys2Proof.Machine
end

