-- ==== Sys2Proof/Machine/Thermal.lean ====
section
/-! DEFINITION. Temperature sensors, thresholds and rates, throttling, the excursion flag, the trip, module input power, and
the check of stored pairs (R398, R419 to R434, R458). -/

namespace Sys2Proof.Machine

/-! ### Places and causes (R425) -/

/-- The bay that a sensor governs; none where it governs every bay. -/
def sensorBay (n : Nat) : Option Nat :=
  if n < 512 then some (n / 64) else if n < 592 then some ((n - 512) / 10) else none

/-- The bays that a sensor governs. -/
def governed (n : Nat) : List Nat :=
  match sensorBay n with
  | some b => [b]
  | none => List.range 8

def bayMask (l : List Nat) : Nat := l.foldl (fun a b => a + 2 ^ b) 0

/-- A sensor at throttle, or broken. -/
def Sensor.cause (x : Sensor) : Bool := x.broken || x.state == 2

/-- A cause that governs every bay is in force. -/
def State.moduleCause (s : State) : Bool :=
  s.flag THM_STAT.pwr || (List.range 632).any fun n => sensorBay n == none && (s.sensor n).cause

/-- A cause other than a rate act governs a bay. -/
def State.bayCause (s : State) (b : Nat) : Bool :=
  s.moduleCause || (List.range 592).any fun n => sensorBay n == some b && (s.sensor n).cause

/-! ### Levels (R426 to R429) -/

/-- The least floor of the timing claims of a bay's assured sequence; none where no assured sequence runs. -/
def State.floorOf (s : State) (b : Nat) : Option Nat :=
  match (s.bay b).assured with
  | none => none
  | some r => some (((s.score r.score).claims.filter fun x => x.2.seq == r.index).foldl
      (fun a x => min a ((s.score r.score).promise x.1).floor.toNat) 7)

/-- The level at which throttling stops: 8 + f, or 8 without an assured sequence. -/
def State.levelCap (s : State) (b : Nat) : Nat :=
  match s.floorOf b with
  | some f => 8 + f
  | none => 8

/-- Sets λ of a bay. From the tick at which it comes to 8 + f, the time held there counts. -/
def State.setLevel (s : State) (b v : Nat) : State :=
  let held := if v < s.levelCap b then none else match (s.bay b).floorTick with
    | some t => some t
    | none => some s.tick
  let s1 := (s.setFld (levelFld b) v).modBay b fun y => { y with levelTick := s.tick, floorTick := held }
  if 8 < v then s1.noteCause b 1 else s1

/-- From the tick at which the last cause of a bay ends, λ is released and a fall below the floor is over. -/
def State.levelRelease (s : State) (b : Nat) : State :=
  s.modBay b fun y => { y with levelTick := s.tick, floorTick := none, floorFault := false }

/-- A change that may end causes: `f`, with the release of the bays whose last cause it ended. -/
def State.withCauses (s : State) (f : State → State) : State :=
  let old := (List.range 8).filter s.bayCause
  let t := f s
  old.foldl (fun t b => if t.bayCause b then t else t.levelRelease b) t

/-- THROTTLE_STEP_UP: every 100 µs, up to 8 + f, or up to 15 after the fault of R427. -/
def State.stepUp (s : State) (b : Nat) : State :=
  let v := s.level b
  let cap := if (s.bay b).floorFault then 15 else s.levelCap b
  if s.bayCause b ∧ v < cap ∧ (s.bay b).levelTick + 100 ≤ s.tick then s.setLevel b (v + 1) else s

/-- THROTTLE_STEP_UP (R426). -/
def execThrottleStepUp (b : BayId) (s : State) : Host.Outcome State Fault Refusal := .next (s.stepUp b.val)

/-- THM_LAST: the latest thermal event. -/
def State.thermalEvent (s : State) (kind mask sensor : Nat) : State :=
  (((s.setFlag THM_LAST.valid true).setFld THM_LAST.kind kind).setFld THM_LAST.bays mask).setFld THM_LAST.sensor sensor

/-- BELOW_FLOOR: λ = 8 + f held for 1 ms with a cause in force: every claim of the assured sequence breaks (R232, R427). -/
def State.belowFloor (s : State) (b : Nat) : State :=
  match (s.bay b).assured, (s.bay b).floorTick with
  | some r, some t =>
    if s.bayCause b && !(s.bay b).floorFault && decide (t + 1000 ≤ s.tick) then
      let s1 := s.modBay b fun y => { y with floorFault := true }
      let s2 := s1.scoreFold r.score r.index fun s n _ =>
        (s.promiseBreak r.score n 2).raise
          { cls := 9, code := 4, score := r.score, unit := n, arg0 := 2, arg1 := ((s.score r.score).promise n).worst }
      (s2.thermalEvent 6 (2 ^ b) 0x3FF).raise { cls := 10, code := 6, score := r.score, unit := 0x3FF }
    else s
  | _, _ => s

/-- BELOW_FLOOR (R427). -/
def execBelowFloor (b : BayId) (s : State) : Host.Outcome State Fault Refusal := .next (s.belowFloor b.val)

/-- THROTTLE_STEP_DOWN: every 1 ms, with no cause in force and the excursion flag clear. -/
def State.stepDown (s : State) (b : Nat) : State :=
  let v := s.level b
  if !s.bayCause b ∧ !(s.engine b).exc ∧ 0 < v ∧ (s.bay b).levelTick + 1000 ≤ s.tick then s.setLevel b (v - 1) else s

/-- THROTTLE_STEP_DOWN (R428). -/
def execThrottleStepDown (b : BayId) (s : State) : Host.Outcome State Fault Refusal := .next (s.stepDown b.val)

/-- A rate act on a sensor: λ of the bays it governs at once at 8 + f, and their excursion flags (R429). -/
def State.rateAct (s : State) (n : Nat) : State :=
  (governed n).foldl (fun s b =>
    let s1 := if s.level b < s.levelCap b then s.setLevel b (s.levelCap b) else s
    (s1.setEngine b { s1.engine b with exc := true }).noteUpset b 1) s

/-- EXCURSION_CLEAR: every sensor that governs the bay has had a rate below the warn limit for 2 ms. -/
def State.excursionClear (s : State) (b : Nat) : State :=
  let calm := (List.range 632).all fun n => !(governed n).contains b ||
    (match (s.sensor n).warnTick with
    | some t => decide (t + 2000 ≤ s.tick)
    | none => true)
  if (s.engine b).exc && calm then
    let s1 := s.setEngine b { s.engine b with exc := false }
    if s.bayCause b then s1 else s1.modBay b fun y => { y with levelTick := s.tick }
  else s

/-- EXCURSION_CLEAR (R429). -/
def execExcursionClear (b : BayId) (s : State) : Host.Outcome State Fault Refusal := .next (s.excursionClear b.val)

/-! ### Samples (R421 to R424) -/

/-- The reading nearest to 200 µs before a tick; of two as near, the later one (log 46). -/
def nearest : Nat → List (Nat × Int) → Option (Nat × Int)
  | _, [] => none
  | t, p :: r => match nearest t r with
    | some q => if ((p.1 + 200 : Nat) - (t : Int)).natAbs ≤ ((q.1 + 200 : Nat) - (t : Int)).natAbs then some p else some q
    | none => some p

/-- The change of a sensor over 200 µs, in units of 2^-6 °C; the rate in K/ms is 5/64 of it (R424). -/
def Sensor.change (x : Sensor) (tick : Nat) (v : Int) : Int :=
  match nearest tick x.hist with
  | some p => v - p.2
  | none => 0

/-- The state code after a reading: a threshold state is entered at the threshold and left 3 K below it (R423). -/
def State.sensorState (s : State) (n : Nat) (v : Int) : Nat :=
  let c := sensorClass n
  let warn : Int := 64 * (s.fld (THM_LIM.warn.nth c) : Nat)
  let thr : Int := 64 * (s.throttleAt c : Nat)
  let old := (s.sensor n).state.toNat
  if thr ≤ v ∨ (old = 2 ∧ thr - 192 < v) then 2 else if warn ≤ v ∨ (1 ≤ old ∧ warn - 192 < v) then 1 else 0

/-- A sensor found broken: treated as at its throttle threshold with no rate, recorded; the third broken zone sensor of a
tile withdraws the bay (R42, R422). -/
def State.breakSensor (s : State) (n : Nat) : State :=
  if (s.sensor n).broken then s
  else
    let x := s.sensor n
    let s1 := s.setSensor n { x with broken := true, rate := 0, state := 2, above := 0, fast := false }
    let s2 := (s1.thermalEvent 4 (bayMask (governed n)) n).raise
      { cls := 10, code := 4, unit := n, arg0 := unsigned 32 (signed 16 x.temp.toNat) }
    let t := n / 16
    if n < 512 ∧ 3 ≤ ((List.range 16).filter fun z => (s2.sensor (16 * t + z)).broken).length then
      let s3 := s2.modBay (t / 4) fun y => { y with brokenZones := true }
      if s3.bayState (t / 4) = 6 then s3 else s3.withdraw (t / 4)
    else s2

/-- The events of a reading: warn and throttle crossings, rate warning, rate act (R347, R425). -/
def State.sensorEvents (s : State) (n : Nat) (old new : Sensor) : State :=
  let mask := bayMask (governed n)
  let warn : Int := 64 * (s.fld THM_RATE.warn : Nat)
  let act : Int := 64 * (s.fld THM_RATE.act : Nat)
  let ev := fun (b : Bool) (k : Nat) (v : Bool) (s : State) =>
    if b then (if v then (s.thermalEvent k mask n).sendMsix 6 else s.thermalEvent k mask n) else s
  let s1 := ev (old.state == 0 && new.state != 0) 0 true s
  let s2 := ev (old.state != 2 && new.state == 2) 1 true s1
  let s3 := ev (decide (5 * old.rate < warn) && decide (warn ≤ 5 * new.rate)) 2 true s2
  let s4 := ev (decide (5 * old.rate < act) && decide (act ≤ 5 * new.rate)) 3 false s3
  if act ≤ 5 * new.rate then s4.rateAct n else s4

/-- A reading of a sensor in units of 2^-6 °C. -/
def State.takeReading (s : State) (n : Nat) (r : BitVec 16) : State :=
  let x := s.sensor n
  let v := r.toInt
  let c := sensorClass n
  if x.broken then s
  else if v < -40 * 64 ∨ 150 * 64 < v then s.breakSensor n
  else
    let d := if c = 3 then 0 else x.change s.tick v
    let hot := decide (64 * ((s.fld (THM_LIM.warn.nth c) : Int) - 5) ≤ v) || decide (160 < 5 * d)
    let y : Sensor := { x with
      temp := r, hist := if c = 3 then [] else ((s.tick, v) :: x.hist).filter fun p => decide (s.tick ≤ p.1 + 400)
      rate := d, fast := c != 3 && (x.fast || hot), fastTick := if hot then s.tick else x.fastTick
      state := BitVec.ofNat 2 (s.sensorState n v), misses := 0
      warnTick := if 64 * (s.fld THM_RATE.warn : Int) ≤ 5 * d then some s.tick else x.warnTick
      above := if 64 * (s.guardLim (8 + c) : Int) ≤ v then min 2 (x.above + 1) else 0 }
    (s.setSensor n y).sensorEvents n x y

/-- THERMAL_SAMPLE: a reading, or a front end that reports its sensor open or shorted, or a device that did not answer
its readout (R421, R422). -/
def State.thermalSample (s : State) (n : Nat) : Option (BitVec 16) → State
  | some r => s.withCauses fun s => s.takeReading n r
  | none =>
    let x := s.sensor n
    if sensorClass n = 3 ∧ x.misses < 2 then s.setSensor n { x with misses := x.misses + 1 } else s.breakSensor n

/-- THERMAL_SAMPLE (R421). -/
def execThermalSample (n : SensorId) (reading : Option (BitVec 16)) (s : State) : Host.Outcome State Fault Refusal :=
  .next (s.thermalSample n.val reading)

/-- FAST_SAMPLING_END: neither case of R421 for 10 ms. -/
def execFastSamplingEnd (n : SensorId) (s : State) : Host.Outcome State Fault Refusal :=
  .next (let x := s.sensor n.val
    if x.fast && x.fastTick + 10000 ≤ s.tick then s.setSensor n.val { x with fast := false } else s)

/-! ### The trip (R431, R444) -/

/-- TRIP: the Guard fault, every bay offline, the rails off, A3; the latch holds THERM_TRIP_N low. -/
def State.trip (s : State) (n : Nat) : State :=
  let x := s.sensor n
  if x.above < 2 ∨ s.flag THM_TRIP.latched then s
  else
    let s1 := (s.guardFault 4 (sensorClass n)).haltAll
    let s2 := s1.raise { cls := 10, code := 8, act := 5, unit := n, arg0 := unsigned 32 x.temp.toInt }
    let s3 := ((s2.enterA3.setFlag THM_TRIP.latched true).setFld THM_TRIP.sensor n).setFld THM_TRIP.temp x.temp.toNat
    { s3 with pins := { s3.pins with trip := false } }

/-- TRIP (R431). -/
def execTrip (n : SensorId) (s : State) : Host.Outcome State Fault Refusal := .next (s.trip n.val)

/-! ### Module input power (R398, R425) -/

/-- PMBUS_POWER_READ: the sum of the rails' READ_PIN; above 1,400 W it is a cause, until it is below 1,360 W. -/
def State.powerRead (s : State) (watts : List Nat) : State :=
  let w := watts.foldl (· + ·) 0
  s.withCauses fun s =>
    let s1 := s.setSat PWR_INPUT.watts w
    if 1400 < w ∧ !s.flag THM_STAT.pwr then (s1.setFlag THM_STAT.pwr true).thermalEvent 5 0xFF 0x3FF
    else if w < 1360 then s1.setFlag THM_STAT.pwr false
    else s1

/-- PMBUS_POWER_READ (R398). The host port reads only while the module's rails are commanded (not in A3). -/
def execPmbusPowerRead (watts : List Nat) (s : State) : Host.Outcome State Fault Refusal :=
  .next (if s.fld PWR_STAT.state = 3 then s else s.powerRead watts)

/-! ### Stored pairs (R458) -/

def scaleCmplOff (t : Nat) : Nat := scaleOff t + 4

/-- The tile's scale pair disagrees: no further window, and its sequence faults with strand code 8. -/
def State.scalePairBad (s : State) (t : Nat) : State :=
  let s1 := s.modTile t fun x => { x with scaleBad := true }
  let b := t / 4
  match ((s.bay b).assured.toList ++ (s.bay b).spare.toList).find? fun r => inMask r.tiles.toNat (t % 4) with
  | some r => match r.strands.find? fun j => !((s.bay b).strand j).state.stopped with
    | some j => s1.strandFault b j 8 ((s.bay b).strand j).pc.toNat
    | none => s1
  | none => s1

/-- The generator of a loop holds r with v at 0, and the loop hands over to HOLD without the band check. -/
def State.loopPairBad (s : State) (e l : Nat) : State :=
  let L := s.loopOf e l
  let b := Machine.stage L.xS (s.baseline e l L.te)
  s.setLoop e l { L.toHold b L.s with v := 0, mv := 0, pairBad := true }

/-- The class-4 record of a stored pair: block base, offset or index, value, complement. -/
def State.pairFault (s : State) (unit arg0 : Nat) (v c : Word) : State :=
  s.raise { cls := 4, code := 3, unit := unit, arg0 := arg0, arg1 := v.toNat, arg2 := c.toNat }

/-- STORED_PAIR_CHECK: the pair reads `v` and `c`; disagreement acts as the kind of value gives. -/
def State.pairCheck (s : State) (p : StoredPair) (v c : Word) : State :=
  if c = ~~~v then s
  else match p with
    | .guardLimit i =>
      let s1 : State := { s with sec := { s.sec with guard := Tab.set dGuard s.sec.guard i.toNat ⟨v, c⟩ } }
      if guardIndex i.toNat then s1.pairFault 0xFF i.toNat v c else s
    | .tileScale t => (s.pairFault (0x20 + t.val) 0x30 v c).scalePairBad t.val
    | .loopSetpt e l => if slotUsed e l then 
        ((s.pairFault (0x40 + e.val) 0xC v c).setLoop e.val l.val { s.loopOf e.val l.val with target := v.setWidth 24 }).loopPairBad
          e.val l.val
      else s
    | .loopProf e l => if slotUsed e l then 
        ((s.pairFault (0x40 + e.val) 0x14 v c).setLoop e.val l.val { s.loopOf e.val l.val with prof := v }).loopPairBad
          e.val l.val
      else s
    | .tref t z => (s.pairFault (0x20 + t.val) (16 + 8 * z.val) v c).tableFail t.val
    | .admPlim => (s.pairFault 0 0x58 v c).setFld GLB_ADM_PLIM.watts (min v.toNat (~~~c).toNat)
    | .saveHeader =>
      { s.pairFault 5 0 v c with pwr := { s.pwr with imgBad := true } }

/-- STORED_PAIR_CHECK (R458). -/
def execStoredPairCheck (p : StoredPair) (v cmpl : Word) (s : State) : Host.Outcome State Fault Refusal :=
  .next (s.pairCheck p v cmpl)

end Sys2Proof.Machine
end

