-- ==== Sys2Proof/Machine/Clocks.lean ====
section
/-! DEFINITION. Clock domains and their sources, the reference and its loss, gates, crossings, temperature correction
(R378 to R392, R416). -/

namespace Sys2Proof.Machine

/-! ### Source switches and clock faults (R384 to R386) -/

/-- CLK_SW_LAST: the latest source switch or reference change. -/
def State.switchLast (s : State) (forced : Bool) (dom from_ dest us : Nat) : State :=
  let s1 := ((s.setFlag CLK_SW_LAST.valid true).setFlag CLK_SW_LAST.forced forced).setFld CLK_SW_LAST.dom dom
  ((s1.setFld CLK_SW_LAST.from from_).setFld CLK_SW_LAST.to dest).setSat CLK_SW_LAST.us us

/-- A clock fault of a domain, or of the reference selector (31). -/
def State.clockFault (s : State) (code unit act : Nat) : State :=
  let s1 := if unit < 23 then
      let d := s.dom unit
      s.setDom unit { d with flt := if d.flt = 255 then 255 else d.flt + 1 }
    else s
  s1.raise { cls := 11, code := code, act := act, unit := unit, arg0 := (s1.reg CLK_SW_LAST.valid.off).toNat }

/-- Only CORE and LOOP change source, between the reference PLL and the RC oscillator. -/
def switches (d src : Nat) : Bool := (d == 1 || d == 5) && src < 2

/-- Whether a source runs: the RC oscillator always, the reference PLL while it is locked or in holdover. -/
def State.sourceRuns (s : State) (src : Nat) : Bool :=
  src == 1 || s.flag CLK_REF_STAT.lock || s.flag CLK_REF_STAT.hold

/-- The domain on its new source at divider 1. -/
def State.onSource (s : State) (d src : Nat) : State :=
  s.setDom d { s.dom d with src := BitVec.ofNat 2 src, div := 0, ramp := false, run := true, pll := src == 0 }

/-- SOURCE_SWITCH: between two running sources; three steps down, three steps up, 6 µs. -/
def State.sourceSwitch (s : State) (d src : Nat) : State :=
  let x := s.dom d
  if switches d src && x.run && x.src.toNat != src && s.sourceRuns src && s.sourceRuns x.src.toNat then
    (s.onSource d src).switchLast false d x.src.toNat src 6
  else s

/-- SOURCE_SWITCH (R384). -/
def execSourceSwitch (d : DomainId) (src : BitVec 2) (s : State) : Host.Outcome State Fault Refusal :=
  .next (s.sourceSwitch d.val src.toNat)

/-- STOPPED_CLOCK: the old source has stopped, the selector is forced, and the ramp runs from divider 8 (log 48). -/
def State.stoppedClock (s : State) (d src : Nat) : State :=
  let x := s.dom d
  if switches d src && x.run && x.src.toNat != src && s.sourceRuns src && !s.sourceRuns x.src.toNat then
    ((s.onSource d src).switchLast true d x.src.toNat src 3).clockFault 1 d 0
  else s

/-- STOPPED_CLOCK (R385). -/
def execStoppedClock (d : DomainId) (src : BitVec 2) (s : State) : Host.Outcome State Fault Refusal :=
  .next (s.stoppedClock d.val src.toNat)

/-- REFERENCE_INPUT_STOPPED: the reference PLL enters holdover (R379, R386). -/
def State.inputStopped (s : State) : State :=
  if s.fld CLK_REF_STAT.sel = 0 ∨ s.flag CLK_REF_STAT.hold then s
  else
    let s1 := ((s.setFlag CLK_REF_STAT.hold true).setFlag CLK_REF_STAT.lock false).setFlag FAB_REF.hold true
    let s2 : State := { s1.setFlag FAB_REF.lock false with clk := { s1.clk with holdTick := s.tick } }
    s2.clockFault 3 31 0

/-- REFERENCE_INPUT_STOPPED (R386). -/
def execReferenceInputStopped (s : State) : Host.Outcome State Fault Refusal := .next s.inputStopped

/-- Domains with a PLL of their own. -/
def hasPll (d : Nat) : Bool := d < 4 || d == 5

/-- PLL_UNLOCK (R386). -/
def execPllUnlock (d : DomainId) (s : State) : Host.Outcome State Fault Refusal :=
  .next (let x := s.dom d.val
    if hasPll d.val && x.run && x.pll then (s.setDom d.val { x with pll := false }).clockFault 2 d.val 0 else s)

/-! ### Loss and return of the reference (R387, R416) -/

/-- Every loop into HOLD without the band check. -/
def State.allHold (s : State) : State :=
  (List.range 10).foldl (fun s e => (s.slots e).foldl (fun s l =>
    let L := s.loopOf e l
    if L.mode = .hold then s else s.setLoop e l (L.toHold (Machine.stage L.xS (s.baseline e l L.te)) L.s)) s) s

/-- A bay as the loss of the reference leaves it: paused, its promises broken, its windows to be marked, out of debug
state, offline. -/
def State.clockLossBay (s : State) (b : Nat) : State :=
  let s0 := if s.bayState b = 5 then s.leaveDebug b else s
  let s1 := if (s.bay b).anyRun then
      (s0.pause b fun y => { y with pauseClock := true }).breakBayPromises b 0
    else s0
  let s2 := (List.range 4).foldl (fun s k => s.modTile (4 * b + k) fun x =>
    { x with wins := x.wins.map fun w => if w.phase = .integrating then { w with lost := true } else w }) s1
  let s3 := s2.stopBay b
  if s3.bayState b = 6 then s3 else s3.setBayState b 0

/-- The reference PLL's holdover has ended without a new input, or no source that the selector can take runs. -/
def State.refGone (s : State) : Bool :=
  s.flag CLK_REF_STAT.hold && (decide (s.clk.holdTick + 100000 ≤ s.tick) || s.clk.xoOn.isNone)

/-- CORE or LOOP goes to the RC oscillator: by the ramp while its PLL still runs, forced, with a clock fault, where that has
stopped (R384, R385, R387). -/
def State.fallBack (s : State) (d : Nat) : State :=
  let x := s.dom d
  if x.src ≠ 0 then s
  else if x.pll then (s.onSource d 1).switchLast false d 0 1 6
  else ((s.onSource d 1).switchLast true d 0 1 3).clockFault 1 d 0

/-- REFERENCE_LOST. -/
def State.referenceLost (s : State) : State :=
  if !s.refGone then s
  else
    let s1 := (List.range 8).foldl State.clockLossBay s
    let s2 := ([0, 2, 3].foldl (fun s d => s.setDom d { s.dom d with run := false, pll := false }) s1).allHold.portsDown
    let s3 := [1, 5].foldl State.fallBack s2
    let s4 := ((s3.setFlag CLK_REF_STAT.lost true).setFlag CLK_REF_STAT.hold false).setFld CLK_REF_STAT.sel 0
    let s5 := ((s4.setFlag FAB_REF.hold false).setFlag PWR_STAT.nref true).setFlag CLK_RST_CAUSE.rlost true
    s5.clockFault 4 31 5

/-- REFERENCE_LOST (R387). -/
def execReferenceLost (s : State) : Host.Outcome State Fault Refusal := .next s.referenceLost

/-- Bays return from offline: bound ones to bound, the others to free (R402). -/
def State.returnBays (s : State) : State :=
  (List.range 8).foldl (fun s b => if s.bayState b = 0 then s.setBayState b (if s.bayScore b = 0 then 1 else 2) else s) s

/-- Firmware asks the loops of an engine for their working modes: lock-in loops seek, the others track; of LE9 the loops
of working combs. -/
def State.startLoops (s : State) (e : Nat) : State :=
  (s.slots e).foldl (fun s l =>
    let L := s.loopOf e l
    let c := l % 64
    let i := if c < 40 then c / 5 else 8
    if e = 9 ∧ !s.combWorks i (if c < 40 then c % 5 else c - 40) then s
    else if L.mode = .hold then s.askMode e l (if L.kind = 1 then .acquire else .track) else s) s

/-- REFERENCE_RETURN: SYM, PEWTER and MEM run again, and the bays return with their contents. -/
def State.referenceReturn (s : State) (recovered : Bool) (port : Nat) : State :=
  if !s.flag CLK_REF_STAT.lost then s
  else
    let sel := if recovered then 1 else 2
    let s1 := ((s.setFlag CLK_REF_STAT.lost false).setFlag CLK_REF_STAT.lock true).setFld CLK_REF_STAT.sel sel
    let s2 := if recovered then s1.setFld CLK_REF_STAT.port port else s1
    let s3 := (s2.switchLast false 31 0 sel (s.tick - s.clk.holdTick)).setFlag PWR_STAT.nref false
    let s4 := [1, 5].foldl (fun s d => (s.onSource d 0).switchLast false d 1 0 6)
      ([0, 2, 3].foldl (fun s d => s.onSource d 0) s3)
    ((List.range 10).foldl State.startLoops s4).returnBays

/-- REFERENCE_RETURN (R416). -/
def execReferenceReturn (recovered : Bool) (port : PortId) (s : State) : Host.Outcome State Fault Refusal :=
  .next (s.referenceReturn recovered port.val)

/-! ### Gates (R388, R389) -/

/-- The gates of a domain are held open. -/
def State.gateHeld (s : State) (d : Nat) : Bool :=
  if d < 6 then s.bitOf CLK_GATE_DIS.dom d else d == 6 || s.flag CLK_GATE_DIS.fab

/-- GATE_CLOSE: an idle block's gate closes; `share` is the share of the domain's gates closed over the last 1 ms. -/
def execGateClose (d : DomainId) (share : Byte) (s : State) : Host.Outcome State Fault Refusal :=
  .next (if s.gateHeld d.val || !(s.dom d.val).run then s else s.setDom d.val { s.dom d.val with share := share })

/-- GATE_DISABLE: a write of CLK_GATE_DIS takes effect only while no sequence runs. -/
def State.gateDisable (s : State) (v : Word) : State :=
  if (List.range 8).any fun b => (s.bay b).anyRun then s else s.rawWrite CLK_GATE_DIS.dom.off v

/-- GATE_DISABLE (R389). -/
def execGateDisable (v : Word) (s : State) : Host.Outcome State Fault Refusal := .next (s.gateDisable v)

/-! ### Crossings and domain resets (R324, R391, R393) -/

/-- The groups of a port leave service in the receive direction, with the state given. -/
def State.rxLost (s : State) (p : Nat) (st : BitVec 3) : State :=
  (List.range 4).foldl (fun s g =>
    let f := s.group p g
    if f.state = 0 then s else s.setGroup p g { f with state := st, held := [] }) s

/-- GDDR7 accesses in flight across the MEM crossing: a read is delivered as zeros marked with the crossing-reset reason,
a write completes as failed. -/
def State.memLost (s : State) : State :=
  s.gddr.retry.foldl (fun s r =>
    let s1 : State := { s with gddr := { s.gddr with retry := s.gddr.retry.eraseP (· == r) } }
    let xs := (s1.queue r.2.1).xfers
    match r.2.2, readingIdx xs with
    | none, some i => match xs[i]? with
      | some x => ((s1.countMark 14).deliverBlock r.2.1 x x.next (zeroBlock (some 14))).putXfer r.2.1 i
          { x with next := x.next + 1, done := x.done + 1 }
      | none => s1
    | _, _ => s1) s

/-- CROSSING_RESET: side `r` is reset, side `t` survives; the words in flight are discarded by the rule of their unit. -/
def State.crossingReset (s : State) (r t : Nat) : State :=
  if r = t ∨ s.clk.closed.contains (r, t) then s
  else
    let s1 : State := { s with clk := { s.clk with closed := s.clk.closed ++ [(r, t)] } }
    let s2 := ((s1.setFlag CLK_XRST.valid true).setFld CLK_XRST.rdom r).setFld CLK_XRST.sdom t
    let s3 := s2.bump CLK_XRST.count
    let fab := fun (d : Nat) (s : State) => if 7 ≤ d then s.rxLost (d - 7) 3 else s
    let s4 := fab r (fab t s3)
    if r = 3 ∨ t = 3 then s4.memLost else s4

/-- CROSSING_RESET (R391). -/
def execCrossingReset (r s : DomainId) (st : State) : Host.Outcome State Fault Refusal :=
  .next (st.crossingReset r.val s.val)

/-- CROSSING_OPEN: both sides released and clocked. -/
def State.crossingOpen (s : State) (r t : Nat) : State :=
  if (s.dom r).run && (s.dom t).run then
    { s with clk := { s.clk with closed := s.clk.closed.filter (· != (r, t)) } }
  else s

/-- CROSSING_OPEN (R391). -/
def execCrossingOpen (r s : DomainId) (st : State) : Host.Outcome State Fault Refusal :=
  .next (st.crossingOpen r.val s.val)

/-- DOMAIN_RESET: the logic of one domain: the receive path of a port, the GDDR7 channels, or the relock of a PLL
(log 49). -/
def State.domainReset (s : State) (d : Nat) : State :=
  let s1 := if hasPll d ∧ (s.dom d).run then s.setDom d { s.dom d with pll := true } else s
  if 7 ≤ d then s1.rxLost (d - 7) 4 else if d = 3 then s1.memLost else s1

/-- DOMAIN_RESET (R393). -/
def execDomainReset (d : DomainId) (s : State) : Host.Outcome State Fault Refusal := .next (s.domainReset d.val)

/-! ### Temperature correction (R392) -/

/-- One step toward a value. -/
def stepTo (old v : Int) : Int := clampI v (old - 1) (old + 1)

/-- TEMPERATURE_CORRECTION: `v` is what the item's polynomial gives, in units of the largest step, two's complement. A
broken sensor stops the correction at its last value. -/
def State.correct (s : State) (i : CorrItem) (v : Int) (broken : Bool) : State :=
  if broken then s.clockFault 5 (match i with | .xo => 31 | .rc => 6 | .adc _ => 0 | .readback => 5) 0
  else
    let put := fun (k : Nat) (s : State) =>
      { s with clk := { s.clk with corr := Tab.set dZero s.clk.corr k (stepTo (Tab.get dZero s.clk.corr k) v) } }
    match i with
    | .xo =>
      let s1 := s.setFld CLK_CORR.xo_ofs (unsigned 16 (stepTo (signed 16 (s.fld CLK_CORR.xo_ofs)) v))
      { s1 with clk := { s1.clk with xoTick := some s.tick } }
    | .rc =>
      let s1 := put 0 s
      { s1 with clk := { s1.clk with rcTick := some s.tick } }
    | .readback => put 1 s
    | .adc t => put (2 + t.val) s

/-- The on-module oscillator is locked to its temperature correction (R380). -/
def State.xoLocked (s : State) : Bool :=
  match s.clk.xoOn, s.clk.xoTick with
  | some a, some b => decide (a + 50000 ≤ s.tick) && decide (s.tick ≤ b + 100000)
  | _, _ => false

end Sys2Proof.Machine
end

