-- ==== Sys2Proof/Machine/Packets.lean ====
section
/-! DEFINITION. The command window, taking a packet, the order of execution, completion and replies (R350 to R365, R371). -/

namespace Sys2Proof.Machine

/-! ### The window (R350, R351, R354, R355) -/

def winDwords : Nat := 16384

/-- A dword of the stream: the one `i` dwords after a position, if it is valid. -/
def State.winDword (s : State) (pos i : Nat) : Option Word := Tab.get dNone s.cmd.window ((pos / 4 + i) % winDwords)
def State.setWinDword (s : State) (n : Nat) (v : Option Word) : State :=
  { s with cmd := { s.cmd with window := Tab.set dNone s.cmd.window (n % winDwords) v } }
/-- Clears the valid bits of `n` dwords from a position. -/
def State.clearDwords (s : State) (pos n : Nat) : State :=
  (List.range n).foldl (fun s i => s.setWinDword (pos / 4 + i) none) s

def State.cons (s : State) : Nat := s.fld CMD_CONS.cons
/-- Bytes of a header, and the unit of parameters and of hunting (R371). -/
def State.unit (s : State) : Nat := if s.compat then 16 else 32

/-- The `n` dwords at a position, if all are valid. -/
def State.winRead (s : State) (pos : Nat) : Nat → Option (List Word)
  | 0 => some []
  | n + 1 => match s.winRead pos n, s.winDword pos n with
    | some l, some w => some (l ++ [w])
    | _, _ => none

/-- A header's fields (R356, R371). -/
structure Header where
  opcode : Nat
  plen   : Nat
  tag    : Word
  seq    : Nat
  flags  : Nat
  ver    : Nat

/-- A header of the Yellia 3 format: sync, complement and length. -/
def parseHeader (l : List Word) : Option Header :=
  let d := fun i => (l.getD i 0)
  let ok := (List.range 4).all fun i => d (i + 4) == ~~~d i
  let plen := bits (d 1).toNat 31 16
  if ok && d 0 == 0x59413343 && plen % 32 == 0 && plen ≤ 4064 then
    some ⟨bits (d 1).toNat 15 0, plen, d 2, bits (d 3).toNat 15 0, bits (d 3).toNat 23 16, bits (d 3).toNat 31 24⟩
  else none

/-- A header of the Yellia 2 format: every command is fenced and every reply interrupts. -/
def parseCompat (l : List Word) : Option Header :=
  let d := fun i => (l.getD i 0)
  let ok := (List.range 2).all fun i => d (i + 2) == ~~~d i
  let plen := bits (d 1).toNat 15 0
  if ok && bits (d 0).toNat 15 0 == 0xA259 && plen % 16 == 0 && plen ≤ 4080 then
    some ⟨bits (d 0).toNat 31 16, plen, BitVec.ofNat 32 (bits (d 1).toNat 31 16), 0, 3, 3⟩
  else none

/-- The header at CMD_CONS: none while it is not all there, `some none` where it is rejected. -/
def State.headerAt (s : State) : Option (Option Header) :=
  match s.winRead s.cons (s.unit / 4) with
  | some l => some (if s.compat then parseCompat l else parseHeader l)
  | none => none

/-- Dwords of the header or packet at CMD_CONS, as far as its length is known. -/
def State.extent (s : State) : Nat :=
  match s.headerAt with
  | some (some h) => (s.unit + h.plen) / 4
  | _ => s.unit / 4

/-- Keeps the tick since which a header or packet has been partly present (R354). -/
def State.trackPartial (s : State) : State :=
  let l := (List.range s.extent).map fun i => (s.winDword s.cons i).isSome
  let p := if l.any id && !l.all id then some (s.cmd.partial_.getD s.tick) else none
  { s with cmd := { s.cmd with partial_ := p } }

/-- WINDOW_STALL (R354). -/
def State.windowStall (s : State) : State :=
  match s.cmd.partial_ with
  | some t =>
    if t + 1000 * s.fld CMD_TMO.ms ≤ s.tick ∧ !s.flag CMD_STAT.stall then (s.setFlag CMD_STAT.stall true).sendMsix 1 else s
  | none => s

/-- WINDOW_STALL (R354). -/
def execWindowStall (s : State) : Host.Outcome State Fault Refusal := .next s.windowStall

/-- One dword of a write to the window. -/
def State.windowDword (s : State) (n : Nat) (w : Word) (be : BitVec 4) : State :=
  if winDwords ≤ n ∨ be = 0 then s
  else if be ≠ 15 then s.setFlag CMD_STAT.part true
  else match Tab.get dNone s.cmd.window n with
    | some _ => ((s.setFlag CMD_STAT.ovr true).sendMsix 1).raise { cls := 13, code := 1, arg0 := 4 * n }
    | none => s.setWinDword n (some w)

/-- COMMAND_WINDOW_WRITE: poisoned dwords are discarded as partial ones (R349, R351; log 50). -/
def State.windowWrite (s : State) (off : Nat) (dws : List (Word × BitVec 4)) (poisoned : Bool) : State :=
  if poisoned then s.setFlag CMD_STAT.part true
  else (dws.zipIdx.foldl (fun s p => s.windowDword (off / 4 + p.2) p.1.1 p.1.2) s).trackPartial

/-- COMMAND_WINDOW_WRITE (R351). -/
def execCommandWindowWrite (off : BitVec 16) (dws : List (Word × BitVec 4)) (poisoned : Bool) (s : State) :
    Host.Outcome State Fault Refusal := .next (s.windowWrite off.toNat dws poisoned)

/-- FLUSH (R355). -/
def State.flush (s : State) : State :=
  let pos := (s.cons + 65535) / 65536 * 65536 % 2 ^ 32
  let s1 := ((s.setFlag CMD_STAT.stall false).setFlag CMD_STAT.hunt false).setFld CMD_CONS.cons pos
  { s1 with cmd := { s1.cmd with window := [], fresh := true, partial_ := none } }

/-- FLUSH (R355). -/
def execFlush (s : State) : Host.Outcome State Fault Refusal := .next s.flush

/-- COMMAND_ENABLE: at a rise of en after a write of the ring's registers, the ring starts anew (R361). -/
def State.commandEnable (s : State) (en : Bool) : State :=
  let rise := en && !s.flag CMD_CTL.en && s.cmd.ringNew
  let s1 := s.setFlag CMD_CTL.en en
  if rise then
    let s2 := ((s1.setFld CMD_RPL_TAIL.tail 0).setFld CMD_RPL_HEAD.head 0).setFlag CMD_RPL_TAIL.phase true
    { s2 with cmd := { s2.cmd with ringNew := false } }
  else s1

/-- COMMAND_ENABLE (R361). -/
def execCommandEnable (en : Bool) (s : State) : Host.Outcome State Fault Refusal := .next (s.commandEnable en)

/-! ### Opcodes and subjects (R362, R366, R371) -/

/-- Parameter bytes of an opcode as the tables show them; none for an unknown opcode. -/
def paramBytes (op : Nat) (p : Nat → Nat) : Option Nat :=
  match op with
  | 0x0001 => some 0
  | 0x0002 => some 0
  | 0x0101 => some (260 + bits (p 64) 7 0 + bits (p 64) 15 8)
  | 0x0102 => some 16
  | 0x0103 => some 4
  | 0x0104 => some 8
  | 0x0105 => some 8
  | 0x0106 => some 4
  | 0x0201 => some 12
  | 0x0202 => some 4
  | 0x0203 => some (16 + 8 * bits (p 1) 24 16)
  | 0x0301 => some 8
  | 0x0302 => some 4
  | 0x0303 => some 8
  | 0x0401 => some 4
  | 0x0402 => some 4
  | 0x0501 => some 4
  | 0x0601 => some 4
  | 0x0701 => some 8
  | 0x0702 => some 8
  | 0x0801 => some 8
  | 0x0802 => some 4
  | 0x0803 => some 4
  | _ => none

def inCompat (op : Nat) : Bool := op / 256 < 3 || op / 256 == 6 || op / 256 == 7

/-- Numbers of the things that a command can name. -/
def subjScore (i : Nat) : Nat := 1000000 + i
def subjBay (b : Nat) : Nat := 100 + b
def subjRange (n : Nat) : Nat := 200 + n
def subjGroup (n : Nat) : Nat := 800 + n
def subjWin (n : Nat) : Nat := 900 + n
def subjStage (n : Nat) : Nat := 1000 + n
def subjGddr (n : Nat) : Nat := 1200 + n
def subjSource (n : Nat) : Nat := 3000 + n
def subjOut (n : Nat) : Nat := 4000 + n
def subjFirmware : Nat := 10000
def subjCounter (i ev : Nat) : Nat := 2000000 + 512 * i + ev

/-- The resources that a table ties to a score. -/
def heldBy (t : Tab ScoreId) (i : Nat) : List Nat := (t.filter fun p => p.2.toNat == i).map fun p => p.1

/-- A score with every resource that it holds. -/
def State.scoreSubject (s : State) (i : Nat) : List Nat :=
  [subjScore i] ++ ((List.range 8).filter fun b => i != 0 && (s.bayScore b).toNat == i).map subjBay ++
    (heldBy s.scores.pewter i).map subjRange ++ (heldBy s.scores.groups i).map subjGroup ++
    ((List.range 64).filter fun w => (s.rwin w).valid && (s.rwin w).score.toNat == i).map subjWin ++
    (heldBy s.scores.sgran i).map subjStage ++ (heldBy s.scores.ggran i).map subjGddr

/-- The resource of a bind's kind and number. -/
def bindSubject (kind n : Nat) : List Nat :=
  if kind = 0 then [subjBay n] else if kind = 1 then [subjRange n] else if kind = 2 then [subjGroup n]
  else if kind = 3 then [subjWin n] else []

/-- The subject of a command, and whether it is the whole module. -/
def State.subject (s : State) (op : Nat) (p : Nat → Nat) : List Nat × Bool :=
  let i := bits (p 0) 15 0
  match op with
  | 0x0101 =>
    let bytes := leBytes 512 ((List.range 128).foldl (fun a k => a + p (65 + k) * 2 ^ (32 * k)) 0)
    let ns := bits (p 64) 7 0
    let ng := bits (p 64) 15 8
    (subjScore (bits (p 1) 15 0) :: ((bytes.take ns).map fun b => subjStage b.toNat) ++
      (((bytes.drop ns).take ng).map fun b => subjGddr b.toNat), false)
  | 0x0102 | 0x0103 | 0x0104 | 0x0105 | 0x0106 => (s.scoreSubject i, false)
  | 0x0201 => (s.scoreSubject i ++ bindSubject (bits (p 0) 23 16) (bits (p 1) 15 0), false)
  | 0x0202 => (s.scoreSubject i, false)
  | 0x0203 => ([subjWin (bits (p 0) 21 16)], false)
  | 0x0301 | 0x0302 | 0x0303 => ([subjCounter i (bits (p 0) 24 16)], false)
  | 0x0401 | 0x0402 => ([subjBay (bits (p 0) 2 0)], false)
  | 0x0501 =>
    let n := bits (p 0) 3 0
    (subjSource n :: (if n < 8 then [subjBay n] else (List.range 64).map subjGroup), false)
  | 0x0601 | 0x0701 | 0x0803 => ([], true)
  | 0x0702 => ([subjOut (bits (p 0) 12 0)], false)
  | 0x0801 | 0x0802 => ([subjFirmware], false)
  | _ => ([], false)

/-! ### Replies (R358 to R361, R365, R371) -/

/-- Entries of the reply ring. -/
def State.ringSize (s : State) : Nat :=
  let l := s.fld CMD_RPL_CFG.lsz
  2 ^ (if 6 ≤ l ∧ l ≤ 16 then l else 6)

/-- Entries written and not yet read. -/
def State.ringUsed (s : State) : Nat :=
  let n := s.ringSize
  (s.fld CMD_RPL_TAIL.tail + n - s.fld CMD_RPL_HEAD.head % n) % n

/-- Completes the command in place `k` of the taken ones: its reply waits to be written. -/
def State.complete (s : State) (k status : Nat) (detail : Nat := 0) (vs : List Nat := []) : State :=
  match s.cmd.taken[k]? with
  | none => s
  | some c =>
    let r : Reply := ⟨c.no, c.tag, c.seq, c.opcode, c.irq, c.gap, BitVec.ofNat 8 status, BitVec.ofNat 16 detail,
      BitVec.ofNat 32 (min (s.tick - c.tick) (2 ^ 32 - 1)), vs.map (BitVec.ofNat 32)⟩
    { s with cmd := { s.cmd with
      taken := s.cmd.taken.eraseIdx k, done := if c.mute then s.cmd.done else s.cmd.done ++ [r] } }

/-- The place of a taken command by its number. -/
def State.placeOf (s : State) (no : Nat) : Option Nat := s.cmd.taken.findIdx? fun c => c.no == no
def State.completeNo (s : State) (no status : Nat) (detail : Nat := 0) (vs : List Nat := []) : State :=
  match s.placeOf no with
  | some k => s.complete k status detail vs
  | none => s

/-- A number followed by the complement of its bytes. -/
def withComplement (n v : Nat) : List Byte := leBytes n v ++ (leBytes n v).map fun b => ~~~b

/-- The bytes of a reply entry. -/
def Reply.bytes (r : Reply) (compat phase : Bool) : List Byte :=
  if compat then
    withComplement 8 (r.tag.toNat % 2 ^ 16 + r.opcode.toNat * 2 ^ 16 + r.status.toNat * 2 ^ 32 + phase.toNat * 2 ^ 40 +
      r.detail.toNat * 2 ^ 48) ++ (List.range 4).flatMap fun i => leBytes 4 (r.vs.getD i 0).toNat
  else
    withComplement 16 (r.tag.toNat + r.seq.toNat * 2 ^ 32 + r.opcode.toNat * 2 ^ 48 + r.status.toNat * 2 ^ 64 +
      (phase.toNat + 2 * r.gap.toNat) * 2 ^ 72 + r.detail.toNat * 2 ^ 80 + r.time.toNat * 2 ^ 96) ++
      (List.range 8).flatMap fun i => leBytes 4 (r.vs.getD i 0).toNat

/-- Writes bytes to host memory. -/
def State.hostWrite (s : State) (a : Nat) : List Byte → State
  | [] => s
  | x :: r => State.hostWrite { s with cmd := { s.cmd with host := Tab.set dZero s.cmd.host a x } } (a + 1) r

/-- REPLY_WRITE: the oldest completed reply is written, the tail advances, vector 0 follows; translation entries of its
command take effect (R198, R358 to R360). -/
def State.replyWrite (s : State) : State :=
  match s.cmd.done with
  | [] => s
  | r :: rest =>
    let n := s.ringSize
    let tail := s.fld CMD_RPL_TAIL.tail
    if !s.flag CMD_CTL.en ∨ !s.link.up ∨ s.ringUsed = n - 1 then s
    else
      let size := if s.compat then 32 else 64
      let base := s.fld CMD_RPL_HI.addr_hi * 2 ^ 32 + s.fld CMD_RPL_LO.addr * 2 ^ 12
      let s0 : State := { s with cmd := { s.cmd with done := rest } }
      let s1 := s0.hostWrite (base + size * tail) (r.bytes s.compat (s.flag CMD_RPL_TAIL.phase))
      let s2 := s1.setFld CMD_RPL_TAIL.tail ((tail + 1) % n)
      let s3 := if tail + 1 = n then s2.setFlag CMD_RPL_TAIL.phase (!s.flag CMD_RPL_TAIL.phase) else s2
      let s4 := if r.irq then s3.sendMsix 0 else s3
      (s4.cmd.maps.filter fun m => m.1 == r.no).foldl (fun s m => s.storeBytes m.2.1 (leBytes 8 m.2.2))
        { s4 with cmd := { s4.cmd with maps := s4.cmd.maps.filter fun m => m.1 != r.no } }

/-- REPLY_WRITE (R359). -/
def execReplyWrite (s : State) : Host.Outcome State Fault Refusal := .next s.replyWrite

/-! ### Taking a packet (R352, R353, R357) -/

/-- One unit at CMD_CONS is discarded. -/
def State.hunt (s : State) : State :=
  let u := s.unit
  let s0 := if s.flag CMD_STAT.hunt then s
    else (((s.setFlag CMD_STAT.hunt true).setFld CMD_HUNT.off (s.cons % 65536)).sendMsix 1).raise
      { cls := 13, code := 2, arg0 := s.cons % 65536 }
  ((s0.clearDwords s.cons (u / 4)).setFld CMD_CONS.cons (s.cons + u)).bump CMD_HUNT.units |>.trackPartial

/-- Whether a packet may be taken: enabled, powered up to step 3 (or managed under R415), not stalled, with room. -/
def State.mayTake (s : State) : Bool :=
  s.flag CMD_CTL.en && (s.bitOf GLB_PUP.steps 3 || s.flag PWR_STAT.mgmt) && !s.flag CMD_STAT.stall &&
    s.cmd.taken.length < 64 &&
    s.ringUsed + (s.cmd.taken.filter fun c => !c.mute).length + s.cmd.done.length + 1 < s.ringSize

/-- The answer that a header gets at once: 0x03 for a bad version, flag or length, 0x02 for an unknown opcode. -/
def State.headerStatus (s : State) (h : Header) (p : Nat → Nat) : Option Nat :=
  if h.ver ≠ 3 ∨ 4 ≤ h.flags then some 3
  else match paramBytes h.opcode p with
    | none => some 2
    | some n =>
      if s.compat && !inCompat h.opcode then some 2
      else if (n + s.unit - 1) / s.unit * s.unit ≠ h.plen then some 3 else none

/-- The header at CMD_CONS has passed and its packet is all there. -/
def State.takeHeader (s : State) (h : Header) : State :=
  let u := s.unit
  match s.winRead (s.cons + u) (h.plen / 4) with
  | none => s
  | some ps =>
    let p := fun i => (ps.getD i 0).toNat
    let gap := !s.compat && !s.cmd.fresh && h.seq != s.fld CMD_STAT.eseq
    let subj := s.subject h.opcode p
    let c : Taken := ⟨s.cmd.nextNo, BitVec.ofNat 16 h.opcode, h.plen, h.tag, BitVec.ofNat 16 h.seq, inMask h.flags 0,
      inMask h.flags 1, gap, ps, s.tick, none, subj.1, subj.2, false⟩
    let s1 := (s.clearDwords s.cons ((u + h.plen) / 4)).setFld CMD_CONS.cons (s.cons + u + h.plen)
    let s2 := if s.compat then s1 else s1.setFld CMD_STAT.eseq (h.seq + 1)
    let s3 := if gap then s2.setFlag CMD_STAT.gap true else s2
    let s4 : State := { s3 with cmd := { s3.cmd with
      taken := s3.cmd.taken ++ [c], nextNo := s3.cmd.nextNo + 1, fresh := false, partial_ := none } }
    let s5 := s4.trackPartial
    match s.headerStatus h p with
    | some st => s5.completeNo c.no st
    | none => s5

/-- PACKET_TAKE. -/
def State.packetTake (s : State) : State :=
  if !s.mayTake then s
  else match s.headerAt with
    | none => s
    | some none => s.hunt
    | some (some h) => (s.setFlag CMD_STAT.hunt false).takeHeader h

/-- PACKET_TAKE (R352, R353, R357). -/
def execPacketTake (s : State) : Host.Outcome State Fault Refusal := .next s.packetTake

/-! ### Starting a command (R362, R363, R415, R441, R443) -/

def Taken.p (c : Taken) (i : Nat) : Nat := (c.params.getD i 0).toNat

def Taken.overlaps (a b : Taken) : Bool := a.whole || b.whole || a.subj.any fun x => b.subj.contains x

/-- A command starts when every earlier one has started, those that overlap it have completed, a fence stands first,
and an image runs. -/
def State.startable (s : State) (k : Nat) (c : Taken) : Bool :=
  c.begun.isNone && s.sec.pendingBoot.isNone && s.fld SEC_BOOT.run != 3 &&
    (s.cmd.taken.take k).all fun d => d.begun.isSome && !d.overlaps c && !c.fence

/-- What the power state, the recovery image or management on the RC oscillator answers in place of a command: 0x08 or
0x05 (R367, R415, R443). -/
def State.barred (s : State) (op : Nat) (bayBind : Bool) : Option Nat :=
  let basic := op / 256 == 0 || op / 256 == 8 || op == 0x0601
  if s.flag PWR_STAT.mgmt && !basic then some 8
  else if s.flag SEC_BOOT.rec && !basic then some 5
  else if s.fld PWR_STAT.state == 2 && (op / 256 == 4 || op / 256 == 5 || op == 0x0104 || bayBind) then some 8
  else none

/-- The row of an opcode, for the command in place `k`: `f` is its start. In A1 a command other than the four of R401
waits for the exit. -/
def State.command (s : State) (k op : Nat) (f : State → Taken → State) : State :=
  match s.cmd.taken[k]? with
  | none => s
  | some c =>
    if c.opcode.toNat ≠ op ∨ !s.startable k c then s
    else if s.fld PWR_STAT.state = 1 ∧ !([0x0001, 0x0002, 0x0302, 0x0601].contains op) then s
    else match s.barred op (op == 0x0201 && bits (c.p 0) 23 16 == 0) with
      | some st => s.complete k st
      | none => f s c

/-- Marks a command as started, for one that completes later. -/
def State.begin (s : State) (k : Nat) : State :=
  { s with cmd := { s.cmd with taken := s.cmd.taken.modify k fun c => { c with begun := some s.tick } } }

end Sys2Proof.Machine
end

