-- ==== Sys2Proof/Machine/Walk.lean ====
section
/-! DEFINITION. The paths of a sequence's strands as admission follows them, and what it follows along them: planes and their
age (R49, R53, R140), combined groups (R115, R119), and time, slots and plane loads (R157, R183, R218, R220, R221). -/

namespace Sys2Proof.Machine

/-! ### Code (R132, R137) -/

/-- The bay code of a role. -/
def bayCode (p : Package) (role : Nat) : List (BitVec 128) :=
  match p.code.find? (·.1 == role) with
  | some c => c.2
  | none => []

/-- The instruction word at an address of a sequence's region. -/
def wordAt (p : Package) (q : SeqDecl) (a : Nat) : Option (BitVec 128) :=
  if q.first ≤ a ∧ a < q.first + q.count then (bayCode p q.bayRole)[a]? else none

/-- The instruction at an address of a sequence's region. -/
def codeAt (p : Package) (q : SeqDecl) (a : Nat) : Option SInstr := (wordAt p q a).bind fun w => (decodeStrand w).toOption

/-- The instructions of a sequence's region that decode, with their addresses. -/
def region (p : Package) (q : SeqDecl) : List (Nat × SInstr) :=
  (List.range q.count).filterMap fun n => (codeAt p q (q.first + n)).map fun i => (q.first + n, i)

/-! ### Paths (R155 to R157) -/

/-- What the paths carry that stand at an address, that will join further on at the target of a BRT, and that have ended. -/
structure Paths (α : Type) where
  live  : List α
  ahead : List (Nat × α)
  ended : List α

/-- `n` rounds of a loop's body. -/
def rounds {α : Type} (body : α → α) : Nat → α → α
  | 0, x => x
  | n + 1, x => rounds body n (body x)

/-- The paths from address `a` to `last`: a loop body runs in all its rounds, a BRT goes both ways, and END ends its path. A BRT's
target lies in its own loop body, so that nothing stands ahead where a body begins or ends (R156). -/
def follow {α : Type} [BEq α] (step : Nat → SInstr → α → α) (code : Nat → Option SInstr) :
    Nat → Nat → Nat → Paths α → Paths α
  | 0, _, _, p => p
  | n + 1, a, last, p =>
    if last < a then p
    else
      let here := (p.live ++ (p.ahead.filter (·.1 == a)).map (·.2)).eraseDups
      let ahead := p.ahead.filter (·.1 != a)
      match code a with
      | none => follow step code n (a + 1) last ⟨here, ahead, p.ended⟩
      | some i =>
        let now := here.map (step a i)
        match i with
        | .loop cm1 e =>
          let z := rounds (fun y => follow step code n (a + 1) e ⟨y.live, [], y.ended⟩) (cm1 + 1) ⟨now, [], p.ended⟩
          follow step code n (e + 1) last ⟨z.live, ahead, z.ended⟩
        | .brt _ t => follow step code n (a + 1) last ⟨now, ahead ++ now.map fun x => (t, x), p.ended⟩
        | .endStrand => follow step code n (a + 1) last ⟨[], ahead, p.ended ++ now⟩
        | _ => follow step code n (a + 1) last ⟨now, ahead, p.ended⟩

/-- What every path of the strand that enters at `entry` carries at its end. -/
def strandPaths {α : Type} [BEq α] (step : Nat → SInstr → α → α) (p : Package) (q : SeqDecl) (entry : Nat) (start : List α) :
    List α :=
  let z := follow step (codeAt p q) q.count entry (q.first + q.count - 1) ⟨start, [], []⟩
  z.live ++ z.ended

/-- The instructions that some path of a strand reaches. -/
def strandCode (p : Package) (q : SeqDecl) (entry : Nat) : List (Nat × SInstr) :=
  ((strandPaths (fun a i (l : List (Nat × SInstr)) => if l.contains (a, i) then l else l ++ [(a, i)]) p q entry [[]]).flatten).eraseDups

/-! ### Slots and time (R180 to R184, R187, R218, R220) -/

/-- The lines of `size` bytes that accesses touch one after the other; each takes a slot (R183). -/
def linesTouched (size : Nat) : List Nat → Nat
  | [] => 0
  | [_] => 1
  | a :: b :: r => (if a / size = b / size then 0 else 1) + linesTouched size (b :: r)

/-- Frames that `n` slots' work takes with `slots` in each frame; with none it never ends. -/
def framesFor (n slots : Nat) : Option Nat :=
  if n = 0 then some 0 else if slots = 0 then none else some ((n + slots - 1) / slots)

/-- A kind of stage access. -/
inductive SlotKind where
  | read | write | remote
deriving DecidableEq, Repr

def SlotKind.line : SlotKind → Nat
  | .read => 512
  | .write | .remote => 256
def SlotClaim.count (c : SlotClaim) : SlotKind → Nat
  | .read => c.read
  | .write => c.write
  | .remote => c.remote

/-- The slots that a score claims for a class in a granule. -/
def slotsIn (p : Package) (homes : List Nat) (cls : Cls) (k : SlotKind) (gran : Nat) : Nat :=
  ((p.slots.filter fun c => !c.obs && c.cls == cls && homes[c.gran]? == some gran).map (SlotClaim.count · k)).sum

/-- Two times that must both pass, one after the other or side by side; `none` is a time without end. -/
def plusTime : Option Nat → Option Nat → Option Nat
  | some x, some y => some (x + y)
  | _, _ => none
def maxTime : Option Nat → Option Nat → Option Nat
  | some x, some y => some (max x y)
  | _, _ => none

/-- Time in ps that accesses to stage addresses take in the slots claimed. Addresses in the Pewter map take none (R181). -/
def stageTime (p : Package) (homes : List Nat) (cls : Cls) (k : SlotKind) (addrs : List Nat) : Option Nat :=
  let stage := addrs.filter fun a => !inMap a
  (stage.map (· / 0x400000)).eraseDups.foldl (fun t g =>
    plusTime t ((framesFor (linesTouched k.line (stage.filter fun a => a / 0x400000 == g)) (slotsIn p homes cls k g)).map (12000 * ·)))
    (some 0)

/-- Time in ps that accesses to GDDR7 addresses take: a slot serves one block on each of the 64 channels (R185, R187). -/
def gddrTime (p : Package) (cls : Cls) (wr : Bool) (addrs : List Nat) : Option Nat :=
  let slots := ((p.gslots.filter (·.1 == cls)).map fun y => if wr then y.2.2 else y.2.1).sum
  let most := (List.range 64).foldl (fun m c => max m ((addrs.filter fun a => a / 64 % 64 == c).length)) 0
  (framesFor most slots).map (102400 * ·)

/-- The addresses of `n` blocks in a stream buffer of a sequence, from its start. -/
def bufferBlocks (p : Package) (homes : List Nat) (seq idx n : Nat) : List Nat :=
  match p.buffers.find? fun b => b.seq == seq && b.idx == idx with
  | some b => (List.range n).map fun k => homes.getD b.gran 0 * 0x400000 + b.off + 64 * k % max b.size 64
  | none => []

/-- Time in ps that a transfer's two sides take. -/
def transferTime (p : Package) (homes : List Nat) (seq : Nat) (cls : Cls) (d : Desc) : Option Nat :=
  let n := d.blocks
  let src := if d.srcBuf ≠ 0 then bufferBlocks p homes seq d.srcBuf.toNat n else (List.range n).map d.srcOf
  let dst := if d.dstBuf ≠ 0 then bufferBlocks p homes seq d.dstBuf.toNat n else (List.range n).map d.dstOf
  let a := if d.srcSp = 0 then stageTime p homes cls (if d.dstSp = 1 ∨ d.dstSp = 2 then .remote else .read) src
    else if d.srcSp = 1 then gddrTime p cls false src else some 0
  let b := if d.dstSp = 0 then stageTime p homes cls (if d.srcSp = 1 ∨ d.srcSp = 2 then .remote else .write) dst
    else if d.dstSp = 1 then gddrTime p cls true dst else some 0
  maxTime a b

/-- Time in ps of an instruction's work other than windows: what its slots take, a load's 168 ns, a swap's 2 ns and the 4.57 ns
of an entry's drain read, and beyond that what the manual does not give (log 10). -/
def workTime (p : Package) (homes : List Nat) (n : Nat) (q : SeqDecl) (a : Nat) (i : SInstr) : Option Nat :=
  let more := some (Config.stepTime ((wordAt p q a).getD 0))
  match i with
  | .win .. => some 0
  | .pld m _ zero addr _ =>
    let blocks := (maskList 4 m).zipIdx.flatMap fun x => (List.range 1040).map fun b => addr + x.2 * 0x10400 + 64 * b
    plusTime (if zero then some 0 else stageTime p homes q.cls .read blocks) (some 168000)
  | .psw .. => some 2000
  | .drn _ _ cnt fmt _ _ _ dst addr _ _ _ =>
    let len := (cnt + 1) * drainBytes fmt / 64
    let t := if dst = 0 then stageTime p homes q.cls .write ((List.range len).map fun b => 64 * addr + 64 * b)
      else if dst = 1 then stageTime p homes q.cls .write (bufferBlocks p homes n (addr % 32) len) else some 0
    plusTime (plusTime t (some (4572 * (cnt + 1)))) more
  | .smv _ d _ _ => match q.descs.find? (·.1 == d) with
    | some e => plusTime (transferTime p homes n q.cls e.2) more
    | none => more
  | _ => more

/-- Time in ps, rounded up, of windows of `w` symbols in all at a power step: T_W · 8 / (8 − s) for each (R220). -/
def spacedTime (w f : Nat) : Nat := (1000 * w + 7 * (8 - f) - 1) / (7 * (8 - f))

/-- What a path has taken: symbols of windows on each tile, time in ps other than windows, and plane loads. -/
structure PathTime where
  symbols : List Nat
  rest    : Option Nat
  loads   : Nat
deriving DecidableEq, Repr

/-- The time of a path along one more instruction. -/
def PathTime.after (p : Package) (homes : List Nat) (n : Nat) (q : SeqDecl) (a : Nat) (i : SInstr) (x : PathTime) : PathTime :=
  let y := { x with rest := plusTime x.rest (workTime p homes n q a i) }
  match i with
  | .win m wl _ _ _ _ cnt _ _ _ =>
    { y with symbols := x.symbols.zipIdx.map fun t => if inMask m t.2 then t.1 + (cnt + 1) * winLen wl else t.1 }
  | .pld m .. => { y with loads := x.loads + (maskList 4 m).length }
  | _ => y

/-- The time of a path at a power step in ps. -/
def PathTime.at_ (x : PathTime) (f : Nat) : Option Nat := x.rest.map (· + spacedTime (x.symbols.foldl max 0) f)

/-- The paths of every strand of a sequence. -/
def pathTimes (p : Package) (homes : List Nat) (n : Nat) (q : SeqDecl) : List PathTime :=
  q.strands.flatMap fun t => strandPaths (PathTime.after p homes n q) p q t.2.toNat [⟨[0, 0, 0, 0], some 0, 0⟩]

/-- The slowest of the paths (R157). -/
def slowest (l : List PathTime) (f : Nat) : Option Nat := l.foldl (fun t x => maxTime t (x.at_ f)) (some 0)

/-- Plane-load power in mW at the highest rate of any path, rounded up: 212.5 nJ for each load of each tile (R220, R221). -/
def loadPower (l : List PathTime) (f : Nat) : Nat :=
  l.foldl (fun m x => match x.at_ f with
    | some t => if t = 0 then m else max m ((212500000 * x.loads + t - 1) / t)
    | none => m) 0

/-! ### Planes (R49, R53, R54, R140; log 145) -/

/-- Whether an instruction loads, swaps, or issues windows on a tile of its bay. -/
def loadsTile (k : Nat) : SInstr → Bool
  | .pld m .. => inMask m k
  | _ => false
def swapsTile (k : Nat) : SInstr → Bool
  | .psw m _ => inMask m k
  | _ => false
def windowsOn (k : Nat) : SInstr → Bool
  | .win m .. => inMask m k
  | _ => false

/-- A tile's planes on a path: which one is active (`true` is B), the time since the load of the active and of the idle plane in
ps, and the first instruction at which a check can fail. -/
structure PlanePath where
  active : Bool
  age    : Nat
  idle   : Nat
  bad    : Option Nat
deriving DecidableEq, Repr

/-- What else in the sequence acts on the tile's planes: another strand swaps them, another strand loads them. -/
structure PlaneRivals where
  swaps : Bool
  loads : Bool

/-- Whether naming plane A (1) or B (2) agrees with `b` for certain. -/
def namesPlane (r : PlaneRivals) (pl : Nat) (b : Bool) : Bool := pl == 0 || (!r.swaps && (pl == 2) == b)

/-- A path's planes along one more instruction that takes `t` ps. A load in this strand is of the plane that is idle after every swap
before it (R142); a plane that another strand loads counts as loaded when it becomes active. -/
def PlanePath.after (r : PlaneRivals) (k t a : Nat) (i : SInstr) (x : PlanePath) : PlanePath :=
  let y := { x with age := x.age + t, idle := x.idle + t }
  let z := match i with
    | .pld m pl _ _ _ =>
      if !inMask m k then y
      else if namesPlane r pl (!x.active) then { y with idle := 0 } else { y with bad := x.bad.or (some a) }
    | .psw m _ => if inMask m k then { y with active := !x.active, age := if r.loads then 0 else y.idle, idle := y.age } else y
    | .win m _ _ pl _ _ _ _ _ _ =>
      if inMask m k && !namesPlane r pl x.active then { y with bad := x.bad.or (some a) } else y
    | _ => y
  if 1000000000 < z.age && !r.swaps then { z with bad := z.bad.or (some a) } else z

/-- Time in ps that an instruction takes unthrottled; a transfer that is never served keeps no plane active. -/
def plainTime (p : Package) (homes : List Nat) (n : Nat) (q : SeqDecl) (a : Nat) (i : SInstr) : Nat :=
  match i with
  | .win _ wl _ _ _ _ cnt _ _ _ => spacedTime ((cnt + 1) * winLen wl) 0
  | _ => (workTime p homes n q a i).getD 0

/-- The paths of one strand over a tile's planes, from each plane that may be active. -/
def planePaths (p : Package) (homes : List Nat) (n : Nat) (q : SeqDecl) (k : Nat) (t : Nat × BitVec 14) (starts : List Bool) :
    List PlanePath :=
  let others := (q.strands.filter (·.1 != t.1)).flatMap fun u => (strandCode p q u.2.toNat).map (·.2)
  strandPaths (fun a i => PlanePath.after ⟨others.any (swapsTile k), others.any (loadsTile k)⟩ k (plainTime p homes n q a i) a i)
    p q t.2.toNat (starts.map fun b => ⟨b, 0, 0, none⟩)

/-- The first instruction of a strand at which a plane check on tile `k` can fail. Plane A is active at first, and a run of the
sequence may follow one that has ended (R54). -/
def planeFail (p : Package) (homes : List Nat) (n : Nat) (q : SeqDecl) (k : Nat) (t : Nat × BitVec 14) : Option Nat :=
  let own := (strandCode p q t.2.toNat).map (·.2)
  if own.any fun i => swapsTile k i || loadsTile k i || windowsOn k i then
    let once := planePaths p homes n q k t [false]
    ((once ++ planePaths p homes n q k t (once.map (·.active)).eraseDups).filterMap (·.bad)).head?
  else none

/-! ### Combined groups (R114, R115, R119; log 146) -/

/-- Whether a chain covers tile `k` of a bay; of a chain over several bays every tile of a bay that configures it counts. -/
def coversTile (head len k : Nat) : Bool := 4 < head % 4 + len || (head % 4 ≤ k && k < head % 4 + len)

/-- The combined groups of a tile on a path: entry, length and role of the open group, windows and symbols of the latest group,
the scale word, the chain configuration, the windows of each chain group so far (newest first), and the first instruction that
begins a group too soon. -/
structure GroupPath where
  key    : Option (Nat × Nat × Nat)
  fill   : Nat
  syms   : Nat
  scale  : Option Word
  chain  : Option (Nat × Nat)
  groups : List ((Nat × Nat) × Nat)
  bad    : Option Nat
deriving DecidableEq, Repr

/-- One more chain window, which joins the latest group or begins one. -/
def GroupPath.note (x : GroupPath) (role : Nat) (joins : Bool) : List ((Nat × Nat) × Nat) :=
  match x.chain, x.groups with
  | some c, (d, m) :: l => if role = 0 then x.groups else if joins && c == d then (d, m + 1) :: l else (c, 1) :: x.groups
  | some c, [] => if role = 0 then [] else [(c, 1)]
  | none, l => l

/-- One window of a path: it joins the open group, or begins one, which may not be within a PEWTER cycle (32 symbols) of the
group before. -/
def GroupPath.window (compat : Bool) (a entry wl role : Nat) (x : GroupPath) : GroupPath :=
  if x.key = some (entry, wl, role) ∧ x.fill < groupSize compat wl then
    { x with fill := x.fill + 1, syms := x.syms + winLen wl, groups := x.note role true }
  else
    { x with key := some (entry, wl, role), fill := 1, syms := winLen wl, groups := x.note role false
             bad := if 0 < x.syms ∧ x.syms < 32 then x.bad.or (some a) else x.bad }

/-- A path's groups along one more instruction. A swap leaves a gap of 112 symbols (R50); where other strands issue windows on the
tile, one of those may stand behind any WIN. -/
def GroupPath.after (compat rivals : Bool) (k a : Nat) (i : SInstr) (x : GroupPath) : GroupPath :=
  match i with
  | .win m wl role _ entry estep cnt _ _ _ =>
    if !inMask m k then x
    else
      let y := (List.range (cnt + 1)).foldl (fun x (n : Nat) =>
        x.window compat a (((entry : Int) + n * estep) % 1024).toNat wl role) x
      if rivals then { y with key := none } else y
  | .psw m _ => if inMask m k then { x with key := none, syms := 0 } else x
  | .ssc m w _ => if inMask m k && x.scale != some w then { x with key := none, scale := some w } else x
  | .ccf head len _ _ dis _ _ =>
    if coversTile head len k then { x with key := none, chain := if dis then none else some (head, len) } else x
  | .drn tile entry cnt .. =>
    if tile = k && (match x.key with | some y => (y.1 + 1024 - entry) % 1024 ≤ cnt | none => false) then { x with key := none } else x
  | _ => x

/-- The chain configuration that some CCF of a sequence gives tile `k`. -/
def chainOf (p : Package) (q : SeqDecl) (k : Nat) : Option (Nat × Nat) :=
  (region p q).findSome? fun x => match x.2 with
    | .ccf head len _ _ false _ _ => if coversTile head len k then some (head, len) else none
    | _ => none

/-- The paths of one strand over a tile's groups. -/
def groupPaths (compat : Bool) (p : Package) (q : SeqDecl) (k : Nat) (t : Nat × BitVec 14) : List GroupPath :=
  let rivals := (q.strands.filter (·.1 != t.1)).any fun u => (strandCode p q u.2.toNat).any fun x => windowsOn k x.2
  strandPaths (GroupPath.after compat rivals k) p q t.2.toNat [⟨none, 0, 0, none, chainOf p q k, [], none⟩]

/-- The first instruction of a strand that begins a group of tile `k` too soon (R115). -/
def groupFail (compat : Bool) (p : Package) (q : SeqDecl) (k : Nat) (t : Nat × BitVec 14) : Option Nat :=
  ((groupPaths compat p q k t).filterMap (·.bad)).head?

/-- The windows of each chain group that tile `k` closes, for every path of every strand that issues windows on it (R119). -/
def chainGroups (compat : Bool) (p : Package) (q : SeqDecl) (k : Nat) (c : Nat × Nat) : List (List Nat) :=
  let busy := q.strands.filter fun t => (strandCode p q t.2.toNat).any fun x => windowsOn k x.2
  if busy.isEmpty then [[]]
  else (busy.flatMap fun t => (groupPaths compat p q k t).map fun x => ((x.groups.filter (·.1 == c)).map (·.2)).reverse).eraseDups

end Sys2Proof.Machine
end

