-- ==== Sys2Proof/Machine/Admission.lean ====
section
/-! DEFINITION. The checks that admission makes of a score package, in the order of R215, the promises (R218) and the
frame slots (R216). What the manual leaves to an analysis without a formula is in the log (10, 145, 146, 149). -/

namespace Sys2Proof.Machine

/-! ### Places and refusals (R215, GLB_ADM_DETAIL) -/

/-- A refusal with the place of the failure. -/
structure Refuse where
  code  : Nat
  kind  : Nat := 0
  role  : Nat := 0
  place : Nat := 0

/-- The first refusal that a list of checks gives. -/
def firstRefusal {α : Type} (f : α → Option Refuse) : List α → Option Refuse
  | [] => none
  | x :: r => match f x with
    | some e => some e
    | none => firstRefusal f r

/-- A refusal where a condition holds. -/
def refuseIf (c : Bool) (e : Refuse) : Option Refuse := if c then some e else none

/-! ### The package header (R208, R209) -/

/-- A 64-bit entry of the header's section table. -/
def hdrEntry (h : List Byte) (n : Nat) : Nat := leNat ((h.drop (0x50 + 8 * n)).take 8)
def hdrScore (h : List Byte) : ScoreId := BitVec.ofNat 16 (leNat ((h.drop 4).take 2))
def hdrLength (h : List Byte) : Nat := leNat ((h.drop 8).take 8)
def hdrDigest (h : List Byte) : List Byte := (h.drop 0x10).take 64
def hdrSections (h : List Byte) : Nat := (h.getD 7 0).toNat

/-- The sections follow one another in ascending type order, each type known, the first three there, none overlapping. -/
def sectionsOk (h : List Byte) : Bool :=
  let n := hdrSections h
  let ty := fun i => bits (hdrEntry h i) 63 56
  let off := fun i => bits (hdrEntry h i) 47 24
  let len := fun i => bits (hdrEntry h i) 23 0
  3 ≤ n && n ≤ 8 &&
    (List.range 16).all fun i =>
      if i < n then
        bits (hdrEntry h i) 55 48 == 0 && 1 ≤ ty i && ty i ≤ 8 && (if i < 3 then ty i == i + 1 else ty (i - 1) < ty i) &&
          4 ≤ off i && (i == 0 || off (i - 1) + len (i - 1) ≤ off i) && 64 * (off i + len i) ≤ (hdrLength h + 63) / 64 * 64
      else hdrEntry h i == 0

/-- The header passes: magic, order, sections, reserved bytes. -/
def headerOk (h : List Byte) : Bool :=
  h.length == 256 && leNat (h.take 4) == 0x59A35C0E && (h.getD 6 0).toNat < 2 && sectionsOk h &&
    (h.drop 0xD0).all (· == 0)

/-- The block after the last of the three sections that the analysis needs. -/
def analysisEnd (h : List Byte) : Nat :=
  ((List.range 3).map fun i => bits (hdrEntry h i) 47 24 + bits (hdrEntry h i) 23 0).foldl max 0

/-- The block offset of a section of a type, 0 where the package has none. -/
def sectionAt (h : List Byte) (ty : Nat) : Nat :=
  match (List.range 8).find? fun i => bits (hdrEntry h i) 63 56 == ty with
  | some i => bits (hdrEntry h i) 47 24
  | none => 0

/-- The package with its digest field set to zero. -/
def zeroDigest (b : List Byte) : List Byte := b.take 0x10 ++ List.replicate 64 0 ++ b.drop 0x50

/-! ### Format and services (R209, R227) -/

/-- A service within the bounds of R227, with its buffers, queues, counter and groups declared. -/
def serviceOk (p : Package) (d : ServiceDecl) : Bool :=
  let buf := fun (idx : Nat) => p.buffers.any fun b => b.seq == d.seq && b.idx == idx
  d.svc < 16 && 1 ≤ d.slot && d.slot ≤ 64 && 1 ≤ d.batch && d.batch ≤ 256 && 1 ≤ d.deadline && d.deadline ≤ 1000 &&
    buf d.reqBuf && buf d.repBuf && p.counters.contains d.counter && d.groups.all fun g => p.groups.any (·.1 == g)

/-- Refusal 0x02 at the end of an analysis: a section that breaks its format, or the services section. -/
def checkFormat (p : Package) (h : List Byte) : Option Refuse :=
  (refuseIf (!p.wellFormed) ⟨2, 2, 1, sectionAt h 1⟩).or <|
    refuseIf (!p.services.all (serviceOk p) || !decide ((p.services.map (·.svc)).Nodup)) ⟨2, 2, 7, sectionAt h 7⟩

/-! ### Code (R137, R155, R156, R158) -/

/-- The bodies of a region's loops: first and last address. -/
def bodies (l : List (Nat × SInstr)) : List (Nat × Nat) :=
  l.filterMap fun x => match x.2 with
    | .loop _ last => some (x.1 + 1, last)
    | _ => none

/-- The bodies that hold an address. -/
def bodiesAt (l : List (Nat × Nat)) (a : Nat) : List (Nat × Nat) := l.filter fun b => b.1 ≤ a && a ≤ b.2

/-- Every byte of a range lies in one of the granules of a list, each of `n` bytes. -/
def inGrans (homes : List Nat) (n a len : Nat) : Bool :=
  len != 0 && (List.range ((a + len - 1) / n - a / n + 1)).all fun k => homes.contains (a / n + k)

/-- A LOOP, END or BRT that breaks the limits of R155 and R156. A LOOP whose end is not behind it or not in its region, and a
BRT whose target is not in its region, count among them (DESIGN CHOICE, log 147). -/
def badFlow (q : SeqDecl) (l : List (Nat × Nat)) (a : Nat) : SInstr → Bool
  | .loop _ last =>
    last ≤ a || q.first + q.count ≤ last || 4 ≤ (bodiesAt l a).length || (bodiesAt l a).any fun b => b.2 ≤ last
  | .endStrand => !(bodiesAt l a).isEmpty
  | .brt _ t =>
    t ≤ a || a + 4096 < t || q.first + q.count ≤ t ||
      (bodiesAt l a).any (fun b => b.2 < t) || (bodiesAt l t).any fun b => !(b.1 ≤ a && a ≤ b.2)
  | _ => false

/-- Refusal 0x05. -/
def checkCode (p : Package) (homes : List Nat) : Option Refuse :=
  (firstRefusal (fun c => firstRefusal (fun x : BitVec 128 × Nat =>
      match decodeStrand x.1 with
      | .ok _ => none
      | .error _ => some ⟨5, 1, c.1, x.2⟩) c.2.zipIdx) p.code).or <|
  (firstRefusal (fun q => firstRefusal (fun x =>
      refuseIf (badFlow q (bodies (region p q)) x.1 x.2) ⟨5, 1, q.bayRole, x.1⟩) (region p q)) p.seqs).or <|
  firstRefusal (fun r => refuseIf (!inGrans homes 0x400000 r.2.1 r.2.2) ⟨5, 3, 0, r.2.1 / 0x800000⟩) p.rings

/-! ### Sequences (R132, R139, R153) -/

/-- A queue that a sequence may name. -/
def mayQueue (p : Package) (q : SeqDecl) (n : Nat) : Bool :=
  if n < 32 then q.queues.any (·.1 == n) else p.queues.any fun x => x.1 == n && x.2.1 == q.cls

/-- An event counter that a sequence may name. -/
def mayEvent (p : Package) (q : SeqDecl) (ev : Nat) : Bool :=
  if ev < 256 then q.events.contains ev else p.counters.contains ev

def mayEv (p : Package) (q : SeqDecl) : Option (BitVec 9) → Bool
  | none => true
  | some ev => mayEvent p q ev.toNat

def declaresTiles (q : SeqDecl) (m : Nat) : Bool := (maskList 4 m).all (inMask q.tiles.toNat)

/-- An instruction that names a tile, queue or counter that its sequence does not declare. -/
def undeclared (p : Package) (q : SeqDecl) : SInstr → Bool
  | .win m _ _ _ _ _ _ iq shr ev =>
    let n := if shr then 1 else (maskList 4 m).length
    !declaresTiles q m || !(List.range n).all (fun k => iq + k < 32 && mayQueue p q (iq + k)) || !mayEv p q ev
  | .pld m _ _ _ ev | .psw m ev => !declaresTiles q m || !mayEv p q ev
  | .ssc m _ _ => !declaresTiles q m
  | .drn k _ _ _ _ _ _ _ _ _ _ ev => !inMask q.tiles.toNat k || !mayEv p q ev
  | .smv n _ _ ev => !mayQueue p q n || !mayEv p q ev
  | .swt n _ _ _ _ => !mayQueue p q n
  | .evs ev _ | .evw ev _ _ => !mayEvent p q ev
  | .ccf .. | .loop .. | .brt .. | .mrk _ | .endStrand | .nop => false

/-- Two sequences of one bay that cannot stand beside each other. -/
def conflict (a b : SeqDecl) : Bool :=
  a.bayRole == b.bayRole &&
    (a.cls == b.cls || a.tiles &&& b.tiles != 0 || a.strands.any (fun x => b.strands.any (·.1 == x.1)) ||
      a.queues.any (fun x => b.queues.any (·.1 == x.1)) || a.events.any b.events.contains ||
      (a.first < b.first + b.count && b.first < a.first + a.count))

/-- Refusal 0x06. -/
def checkSeqs (p : Package) : Option Refuse :=
  match firstRefusal (fun x : SeqDecl × Nat =>
      refuseIf ((p.seqs.drop (x.2 + 1)).any (conflict x.1) || (bayCode p x.1.bayRole).length < x.1.first + x.1.count ||
        !(p.bays.any fun y => y.role == x.1.bayRole) || x.1.strands.any fun t =>
        64 ≤ t.1 || t.2.toNat < x.1.first || x.1.first + x.1.count ≤ t.2.toNat)
        ⟨6, 1, x.1.bayRole, x.1.first⟩) p.seqs.zipIdx with
  | some e => some e
  | none => firstRefusal (fun q => firstRefusal (fun x =>
      refuseIf (undeclared p q x.2) ⟨6, 1, q.bayRole, x.1⟩) (region p q)) p.seqs

/-! ### Addresses (R176, R192 to R196) -/

/-- A stage address that a descriptor may name: in a home granule or in the Pewter map. -/
def stageOk (homes : List Nat) (a : Nat) : Bool := inGrans homes 0x400000 a 64 || inMap a

/-- A remote window that is no other score's, where the score claims windows of the sequence's class. Which window a role
becomes is known only when it is bound (R193; log 141). -/
def State.windowOk (s : State) (p : Package) (i : ScoreId) (c : Cls) (w : Nat) : Bool :=
  p.windows.any (·.2 == c) && (!(s.rwin w).valid || (s.rwin w).score == i)

/-- One side of a descriptor: its space, buffer, window and addresses. -/
def State.sideOk (s : State) (p : Package) (i : ScoreId) (homes ghomes : List Nat) (seq : Nat) (c : Cls) (sp buf w blocks : Nat)
    (at_ : Nat → Nat) : Bool :=
  if buf ≠ 0 ∧ sp = 0 then p.buffers.any fun b => b.seq == seq && b.idx == buf
  else if sp = 0 then (List.range blocks).all fun n => stageOk homes (at_ n)
  else if sp = 1 then (List.range blocks).all fun n => inGrans ghomes 0x20000000 (at_ n) 64
  else if sp = 2 then s.windowOk p i c w
  else true

/-- A descriptor that admission accepts: it lies in the declared region, which lies in home granules (R194), and both its sides
are the score's. -/
def State.descOk (s : State) (p : Package) (i : ScoreId) (homes ghomes : List Nat) (seq : Nat) (c : Cls) (x : Nat × Desc) : Bool :=
  let d := x.2
  x.1 % 64 == 0 && p.descBase ≤ x.1 && x.1 + 64 ≤ p.descBase + p.descLen && inGrans homes 0x400000 p.descBase p.descLen &&
    d.blocks ≤ 2 ^ 32 && d.pairOk && (d.dstSp != 3 || d.blocks ≤ 120) &&
    s.sideOk p i homes ghomes seq c d.srcSp.toNat d.srcBuf.toNat d.srcWin.toNat d.blocks d.srcOf &&
    (d.dstSp == 3 || s.sideOk p i homes ghomes seq c d.dstSp.toNat d.dstBuf.toNat d.dstWin.toNat d.blocks d.dstOf)

/-- A stream buffer that a home granule holds. -/
def bufOk (p : Package) (b : BufClaim) : Bool :=
  0 < b.idx && b.idx < 32 && b.gran < p.sgran && 0x10000 ≤ b.size && b.off + b.size ≤ 0x400000 && b.size % 64 == 0 && b.off % 64 == 0

/-- An instruction that names an address outside the score's granules, or a descriptor that it does not declare. -/
def badAddress (homes : List Nat) (q : SeqDecl) : SInstr → Bool
  | .pld m _ zero addr _ => !(zero || inGrans homes 0x400000 addr ((maskList 4 m).length * 0x10400) || m == 0)
  | .drn _ _ cnt fmt _ _ _ dst addr _ _ _ => dst == 0 && !inGrans homes 0x400000 (64 * addr) ((cnt + 1) * drainBytes fmt)
  | .smv _ d _ _ => !q.descs.any (·.1 == d)
  | _ => false

/-- Refusal 0x07. -/
def State.checkAddresses (s : State) (p : Package) (i : ScoreId) (homes ghomes : List Nat) : Option Refuse :=
  (firstRefusal (fun x : SeqDecl × Nat =>
      (firstRefusal (fun d => refuseIf (!s.descOk p i homes ghomes x.2 x.1.cls d) ⟨7, 2, 4, d.1⟩) x.1.descs).or <|
        refuseIf (512 < ((p.seqs.filter (·.bayRole == x.1.bayRole)).flatMap (·.descs)).length) ⟨7, 1, x.1.bayRole, 0⟩)
    p.seqs.zipIdx).or <|
  (firstRefusal (fun b => refuseIf (!bufOk p b) ⟨7, 3, b.gran, (homes.getD b.gran 0) / 2⟩) p.buffers).or <|
  firstRefusal (fun q => firstRefusal (fun x =>
      refuseIf (badAddress homes q x.2) ⟨7, 1, q.bayRole, x.1⟩) (region p q)) p.seqs

/-! ### Planes, Pewter and chains (R49, R53, R103, R115, R119, R139 to R141, R146) -/

/-- The first refusal that a check of every sequence, strand and declared tile gives. -/
def forTiles (p : Package) (f : Nat → SeqDecl → Nat → Nat × BitVec 14 → Option Refuse) : Option Refuse :=
  firstRefusal (fun x : SeqDecl × Nat => firstRefusal (fun k => firstRefusal (f x.2 x.1 k) x.1.strands)
    (maskList 4 x.1.tiles.toNat)) p.seqs.zipIdx

/-- Refusal 0x08. -/
def checkPlanes (p : Package) (homes : List Nat) : Option Refuse :=
  forTiles p fun n q k t => (planeFail p homes n q k t).map fun a => ⟨8, 1, q.bayRole, a⟩

/-- The ranges of 64 entries that a WIN names on its tiles (R139). -/
def winRanges : SInstr → List (Nat × Nat)
  | .win m _ _ _ entry estep cnt _ _ _ =>
    ((maskList 4 m).flatMap fun k => (List.range (cnt + 1)).map fun n =>
      (k, (((entry : Int) + (n : Nat) * estep) % 1024).toNat / 64)).eraseDups
  | _ => []

/-- The first WIN of a bay role that names one range more than the score claims on that role (R103). Which range a role becomes is
known only when it is bound. -/
def tooManyRanges (p : Package) (role : Nat) : Option Nat :=
  let claimed := (p.pewter.filter (·.bayRole == role)).length
  let l := (p.seqs.filter (·.bayRole == role)).flatMap (region p)
  (l.zipIdx.find? fun x => claimed < ((l.take (x.2 + 1)).flatMap fun y => winRanges y.2).eraseDups.length).map (·.1.1)

/-- A fine-grade WIN with a step closes groups too fast (R141). -/
def fastStep : SInstr → Bool
  | .win _ wl _ _ _ estep _ _ _ _ => wl ≤ 1 && estep != 0
  | _ => false

/-- The settings of a CCF: head, len, rin, rout, timeout, and its group role. -/
def ccfOf : SInstr → Option ((Nat × Nat) × (Bool × Bool) × Nat × Nat)
  | .ccf head len rin rout _ tmo wgr => some ((head, len), (rin, rout), tmo, wgr)
  | _ => none

/-- The CCFs of a score with their bay role and address. -/
def ccfsIn (p : Package) : List ((Nat × Nat) × (Nat × Nat) × (Bool × Bool) × Nat × Nat) :=
  p.seqs.flatMap fun q => (region p q).filterMap fun x => (ccfOf x.2).map fun c => ((q.bayRole, x.1), c)

/-- The groups that the tiles of a chain close agree in number and windows, on every path of every tile (R119). -/
def chainAgrees (compat : Bool) (p : Package) (c : Nat × Nat) : Bool :=
  let on := p.seqs.filter fun q => (region p q).any fun x => match x.2 with
    | .ccf head len _ _ false _ _ => (head, len) == c
    | _ => false
  ((on.flatMap fun q => ((maskList 4 q.tiles.toNat).filter (coversTile c.1 c.2)).flatMap fun k =>
    chainGroups compat p q k c).eraseDups).length ≤ 1

/-- Refusal 0x09, in the order of its row. -/
def checkPewter (compat : Bool) (p : Package) : Option Refuse :=
  (firstRefusal (fun y : BayClaim => (tooManyRanges p y.role).map fun a => ⟨9, 1, y.role, a⟩) p.bays).or <|
  (forTiles p fun _ q k t => (groupFail compat p q k t).map fun a => ⟨9, 1, q.bayRole, a⟩).or <|
  (firstRefusal (fun x => refuseIf (!chainAgrees compat p x.2.1) ⟨9, 1, x.1.1, x.1.2⟩) (ccfsIn p)).or <|
  firstRefusal (fun q => firstRefusal (fun x => refuseIf (fastStep x.2) ⟨9, 1, q.bayRole, x.1⟩) (region p q)) p.seqs

/-- Refusal 0x0A: CCFs of one chain that disagree, a hop through a group role that is not claimed, or a tile of a bay
that another score holds (R35, R118, R146). The CCFs of a score with one head tile count as one chain's (DESIGN CHOICE, log
148). -/
def checkChains (s : State) (p : Package) (i : ScoreId) : Option Refuse :=
  let l := ccfsIn p
  firstRefusal (fun x =>
    let c := x.2
    let other := (List.range c.1.2).any fun n =>
      let o := s.bayScore ((c.1.1 + n) % 32 / 4)
      o != 0 && o != i
    refuseIf (l.any (fun y => y.2.1.1 == c.1.1 && (y.2.1, y.2.2.1, y.2.2.2.1) != (c.1, c.2.1, c.2.2.1)) ||
      ((c.2.1.1 || c.2.1.2) && !p.groups.any (·.1 == c.2.2.2)) || other) ⟨10, 1, x.1.1, x.1.2⟩) l

/-! ### Capacity (R31, R153, R190, R212) -/

/-- The accepted scores other than one, with their packages. -/
def State.accepted (s : State) (i : ScoreId) : List (ScoreId × Package) :=
  s.scores.scores.filterMap fun x => if x.1 = i.toNat then none else x.2.pkg.map fun p => (BitVec.ofNat 16 x.1, p)

/-- A sum over the accepted scores. -/
def State.claimed (s : State) (i : ScoreId) (f : Package → Nat) : Nat := ((s.accepted i).map fun x => f x.2).sum

/-- Bays in service (R42). -/
def State.serving (s : State) : Nat := ((List.range 8).filter fun b => s.bayState b != 6).length

/-- Refusal 0x0B, with the first claim that finds nothing free as its place; granules SG92 to SG95 are never bound (R32). `sec` is the
claims section's block offset. -/
def checkCapacity (s : State) (p : Package) (i : ScoreId) (homes ghomes : List Nat) (sec : Nat) : Option Refuse :=
  let exceeds := fun (total : Nat) (f : Package → Nat) => total < s.claimed i f + f p
  let claims : Refuse := ⟨11, 2, 1, sec⟩
  (refuseIf (exceeds s.serving (·.bays.length)) ⟨11, 1, (p.bays.getLast?.map (·.role)).getD 0, 0⟩).or <|
  (refuseIf (exceeds 512 (·.pewter.length)) ⟨11, 1, (p.pewter.getLast?.map (·.bayRole)).getD 0, 0⟩).or <|
  (refuseIf (exceeds 64 (·.groups.length) || exceeds 64 (·.windows.length) ||
    p.counters.any (fun c => c < 256 || 512 ≤ c || (s.accepted i).any fun x => x.2.counters.contains c) ||
    p.queues.any (fun q => q.1 < 32 || 48 ≤ q.1 || (s.accepted i).any fun x => x.2.queues.any (·.1 == q.1))) claims).or <|
  (firstRefusal (fun n => refuseIf (92 ≤ n.1 || Tab.get dZero s.scores.sgran n.1 != 0) ⟨11, 3, n.2, n.1 / 2⟩) homes.zipIdx).or <|
  refuseIf (ghomes.any (fun n => 96 ≤ n || Tab.get dZero s.scores.ggran n != 0) || homes.length < p.sgran || ghomes.length < p.ggran)
    claims

/-! ### Frame slots (R180, R182, R187, R216, R489) -/

/-- The free slots of a kind in a bank. -/
def freeSlots (owner : Tab (BitVec 4)) (bank : Nat) (kinds : List Nat) : List Nat :=
  (List.range 16).filter fun n => kinds.contains (n % 4) && Tab.get dOwner owner (16 * bank + n) == 0

/-- The owner code of a claim on a granule. -/
def claimCode (c : SlotClaim) (gran : Nat) : BitVec 4 := if c.obs then 5 else ownerCode (gran * 0x400000) c.cls

/-- The slots that one claim takes, with their owner code; which of the free slots of a kind is a free value (R489). -/
def slotsTaken (owner : Tab (BitVec 4)) (free gran : Nat) (c : SlotClaim) : Option (List (Nat × BitVec 4)) :=
  let pick := fun (j : Nat) (kinds : List Nat) (n : Nat) =>
    let l := freeSlots owner (gran / 2) kinds
    if l.length < n then none
    else some (((l.rotateLeft (Config.slotChoice (free + j))).take n).map fun k => (16 * (gran / 2) + k, claimCode c gran))
  match pick 0 readKinds c.read, pick 1 writeKinds c.write, pick 2 remoteKinds c.remote with
  | some a, some b, some d => some (a ++ b ++ d)
  | _, _, _ => none

/-- Slots given to their owners. -/
def giveSlots (l : List (Nat × BitVec 4)) (owner : Tab (BitVec 4)) : Tab (BitVec 4) :=
  l.foldl (fun t x => Tab.set dOwner t x.1 x.2) owner

/-- The two rules of R216 for the holder of a granule. -/
def granRules (owner : Tab (BitVec 4)) (gran : Nat) : Bool :=
  let own := fun (n : Nat) =>
    let o := Tab.get dOwner owner (16 * (gran / 2) + n)
    o == ownerCode (gran * 0x400000) .assured || o == ownerCode (gran * 0x400000) .spare
  ((List.range 16).filter own).length ≤ 14 &&
    [1, 5, 9, 13].any fun n => !own n && Tab.get dOwner owner (16 * (gran / 2) + n) != 5

/-- The rules of R216 for both granules of a bank. -/
def slotRules (owner : Tab (BitVec 4)) (bank : Nat) : Bool := granRules owner (2 * bank) && granRules owner (2 * bank + 1)

/-- The slots that all claims of a score take, or the claim that fails. -/
def slotPlan (homes : List Nat) : Tab (BitVec 4) → Nat → List SlotClaim → Except SlotClaim (List (Nat × BitVec 4))
  | _, _, [] => .ok []
  | owner, free, c :: r =>
    match homes[c.gran]?.bind fun g => (slotsTaken owner free g c).map fun l => (g / 2, l) with
    | none => .error c
    | some (bank, l) =>
      let now := giveSlots l owner
      if slotRules now bank then (slotPlan homes now (free + 3) r).map (l ++ ·) else .error c

/-- Refusal 0x0C. -/
def checkSlots (s : State) (p : Package) (i : ScoreId) (homes : List Nat) : Option Refuse :=
  match slotPlan homes s.stage.owner s.free p.slots with
  | .error c => some ⟨12, 3, c.gran, (homes.getD c.gran 0) / 2⟩
  | .ok _ =>
    let rd := fun (p : Package) => (p.gslots.map fun x => x.2.1).sum
    let wr := fun (p : Package) => (p.gslots.map fun x => x.2.2).sum
    refuseIf (31 < s.claimed i rd + rd p || 31 < s.claimed i wr + wr p) ⟨12, 0, 0, 0⟩

/-! ### The wait graph (R204, R217) -/

/-- A node of the wait graph: a queue of a sequence, a module queue, or the windows that an input queue feeds. -/
inductive WaitNode where
  | bay (seq q : Nat)
  | module (q : Nat)
  | windows (seq q : Nat)
deriving DecidableEq, Repr

/-- The node of the queue that a sequence calls `n`. -/
def queueNode (seq n : Nat) : WaitNode := if n < 32 then .bay seq n else .module n

/-- The largest transfer, in blocks, that the score issues on a queue. -/
def largestMove (p : Package) (w : WaitNode) : Nat :=
  p.seqs.zipIdx.foldl (fun m y => (region p y.1).foldl (fun m x => match x.2 with
    | .smv n d _ _ => match y.1.descs.find? (·.1 == d) with
      | some e => if queueNode y.2 n = w then max m e.2.blocks else m
      | none => m
    | _ => m) m) 0

/-- The largest drain, in blocks, that a sequence puts into its buffer `idx` (R148). -/
def largestDrain (p : Package) (seq idx : Nat) : Nat :=
  match p.seqs[seq]? with
  | none => 0
  | some q => (region p q).foldl (fun m x => match x.2 with
    | .drn _ _ cnt fmt _ _ _ dst addr _ _ _ => if dst = 1 ∧ addr % 32 = idx then max m ((cnt + 1) * drainBytes fmt / 64) else m
    | _ => m) 0

/-- The edges of the wait graph, each way through a buffer, with whether the buffer's capacity is below the sum of the largest
transfers of its producer and its consumer. -/
def waitEdges (p : Package) : List (WaitNode × WaitNode × Bool) :=
  (p.buffers.flatMap fun b =>
    let i := queueNode b.seq b.prod
    let o := queueNode b.seq b.cons
    let small := decide (b.size / 64 < max (largestMove p i) (largestDrain p b.seq b.idx) + largestMove p o)
    [(i, o, small), (o, i, small)]) ++
  p.seqs.zipIdx.flatMap fun y => (region p y.1).flatMap fun x => match x.2 with
    | .win m _ _ _ _ _ _ iq shr _ => (List.range (if shr then 1 else (maskList 4 m).length)).flatMap fun k =>
      let i := queueNode y.2 (iq + k)
      let small := decide (128 < largestMove p i + 2)
      [(i, .windows y.2 (iq + k), small), (.windows y.2 (iq + k), i, small)]
    | _ => []

/-- The nodes that `n` steps along a list of edges reach from some nodes. -/
def reach (edges : List (WaitNode × WaitNode × Bool)) : Nat → List WaitNode → List WaitNode
  | 0, l => l
  | n + 1, l => reach edges n (l ++ (edges.filter fun e => l.contains e.1).map (·.2.1)).eraseDups

/-- Refusal 0x0D: a cycle that passes only through buffers that are too small. -/
def checkWaits (p : Package) : Option Refuse :=
  let small := (waitEdges p).filter (·.2.2)
  firstRefusal (fun b => refuseIf (small.any fun e =>
      (e.1 == queueNode b.seq b.prod || e.1 == queueNode b.seq b.cons) && (reach small small.length [e.2.1]).contains e.1)
    ⟨13, 3, b.gran, 0⟩) p.buffers

/-! ### Unbounded waits (R219) -/

/-- The counters that an instruction signals. -/
def signals : SInstr → Option Nat
  | .win _ _ _ _ _ _ _ _ _ (some ev) | .pld _ _ _ _ (some ev) | .psw _ (some ev)
  | .drn _ _ _ _ _ _ _ _ _ _ _ (some ev) | .smv _ _ _ (some ev) => some ev.toNat
  | .evs ev _ => some ev
  | _ => none

/-- A signaller of a counter in the score: a service's batches, or an instruction of an assured sequence, which alone is
analysed (R219). -/
def signalled (p : Package) (q : SeqDecl) (ev : Nat) : Bool :=
  p.services.any (·.counter == ev) ||
    p.seqs.any fun r => r.cls == .assured && (256 ≤ ev || r.bayRole == q.bayRole) &&
      (region p r).any fun x => signals x.2 == some ev

/-- Some assured sequence of the score moves data on a queue that sequence `seq` calls `n`. -/
def moved (p : Package) (seq n : Nat) : Bool :=
  p.seqs.zipIdx.any fun y => y.1.cls == .assured && (region p y.1).any fun x => match x.2 with
    | .smv k _ _ _ => queueNode y.2 k == queueNode seq n
    | _ => false

/-- A transfer whose waits are bounded: what fills its source buffer and what empties its destination buffer are in the score and
analysed, or a service's; a remote side goes through a window of an assured group, whose partner side is reserved. -/
def boundedMove (p : Package) (seq : Nat) (d : Desc) : Bool :=
  let buffer := fun (idx : Nat) => p.buffers.find? fun b => b.seq == seq && b.idx == idx
  let served := fun (idx : Nat) => p.services.any fun v => v.seq == seq && (v.reqBuf == idx || v.repBuf == idx)
  let remote := p.windows.any (·.2 == .assured)
  (d.srcBuf == 0 || served d.srcBuf.toNat || 0 < largestDrain p seq d.srcBuf.toNat ||
      (match buffer d.srcBuf.toNat with | some b => moved p seq b.prod | none => false)) &&
    (d.dstBuf == 0 || served d.dstBuf.toNat || (match buffer d.dstBuf.toNat with | some b => moved p seq b.cons | none => false)) &&
    (d.srcSp != 2 || remote) && (d.dstSp != 2 || remote)

/-- An assured strand's wait with timeout 0 that nothing bounds. -/
def unbounded (p : Package) (n : Nat) (q : SeqDecl) : SInstr → Bool
  | .evw ev _ 0 => !signalled p q ev
  | .swt k _ _ _ 0 => (region p q).any fun x => match x.2 with
    | .smv m d _ _ => m == k && match q.descs.find? (·.1 == d) with
      | some e => !boundedMove p n e.2
      | none => false
    | _ => false
  | _ => false

/-- Refusal 0x0E. -/
def checkBounds (p : Package) : Option Refuse :=
  firstRefusal (fun y : SeqDecl × Nat => firstRefusal (fun x =>
    refuseIf (y.1.cls == .assured && unbounded p y.2 y.1 x.2) ⟨14, 1, y.1.bayRole, x.1⟩) (region p y.1)) p.seqs.zipIdx

/-! ### Promises (R218, R220) -/

/-- Symbols of the longest window of a sequence. -/
def longest (p : Package) (q : SeqDecl) : Nat :=
  (region p q).foldl (fun m x => match x.2 with | .win _ wl _ _ _ _ _ _ _ _ => max m (winLen wl) | _ => m) 0

/-- Symbols of the shortest window that a sequence issues on a tile, 0 for none. -/
def shortestOn (p : Package) (q : SeqDecl) (k : Nat) : Nat :=
  (region p q).foldl (fun m x => match x.2 with
    | .win t wl _ _ _ _ _ _ _ _ => if !inMask t k then m else if m = 0 then winLen wl else min m (winLen wl)
    | _ => m) 0

/-- The bay roles that a claim uses: its sequence's, and those of the assured sequences that signal its completion (DEDUCED, log
149). -/
def claimRoles (p : Package) (c : TimingClaim) (q : SeqDecl) : List Nat :=
  (q.bayRole :: (p.seqs.filter fun r =>
    r.cls == .assured && 256 ≤ c.completion && (region p r).any fun x => signals x.2 == some c.completion).map (·.bayRole)).eraseDups

/-- The strands of a sequence are independent between triggers: no two name one tile or queue, or meet at a counter (R218; DEDUCED,
log 149). -/
def independent (p : Package) (q : SeqDecl) : Bool :=
  let tiles := fun (i : SInstr) => match i with
    | .win m .. | .pld m .. | .psw m _ | .ssc m _ _ => maskList 4 m
    | .drn k .. => [k]
    | _ => []
  let queues := fun (i : SInstr) => match i with
    | .win m _ _ _ _ _ _ iq shr _ => (List.range (if shr then 1 else (maskList 4 m).length)).map (iq + ·)
    | .smv n .. | .swt n .. => [n]
    | _ => []
  let waits := fun (i : SInstr) => match i with
    | .evw ev _ _ => some ev
    | _ => none
  q.strands.all fun t => q.strands.all fun u =>
    let a := (strandCode p q t.2.toNat).map (·.2)
    let b := (strandCode p q u.2.toNat).map (·.2)
    t.1 == u.1 || (!(a.flatMap tiles).any (b.flatMap tiles).contains && !(a.flatMap queues).any (b.flatMap queues).contains &&
      !(a.filterMap waits).any (b.filterMap signals).contains)

/-- L of a claim at a power step in ns, rounded up: the slowest path, and the allowances for swaps, replays, fabric retries, and
5 µs of recalibration on each bay in each ms or part of L. -/
def promised (p : Package) (homes : List Nat) (c : TimingClaim) (q : SeqDecl) (f : Nat) : Option Nat :=
  let n := (claimRoles p c q).length
  (slowest (pathTimes p homes c.seq q) f).map fun t =>
    let base := (t + 999) / 1000 + (914 * 56 * n + 100 * c.replays * longest p q + 5599) / 5600 + 400 * c.messages
    let part := 1000000 - 5000 * n
    base + 5000 * n * ((base + part - 1) / part)

/-- The deepest step from `n` down at which a claim is met, with its L. -/
def deepest (l : Nat → Option Nat) (latency : Nat) : Nat → Option (Nat × Nat)
  | 0 => (l 0).bind fun x => if x ≤ latency then some (0, x) else none
  | n + 1 => ((l (n + 1)).bind fun x => if x ≤ latency then some (n + 1, x) else none).or (deepest l latency n)

/-- The promise of a claim: its step and L. -/
def promiseOf (p : Package) (homes : List Nat) (c : TimingClaim) (q : SeqDecl) : Option (Nat × Nat) :=
  (deepest (promised p homes c q) c.latency 7).bind fun y =>
    if c.spacing < y.2 ∧ !(c.overlap && independent p q) then none else some y

/-- Refusal 0x0F. -/
def checkTiming (p : Package) (homes : List Nat) : Option Refuse :=
  firstRefusal (fun x : TimingClaim × Nat => match p.seqs[x.1.seq]? with
    | none => some ⟨15, 4, x.2, 0⟩
    | some q => refuseIf (q.cls == .assured && (promiseOf p homes x.1 q).isNone) ⟨15, 4, x.2, 0⟩) p.timing.zipIdx

/-! ### Power (R220, R221) -/

/-- The floor step of a sequence: the least deep of its claims. -/
def seqFloor (p : Package) (homes : List Nat) (n : Nat) (q : SeqDecl) : Nat :=
  p.timing.foldl (fun a c => if c.seq = n then (match promiseOf p homes c q with
    | some y => min a y.1
    | none => a) else a) 7

/-- Power of a sequence at a step in mW: issue on each tile, 3.44 W and 1.28 nJ for each of its shortest windows, at the step's
rate, and plane loads. -/
def seqPower (p : Package) (homes : List Nat) (n : Nat) (q : SeqDecl) (f : Nat) : Nat :=
  let issue := ((maskList 4 q.tiles.toNat).map fun k =>
    let w := shortestOn p q k
    if w = 0 then 0 else 3440 + 71680 / w).sum
  issue * (8 - f) / 8 + loadPower (pathTimes p homes n q) f

/-- What R221 counts for a score: its bays, and its assured sequences at their floors. -/
def scorePower (p : Package) (homes : List Nat) : Nat :=
  51000 * p.bays.length +
    (p.seqs.zipIdx.map fun x => if x.1.cls == .assured then seqPower p homes x.2 x.1 (seqFloor p homes x.2 x.1) else 0).sum

/-- The power that accepted scores other than one count. -/
def State.powerClaimed (s : State) (i : ScoreId) : Nat :=
  (s.scores.scores.map fun x => if x.1 = i.toNat || x.2.pkg.isNone then 0 else x.2.power).sum

/-- Refusal 0x10, against the limit with which the analysis began (R234). -/
def checkPower (s : State) (p : Package) (i : ScoreId) (homes : List Nat) : Option Refuse :=
  match p.seqs.find? (·.cls == .assured) with
  | none => none
  | some q => refuseIf (decide (1000 * (s.score i).plim < 435000 + s.powerClaimed i + scorePower p homes)) ⟨16, 1, q.bayRole, q.first⟩

/-! ### The whole analysis (R6, R215) -/

/-- The first check that fails. The order declared is the header's (R6, R208). -/
def State.analyse (s : State) (p : Package) (i : ScoreId) : Option Refuse :=
  let x := s.score i
  (checkFormat p x.image).or <|
  (refuseIf (x.order != (if s.compat then 1 else 0)) ⟨4, 2, 0, 0⟩).or <|
  (checkCode p x.homes).or <| (checkSeqs p).or <| (s.checkAddresses p i x.homes x.ghomes).or <| (checkPlanes p x.homes).or <|
  (checkPewter s.compat p).or <| (checkChains s p i).or <| (checkCapacity s p i x.homes x.ghomes (sectionAt x.image 1)).or <|
  (checkSlots s p i x.homes).or <| (checkWaits p).or <| (checkBounds p).or <| (checkTiming p x.homes).or <|
  checkPower s p i x.homes

end Sys2Proof.Machine
end

