-- ==== Sys2Proof/Machine/Scores.lean ====
section
/-! DEFINITION. Scores: loading, the end of the analysis, starting, stopping, the end of a sequence and unloading (R133, R153,
R208 to R214, R225, R232, R366, R367, R439). -/

namespace Sys2Proof.Machine

/-! ### Reports and records (GLB_ADM_LAST, GLB_ADM_DETAIL, R439) -/

/-- What an analysis, a refusal or a load end reports. -/
def State.admReport (s : State) (i : ScoreId) (e : Refuse) : State :=
  let s1 := ((s.setFlag GLB_ADM_LAST.valid true).setFld GLB_ADM_LAST.code e.code).setFld GLB_ADM_LAST.score i.toNat
  ((s1.setFld GLB_ADM_DETAIL.kind e.kind).setFld GLB_ADM_DETAIL.role e.role).setFld GLB_ADM_DETAIL.where e.place

/-- A score event extends measurement register 6: 1 accepted, 2 unloaded. -/
def State.measureScore (s : State) (event : Nat) (i : ScoreId) (digest : List Byte) : State :=
  s.extend 6 (Config.shake256 (leBytes 1 event ++ leBytes 2 i.toNat ++ digest))

/-! ### LOAD_BEGIN and LOAD_CHUNK (R210, R212) -/

/-- The bytes of a command's parameters from a position. -/
def Taken.bytes (c : Taken) (from_ n : Nat) : List Byte := ((c.params.flatMap fun w => leBytes 4 w.toNat).drop from_).take n

/-- The first of the waiting loads is analysed as soon as its sections have arrived, against the power limit of that moment
(R213, R234). -/
def State.nextAnalysis (s : State) : State :=
  match s.scores.loads with
  | [] => s
  | i :: _ =>
    let x := s.score i
    if x.state = .loading ∧ x.pkg.isNone ∧ analysisEnd x.image ≤ x.nextBlk then
      s.setScore i { x with state := .analysing, plim := s.fld GLB_ADM_PLIM.watts }
    else s

/-- LOAD_BEGIN's start. A refusal from the header is reported as the analysis' are. -/
def State.loadBegin (s : State) (k : Nat) (c : Taken) : State :=
  let h := c.bytes 0 256
  let i := hdrScore h
  let ns := bits (c.p 64) 7 0
  let ng := bits (c.p 64) 15 8
  let homes := (c.bytes 260 ns).map (·.toNat)
  let ghomes := (c.bytes (260 + ns) ng).map (·.toNat)
  let refuse := fun (s : State) (code : Nat) =>
    let s1 := s.admReport i ⟨code, if code = 2 then 2 else 0, 0, 0⟩
    s1.complete k 6 code [s1.fld GLB_ADM_LAST.score]
  if 65536 ≤ c.p 64 ∨ !homes.Nodup ∨ !ghomes.Nodup then s.complete k 3
  else if 5 ≤ s.scores.loads.length then refuse s 1
  else if !headerOk h then refuse s 2
  else if i = 0 ∨ (s.score i).state ≠ .none then refuse s 3
  else if homes.any (fun n => 92 ≤ n || Tab.get dZero s.scores.sgran n != 0) ∨
      ghomes.any (fun n => 96 ≤ n || Tab.get dZero s.scores.ggran n != 0) then s.complete k 3
  else
    let x : Score := { Score.reset with state := .loading, order := h.getD 6 0, length := hdrLength h, digest := hdrDigest h
                                        image := h, nextBlk := 4, homes := homes, ghomes := ghomes }
    let s1 := s.setScore i x
    let s2 : State := { s1 with scores := { s1.scores with loads := s1.scores.loads ++ [i] } }
    s2.complete k 0 0 [i.toNat + 65536 * s.scores.loads.length]

/-- LOAD_BEGIN (R210, R367). -/
def execLoadBegin (k : Nat) (s : State) : Host.Outcome State Fault Refusal := .next (s.command k 0x0101 (·.loadBegin k))

/-- A span of stage memory that lies wholly in granules bound to no score. -/
def State.staging (s : State) (a len : Nat) : Bool := a % 64 == 0 && s.rangeBound a len 0

/-- The blocks `lo` to `hi − 1` of a package that have a place in the score's home granules are copied there (R210). -/
def State.placeBlocks (s : State) (x : Score) (p : Package) (lo hi : Nat) : State :=
  p.pieces.foldl (fun s y => (List.range y.count).foldl (fun s k =>
    let b := y.first + k
    let d : Block := ⟨padTo 64 0 ((x.image.drop (64 * b)).take 64), none⟩
    if b < lo ∨ hi ≤ b then s
    else if y.gddr then match x.ghomes[y.role]? with
      | some g => s.gddrWrite (g * 0x20000000 + y.off + 64 * k) d
      | none => s
    else match x.homes[y.role]? with
      | some g => s.writeBlock (g * 0x400000 + y.off + 64 * k) d
      | none => s) s) s

/-- LOAD_CHUNK's start: the chunk is folded into the digest, and once the analysis has accepted copied into its place. -/
def State.loadChunk (s : State) (k : Nat) (c : Taken) : State :=
  let i := BitVec.ofNat 16 (c.p 0)
  let x := s.score i
  let n := c.p 3
  if 65536 ≤ c.p 0 then s.complete k 3
  else if x.state = .none then s.complete k 4
  else if x.state ≠ .loading ∧ x.state ≠ .analysing then s.complete k 5
  else if c.p 2 ≠ x.nextBlk ∨ n = 0 ∨ 1048576 < n ∨ !s.staging (c.p 1) (64 * n) then s.complete k 3
  else
    let data := (List.range n).flatMap fun b => (s.blockAt (c.p 1 + 64 * b)).data
    let s1 := s.countReads (c.p 1) (64 * n)
    let y : Score := { x with image := x.image ++ data, nextBlk := x.nextBlk + n }
    let s2 := s1.setScore i y
    let s3 := match y.pkg with
      | some p => s2.placeBlocks y p x.nextBlk y.nextBlk
      | none => s2
    s3.nextAnalysis.complete k 0 0 [x.nextBlk + n]

/-- LOAD_CHUNK (R210, R367). -/
def execLoadChunk (k : Nat) (s : State) : Host.Outcome State Fault Refusal := .next (s.command k 0x0102 (·.loadChunk k))

/-! ### Acceptance and release of what a score holds (R31, R36, R153, R182, R211, R214) -/

/-- Home granules are cleared and bound. -/
def State.bindHomes (s : State) (i : ScoreId) (homes ghomes : List Nat) : State :=
  let s1 := homes.foldl (fun s n =>
    let t := s.clearStage n
    { t with scores := { t.scores with sgran := Tab.set dZero t.scores.sgran n i } }) s
  ghomes.foldl (fun s n =>
    let t := s.clearGddr n
    { t with scores := { t.scores with ggran := Tab.set dZero t.scores.ggran n i } }) s1

/-- The score's module queues are enabled. -/
def State.enableQueues (s : State) (i : ScoreId) (p : Package) : State :=
  p.queues.foldl (fun s q => s.setQueue (256 + (q.1 - 32)) ⟨i, q.2.1, true, q.2.2, []⟩) s

/-- The promises that admission gives, not yet in force (R218). -/
def promisesOf (p : Package) (homes : List Nat) : Tab Promise :=
  p.timing.zipIdx.foldl (fun t x => match p.seqs[x.1.seq]? with
    | some q => if q.cls = .assured then (match promiseOf p homes x.1 q with
        | some y => Tab.set dPromise t x.2 { Promise.reset with
            floor := BitVec.ofNat 3 y.1, bound := y.2, roles := claimRoles p x.1 q }
        | none => t) else t
    | none => t) []

/-- Binds what an accepted score holds from its analysis on; what has arrived of its package goes into its place. -/
def State.accept (s : State) (i : ScoreId) (p : Package) : State :=
  let x := s.score i
  let s1 := s.bindHomes i x.homes x.ghomes
  let plan := (slotPlan x.homes s1.stage.owner s1.free p.slots).toOption.getD []
  let s2 := ({ s1 with stage := { s1.stage with owner := giveSlots plan s1.stage.owner } } : State).draw (3 * p.slots.length)
  ((s2.placeBlocks x p 0 x.nextBlk).enableQueues i p).setScore i { x with
    state := .loading, pkg := some p, promises := promisesOf p x.homes, power := scorePower p x.homes }

/-- Every slot of a granule returns to no one; observability slots too, once neither granule of the bank is bound. -/
def State.freeGran (s : State) (n : Nat) : State :=
  let codes := [ownerCode (n * 0x400000) .assured, ownerCode (n * 0x400000) .spare]
  let other := Tab.get dZero s.scores.sgran (if n % 2 = 0 then n + 1 else n - 1)
  let owner := (List.range 16).foldl (fun t k =>
    let o := Tab.get dOwner t (16 * (n / 2) + k)
    if codes.contains o || (o == 5 && other == 0) then Tab.set dOwner t (16 * (n / 2) + k) 0 else t) s.stage.owner
  { s with stage := { s.stage with owner := owner }, scores := { s.scores with sgran := Tab.set dZero s.scores.sgran n 0 } }

/-- The home granules of a score are released; they are cleared at their next binding. -/
def State.freeHomes (s : State) (i : ScoreId) : State :=
  let s1 := (heldBy s.scores.sgran i.toNat).foldl State.freeGran s
  { s1 with scores := { s1.scores with ggran := s1.scores.ggran.filter fun p => p.2 != i } }

/-- A bay that its score gives up is free, unless it is out of service. -/
def State.freeBay (s : State) (b : Nat) : State :=
  let s1 := s.setBayScore b 0
  let s2 := s1.modBay b fun y => { y with minLines := 0, before := if y.before = 2 then 1 else y.before }
  if s2.bayState b = 2 then s2.setBayState b 1 else s2

/-- A wavelength group is bound to no one. -/
def State.freeGroup (s : State) (n : Nat) : State :=
  let g := s.group (n / 4) (n % 4)
  let s1 := s.setGroup (n / 4) (n % 4) { g with
    bound := false, cls := .assured, score := 0, partner := 0, serial := 0, role := 0, pend := false, out := [], reads := [], writes := [] }
  { s1 with scores := { s1.scores with groups := Tab.set dZero s1.scores.groups n 0 } }

/-- Everything a score holds is released, and nothing of it remains. -/
def State.releaseAll (s : State) (i : ScoreId) : State :=
  let s1 := ((List.range 8).filter fun b => s.bayScore b == i).foldl State.freeBay s
  let s2 := (heldBy s1.scores.groups i.toNat).foldl State.freeGroup s1
  let s3 := ((List.range 64).filter fun w => (s2.rwin w).valid && (s2.rwin w).score == i).foldl
    (fun s w => s.setRwin w RWin.reset) s2
  let s4 := ((List.range 16).filter fun n => (s3.queue (256 + n)).owner == i).foldl
    (fun s n => s.setQueue (256 + n) Queue.reset) s3
  let s5 := s4.freeHomes i
  ({ s5 with scores := { s5.scores with
      pewter := s5.scores.pewter.filter fun p => p.2 != i, loads := s5.scores.loads.filter (· != i) } }).setScore i Score.reset

/-! ### ANALYSIS and LOAD_END (R211 to R213, R215, R367) -/

/-- The place of the taken LOAD_END of a score that waits for the analysis. -/
def State.waitingEnd (s : State) (i : ScoreId) : Option Nat :=
  s.cmd.taken.findIdx? fun c => c.opcode == 0x0103 && c.begun.isSome && BitVec.ofNat 16 (c.p 0) == i

/-- The end of a load whose analysis has ended: the digest decides. -/
def State.finishLoad (s : State) (k : Nat) (i : ScoreId) : State :=
  let x := s.score i
  let reply := fun (s : State) (st detail : Nat) =>
    s.complete k st detail [(s.reg GLB_ADM_LAST.valid.off).toNat, (s.reg GLB_ADM_DETAIL.kind.off).toNat]
  match x.refusal, x.pkg with
  | some code, _ => reply (s.releaseAll i) 6 code.toNat
  | none, none => s
  | none, some _ =>
    if (x.length + 63) / 64 = x.nextBlk ∧ Config.shake256 (zeroDigest (x.image.take x.length)) = x.digest then
      let s1 := s.setScore i { x with state := .loaded, image := [] }
      reply ((s1.admReport i ⟨0, 0, 0, 0⟩).measureScore 1 i x.digest) 0 0
    else reply ((s.releaseAll i).admReport i ⟨0x11, 0, 0, 0⟩) 6 0x11

/-- ANALYSIS: the score whose turn it is, with the package that its sections spell, is accepted or refused. A refused
score has no state; its code is kept for its LOAD_END. -/
def State.analysis (s : State) (i : ScoreId) (p : Package) : State :=
  if s.scores.loads.head? ≠ some i ∨ (s.score i).state ≠ .analysing then s
  else
    let s0 : State := { s with scores := { s.scores with loads := s.scores.loads.drop 1 } }
    let s1 := match s0.analyse p i with
      | none => (s0.accept i p).admReport i ⟨0, 0, 0, 0⟩
      | some e => (s0.setScore i { Score.reset with refusal := some (BitVec.ofNat 8 e.code) }).admReport i e
    let s2 := match s1.waitingEnd i with
      | some k => s1.finishLoad k i
      | none => s1
    s2.nextAnalysis

/-- ANALYSIS (R213, R215). -/
def execAnalysis (score : ScoreId) (pkg : Package) (s : State) : Host.Outcome State Fault Refusal :=
  .next (s.analysis score pkg)

/-- LOAD_END's start: the reply waits for the analysis. A load whose first sections have not arrived has no analysis to
wait for; its digest cannot agree. -/
def State.loadEnd (s : State) (k : Nat) (c : Taken) : State :=
  let i := BitVec.ofNat 16 (c.p 0)
  let x := s.score i
  if 65536 ≤ c.p 0 then s.complete k 3
  else if x.refusal.isSome ∨ x.pkg.isSome ∧ x.state = .loading then s.finishLoad k i
  else if x.state = .none then s.complete k 4
  else if x.state ≠ .loading ∧ x.state ≠ .analysing then s.complete k 5
  else if x.nextBlk < analysisEnd x.image then
    let s1 := ((s.releaseAll i).admReport i ⟨0x11, 0, 0, 0⟩).nextAnalysis
    s1.complete k 6 0x11 [(s1.reg GLB_ADM_LAST.valid.off).toNat, (s1.reg GLB_ADM_DETAIL.kind.off).toNat]
  else s.begin k

/-- LOAD_END (R211). -/
def execLoadEnd (k : Nat) (s : State) : Host.Outcome State Fault Refusal := .next (s.command k 0x0103 (·.loadEnd k))

/-! ### START (R133, R153, R194, R214, R232) -/

/-- Every role of the claims is bound. -/
def Score.allBound (x : Score) (p : Package) : Bool :=
  p.bays.all (fun y => (x.roleRes 0 y.role).isSome) && p.pewter.all (fun y => (x.roleRes 1 y.role).isSome) &&
    p.groups.all (fun y => (x.roleRes 2 y.1).isSome) && p.windows.all fun r => (x.roleRes 3 r.1).isSome

/-- Whether a claim holds on a bay: 1 kept, 2 only on the remaining lines of a degraded bay, 0 not. -/
def State.claimHolds (s : State) (b : Nat) (q : Promise) (c : TimingClaim) : Nat :=
  if s.bayState b = 6 then 0
  else if !s.degraded b then 1
  else if Config.lineLatency q.bound (128 - s.lostLines b) ≤ c.latency then 2 else 0

/-- A claim holds on every bay that it uses: each is bound, and none withdrawn or too short of lines (R214). -/
def State.claimKept (s : State) (x : Score) (n : Nat) (c : TimingClaim) : Bool :=
  (x.promise n).roles.all fun role => match x.roleRes 0 role with
    | some b => s.claimHolds b (x.promise n) c != 0
    | none => false

/-- Whether sequence `n` of a score may start: its bay bound or running without another of its class, every claim of an
assured one holding. -/
def State.mayStart (s : State) (x : Score) (p : Package) (n : Nat) : Bool :=
  match p.seqs[n]? with
  | none => false
  | some q => match x.roleRes 0 q.bayRole with
    | none => false
    | some b =>
      (s.bayState b == 2 || s.bayState b == 3) && ((s.bay b).run q.cls).isNone && x.allBound p &&
        (q.cls == .spare || x.claims.all fun c => c.2.seq != n || s.claimKept x c.1 c.2)

/-- The strands of a sequence become ready at their entry addresses. -/
def Bay.startStrands (y : Bay) (q : SeqDecl) (tick : Nat) : Bay :=
  q.strands.foldl (fun y t =>
    y.setStrand t.1 { Strand.reset with state := .ready, cls := q.cls, pc := t.2, waitFrom := some tick }) y

/-- The buffers of a sequence, empty. -/
def State.startBuffers (s : State) (b : Nat) (x : Score) (p : Package) (n : Nat) (c : Cls) : State :=
  (p.buffers.filter (·.seq == n)).foldl (fun s u =>
    s.setSbuf (64 * b + (if c = .spare then 32 else 0) + u.idx)
      ⟨x.homes.getD u.gran 0 * 0x400000 + u.off, u.size / 64, 0, 0, 0, 0, u.prod, u.cons, 0⟩) s

/-- A claim holds only on the remaining lines of some bay that it uses (R232). -/
def State.claimTight (s : State) (x : Score) (n : Nat) (c : TimingClaim) : Bool :=
  (x.promise n).roles.any fun role => match x.roleRes 0 role with
    | some b => s.claimHolds b (x.promise n) c == 2
    | none => false

/-- The claims of a sequence enter kept or at risk, and a claim that its start triggers has its trigger. -/
def State.startClaims (s : State) (i : ScoreId) (n : Nat) : State :=
  s.scoreFold i n fun s k c =>
    let q := (s.score i).promise k
    let q1 : Promise := { q with worst := 0, since := [] }
    let tight := s.claimTight (s.score i) k c
    let s1 := (s.setScore i ((s.score i).setPromise k q1)).setPromiseState i k (if tight then 2 else 1) (if tight then 8 else 0)
    if c.trigger = .start then s1.claimTrigger i k else s1

/-- The descriptors that a sequence names, as stage memory holds them (R192, R194). -/
def State.readDescs (s : State) (q : SeqDecl) : List (Nat × Desc) :=
  q.descs.map fun d => (d.1, decodeDesc (s.blockAt d.1).data)

/-- Starts sequence `n` on its bay: its strands become ready, its queues empty, its descriptors copied into the bay's cache. -/
def State.startSeq (s : State) (i : ScoreId) (p : Package) (n : Nat) : State :=
  match p.seqs[n]? with
  | none => s
  | some q => match (s.score i).roleRes 0 q.bayRole with
    | none => s
    | some b =>
      let r : SeqRun := ⟨i, n, q.tiles, q.strands.map (·.1), q.first, q.count, q.queues, q.events, s.readDescs q, [], false, false⟩
      let s0 := q.descs.foldl (fun s d => s.countRead d.1) s
      let s1 := s0.modBay b fun y => (y.startStrands q s.tick).setRun q.cls (some r)
      let s2 := q.queues.foldl (fun s t => s.setQueue (32 * b + t.1) ⟨i, q.cls, true, t.2, []⟩) s1
      let s3 := (s2.startBuffers b (s2.score i) p n q.cls).setBayState b 3
      if q.cls = .assured then s3.startClaims i n else s3

/-- The first start of a score sets its counters to zero (R153), and batches are numbered from the start (R229). -/
def State.firstStart (s : State) (i : ScoreId) : State :=
  let x := s.score i
  if x.state = .running then s
  else
    let s1 := s.setScore i { x with state := .running, counters := [], batches := [] }
    ((List.range 8).filter fun b => s.bayScore b == i).foldl (fun s b => s.modBay b fun y => { y with events := [] }) s1

/-- The sequences that a mask names. -/
def maskSeqs (p : Package) (m : Nat) : List Nat := if m = 0 then List.range p.seqs.length else maskList 16 m

/-- The bay of an assured sequence has recalibration slots pending, which run before it accepts new assured work (R24). -/
def State.slotsPending (s : State) (x : Score) (p : Package) (n : Nat) : Bool :=
  match p.seqs[n]? with
  | some q => match x.roleRes 0 q.bayRole with
    | some b => q.cls == .assured && s.fld (LOOP_RECAL.pend.on b) != 0
    | none => false
  | none => false

/-- Where sequences of a score run: bay and class, of which a bay has one sequence each (R28). -/
def Score.places (x : Score) (p : Package) (l : List Nat) : List (Nat × Cls) :=
  l.filterMap fun n => (p.seqs[n]?).bind fun q => (x.roleRes 0 q.bayRole).map fun b => (b, q.cls)

/-- START's start: all of the named sequences, or none. -/
def State.start (s : State) (k : Nat) (c : Taken) : State :=
  let i := BitVec.ofNat 16 (c.p 0)
  let x := s.score i
  if 65536 ≤ c.p 0 ∨ 65536 ≤ c.p 1 then s.complete k 3
  else if x.state = .none then s.complete k 4
  else match x.pkg with
    | none => s.complete k 5
    | some p =>
      let l := maskSeqs p (c.p 1)
      if l.any fun n => p.seqs.length ≤ n then s.complete k 3
      else if l.any (s.slotsPending x p) then s
      else if (x.state ≠ .loaded ∧ x.state ≠ .running) ∨ !l.all (s.mayStart x p) ∨ !(x.places p l).Nodup then s.complete k 5
      else (l.foldl (fun s n => s.startSeq i p n) (s.firstStart i)).complete k 0

/-- START (R214). -/
def execStart (k : Nat) (s : State) : Host.Outcome State Fault Refusal := .next (s.command k 0x0104 (·.start k))

/-! ### STOP, SEQUENCE_END and UNLOAD (R133, R214) -/

/-- Whether sequence `n` of a score runs on some bay. -/
def State.seqRuns (s : State) (i : ScoreId) (n : Nat) : Bool :=
  (List.range 8).any fun b =>
    [Cls.assured, Cls.spare].any fun c => match (s.bay b).run c with
      | some r => r.score == i && r.index == n
      | none => false

/-- The strands of a sequence halt for good at their next instruction boundary: they are idle, as after END. -/
def State.haltSeq (s : State) (b : Nat) (c : Cls) : State :=
  match (s.bay b).run c with
  | none => s
  | some r => s.modBay b fun y => (r.strands.foldl (fun y j =>
      if (y.strand j).state = .faulted then y
      else y.setStrand j { y.strand j with state := .idle, waitFrom := none }) y).setRun c (some { r with stopping := true })

/-- Halts the sequences of a score that a list names. -/
def State.haltSeqs (s : State) (i : ScoreId) (l : List Nat) : State :=
  (List.range 8).foldl (fun s b => [Cls.assured, Cls.spare].foldl (fun s c => match (s.bay b).run c with
    | some r => if r.score = i ∧ l.contains r.index then s.haltSeq b c else s
    | none => s) s) s

/-- STOP's start. -/
def State.stop (s : State) (k : Nat) (c : Taken) : State :=
  let i := BitVec.ofNat 16 (c.p 0)
  let x := s.score i
  if 65536 ≤ c.p 0 ∨ 65536 ≤ c.p 1 then s.complete k 3
  else if x.state = .none then s.complete k 4
  else match x.pkg with
    | none => s.complete k 5
    | some p =>
      let l := maskSeqs p (c.p 1)
      if l.any fun n => p.seqs.length ≤ n then s.complete k 3
      else if x.state ≠ .running then s.complete k 5
      else if l.any (s.seqRuns i) then (s.haltSeqs i l).begin k
      else s.complete k 0 0 [0]

/-- STOP (R214). -/
def execStop (k : Nat) (s : State) : Host.Outcome State Fault Refusal := .next (s.command k 0x0105 (·.stop k))

/-- The end of an unload: everything is released, and register 6 records it. -/
def State.finishUnload (s : State) (k : Nat) (i : ScoreId) : State :=
  let d := (s.score i).digest
  let accepted := (s.score i).pkg.isSome
  let s1 := (s.releaseAll i).nextAnalysis
  (if accepted then s1.measureScore 2 i d else s1).complete k 0

/-- UNLOAD's start. -/
def State.unload (s : State) (k : Nat) (c : Taken) : State :=
  let i := BitVec.ofNat 16 (c.p 0)
  let x := s.score i
  if 65536 ≤ c.p 0 then s.complete k 3
  else if x.state = .none then s.complete k 4
  else if s.scoreRuns i then
    ((s.setScore i { x with state := .unloading }).haltSeqs i (List.range 16)).begin k
  else s.finishUnload k i

/-- UNLOAD (R214). -/
def execUnload (k : Nat) (s : State) : Host.Outcome State Fault Refusal := .next (s.command k 0x0106 (·.unload k))

/-- A STOP or UNLOAD of a score whose sequences have ended. -/
def State.stopEnded (s : State) (c : Taken) : Bool :=
  let i := BitVec.ofNat 16 (c.p 0)
  c.begun.isSome &&
    ((c.opcode == 0x0105 && match (s.score i).pkg with
        | some p => !(maskSeqs p (c.p 1)).any (s.seqRuns i)
        | none => true) ||
      (c.opcode == 0x0106 && !s.scoreRuns i))

/-- Completes the first STOP or UNLOAD that has come to its end. -/
def State.replyStops (s : State) : State :=
  match s.cmd.taken.findIdx? s.stopEnded with
  | none => s
  | some k => match s.cmd.taken[k]? with
    | none => s
    | some c =>
      if c.opcode = 0x0106 then s.finishUnload k (BitVec.ofNat 16 (c.p 0))
      else s.complete k 0 0 [s.tick - c.begun.getD s.tick]

/-- SEQUENCE_END: a sequence whose strands are idle and whose work is complete ends. -/
def State.sequenceEnd (s : State) (b : Nat) (c : Cls) : State :=
  match (s.bay b).run c with
  | none => s
  | some r => if s.seqEnded b c r then (s.endSeq b c r).replyStops else s

/-- SEQUENCE_END (R133). -/
def execSequenceEnd (b : BayId) (c : Cls) (s : State) : Host.Outcome State Fault Refusal := .next (s.sequenceEnd b.val c)

end Sys2Proof.Machine
end

