-- ==== Sys2Proof/Machine/Binding.lean ====
section
/-! DEFINITION. Binding and rebinding, remote windows, module event counters and bay debug state (R36 to R41, R54, R65, R105, R113,
R171, R222 to R226, R250, R258, R300, R331, R336, R366 to R368). -/

namespace Sys2Proof.Machine

/-! ### The clearing of a bay (R36, R54, R105, R113, R135) -/

/-- A tile cleared for a new holder: both planes zero codes (R54), its queues and buffers empty, its entries cleared but
those of a range that a score other than the two concerned holds (R39). -/
def State.clearTile (s : State) (t : Nat) (old new : ScoreId) : State :=
  let x := s.tile t
  let mine := fun (e : Nat) => let i := s.rangeScore t e; i == 0 || i == old || i == new
  let y : Tile := { Tile.reset with
    failed := x.failed, inst := x.inst, calDraw := x.calDraw, points := x.points, stamp := x.stamp, nextGid := x.nextGid, started := x.started, ended := x.ended
    wgr := x.wgr, dither := x.dither, reseed := x.reseed, tblOk := x.tblOk, table := x.table, band := x.band, aff := x.aff
    noise := x.noise, scaleBad := x.scaleBad, quality := x.quality
    mant := x.mant.filter fun k => !mine (k.1 / 512), gword := x.gword.filter fun k => !mine (k.1 / 32) }
  let s1 := ((s.setTile t y).zeroPlanes t).loadGens t
  ((s1.setFlag (TILE_PLANE_STAT.active.on t) false).setFlag (TILE_PLANE_STAT.idle_valid.on t) false).setFlag
    (TILE_PLANE_STAT.stale.on t) false

/-- Instruction memory as a bay's code spells it. -/
def codeTab (l : List (BitVec 128)) : Tab (BitVec 128) := l.zipIdx.foldl (fun t x => Tab.set dZero t x.2 x.1) []

/-- The bay is cleared and the code of its new role copied in. -/
def State.clearBay (s : State) (b : Nat) (old new : ScoreId) (code : List (BitVec 128)) : State :=
  let s1 := (List.range 4).foldl (fun s k => s.clearTile (4 * b + k) old new) s
  s1.modBay b fun y => { y with strands := [], imem := codeTab code, events := [], jobs := [], activity := 0 }

/-- Planes of zero codes and clear Pewter entries: the tile's state for a bay that enters service. -/
def State.freshBay (s : State) (b : Nat) : State := s.clearBay b 0 0 []

/-! ### The ramp (R38, R39, R250) -/

/-- Velocity and acceleration limits for a largest change, as LOOP_PROF holds them, to the nearest unit. -/
def rampLimits (d : Nat) : Word :=
  let t := if d ≤ 40960 then (2750, 550) else (4500, 800)
  let v := (2 * 256 * d + t.1) / (2 * t.1)
  let a := (2 * 65536 * d + t.1 * t.2) / (2 * (t.1 * t.2))
  BitVec.ofNat 32 (a % 65536 * 65536 + v % 65536)

/-- Every zone loop of a bay ramps to a set-point; the limits before are kept. -/
def State.rampBay (s : State) (b : Nat) (tgt : Int) : State :=
  let d := (List.range 64).foldl (fun m l => max m (tgt - (s.loopOf b l).target.toInt).natAbs) 0
  if d = 0 then s
  else (List.range 64).foldl (fun s l =>
    let L := s.loopOf b l
    let L1 := L.setTarget (s.engine b).supply (s.guardLim 1) (BitVec.ofInt 24 tgt)
    s.setLoop b l { L1 with prof := rampLimits d, saved := some (L.saved.getD L.prof) }) s

/-! ### BIND (R37, R222 to R226) -/

/-- Stream transfers of a bay's sequences or of a score are in flight. -/
def State.inFlight (s : State) (i : ScoreId) (b : Option Nat) : Bool :=
  s.strm.queues.any fun q => q.2.xfers.any fun x => match b with
    | some n => x.bay == n
    | none => q.2.owner == i

/-- Ties a role of a score to a resource. -/
def State.tie (s : State) (i : ScoreId) (kind role n : Nat) : State :=
  let x := s.score i
  s.setScore i { x with bound := x.bound ++ [(kind, role, n)] }
/-- Unties a resource from whatever role of a score it serves. -/
def State.untie (s : State) (i : ScoreId) (kind n : Nat) : State :=
  let x := s.score i
  s.setScore i { x with bound := x.bound.filter fun y => !(y.1 == kind && y.2.2 == n) }

/-- A BIND of a bay: accepted while free, or bound with no sequence running and nothing in flight. A swap of the spare that waits
is made (R41). -/
def State.bindBay (s : State) (k : Nat) (i : ScoreId) (p : Package) (role b : Nat) : State :=
  match p.bays.find? (·.role == role) with
  | none => s.complete k 4
  | some c =>
    let st := s.bayState b
    if st = 3 ∨ st = 4 ∨ (s.bay b).anyRun ∨ (st = 2 ∧ s.inFlight 0 (some b)) then s.complete k 1
    else if (st ≠ 1 ∧ st ≠ 2) ∨ 128 - s.lostLines b < c.minLines then s.complete k 5
    else
      let old := s.bayScore b
      let s1 := (s.untie old 0 b).setBayState b 4
      let s2 := (s1.clearBay b old i (bayCode p role)).modBay b fun y => { y with role := role, minLines := c.minLines, upset := 0 }
      ((s2.swapInRebind b).rampBay b c.setpoint).begin k

/-- A BIND of a Pewter range, on a tile of the bay bound to the range's bay role. -/
def State.bindRange (s : State) (k : Nat) (i : ScoreId) (p : Package) (role n : Nat) : State :=
  match p.pewter.find? (·.role == role) with
  | none => s.complete k 4
  | some c =>
    let old := Tab.get dZero s.scores.pewter n
    if old ≠ 0 ∧ (s.scoreRuns old ∨ s.inFlight old none) then s.complete k 1
    else if (s.score i).roleRes 0 c.bayRole ≠ some (n / 64) then s.complete k 5
    else
      let s1 := (s.untie old 1 n).modTile (n / 16) fun x => (List.range 64).foldl (fun x e => x.clearEntry (64 * (n % 16) + e)) x
      let s2 : State := { s1 with scores := { s1.scores with pewter := Tab.set dZero s1.scores.pewter n i } }
      (s2.tie i 1 role n).complete k 0 0 [0, 0]

/-- Whether the module may bind groups at all, and a port to a partner: assigned, not a duplicate, the partner at the far
end of a port that is up (R326, R330, R331). -/
def State.mayPair (s : State) (port : Nat) (partner : Nat) : Bool :=
  s.flag FAB_PID.asg && !s.flag FAB_PID.dup &&
    (s.fld (FAB_PORT_STAT.state.on port) == 3 || s.fld (FAB_PORT_STAT.state.on port) == 4) &&
    s.fld (FAB_PORT_STAT.fid.on port) == partner

/-- A BIND of a wavelength group waits for the partner's answer; a port over long fibre takes no assured group (R224, R303). -/
def State.bindGroup (s : State) (k : Nat) (i : ScoreId) (p : Package) (role n partner : Nat) : State :=
  match p.groups.find? (·.1 == role) with
  | none => s.complete k 4
  | some c =>
    let g := s.group (n / 4) (n % 4)
    let old := Tab.get dZero s.scores.groups n
    if (g.pend ∧ !g.bound) ∨ (old ≠ 0 ∧ (s.scoreRuns old ∨ s.inFlight old none ∨ !(g.reads.isEmpty && g.writes.isEmpty))) then s.complete k 1
    else if c.2.1.toNat ≠ partner ∨ !s.mayPair (n / 4) partner ∨ (c.2.2 = .assured ∧ Config.longFibre (n / 4)) then s.complete k 5
    else
      let s1 := if old = 0 then s else (s.untie old 2 n).freeGroup n
      (s1.setGroup (n / 4) (n % 4) { s1.group (n / 4) (n % 4) with
        pend := true, cls := c.2.2, score := i, partner := c.2.1, role := role
        serial := match g.helloOf with | some h => h.serial | none => 0 }).begin k

/-- The lowest-numbered group of a score and class whose partner is given (R28). -/
def State.groupTo (s : State) (i : ScoreId) (c : Cls) (partner : Nat) : Option Nat :=
  (List.range 64).find? fun n =>
    let g := s.group (n / 4) (n % 4)
    g.bound && g.score == i && g.cls == c && g.partner.toNat == partner

/-- The translation entries of a window become invalid. -/
def State.clearMap (s : State) (w : Nat) : State :=
  let a := 0x17CC0000 + 32768 * w
  { s with stage := s.stage.keep fun n => n < a || a + 32768 ≤ n }

/-- A BIND of a remote window to a partner, through a group of the score of the class that the window is claimed for. -/
def State.bindWindow (s : State) (k : Nat) (i : ScoreId) (p : Package) (role w partner pages : Nat) : State :=
  match p.windows.find? (·.1 == role) with
  | none => s.complete k 4
  | some c =>
    let v := s.rwin w
    if v.valid ∧ (s.scoreRuns v.score ∨ s.inFlight v.score none) then s.complete k 1
    else match s.groupTo i c.2 partner with
      | none => s.complete k 5
      | some n =>
        let s1 := (if v.valid then s.untie v.score 3 w else s).clearMap w
        let s2 := s1.setRwin w ⟨true, i, BitVec.ofNat 12 partner, n / 4, n % 4, pages⟩
        (s2.tie i 3 role w).complete k 0 0 [0, 0]

/-- Reserved bits of a BIND's parameters are 0, its kind and resource in range; nothing else can be bound (R33, R366). -/
def bindOk (c : Taken) : Bool :=
  let kind := bits (c.p 0) 23 16
  let limit := if kind = 0 then 8 else if kind = 1 then 512 else 64
  kind < 4 && c.p 1 < limit && c.p 2 < (if kind = 3 then 2 ^ 28 else if kind = 2 then 4096 else 1)

/-- BIND's start. -/
def State.bind (s : State) (k : Nat) (c : Taken) : State :=
  let i := BitVec.ofNat 16 (c.p 0)
  let x := s.score i
  let kind := bits (c.p 0) 23 16
  let role := bits (c.p 0) 31 24
  let n := c.p 1
  if !bindOk c then s.complete k 3
  else if x.state = .none then s.complete k 4
  else match x.pkg with
    | none => s.complete k 5
    | some p =>
      if x.state ≠ .loaded ∧ x.state ≠ .running then s.complete k 5
      else if (x.roleRes kind role).isSome then s.complete k 5
      else if kind = 0 then s.bindBay k i p role n
      else if kind = 1 then s.bindRange k i p role n
      else if kind = 2 then s.bindGroup k i p role n (bits (c.p 2) 11 0)
      else s.bindWindow k i p role n (bits (c.p 2) 11 0) (bits (c.p 2) 27 16 + 1)

/-- BIND (R222, R366). -/
def execBind (k : Nat) (s : State) : Host.Outcome State Fault Refusal := .next (s.command k 0x0201 (·.bind k))

/-! ### REBIND_COMPLETE (R38, R40) -/

/-- The loops of a bay stand still in band: its zone loops in TRACK and at rest, its pilot loops and the loops of its
source's working combs in band (R40, R259). -/
def State.loopsSettled (s : State) (b : Nat) : Bool :=
  ((List.range 64).all fun l => let L := s.loopOf b l; L.mode == .track && !L.oob && !L.ramping) &&
    ((List.range 32).all fun p => !s.oobAt b (64 + p)) && (s.combLoops b).all fun l => !s.oobAt 9 l

/-- The BIND in place `k` that has begun, with its bay. -/
def State.rebinding (s : State) (k : Nat) : Option (Taken × Nat) :=
  match s.cmd.taken[k]? with
  | some c => if c.opcode = 0x0201 ∧ c.begun.isSome ∧ bits (c.p 0) 23 16 = 0 then some (c, c.p 1) else none
  | none => none

/-- REBIND_COMPLETE: the bay is bound once its loops stand still in band; the reply gives what put them outside it. A bay that
has left the rebinding state is not bound any more. -/
def State.rebindComplete (s : State) (k b : Nat) : State :=
  match s.rebinding k with
  | none => s
  | some (c, r) =>
    let i := BitVec.ofNat 16 (c.p 0)
    if r ≠ b then s
    else if s.bayState b ≠ 4 then s.complete k 5
    else if !s.loopsSettled b then s
    else
      let s1 := ((s.setBayScore b i).tie i 0 (bits (c.p 0) 31 24) b).setBayState b 2
      s1.complete k 0 0 [s.tick - c.begun.getD s.tick, (s.bay b).upset.toNat]

/-- REBIND_COMPLETE (R38, R40). -/
def execRebindComplete (k : Nat) (b : BayId) (s : State) : Host.Outcome State Fault Refusal :=
  .next (s.rebindComplete k b.val)

/-! ### RESERVATION_EXCHANGE (R224, R336) -/

/-- RESERVATION_EXCHANGE: the partner answers. Assured traffic needs a reference that both ends are locked to. -/
def State.reservation (s : State) (k : Nat) (accepted : Bool) : State :=
  match s.cmd.taken[k]? with
  | none => s
  | some c =>
    let i := BitVec.ofNat 16 (c.p 0)
    let n := c.p 1
    let g := s.group (n / 4) (n % 4)
    if c.opcode ≠ 0x0201 ∨ c.begun.isNone ∨ bits (c.p 0) 23 16 ≠ 2 ∨ !g.pend then s
    else if accepted ∧ (g.cls = .spare ∨ s.flag FAB_REF.lock) then
      let s1 := s.setGroup (n / 4) (n % 4) { g with pend := false, bound := true }
      let s2 : State := { s1 with scores := { s1.scores with groups := Tab.set dZero s1.scores.groups n i } }
      (s2.tie i 2 (bits (c.p 0) 31 24) n).complete k 0 0 [s.tick - c.begun.getD s.tick, 0]
    else (s.freeGroup n).complete k 7

/-- RESERVATION_EXCHANGE (R224). -/
def execReservationExchange (k : Nat) (accepted : Bool) (s : State) : Host.Outcome State Fault Refusal :=
  .next (s.reservation k accepted)

/-! ### RELEASE (R223, R366) -/

/-- The resource bound to a role goes back. -/
def State.giveBack (s : State) (i : ScoreId) (kind n : Nat) : State :=
  let s1 := s.untie i kind n
  if kind = 0 then s1.freeBay (n % 8)
  else if kind = 1 then { s1 with scores := { s1.scores with pewter := Tab.set dZero s1.scores.pewter n 0 } }
  else if kind = 2 then s1.freeGroup n
  else s1.setRwin n RWin.reset

/-- RELEASE's start. -/
def State.release (s : State) (k : Nat) (c : Taken) : State :=
  let i := BitVec.ofNat 16 (c.p 0)
  let x := s.score i
  let kind := bits (c.p 0) 23 16
  if 4 ≤ kind then s.complete k 3
  else if x.state = .none then s.complete k 4
  else match x.roleRes kind (bits (c.p 0) 31 24) with
    | none => s.complete k 4
    | some n =>
      if x.state = .running ∨ s.inFlight i none then s.complete k 1
      else if kind = 2 ∧ (List.range 64).any fun w =>
          (s.rwin w).valid && (s.rwin w).score == i && 4 * (s.rwin w).port + (s.rwin w).group == n then s.complete k 5
      else (s.giveBack i kind n).complete k 0

/-- RELEASE (R366). -/
def execRelease (k : Nat) (s : State) : Host.Outcome State Fault Refusal := .next (s.command k 0x0202 (·.release k))

/-! ### WINDOW_MAP (R197, R198) -/

/-- The translation entries that a WINDOW_MAP carries. -/
def mapEntries (c : Taken) : List Nat :=
  (List.range (bits (c.p 1) 24 16)).map fun j => c.p (4 + 2 * j) + 2 ^ 32 * c.p (5 + 2 * j)

/-- WINDOW_MAP's start: the entries take effect with the reply. -/
def State.windowMap (s : State) (k : Nat) (c : Taken) : State :=
  let i := BitVec.ofNat 16 (c.p 0)
  let w := bits (c.p 0) 21 16
  let first := bits (c.p 1) 11 0
  let l := mapEntries c
  if 2 ^ 22 ≤ c.p 0 ∨ 2 ^ 25 ≤ c.p 1 ∨ bits (c.p 1) 15 12 ≠ 0 ∨ l.isEmpty ∨ 504 < l.length ∨
      l.any (fun e => bits e 60 48 != 0 || bits e 19 0 != 0) then s.complete k 3
  else if (s.score i).state = .none ∨ !(s.rwin w).valid ∨ (s.rwin w).score ≠ i then s.complete k 4
  else if (s.rwin w).pages < first + l.length then s.complete k 3
  else
    let m := l.zipIdx.map fun e => (c.no, 0x17CC0000 + 8 * (4096 * w + first + e.2), e.1)
    ({ s with cmd := { s.cmd with maps := s.cmd.maps ++ m } }).complete k 0

/-- WINDOW_MAP (R198). -/
def execWindowMap (k : Nat) (s : State) : Host.Outcome State Fault Refusal := .next (s.command k 0x0203 (·.windowMap k))

/-! ### Module event counters (R152, R368) -/

/-- The counter that a command of family 0x03 names, once its parameters pass; otherwise its status. -/
def State.counterOf (s : State) (c : Taken) : Except Nat (ScoreId × Nat) :=
  let i := BitVec.ofNat 16 (c.p 0)
  let ev := bits (c.p 0) 24 16
  if 2 ^ 25 ≤ c.p 0 ∨ ev < 256 then .error 3
  else if (s.score i).state = .none ∨ !(s.score i).hasCounter ev then .error 4
  else .ok (i, ev)

/-- EVENT_SIGNAL (R368). -/
def State.eventSignal (s : State) (k : Nat) (c : Taken) : State :=
  match s.counterOf c with
  | .error st => s.complete k st
  | .ok (i, ev) =>
    if c.p 1 = 0 ∨ 256 ≤ c.p 1 then s.complete k 3 else (s.signal 0 i ev (c.p 1) 0xFFFF 0).complete k 0

/-- EVENT_SIGNAL (R368). -/
def execEventSignal (k : Nat) (s : State) : Host.Outcome State Fault Refusal := .next (s.command k 0x0301 (·.eventSignal k))

/-- EVENT_READ's start. -/
def State.eventRead (s : State) (k : Nat) (c : Taken) : State :=
  match s.counterOf c with
  | .error st => s.complete k st
  | .ok (i, ev) => s.complete k 0 0 [((s.score i).counter ev).toNat]

/-- EVENT_READ (R366). -/
def execEventRead (k : Nat) (s : State) : Host.Outcome State Fault Refusal := .next (s.command k 0x0302 (·.eventRead k))

/-- EVENT_NOTIFY's start. -/
def State.eventNotify (s : State) (k : Nat) (c : Taken) : State :=
  match s.counterOf c with
  | .error st => s.complete k st
  | .ok (i, ev) =>
    if 64 ≤ c.p 1 ∨ (c.p 1 ≠ 0 ∧ c.p 1 < 8) then s.complete k 3
    else
      let x := s.score i
      (s.setScore i { x with notify := Tab.set dZero x.notify (ev - 256) (BitVec.ofNat 6 (c.p 1)) }).complete k 0

/-- EVENT_NOTIFY (R368). -/
def execEventNotify (k : Nat) (s : State) : Host.Outcome State Fault Refusal := .next (s.command k 0x0303 (·.eventNotify k))

/-! ### Bay debug state (R65, R171, R258, R300) -/

/-- The strands of a bay that are between instructions halt. -/
def Bay.haltStrands (y : Bay) : Bay :=
  { y with strands := y.strands.map fun p => (p.1, if p.2.state.live then { p.2 with state := .halted } else p.2) }
/-- Halted strands go on: each fetches its next instruction, which gives it its state (`strandState`). -/
def Bay.freeStrands (y : Bay) (tick : Nat) : Bay :=
  { y with strands := y.strands.map fun p =>
      (p.1, if p.2.state = .halted then { p.2 with state := .ready, waitFrom := some tick } else p.2) }

/-- DEBUG_ENTER's start. A bay that rebinds makes the command wait. -/
def State.debugEnter (s : State) (k : Nat) (c : Taken) : State :=
  let b := c.p 0
  if 8 ≤ b then s.complete k 3
  else
    let st := s.bayState b
    if st = 4 then s
    else if st = 1 ∨ st = 2 ∨ st = 3 then
      ((s.modBay b fun y => { y.haltStrands with before := BitVec.ofNat 3 st }).setBayState b 5).complete k 0
    else s.complete k 5

/-- DEBUG_ENTER (R171, R364). -/
def execDebugEnter (k : Nat) (s : State) : Host.Outcome State Fault Refusal := .next (s.command k 0x0401 (·.debugEnter k))

/-- DEBUG_EXIT's start: the bay is running, bound or free again. -/
def State.debugExit (s : State) (k : Nat) (c : Taken) : State :=
  let b := c.p 0
  if 8 ≤ b then s.complete k 3
  else if s.bayState b ≠ 5 then s.complete k 5
  else
    let st := if (s.bay b).anyRun then 3 else if s.bayScore b = 0 then 1 else 2
    let s1 := ((s.leaveDebug b).modBay b fun y => y.freeStrands s.tick).setBayState b st
    s1.complete k 0 0 [s.fld (LOOP_RECAL.pend.on b)]

/-- DEBUG_EXIT (R171). -/
def execDebugExit (k : Nat) (s : State) : Host.Outcome State Fault Refusal := .next (s.command k 0x0402 (·.debugExit k))

end Sys2Proof.Machine
end

