-- ==== Sys2Proof/Machine/Heads.lean ====
section
/-! DEFINITION. How messages lie in flits: the header flit, the places of the blocks, and what is kept of a message that came in
part (R307, R312, R487). -/

namespace Sys2Proof.Machine

/-! ### The header flit (R307) -/

/-- The first four words of the header flit. -/
def headWords (m : Msg) : List Nat :=
  [m.type.toNat * 2 ^ 56 + m.dst.toNat * 2 ^ 44 + m.src.toNat * 2 ^ 32 + m.seq.toNat * 2 ^ 20
      + (if m.cls = .spare then 2 ^ 19 else 0) + (if m.rty then 2 ^ 18 else 0) + m.grp.toNat * 2 ^ 16 + m.nfl.toNat * 2 ^ 12
      + m.nblk.toNat * 2 ^ 6,
    m.tag.toNat * 2 ^ 32 + m.score.toNat * 2 ^ 16 + m.status.toNat * 2 ^ 8 + m.svc.toNat * 2 ^ 4,
    (if m.gddr then 2 ^ 63 else 0) + m.addr.toNat,
    (m.blocks.zipIdx.map fun x => if x.1.mark.isSome then 2 ^ x.2 else 0).sum]

/-- The reason codes: block i in the low half of byte i / 2 for even i, in its high half for odd i. -/
def headReasons (m : Msg) : List Byte :=
  let r := fun (i : Nat) => match m.blocks[i]? with
    | some ⟨_, some c⟩ => c.toNat
    | _ => 0
  (List.range 32).map fun k => BitVec.ofNat 8 (r (2 * k) + 16 * r (2 * k + 1))

/-- The first 64 bytes of a message's header flit, which a loss notice carries (R311). -/
def headBytes (m : Msg) : List Byte := (headWords m).flatMap (leBytes 8) ++ headReasons m

/-- The bytes of some blocks of a message, in a space of `n` blocks. -/
def blockBytes (n : Nat) (l : List Block) : List Byte := padTo (64 * n) 0 (l.flatMap fun b => padTo 64 0 b.data)

/-- The flits of a message: the header flit with blocks 0 to 2, and data flits of four blocks. -/
def msgFlits (m : Msg) : List (List Byte) :=
  (headBytes m ++ blockBytes 3 (m.blocks.take 3)) ::
    (List.range m.nfl.toNat).map fun k => blockBytes 4 ((m.blocks.drop (3 + 4 * k)).take 4)

/-- A word of a flit. -/
def flitWord (b : List Byte) (off : Nat) : Nat := leNat ((b.drop off).take 8)

/-- Where block i of a message lies: the flit, and the byte within it. -/
def blockPlace (i : Nat) : Nat × Nat := if i < 3 then (0, 0x40 + 64 * i) else ((i - 3) / 4 + 1, 64 * ((i - 3) % 4))

/-- The mark that a header gives block i. -/
def headMark (h : List Byte) (i : Nat) : Mark :=
  if inMask (flitWord h 0x18) i then
    let c := (h.getD (0x20 + i / 2) 0).toNat
    some (BitVec.ofNat 4 (if i % 2 = 0 then c else c / 16))
  else none

/-- A message from the first 64 bytes of its header and the flits that are there; the data of a flit that is not are
zeros (R307, R312). -/
def decodeMsg (h : List Byte) (fl : List (Option (List Byte))) : Msg :=
  let w0 := flitWord h 0
  let w1 := flitWord h 8
  let w2 := flitWord h 16
  let type := BitVec.ofNat 8 (bits w0 63 56)
  let carried := if type = 2 ∨ type = 7 then 0 else bits w0 11 6
  { type := type, dst := BitVec.ofNat 12 (bits w0 55 44), src := BitVec.ofNat 12 (bits w0 43 32)
    seq := BitVec.ofNat 12 (bits w0 31 20), cls := if inMask w0 19 then .spare else .assured, rty := inMask w0 18
    grp := BitVec.ofNat 2 (bits w0 17 16), nfl := BitVec.ofNat 4 (bits w0 15 12), nblk := BitVec.ofNat 6 (bits w0 11 6)
    tag := BitVec.ofNat 32 (bits w1 63 32), score := BitVec.ofNat 16 (bits w1 31 16), status := BitVec.ofNat 8 (bits w1 15 8)
    svc := BitVec.ofNat 4 (bits w1 7 4), gddr := inMask w2 63, addr := BitVec.ofNat 48 (bits w2 47 0)
    blocks := (List.range carried).map fun i =>
      let q := blockPlace i
      ⟨padTo 64 0 ((((fl.getD q.1 none).getD []).drop q.2).take 64), headMark h i⟩ }

/-- The flits of a message by its header. -/
def flitCount (h : List Byte) : Nat := 1 + bits (flitWord h 0) 15 12

/-- The sequence number in a header. -/
def headSeq (h : List Byte) : BitVec 12 := BitVec.ofNat 12 (bits (flitWord h 0) 31 20)

/-- What has come of a message: each of its flits as the first of its partial receptions that has it. -/
def FabGroup.kept (f : FabGroup) (seq : BitVec 12) (n : Nat) : List (Option (List Byte)) :=
  let l := f.frags.filter fun fl => match fl with
    | some h :: _ => headSeq h == seq
    | _ => false
  (List.range n).map fun k => l.findSome? fun fl => (fl[k]?).join

end Sys2Proof.Machine
end

