-- ==== Sys2Proof/Machine/Fabric.lean ====
section
/-! DEFINITION. Fabric ports, their training and their groups, partners and announcements, the election of the board
reference (R318 to R320, R323, R326 to R336, R338, R339). -/

namespace Sys2Proof.Machine

/-! ### Groups (R309, R312, R319, R320, R323, R324) -/

/-- Counts a message lost for good (R312). -/
def State.countLost (s : State) (p : Nat) : State := s.bump (FAB_RETRY.lost.on p)

/-- The place of a transfer in its queue. -/
def State.xferOf (s : State) (o : Outstanding) : Option Nat := (s.queue o.q).xfers.findIdx? fun x => x.key == o.key

/-- Adds to the blocks that a transfer has delivered. -/
def State.xferDone (s : State) (o : Outstanding) : State :=
  match s.xferOf o with
  | none => s
  | some i => match (s.queue o.q).xfers[i]? with
    | none => s
    | some x => s.putXfer o.q i { x with done := x.done + o.n }

/-- Delivers the blocks that a read request asked for; behind a block that the partner has refused they are zeros with its reason
(R202, R309). -/
def State.deliverRead (s : State) (o : Outstanding) (bs : List Block) : State :=
  match s.xferOf o with
  | none => s
  | some i => match (s.queue o.q).xfers[i]? with
    | none => s
    | some x =>
      let b := fun (k : Nat) => match x.refused with
        | some r => zeroBlock (some r)
        | none => bs.getD k (zeroBlock (some 13))
      let s1 := (List.range o.n).foldl (fun s k => s.deliverBlock o.q x (o.lin + k) (b k)) s
      s1.xferDone o

/-- Takes the read request of a tag out of those that wait. -/
def State.dropRead (s : State) (p g : Nat) (o : Outstanding) : State :=
  let f := s.group p g
  s.setGroup p g { f with reads := f.reads.erase o }
def State.dropWrite (s : State) (p g : Nat) (o : Outstanding) : State :=
  let f := s.group p g
  s.setGroup p g { f with writes := f.writes.erase o }

/-- The blocks of a read request that got lost arrive as zeros, marked with the fabric-loss reason (R312). -/
def State.readLost (s : State) (p g : Nat) (tag : BitVec 32) : State :=
  match (s.group p g).reads.find? (·.tag == tag) with
  | none => s
  | some o => ((((s.dropRead p g o).countMark 13 o.n).countLost p).deliverRead o [])

/-- A write whose completion got lost, or that could not be sent, is done (R312). -/
def State.writeLost (s : State) (p g : Nat) (tag : BitVec 32) : State :=
  match (s.group p g).writes.find? (·.tag == tag) with
  | none => s
  | some o => (s.dropWrite p g o).xferDone o

/-- What this node does for a message of its own that is lost before the partner has it (R312, R324). -/
def State.outLost (s : State) (p g : Nat) (m : Msg) : State :=
  if m.type = 2 then s.readLost p g m.tag
  else if m.type = 1 then (s.countLost p).writeLost p g m.tag
  else s.countLost p

/-- The state of a group by its lanes: up, degraded or down (R320). -/
def laneState (f : FabGroup) : BitVec 3 :=
  if f.rxl = 0 ∨ f.txl = 0 then 3 else if f.rxl = 15 ∧ f.txl = 15 then 1 else 2

/-- The assured claims of the score that holds a bound group. -/
def State.groupClaims (s : State) (p g : Nat) : List Nat :=
  let f := s.group p g
  if f.bound && f.cls == .assured then (s.score f.score).claims.map (·.1) else []

/-- A group on fewer lanes acts on the promises that use it as a degraded bay does (R232, R320). -/
def State.lanePromises (s : State) (p g : Nat) : State :=
  let f := s.group p g
  let n := min (popByte (f.rxl.zeroExtend 8)) (popByte (f.txl.zeroExtend 8))
  (s.score f.score).claims.foldl (fun s x =>
    if (s.groupClaims p g).contains x.1 then
      if Config.laneLatency ((s.score f.score).promise x.1).bound n ≤ x.2.latency then s.promiseRisk f.score x.1 8
      else s.promiseBreak f.score x.1 8
    else s) s

/-- LANE_CHANGE: the lane sets announced take effect. -/
def State.laneChange (s : State) (p g : Nat) : State :=
  let f := s.group p g
  if f.state ≠ 1 ∧ f.state ≠ 2 ∨ (f.newRx.isNone ∧ f.newTx.isNone) then s
  else
    let f1 := { f with rxl := f.newRx.getD f.rxl, txl := f.newTx.getD f.txl, newRx := none, newTx := none }
    let s1 := s.setGroup p g { f1 with state := laneState f1 }
    if laneState f1 = 1 then s1 else s1.lanePromises p g

/-- LANE_CHANGE (R320). -/
def execLaneChange (p : PortId) (g : GroupId) (s : State) : Host.Outcome State Fault Refusal :=
  .next (s.laneChange p.val g.val)

/-- A group at the end of training: 128 credits, sequence numbers and slot numbers from 0. What waits to be sent stays (R305,
R315). -/
def FabGroup.fresh (f : FabGroup) : FabGroup :=
  { f with cred := 128, txSeq := 0, rxSeq := 0, replay := [], resend := [], heads := [], held := [], arrived := [], line := []
           txSlot := 0, rxSlot := 0, rx := [], frags := [], notices := []
           nakOut := none, nakDue := false, owed := 0, newRx := none, newTx := none, bad := 0 }

/-- A write completion that got lost: the write is done (R312). -/
def State.completionLost (s : State) (p g : Nat) (tag : BitVec 32) : State :=
  ((s.bump (FAB_RETRY.cpl.on p)).countLost p).writeLost p g tag

/-- A message among others in the order of the sequence numbers behind `base`. -/
def insertMsg (base : BitVec 12) (m : Msg) : List Msg → List Msg
  | [] => [m]
  | x :: r => if (m.seq - base).toNat < (x.seq - base).toNat then m :: x :: r else x :: insertMsg base m r

/-- The blocks of a message lost for good: as many as its header says, its intact data and zeros, every block marked
with the fabric-loss reason (R312). -/
def lostBlocks (m : Msg) : List Block :=
  (List.range m.nblk.toNat).map fun k =>
    let b := m.blocks.getD k (zeroBlock none)
    if m.type = 3 then zeroBlock (some 13) else ⟨b.data, Mark.first b.mark (some 13)⟩

/-- The messages of a group that this node has received, in whole or in part, and not applied: those in order, those held behind
a lost one, and of others what has come with their header. -/
def FabGroup.unapplied (f : FabGroup) : List Msg :=
  let heads := (f.frags ++ [f.rx]).filterMap fun fl => match fl with
    | some h :: _ => some (decodeMsg h (f.kept (headSeq h) (flitCount h)))
    | _ => none
  f.arrived ++ (heads.foldl (fun l m => if l.any (·.seq == m.seq) then l else l ++ [m]) f.held).foldr (insertMsg f.rxSeq) []

/-- Messages that a retrain finds not applied are handled as lost for good: what carries data is applied with every block marked,
and nothing is answered (R312, R319). -/
def State.lostArrived (s : State) (p g : Nat) : State :=
  let f := s.group p g
  let l := f.unapplied.filter fun m => m.type == 1 || m.type == 4 || m.type == 5 || m.type == 6
  let fresh := (l.map fun m => ((List.range m.nblk.toNat).filter fun k => (m.blocks.getD k (zeroBlock none)).mark.isNone).length).sum
  let s1 := (s.bump (FAB_RETRY.lost.on p) l.length).countMark 13 fresh
  s1.setGroup p g { s1.group p g with arrived := l.map fun m => { m with status := 0, blocks := lostBlocks m } }

/-- What was sent and not applied, and what was to come in answer, is lost without a resend (R319, R324). -/
def State.groupLost (s : State) (p g : Nat) : State :=
  let f := s.group p g
  let s1 := f.reads.foldl (fun s o => s.readLost p g o.tag) s
  let s2 := f.writes.foldl (fun s o => s.completionLost p g o.tag) s1
  let s3 := ((f.replay ++ f.heads).filter fun m => m.type != 1 && m.type != 2).foldl (fun s _ => s.countLost p) s2
  s3.setGroup p g { s3.group p g with replay := [], resend := [], heads := [], held := [], rx := [], frags := [], nakOut := none, nakDue := false }

/-- GROUP_RETRAIN: too many pairs were not decoded, or alignment was lost; the group retrains and returns. -/
def State.groupRetrain (s : State) (p g : Nat) (done : Bool) : State :=
  let f := s.group p g
  if done then
    if f.state = 4 then
      let x := { f.fresh with arrived := f.arrived }
      s.setGroup p g { x with state := if f.bound && f.pend then 3 else laneState f }
    else s
  else if f.state = 1 ∨ f.state = 2 then
    let s1 := (s.lostArrived p g).groupLost p g
    s1.setGroup p g { s1.group p g with state := 4 }
  else s

/-- GROUP_RETRAIN (R319). -/
def execGroupRetrain (p : PortId) (g : GroupId) (done : Bool) (s : State) : Host.Outcome State Fault Refusal :=
  .next (s.groupRetrain p.val g.val done)

/-- GROUP_FILTER_RETURN: the group's filter has been in band for 1,000 samples and its heater is not forced. -/
def State.filterReturn (s : State) (p g : Nat) : State :=
  let f := s.group p g
  let L := s.loopOf 8 (4 * p + g)
  if f.state = 3 ∧ L.mode = .track ∧ 1000 ≤ L.inBand ∧ !s.isForced (4864 + 4 * p + g) ∧
      s.fld (FAB_PORT_STAT.state.on p) = 3 ∧ !(f.bound && f.pend) then
    s.setGroup p g { f with state := laneState f }
  else s

/-- GROUP_FILTER_RETURN (R323). -/
def execGroupFilterReturn (p : PortId) (g : GroupId) (s : State) : Host.Outcome State Fault Refusal :=
  .next (s.filterReturn p.val g.val)

/-! ### The partner table (R328 to R330) -/

/-- Ports of this module that are up. -/
def State.portUp (s : State) (p : Nat) : Bool := s.fld (FAB_PORT_STAT.state.on p) == 3
def State.upPorts (s : State) : List Nat := (List.range 16).filter s.portUp
def State.farId (s : State) (p : Nat) : BitVec 12 := BitVec.ofNat 12 (s.fld (FAB_PORT_STAT.fid.on p))
/-- Whether the module takes part with its ID (R326, R330). -/
def State.takesPart (s : State) : Bool := s.flag FAB_PID.asg && !s.flag FAB_PID.dup

/-- The entry of an ID, present or gone. -/
def State.entryOf (s : State) (id : BitVec 12) : Option Nat :=
  (List.range 128).find? fun n => ((s.partner n).present || (s.partner n).gone) && (s.partner n).id == id
def State.emptyEntry (s : State) : Option Nat :=
  (List.range 128).find? fun n => !(s.partner n).present && !(s.partner n).gone

/-- The nodes at the far ends of a node's announced ports; for this module, of its up ports. -/
def State.neighbours (s : State) (id : BitVec 12) : List (BitVec 12) :=
  if id = s.ownId then s.upPorts.map s.farId
  else match s.entryOf id with
    | some n => if (s.partner n).present then (s.partner n).ports.map (·.2.1) else []
    | none => []

/-- Nodes by links from a start, level by level: those of the last level and all seen, with their distance. -/
def State.spread (s : State) : Nat → Nat → List (BitVec 12) → List (BitVec 12 × Nat) → List (BitVec 12 × Nat)
  | 0, _, _, seen => seen
  | n + 1, d, front, seen =>
    let next := ((front.flatMap s.neighbours).filter fun x => !seen.any (·.1 == x)).eraseDups
    if next.isEmpty then seen else s.spread n (d + 1) next (seen ++ next.map fun x => (x, d + 1))

/-- The fewest links from one node to another along the port lists; `none` where there is no path. -/
def State.distance (s : State) (a b : BitVec 12) : Option Nat :=
  ((s.spread 128 0 [a] [(a, 0)]).find? (·.1 == b)).map (·.2)

/-- Hops as a 3-bit field: 7 unknown. -/
def hopField : Option Nat → Nat
  | some n => min n 7
  | none => 7

/-- A partner event: join 4, leave 5, duplicate 6, with vector 4 (R332, R347, R453). -/
def State.partnerEvent (s : State) (code : Nat) (id : BitVec 12) : State :=
  if id = s.ownId then s else ((s.bump FAB_PT_STAT.chg).raise { cls := 8, code := code, unit := id.toNat }).sendMsix 4

/-- The bound groups of a partner that is gone go down until it rejoins, and every assured promise that uses them breaks
(R332). -/
def State.partnerGone (s : State) (id : BitVec 12) : State :=
  (List.range 64).foldl (fun s n =>
    let p := n / 4
    let g := n % 4
    let f := s.group p g
    if f.bound ∧ f.partner = id then
      let s1 := s.setGroup p g { f with pend := true, state := if f.state = 0 then 0 else 3 }
      (s1.groupClaims p g).foldl (fun s k => s.promiseBreak f.score k 0) s1
    else s) s

/-- An entry becomes gone. A duplicate ID of which one node is left is that node's again. -/
def State.entryGone (s : State) (n : Nat) : State :=
  let e := s.partner n
  if !e.present then s
  else ((s.setPartner n { e with present := false, gone := true, dup := false, hops := 7 }).partnerEvent 5 e.id).partnerGone e.id

/-- Hop counts anew; an entry to which no path remains becomes gone (R329). -/
def State.refreshHops (s : State) : State :=
  let d := s.spread 128 0 [s.ownId] [(s.ownId, 0)]
  (List.range 128).foldl (fun s n =>
    let e := s.partner n
    if !e.present then s
    else
      let h := hopField ((d.find? (·.1 == e.id)).map (·.2))
      if h = 7 ∧ e.hops ≠ 7 ∧ !d.any (·.1 == e.id) then s.entryGone n else s.setPartner n { e with hops := h }) s

/-! ### The board reference (R333 to R336) -/

/-- The candidates: present, not duplicate, oscillator locked; this module among them while it takes part. -/
def State.candidates (s : State) : List (BitVec 12) :=
  ((List.range 128).filter fun n => let e := s.partner n
      e.present && !e.dup && e.cand && e.id != s.ownId).map (fun n => (s.partner n).id) ++
    (if s.takesPart && s.xoLocked then [s.ownId] else [])

/-- The candidate with the lowest ID. -/
def State.elected (s : State) : Option (BitVec 12) :=
  s.candidates.foldl (fun m x => match m with
    | some y => if x < y then some x else some y
    | none => some x) none

/-- The up port whose far node has the fewest hops to a node, the lowest port among equals, with the module's hops. -/
def State.bestPort (s : State) (rid : BitVec 12) : Option (Nat × Nat) :=
  s.upPorts.foldl (fun m p => match s.distance (s.farId p) rid with
    | some d => match m with
      | some (_, e) => if d + 1 < e then some (p, d + 1) else m
      | none => some (p, d + 1)
    | none => m) none

/-- Whether a bound assured group's two ends follow the same elected reference. -/
def State.sharesRef (s : State) (p g : Nat) : Bool :=
  match (s.group p g).helloOf with
  | some h => s.flag FAB_REF.lock && h.refId.toNat == s.fld FAB_REF.rid
  | none => true

/-- Promises over a group whose ends stop sharing a reference become at risk (R336). -/
def State.refPromises (s : State) : State :=
  (List.range 64).foldl (fun s n =>
    if s.sharesRef (n / 4) (n % 4) then s
    else (s.groupClaims (n / 4) (n % 4)).foldl (fun s k => s.promiseRisk (s.group (n / 4) (n % 4)).score k 0) s) s

/-- The selector on an input: 1 the recovered clock of a port, 2 the on-module oscillator (R379). -/
def State.selectRef (s : State) (sel port : Nat) : State :=
  let s1 := if s.fld CLK_REF_STAT.sel = sel ∧ (sel ≠ 1 ∨ s.fld CLK_REF_STAT.port = port) ∧ !s.flag CLK_REF_STAT.hold then s
    else s.switchLast false 31 (s.fld CLK_REF_STAT.sel) sel
      (if s.flag CLK_REF_STAT.hold then s.tick - s.clk.holdTick else 0)
  let s2 := ((s1.setFld CLK_REF_STAT.sel sel).setFlag CLK_REF_STAT.hold false).setFlag CLK_REF_STAT.lock true
  if sel = 1 then s2.setFld CLK_REF_STAT.port port else s2

/-- FAB_REF as an election leaves it; the first one with the lock set gives FAB_START.cnv. -/
def State.setRef (s : State) (lock self : Bool) (hops port rid : Nat) : State :=
  let s1 := (((s.setFlag FAB_REF.lock lock).setFlag FAB_REF.hold false).setFlag FAB_REF.self self).setFld FAB_REF.hops hops
  let s2 := (s1.setFld FAB_REF.port port).setFld FAB_REF.rid rid
  if lock ∧ s.fld FAB_START.cnv = 0 then s2.setSat FAB_START.cnv (s.tick / 1000) else s2

/-- The module on its own oscillator, if that runs. -/
def State.ownOscillator (s : State) : State := if s.clk.xoOn.isSome then s.selectRef 2 0 else s

/-- Elects the reference from the table and follows it. -/
def State.elect (s : State) : State :=
  if s.flag CLK_REF_STAT.lost then s
  else
    let s1 := if !s.takesPart then s.ownOscillator.setRef false false 7 0 0
      else match s.elected with
        | none => s.ownOscillator.setRef false false 7 0 0
        | some r =>
          if r = s.ownId then s.ownOscillator.setRef true true 0 0 r.toNat
          else match s.bestPort r with
            | some (p, h) =>
              if h ≤ 3 then (s.selectRef 1 p).setRef true false h p r.toNat
              else s.ownOscillator.setRef false false (min h 7) p r.toNat
            | none => s.ownOscillator.setRef false false 7 0 r.toNat
    s1.refPromises

/-- Whether the reference followed is still there: its port up, its node a candidate. -/
def State.refHeld (s : State) : Bool :=
  s.fld CLK_REF_STAT.sel != 1 ||
    (s.portUp (s.fld CLK_REF_STAT.port) && s.candidates.any fun r => r.toNat == s.fld FAB_REF.rid)

/-- The reference is held while the module elects again (R335). -/
def State.holdRef (s : State) : State :=
  let s1 := ((s.setFlag CLK_REF_STAT.hold true).setFlag CLK_REF_STAT.lock false).setFlag FAB_REF.hold true
  { s1.setFlag FAB_REF.lock false with clk := { s1.clk with holdTick := s.tick } }

/-- What follows a change of the table or of a port: a reference that is gone is held; otherwise the table's election
stands. -/
def State.followTable (s : State) : State :=
  let s1 := s.refreshHops
  if s1.flag CLK_REF_STAT.hold ∨ s1.flag CLK_REF_STAT.lost then s1
  else if !s1.refHeld then s1.holdRef
  else s1.elect

/-- REFERENCE_REELECTION: within the 100 ms of holdover the module elects again; with no candidate it moves to its own
oscillator at their end. -/
def State.reelect (s : State) : State :=
  if !s.flag CLK_REF_STAT.hold ∨ s.flag CLK_REF_STAT.lost then s
  else if s.elected.isSome ∨ s.clk.holdTick + 100000 ≤ s.tick then s.elect
  else s

/-- REFERENCE_REELECTION (R335). -/
def execReferenceReelection (s : State) : Host.Outcome State Fault Refusal := .next s.reelect

/-! ### Announcements (R328 to R332) -/

/-- The own port list: up ports with the far node and the far port. -/
def State.ownPorts (s : State) : List (Nat × BitVec 12 × Nat) :=
  s.upPorts.map fun p => (p, s.farId p, s.fld (FAB_PORT_STAT.fport.on p))

/-- Sends an announcement on some ports. -/
def State.floodOn (s : State) (l : List Nat) (a : Announcement) : State :=
  { s with fab := { s.fab with flooded := s.fab.flooded ++ l.map fun p => (p, a) } }

/-- The own entry of the table. -/
def State.ownEntry (s : State) (a : Announcement) : State :=
  match (s.entryOf a.id).orElse fun _ => s.emptyEntry with
  | none => s
  | some n =>
    let e := s.partner n
    s.setPartner n { e with present := true, gone := false, bridge := false, cand := a.cand, hops := 0, id := a.id, anum := a.anum
                            serial := a.serial, ports := a.ports, heard := s.tick }

/-- Floods the module's own announcement with the next number. -/
def State.announce (s : State) : State :=
  if !s.flag FAB_PID.asg ∨ s.upPorts.isEmpty then s
  else
    let a : Announcement := ⟨s.ownId, Config.fuseSerial, false, s.xoLocked, s.fab.anum + 1, s.ownPorts⟩
    let s1 : State := { s with fab := { s.fab with anum := s.fab.anum + 1, lastAnn := (s.ownPorts, s.xoLocked), annTick := s.tick } }
    (s1.ownEntry a).floodOn s.upPorts a

/-- A change of the up ports or of the reference state is announced at once, and the election follows it. -/
def State.announceChange (s : State) : State := if (s.ownPorts, s.xoLocked) = s.fab.lastAnn then s else s.announce

/-- ANNOUNCEMENT_TIMER: every 100 ms, and when the oscillator has become or ceased to be a candidate. -/
def State.announcementTimer (s : State) : State :=
  if s.fab.annTick + 100000 ≤ s.tick then s.announce
  else if s.xoLocked = s.fab.lastAnn.2 then s
  else s.announceChange.followTable

/-- ANNOUNCEMENT_TIMER (R328). -/
def execAnnouncementTimer (s : State) : Host.Outcome State Fault Refusal := .next s.announcementTimer

/-- TEMPERATURE_CORRECTION (R392): the oscillator's may make it a candidate (R380, R328). -/
def execTemperatureCorrection (i : CorrItem) (v : BitVec 16) (broken : Bool) (s : State) : Host.Outcome State Fault Refusal :=
  let s1 := s.correct i v.toInt broken
  .next (if s1.xoLocked = s.xoLocked then s1 else s1.announceChange.followTable)

/-- Announcement numbers are compared modulo 2^16. -/
def newer (a b : BitVec 16) : Bool := a != b && (a - b).toNat < 32768

/-- Enters an announcement at entry `n` as that of its node. -/
def State.enter (s : State) (n : Nat) (a : Announcement) : State :=
  let e := s.partner n
  s.setPartner n { e with present := true, gone := false, bridge := a.bridge, cand := a.cand, id := a.id, anum := a.anum
                          serial := a.serial, ports := a.ports, heard := s.tick, hops := if e.present then e.hops else 7 }

/-- The ID of an entry belongs to two nodes. -/
def State.markDup (s : State) (n : Nat) (a : Announcement) : State :=
  let e := s.partner n
  let s1 := s.setPartner n { e with dup := true, other := a.serial, otherHeard := s.tick }
  if e.dup then s1
  else
    let s2 := s1.partnerEvent 6 a.id
    if a.id = s.ownId then (s2.setFlag FAB_PID.dup true).raise { cls := 8, code := 2 } else s2

/-- Forwards an announcement on every up port but the one it came by. -/
def State.forward (s : State) (p : Nat) (a : Announcement) : State := s.floodOn (s.upPorts.filter (· != p)) a

/-- NODE_ANNOUNCEMENT: entered and forwarded if its number is higher than the one held; an ID with a second serial is a
duplicate; a node beyond 128 is not entered. -/
def State.nodeAnnouncement (s : State) (p : Nat) (a : Announcement) : State :=
  if !s.portUp p then s
  else if a.id = s.ownId ∧ s.flag FAB_PID.asg ∧ (s.entryOf a.id).isNone then
    if a.serial = Config.fuseSerial then s
    else
      let own : Announcement := ⟨s.ownId, Config.fuseSerial, false, s.xoLocked, s.fab.anum, s.ownPorts⟩
      let s1 := s.ownEntry own
      match s1.entryOf a.id with
      | some n => ((s1.markDup n a).forward p a).followTable
      | none => s1
  else match s.entryOf a.id with
    | some n =>
      let e := s.partner n
      if e.present ∧ e.serial ≠ a.serial then
        (if e.dup ∧ e.other = a.serial then (s.setPartner n { e with otherHeard := s.tick }).forward p a
         else (s.markDup n a).forward p a).followTable
      else if e.present ∧ !newer a.anum e.anum then s
      else
        let s1 := (s.enter n a).forward p a
        (if e.present then s1 else s1.partnerEvent 4 a.id).followTable
    | none => match s.emptyEntry with
      | some n => (((s.enter n a).forward p a).partnerEvent 4 a.id).followTable
      | none => (if s.flag FAB_PT_STAT.full then s else s.setFlag FAB_PT_STAT.full true).raise { cls := 8, code := 3 }

/-- NODE_ANNOUNCEMENT (R328, R330). -/
def execNodeAnnouncement (p : PortId) (a : Announcement) (s : State) : Host.Outcome State Fault Refusal :=
  .next (s.nodeAnnouncement p.val a)

/-- LEAVE_ANNOUNCEMENT: the entry is gone at once. -/
def State.leaveFrom (s : State) (id : BitVec 12) : State :=
  if id = s.ownId then s
  else match s.entryOf id with
    | some n => if (s.partner n).present then (s.entryGone n).followTable else s
    | none => s

/-- LEAVE_ANNOUNCEMENT (R329). -/
def execLeaveAnnouncement (id : BitVec 12) (s : State) : Host.Outcome State Fault Refusal := .next (s.leaveFrom id)

/-- The duplicate mark of an entry clears when one of its two nodes is gone; the other one stays (R330). -/
def State.clearDup (s : State) (n : Nat) (serial : BitVec 64) (heard : Nat) : State :=
  let e := s.partner n
  let s1 := s.setPartner n { e with dup := false, serial := serial, heard := heard, other := 0, otherHeard := 0 }
  if e.id = s.ownId then s1.setFlag FAB_PID.dup false else s1

/-- PARTNER_ENTRY_TIMEOUT: 350 ms without a new announcement. -/
def State.entryTimeout (s : State) (id : BitVec 12) : State :=
  match s.entryOf id with
  | none => s
  | some n =>
    let e := s.partner n
    if !e.present then s
    else if e.dup ∧ e.otherHeard + 350000 ≤ s.tick then (s.clearDup n e.serial e.heard).followTable
    else if e.heard + 350000 ≤ s.tick then
      (if e.dup then s.clearDup n e.other e.otherHeard else s.entryGone n).followTable
    else s

/-- PARTNER_ENTRY_TIMEOUT (R329). -/
def execPartnerEntryTimeout (id : BitVec 12) (s : State) : Host.Outcome State Fault Refusal := .next (s.entryTimeout id)

/-- PARTNER_REJOIN: the partner of bound groups is present again with its serial on their port; a group whose reservation
the partner accepts comes up, one that it declines stays down. -/
def State.rejoin (s : State) (id : BitVec 12) (accepted : Bool) : State :=
  match s.entryOf id with
  | none => s
  | some n =>
    let e := s.partner n
    if !e.present ∨ e.dup ∨ !accepted then s
    else (List.range 64).foldl (fun s k =>
      let f := s.group (k / 4) (k % 4)
      if f.bound ∧ f.pend ∧ f.partner = id ∧ f.serial = e.serial ∧ s.portUp (k / 4) ∧ s.farId (k / 4) = id then
        s.setGroup (k / 4) (k % 4) { f with pend := false, state := laneState f }
      else s) s

/-- PARTNER_REJOIN (R332). -/
def execPartnerRejoin (id : BitVec 12) (accepted : Bool) (s : State) : Host.Outcome State Fault Refusal :=
  .next (s.rejoin id accepted)

/-! ### Ports (R318, R323, R327, R339) -/

/-- Groups of a port in a state. -/
def State.setGroups (s : State) (p : Nat) (f : FabGroup → FabGroup) : State :=
  (List.range 4).foldl (fun s g => s.setGroup p g (f (s.group p g))) s

/-- A port may emit and train: not disabled, not held dark by the Guard. -/
def State.portEnabled (s : State) (p : Nat) : Bool := !s.flag (FAB_PORT_CTL.dis.on p) && !s.flag GUARD_STAT.elock

def State.setPortState (s : State) (p st : Nat) : State := s.setFld (FAB_PORT_STAT.state.on p) st

/-- A training of a port starts. -/
def State.startTraining (s : State) (p : Nat) : State :=
  let s1 := s.setGroups p fun f => { f with state := 4, helloOf := none }
  (s1.setPortState p 2).bump (FAB_TRAIN.count.on p)

/-- A port that leaves service: no far end, every group in the state given; the table and the reference follow. -/
def State.portLeaves (s : State) (p st : Nat) (gs : BitVec 3) : State :=
  let s0 := (List.range 4).foldl (fun s g => s.groupLost p g) s
  let s1 := s0.setGroups p fun f => { f with state := gs, helloOf := none }
  let s2 := ((s1.setPortState p st).setFld (FAB_PORT_STAT.fid.on p) 0).setFld (FAB_PORT_STAT.fport.on p) 0
  let s3 := s2.setDom (7 + p) { s2.dom (7 + p) with run := false, pll := false }
  s3.followTable.announceChange

/-- A port whose groups are all down after a Guard fault or CLR_TRIM_N retrains once its fabric comb is back in TRACK (R323). -/
def State.allDown (s : State) (p : Nat) : Bool :=
  ((List.range 4).all fun g => (s.group p g).state == 3 || (s.group p g).state == 0) &&
    (List.range 3).any fun c => s.combWorks 8 c && (s.comb 8 c).pos.toNat == p / 8 && (s.loopOf 9 (tuneSlot 8 c)).mode == .track

/-- A training has ended: its steps 1 to 4 succeeded, or one of its five failed; after the third failure the port is
down. -/
def State.training (s : State) (p : Nat) (failed : Option Nat) (ms : Nat) : State :=
  let st := s.fld (FAB_PORT_STAT.state.on p)
  if !s.portEnabled p ∨ !(st = 2 ∨ ((st = 3) ∧ s.allDown p)) then s
  else
    let s0 := if st = 2 then s else (s.portLeaves p 2 4).startTraining p
    match failed with
    | none =>
      let s1 := s0.setPort p { s0.port p with fails := 0 }
      let s2 := s1.setGroups p fun f => { f.fresh with state := 4, rxl := 15, txl := 15, helloOf := none }
      (s2.setFlag (FAB_PORT_STAT.light.on p) true).setFld (FAB_TRAIN.ms.on p) ms
    | some k =>
      let n := (s0.port p).fails + 1
      let s1 := (s0.setFld (FAB_TRAIN.fstep.on p) (k + 1)).setPort p { s0.port p with fails := if 3 ≤ n then 0 else n }
      if 3 ≤ n then ((s1.setGroups p fun f => { f with state := 3 }).setPortState p 5).raise
        { cls := 8, code := 1, unit := p, arg0 := k + 1 }
      else s1.startTraining p

/-- PORT_TRAINING (R318). -/
def execPortTraining (p : PortId) (failedStep : Option (Fin 5)) (ms : Byte) (s : State) :
    Host.Outcome State Fault Refusal := .next (s.training p.val (failedStep.map (·.val)) ms.toNat)

/-- PORT_IDLE_RETRY: an idle port trains again; without light it stays idle. -/
def State.idleRetry (s : State) (p : Nat) (light : Bool) : State :=
  if !s.portEnabled p ∨ s.fld (FAB_PORT_STAT.state.on p) ≠ 1 then s
  else if light then (s.setFlag (FAB_PORT_STAT.light.on p) true).startTraining p
  else s.bump (FAB_TRAIN.count.on p)

/-- PORT_IDLE_RETRY (R318). -/
def execPortIdleRetry (p : PortId) (light : Bool) (s : State) : Host.Outcome State Fault Refusal :=
  .next (s.idleRetry p.val light)

/-- NO_LIGHT_RECEIVED: the port is idle, and a reference that came by it has stopped. -/
def State.noLight (s : State) (p : Nat) : State :=
  let st := s.fld (FAB_PORT_STAT.state.on p)
  if st = 0 ∨ st = 1 ∨ st = 5 then s.setFlag (FAB_PORT_STAT.light.on p) false
  else
    let s1 := if s.fld CLK_REF_STAT.sel = 1 ∧ s.fld CLK_REF_STAT.port = p then s.inputStopped else s
    (s1.setFlag (FAB_PORT_STAT.light.on p) false).portLeaves p 1 3

/-- NO_LIGHT_RECEIVED (R318). -/
def execNoLightReceived (p : PortId) (s : State) : Host.Outcome State Fault Refusal := .next (s.noLight p.val)

/-- Hellos agree: the same node, kind and port. -/
def helloAgrees (a b : Hello) : Bool := a.id == b.id && a.serial == b.serial && a.bridge == b.bridge && a.port == b.port

/-- A port comes up. A bound group whose partner is not the node of its binding, or has yet to accept again, stays
down (R332). -/
def State.portComesUp (s : State) (p : Nat) (h : Hello) : State :=
  let s1 := s.setGroups p fun f =>
    let g := { f.fresh with rxl := 15, txl := 15, arrived := f.arrived }
    { g with state := if f.bound && (f.pend || f.partner != h.id || f.serial != h.serial) then 3 else 1 }
  let s2 := ((s1.setPortState p 3).setFld (FAB_PORT_STAT.fid.on p) h.id.toNat).setFld (FAB_PORT_STAT.fport.on p) h.port.toNat
  let s3 := s2.setDom (7 + p) ⟨true, true, 2, false, 0, (s2.dom (7 + p)).share, (s2.dom (7 + p)).flt⟩
  let s4 := if s.bitOf GLB_PUP.steps 7 then s3 else s3.setSat FAB_START.trn (s.tick / 1000)
  s4.announceChange.followTable

/-- HELLO: kept; a training port comes up once the hellos of its four groups agree. -/
def State.hello (s : State) (p g : Nat) (h : Hello) : State :=
  let st := s.fld (FAB_PORT_STAT.state.on p)
  let f := s.group p g
  if (st ≠ 2 ∧ st ≠ 3) ∨ f.state = 0 ∨ f.state = 3 ∨ f.rxl = 0 then s
  else
    let s1 := s.setGroup p g { f with helloOf := some h }
    if st = 3 then s1.refPromises
    else if (List.range 4).all fun k => match (s1.group p k).helloOf with
        | some x => helloAgrees x h
        | none => false then s1.portComesUp p h
    else s1

/-- HELLO (R327). -/
def execHello (p : PortId) (g : GroupId) (h : Hello) (s : State) : Host.Outcome State Fault Refusal :=
  .next (s.hello p.val g.val h)

/-- No group of a port is bound (R339). -/
def State.portUnbound (s : State) (p : Nat) : Bool := (List.range 4).all fun g => !(s.group p g).bound

/-- RETRAIN: the training of the port starts anew. -/
def State.retrain (s : State) (p : Nat) : State :=
  if !s.portUnbound p ∨ !s.portEnabled p then s
  else
    let s1 := s.portLeaves p 2 4
    let s2 := s1.setPort p { s1.port p with fails := 0 }
    (s2.setGroups p FabGroup.fresh).startTraining p

/-- RETRAIN (R339). -/
def execRetrain (p : PortId) (s : State) : Host.Outcome State Fault Refusal := .next (s.retrain p.val)

/-- PORT_DISABLE: the port goes off, or trains. -/
def State.portDisable (s : State) (p : Nat) (dis : Bool) : State :=
  if !s.portUnbound p then s
  else
    let s1 := s.setFlag (FAB_PORT_CTL.dis.on p) dis
    if dis = s.flag (FAB_PORT_CTL.dis.on p) then s
    else if dis then s1.portLeaves p 0 0
    else if s1.portEnabled p then s1.startTraining p
    else s1

/-- PORT_DISABLE (R339). -/
def execPortDisable (p : PortId) (dis : Bool) (s : State) : Host.Outcome State Fault Refusal :=
  .next (s.portDisable p.val dis)

/-! ### The emission lock (R318, R445) -/

/-- EMISSION_LOCK_RELEASE: with a verified image running and both working fabric combs in TRACK. The ports that the lock
held dark train. -/
def State.lockRelease (s : State) : State :=
  if s.flag GUARD_STAT.elock && s.flag SEC_BOOT.ver && (s.loopOf 9 40).mode == .track && (s.loopOf 9 41).mode == .track then
    let s1 := s.setFlag GUARD_STAT.elock false
    (List.range 16).foldl (fun s p =>
      if s.portEnabled p && s.fld (FAB_PORT_STAT.state.on p) == 0 then s.startTraining p else s) s1
  else s

/-- EMISSION_LOCK_RELEASE (R445). -/
def execEmissionLockRelease (s : State) : Host.Outcome State Fault Refusal := .next s.lockRelease

/-- EMISSION_LOCK_SET: at any time; every port goes off. -/
def State.lockSet (s : State) : State :=
  let s1 := s.setFlag GUARD_STAT.elock true
  (List.range 16).foldl (fun s p => if s.fld (FAB_PORT_STAT.state.on p) = 0 then s else s.portLeaves p 0 0) s1

/-- EMISSION_LOCK_SET (R445). -/
def execEmissionLockSet (s : State) : Host.Outcome State Fault Refusal := .next s.lockSet

end Sys2Proof.Machine
end

