-- ==== Sys2Proof/Machine/Flits.lean ====
section
/-! DEFINITION. How flits leave in codeword pairs: the block header, the numbered slots (R304 to R306). -/

namespace Sys2Proof.Machine

/-! ### The block header (R306) -/

/-- The block header of the next pair that this node sends on a group: what it has received, what it asks for again, the
credits that it returns, the lanes that it receives on. -/
def FabGroup.header (f : FabGroup) : BitVec 40 :=
  BitVec.ofNat 40 (f.rxSeq.toNat * 2 ^ 28 + (if f.nakDue then 2 ^ 27 else 0) + min f.owed 127 * 2 ^ 20
    + (f.newRx.getD f.rxl).toNat * 2 ^ 16)

def pairAck (w : Pair) : BitVec 12 := w.header.extractLsb' 28 12
def pairNak (w : Pair) : Bool := w.header.getLsbD 27
def pairCred (w : Pair) : Nat := (w.header.extractLsb' 20 7).toNat
def pairLs (w : Pair) : BitVec 4 := w.header.extractLsb' 16 4

/-! ### Slots and pairs (R304, R305, R327) -/

/-- The hello that this node sends in every link-control slot of a port (R327). -/
def State.ownHello (s : State) (p : Nat) : Hello :=
  ⟨BitVec.ofNat 12 (if s.flag FAB_PID.asg then s.fld FAB_PID.id else 0), Config.fuseSerial, false, BitVec.ofNat 4 p,
    BitVec.ofNat 12 (if s.flag FAB_REF.lock then s.fld FAB_REF.rid else 0)⟩

/-- The five slots of a pair from slot number `n` on: link control in slot 63, else the flits that wait, else idle flits; with the
flits that are left. -/
def fillPair (h : Hello) : Nat → BitVec 6 → List Flit → List Flit × List Flit
  | 0, _, q => ([], q)
  | k + 1, n, q =>
    if n = 63 then let r := fillPair h k (n + 1) q; (.control (.hello h) :: r.1, r.2)
    else match q with
      | x :: t => let r := fillPair h k (n + 1) t; (x :: r.1, r.2)
      | [] => let r := fillPair h k (n + 1) []; (.idle :: r.1, r.2)

/-- Sends one codeword pair on a group: its slots are numbered on, credits and a nak leave in its header. -/
def FabGroup.sendPair (f : FabGroup) (h : Hello) (q : List Flit) : FabGroup × List Flit :=
  let r := fillPair h 5 f.txSlot q
  ({ f with line := f.line ++ [⟨f.header, r.1⟩], txSlot := f.txSlot + 5, owed := f.owed - min f.owed 127, nakDue := false }, r.2)

/-- Sends flits in as many pairs as they need, at least one; the last is filled up with idle flits (DESIGN CHOICE, log 143). -/
def FabGroup.sendFlits (h : Hello) : Nat → FabGroup → List Flit → FabGroup
  | 0, f, _ => f
  | k + 1, f, q =>
    let r := f.sendPair h q
    if r.2.isEmpty then r.1 else FabGroup.sendFlits h k r.1 r.2

/-- The message flits of a message, as the line takes them. -/
def lineFlits (m : Msg) : List Flit := match msgFlits m with
  | x :: r => .head x :: r.map .data
  | [] => []

end Sys2Proof.Machine
end

