-- ==== Sys2Proof/Machine/Messages.lean ====
section
/-! DEFINITION. Messages on a wavelength group: sending, codeword pairs, retries, what an arriving message does, services (R120,
R199, R228 to R231, R304 to R317, R324). -/

namespace Sys2Proof.Machine

/-! ### Sending (R310, R315, R324) -/

/-- What a group that is down does for the next message that would travel on it, sent by this node or by its partner. -/
def State.downLost (s : State) (p g : Nat) : State :=
  let f := s.group p g
  match f.out with
  | m :: r => (s.setGroup p g { f with out := r }).outLost p g m
  | [] => match f.reads with
    | o :: _ => s.readLost p g o.tag
    | [] => match f.writes with
      | o :: _ => s.completionLost p g o.tag
      | [] => s

/-- MESSAGE_SEND: loss notices first, then resent copies, then the next message for which credits and the replay buffer have
room; with none of them an idle pair, whose header returns the credits owed. A spare group keeps no message, only the header
that a loss notice needs (R310, R314, R315). -/
def State.messageSend (s : State) (p g : Nat) : State :=
  let f := s.group p g
  let put := fun (f : FabGroup) (q : List Flit) => s.setGroup p g (FabGroup.sendFlits (s.ownHello p) (q.length + 1) f q)
  if !f.carries then s.downLost p g
  else match f.notices, f.resend, f.out with
    | m :: r, _, _ => put { f with notices := r } [.control (.loss (headBytes m))]
    | [], m :: r, _ => put { f with resend := r } (lineFlits m)
    | [], [], [] => put f []
    | [], [], m :: r =>
      let n := 1 + m.nfl.toNat
      if f.cred < n ∨ (f.cls = .assured ∧ 8 ≤ f.replay.length) then put f []
      else
        let m1 : Msg := { m with seq := f.txSeq + 1, src := s.ownId, cls := f.cls, rty := false, grp := BitVec.ofNat 2 g }
        let f1 := { f with out := r, cred := f.cred - n, txSeq := f.txSeq + 1 }
        put (if f.cls = .assured then { f1 with replay := f.replay ++ [m1] }
          else { f1 with heads := f.heads ++ [{ m1 with blocks := m1.blocks.map fun b => ⟨[], b.mark⟩ }] }) (lineFlits m1)

/-- MESSAGE_SEND (R315). -/
def execMessageSend (p : PortId) (g : GroupId) (s : State) : Host.Outcome State Fault Refusal :=
  .next (s.messageSend p.val g.val)

/-- One idle pair in place of a group's next one: no flit, credit or nak leaves in it, and the slots are numbered on (R322;
DESIGN CHOICE, log 151). -/
def FabGroup.sendIdle (f : FabGroup) : FabGroup :=
  { f with line := f.line ++ [⟨{ f with owed := 0, nakDue := false : FabGroup }.header, List.replicate 5 .idle⟩], txSlot := f.txSlot + 5 }

/-- FABRIC_SPARE_SWAP: the light of the eight ports changes over within an idle pair on each of their groups. -/
def State.fabricSwap (s : State) : State :=
  if !(s.source 8).locked then s
  else
    let pos := (s.source 8).armPos.getD 0
    (List.range 32).foldl (fun s n =>
      let p := 8 * pos + n / 4
      let f := s.group p (n % 4)
      if f.carries then s.setGroup p (n % 4) f.sendIdle else s) (s.takeOver 8)

/-- FABRIC_SPARE_SWAP (R283, R322). -/
def execFabricSpareSwap (s : State) : Host.Outcome State Fault Refusal := .next s.fabricSwap

/-! ### The receive side of a group (R305 to R308, R310, R311, R314, R315) -/

/-- A message that is not applied (R308). -/
def State.unwanted (s : State) (m : Msg) : Bool := m.type = 0 || 7 < m.type || m.dst != s.ownId || m.dst == 0xFFF

/-- The next message in order has arrived: it waits to be applied, or is dropped. -/
def State.inOrder (s : State) (p g : Nat) (m : Msg) : State :=
  let f := s.group p g
  let f1 := { f with rxSeq := m.seq, nakOut := none, nakDue := false }
  if s.unwanted m then (s.setGroup p g { f1 with owed := f.owed + 1 + m.nfl.toNat }).bump (FAB_RETRY.drop.on p)
  else s.setGroup p g { f1 with arrived := f.arrived ++ [m] }

/-- Messages held behind a lost one are released as far as they follow one another. -/
def State.releaseHeld (s : State) (p g : Nat) : Nat → State
  | 0 => s
  | n + 1 =>
    let f := s.group p g
    match f.held.find? fun m => m.seq == f.rxSeq + 1 with
    | some m => ((s.setGroup p g { f with held := f.held.erase m }).inOrder p g m).releaseHeld p g n
    | none => s

/-- A message is missing: the nak that names it leaves with the next pair. -/
def FabGroup.askAgain (f : FabGroup) : FabGroup := { f with nakOut := some (f.rxSeq + 1), nakDue := true }

/-- A message out of the line: in order, ahead of a lost one, or one received before. A copy that arrives while the message
before it is still missing shows that its copy is lost too, and the nak leaves again, for the copy. -/
def State.receive (s : State) (p g : Nat) (m : Msg) : State :=
  let f := s.group p g
  let ahead := (m.seq - (f.rxSeq + 1)).toNat
  if ahead = 0 then
    let s1 := s.inOrder p g m
    s1.releaseHeld p g (s1.group p g).held.length
  else if ahead < 2048 then
    let held := if f.held.any (·.seq == m.seq) then f.held else f.held ++ [m]
    let f1 := { f with held := held }
    s.setGroup p g (if f.nakOut.isNone || m.rty then f1.askAgain else f1)
  else s

/-- Acknowledged messages leave the replay buffer. -/
def acked (ack : BitVec 12) (l : List Msg) : List Msg :=
  match l.findIdx? (·.seq == ack) with
  | some i => l.drop (i + 1)
  | none => l

/-- A second retry within one trigger puts a promise at risk (R232). -/
def State.noteRetry (s : State) (p g : Nat) : State :=
  let i := (s.group p g).score
  (s.groupClaims p g).foldl (fun s n =>
    (s.noteClaim i n 5).noteUse i n 1 false) s

/-- A nak names message ack + 1. An assured group resends it once, and every later one that is not acknowledged; a nak for
a copy, and every nak on a spare group, is answered with a loss notice (R310, R311, R314). -/
def State.nak (s : State) (p g : Nat) (lost : BitVec 12) : State :=
  let f := s.group p g
  match (f.replay ++ f.heads).find? (·.seq == lost) with
  | none => s
  | some m =>
    if f.cls = .spare ∨ m.rty then
      let s1 := s.setGroup p g { f with notices := f.notices ++ [m] }
      if m.type = 2 then s1.readLost p g m.tag else s1
    else
      let i := f.replay.findIdx (·.seq == lost)
      let again := ((f.replay.drop i).filter fun x => !x.rty).map fun x => { x with rty := true }
      let replay := f.replay.take i ++ (f.replay.drop i).map fun x => { x with rty := true }
      let s1 := s.setGroup p g { f with replay := replay, resend := f.resend ++ again }
      (s1.bump (FAB_RETRY.rsnt.on p) again.length).noteRetry p g

/-- The flits of a message have all gone by: it is received, or kept in part and asked for again (R307, R312). -/
def State.flitsDone (s : State) (p g : Nat) (fl : List (Option (List Byte))) : State :=
  let s1 := s.setGroup p g { s.group p g with rx := [] }
  match fl with
  | some h :: r =>
    if r.all Option.isSome then s1.receive p g (decodeMsg h fl)
    else
      let f := s1.group p g
      s1.setGroup p g { f with frags := f.frags ++ [fl] }.askAgain
  | _ => s1

/-- A flit of the message being received, `none` where its pair was lost. -/
def State.takeFlit (s : State) (p g : Nat) (x : Option (List Byte)) : State :=
  match (s.group p g).rx with
  | some h :: r =>
    let fl := some h :: r ++ [x]
    if flitCount h ≤ fl.length then s.flitsDone p g fl else s.setGroup p g { s.group p g with rx := fl }
  | _ => s

/-- A header flit opens a message; one that was still open has lost its other flits. -/
def State.openMsg (s : State) (p g : Nat) (h : List Byte) : State :=
  let f := s.group p g
  let f1 := if f.rx.isEmpty then f else { f with frags := f.frags ++ [f.rx] }.askAgain
  let s1 := s.setGroup p g f1
  if flitCount h = 1 then s1.flitsDone p g [some h] else s1.setGroup p g { f1 with rx := [some h] }

/-- The next flit slot of a group, `none` in a pair that was lost. Slot 63 holds link control, whose flits are carried out by
the commands HELLO and LOSS_NOTICE (R305; log 143). -/
def State.takeSlot (s : State) (p g : Nat) (x : Option Flit) : State :=
  let n := (s.group p g).rxSlot
  let s1 := s.setGroup p g { s.group p g with rxSlot := n + 1 }
  if n = 63 then s1
  else match x with
    | none => s1.takeFlit p g none
    | some (.head h) => s1.openMsg p g h
    | some (.data b) => s1.takeFlit p g (some b)
    | some .idle | some (.control _) => s1

/-- A pair that does not decode loses its five flit slots. -/
def State.badPair (s : State) (p g : Nat) : State :=
  let f := s.group p g
  let within := decide (s.tick < f.badTick + 1000)
  let s1 := s.setGroup p g { f with
    bad := if within then f.bad + 1 else 1, badTick := if within then f.badTick else s.tick }.askAgain
  (List.range 5).foldl (fun s _ => s.takeSlot p g none) (s1.bump (FAB_FEC.unc.on p))

/-- The block header of a pair speaks for this node's traffic: what is acknowledged leaves the replay buffer, credits come back,
lanes are announced, a message is asked for again (R306). -/
def State.pairHeader (s : State) (p g : Nat) (w : Pair) : State :=
  let f := s.group p g
  let s1 := s.setGroup p g { f with
    cred := min 128 (f.cred + pairCred w), replay := acked (pairAck w) f.replay, heads := acked (pairAck w) f.heads
    newTx := if pairLs w = f.txl then f.newTx else some (pairLs w) }
  if pairNak w then s1.nak p g (pairAck w + 1) else s1

/-- CODEWORD_PAIR: the block header first, then the flit slots. -/
def State.codewordPair (s : State) (p g : Nat) (w : Pair) : State :=
  if !(s.group p g).carries then s
  else if !w.decoded then s.badPair p g
  else
    let s1 := if w.corrected then s.bump (FAB_FEC.corr.on p) else s
    w.slots.foldl (fun s x => s.takeSlot p g (some x)) (s1.pairHeader p g w)

/-- CODEWORD_PAIR (R306). -/
def execCodewordPair (p : PortId) (g : GroupId) (w : Pair) (s : State) : Host.Outcome State Fault Refusal :=
  .next (s.codewordPair p.val g.val w)

/-- NAK_TIMEOUT: no copy came within 300 ns of the nak; the next nak is for the copy. -/
def State.nakTimeout (s : State) (p g : Nat) : State :=
  let f := s.group p g
  if f.carries ∧ f.nakOut.isSome ∧ f.cls = .assured then s.setGroup p g { f with nakDue := true } else s

/-- NAK_TIMEOUT (R311). -/
def execNakTimeout (p : PortId) (g : GroupId) (s : State) : Host.Outcome State Fault Refusal :=
  .next (s.nakTimeout p.val g.val)

/-- LOSS_NOTICE: the message at the place of the nak is lost for good. Its blocks are marked; of a read request nothing is
left to do here, and a completion counts as done. -/
def State.lossNotice (s : State) (p g : Nat) (head : List Byte) : State :=
  let f := s.group p g
  let m := decodeMsg head (f.kept (headSeq head) (flitCount head))
  if !f.carries ∨ f.nakOut ≠ some m.seq then s
  else
    let f1 := { f with frags := f.frags.filter fun fl => match fl with
      | some h :: _ => headSeq h != m.seq
      | _ => false }
    let s0 := s.setGroup p g f1
    let go := fun (s : State) => s.releaseHeld p g (s.group p g).held.length
    if m.type = 2 ∨ s.unwanted m then
      go (s0.setGroup p g { f1 with rxSeq := m.seq, nakOut := none, nakDue := false, owed := f.owed + 1 + m.nfl.toNat })
    else if m.type = 7 then
      go (((s0.bump (FAB_RETRY.cpl.on p)).countLost p).inOrder p g { m with status := 0, blocks := [] })
    else
      let fresh := (List.range m.nblk.toNat).filter fun k => m.type = 3 || (m.blocks.getD k (zeroBlock none)).mark.isNone
      let s1 := (s0.countLost p).countMark 13 fresh.length
      go (s1.inOrder p g { m with status := 0, blocks := lostBlocks m })

/-- LOSS_NOTICE (R312). -/
def execLossNotice (p : PortId) (g : GroupId) (head : List Byte) (s : State) : Host.Outcome State Fault Refusal :=
  .next (s.lossNotice p.val g.val head)

/-! ### Applying a message (R309, R315 to R317) -/

/-- The first message that has arrived on a group and waits, if it is the given one and has the type; in A1 messages
wait (R401). -/
def State.applies (s : State) (p g : Nat) (m : Msg) (type : BitVec 8) : Bool :=
  (s.group p g).arrived.head? == some m && m.type == type && s.fld PWR_STAT.state != 1

/-- The message has been applied, and its flits' credits go back. -/
def State.applied (s : State) (p g : Nat) (m : Msg) : State :=
  let f := s.group p g
  s.setGroup p g { f with arrived := f.arrived.drop 1, owed := f.owed + 1 + m.nfl.toNat }

/-- The end of the space that a message targets. -/
def spaceEnd (gddr : Bool) : Nat := if gddr then 96 * 0x20000000 else 0x20000000

/-- Whether a block belongs to the score that holds the receiving group. -/
def State.permitted (s : State) (i : ScoreId) (gddr : Bool) (a : Nat) : Bool :=
  if gddr then Tab.get dZero s.scores.ggran (a / 0x20000000) == i && i != 0
  else s.ownsStage a i || (inMap a && s.mapOpen (mapTile a) (mapEntry a) i)

/-- The reply status of a request's target (R308, R317). -/
def State.targetStatus (s : State) (f : FabGroup) (m : Msg) : BitVec 8 :=
  if !f.bound then 3
  else if (msgAddrs m).any fun a => spaceEnd m.gddr ≤ a then 1
  else if (msgAddrs m).all (s.permitted f.score m.gddr) then 0
  else 2

/-- A message of this node in answer to one. -/
def State.answer (s : State) (p g : Nat) (m : Msg) (type status : BitVec 8) (svc : BitVec 4) (bs : List Block) : State :=
  let f := s.group p g
  let r : Msg := ⟨type, m.src, s.ownId, 0, f.cls, false, BitVec.ofNat 2 g, BitVec.ofNat 4 (dataFlits bs.length),
    BitVec.ofNat 6 bs.length, m.tag, f.score, status, svc, false, 0, bs⟩
  s.setGroup p g { f with out := f.out ++ [r] }

/-- What the two attempts of a message's k-th block at GDDR7 find. -/
def findAt (l : List (GddrFind × GddrFind)) (k : Nat) : GddrFind × GddrFind :=
  l.getD k (⟨false, false, []⟩, ⟨false, false, []⟩)

/-- Writes the blocks of a message in block order. -/
def State.writeMsg (s : State) (i : ScoreId) (m : Msg) (l : List (GddrFind × GddrFind)) : State :=
  ((msgAddrs m).zip m.blocks).zipIdx.foldl (fun s x =>
    if m.gddr then s.gddrWriteTwice x.1.1 x.1.2 (findAt l x.2) else s.stageWrite x.1.1 x.1.2 i 0xFFFF) s

/-- A message may be applied now: its slots are there and granted, and no update waits on an entry that it names (R130, R163,
R316). -/
def State.msgReady (s : State) (p g : Nat) (m : Msg) (write : Bool) : Bool :=
  s.msgSlots (s.group p g) m write && !s.msgMapBusy m && s.grantsOpt s.claims (s.msgClaim p g)

/-- WRITE: checked, applied and answered with a completion. -/
def State.writeIn (s : State) (p g : Nat) (m : Msg) (l : List (GddrFind × GddrFind)) : State :=
  let f := s.group p g
  if !s.applies p g m 1 then s
  else
    let st := s.targetStatus f m
    if st ≠ 0 then (s.applied p g m).answer p g m 7 st 0 []
    else if !s.msgReady p g m true then s
    else (((s.grantTo (s.msgClaim p g)).writeMsg f.score m l).applied p g m).answer p g m 7 0 0 []

/-- WRITE (R317). -/
def execWrite (p : PortId) (g : GroupId) (m : PartnerAccess) (s : State) : Host.Outcome State Fault Refusal :=
  .next (s.writeIn p.val g.val m.msg m.finds)

/-- Reads the blocks that a request asks for. -/
def State.readMsg (s : State) (i : ScoreId) (m : Msg) (l : List (GddrFind × GddrFind)) : List Block × State :=
  (msgAddrs m).zipIdx.foldl (fun r a =>
    let x := if m.gddr then r.2.gddrReadTwice a.1 (findAt l a.2) else r.2.stageRead a.1 i
    (r.1 ++ [x.1], x.2)) ([], s)

/-- READ_REQUEST: checked and answered with a read reply. -/
def State.readIn (s : State) (p g : Nat) (m : Msg) (l : List (GddrFind × GddrFind)) : State :=
  let f := s.group p g
  if !s.applies p g m 2 then s
  else
    let st := s.targetStatus f m
    if st ≠ 0 then (s.applied p g m).answer p g m 3 st 0 []
    else if !s.msgReady p g m false then s
    else
      let r := (s.grantTo (s.msgClaim p g)).readMsg f.score m l
      (r.2.applied p g m).answer p g m 3 0 0 r.1

/-- READ_REQUEST (R317). -/
def execReadRequest (p : PortId) (g : GroupId) (m : PartnerAccess) (s : State) : Host.Outcome State Fault Refusal :=
  .next (s.readIn p.val g.val m.msg m.finds)

/-- A translation fault that the partner reports: what is still to come of the transfer is delivered marked, and recorded once
(R199, R202). -/
def State.remoteRefused (s : State) (o : Outstanding) (side : Nat) : State :=
  match s.xferOf o with
  | none => s
  | some i => match (s.queue o.q).xfers[i]? with
    | none => s
    | some y =>
      if y.refused.isSome then s else
      let x := { y with refused := some 11 }
      let w := if side = 0 then x.desc.srcWin.toNat else x.desc.dstWin.toNat
      let a := if side = 0 then x.desc.srcOf o.lin else x.desc.dstOf o.lin
      ((s.bump STRM_TLB_STAT.flt).deliverRest o.q i x 11).streamFault o.q x 11 0 o.lin a side w

/-- A reply whose data go to an entry of the Pewter map with updates queued waits for them (R130). -/
def State.replyBusy (s : State) (p g : Nat) (m : Msg) : Bool :=
  match (s.group p g).reads.find? (·.tag == m.tag) with
  | none => false
  | some o => match (s.xferOf o).bind fun i => (s.queue o.q).xfers[i]? with
    | none => false
    | some x => x.desc.dstSp == 0 && x.desc.dstBuf == 0 && (List.range o.n).any fun k =>
        let a := x.desc.dstOf (o.lin + k)
        inMap a && s.mapBusy (mapTile a) (mapEntry a)

/-- The reason with which the blocks behind a refused one are delivered (R202). -/
def State.refusedOf (s : State) (o : Outstanding) : Mark :=
  match (s.xferOf o).bind fun i => (s.queue o.q).xfers[i]? with
  | some x => x.refused
  | none => none

/-- READ_REPLY: the blocks go to the transfer that asked for them. -/
def State.replyIn (s : State) (p g : Nat) (m : Msg) : State :=
  if !s.applies p g m 3 || s.replyBusy p g m then s
  else
    let s1 := s.applied p g m
    match (s1.group p g).reads.find? (·.tag == m.tag) with
    | none => s1
    | some o =>
      let s2 := s1.dropRead p g o
      let zeros := fun (r : BitVec 4) => List.replicate o.n (zeroBlock (some r))
      if (s2.refusedOf o).isSome then (s2.countMark 11 o.n).deliverRead o []
      else if m.status = 0 then s2.deliverRead o m.blocks
      else if m.status = 3 then (s2.countMark 13 o.n).deliverRead o (zeros 13)
      else ((s2.countMark 11 o.n).deliverRead o (zeros 11)).remoteRefused o 0

/-- READ_REPLY (R309). -/
def execReadReply (p : PortId) (g : GroupId) (m : Msg) (s : State) : Host.Outcome State Fault Refusal :=
  .next (s.replyIn p.val g.val m)

/-- WRITE_COMPLETION: the write is done; a partner that refused the address raises a translation fault. -/
def State.completionIn (s : State) (p g : Nat) (m : Msg) : State :=
  if !s.applies p g m 7 then s
  else
    let s1 := s.applied p g m
    match (s1.group p g).writes.find? (·.tag == m.tag) with
    | none => s1
    | some o =>
      let s2 := (s1.dropWrite p g o).xferDone o
      if m.status = 1 ∨ m.status = 2 then s2.remoteRefused o 1 else s2

/-- WRITE_COMPLETION (R308). -/
def execWriteCompletion (p : PortId) (g : GroupId) (m : Msg) (s : State) : Host.Outcome State Fault Refusal :=
  .next (s.completionIn p.val g.val m)

/-! ### CHAIN_ENTRY (R120, R121, R149) -/

/-- The tile whose configuration takes remote entries over a group of its score (log 24). -/
def State.hopTile (s : State) (p g : Nat) : Option Nat :=
  let i := (s.group p g).score
  (List.range 32).find? fun t => s.bayScore (t / 4) == i && s.flag (TILE_CHAIN_CFG.rin.on t) &&
    (s.score i).roleRes 2 (s.tile t).wgr.toNat == some (4 * p + g)

/-- The two messages of an entry are put together; the whole entry is added as soon as its target's round is open, and is
kept until then (DEDUCED, log 128). -/
def State.hopPart (s : State) (t e : Nat) (first : Bool) (bs : List Block) : State :=
  let v := (s.tile t).rounds e
  let whole := v.held.length / 64 * 64
  let held := if first then v.held.take whole ++ bs else if v.held.length = whole then v.held else v.held ++ bs
  (s.modTile t fun x => x.setRounds e { v with held := held }).addArrived t e

/-- A tile of another score's bay whose range of an entry is still bound to a score (R34). -/
def State.foreignTile (s : State) (i : ScoreId) (e : Nat) : Option Nat :=
  (List.range 32).find? fun t => s.rangeScore t e == i && s.bayScore (t / 4) != i

/-- A range that is bound to another score than its bay serves its score as the end of a chain: no window of that score runs
there, so the entry is added as soon as it is whole (R34; DESIGN CHOICE, log 150). -/
def State.hopForeign (s : State) (t e : Nat) (first : Bool) (bs : List Block) : State :=
  let v := (s.tile t).rounds e
  let held := if first then bs else if v.held.isEmpty then [] else v.held ++ bs
  if held.length < 64 then s.modTile t fun x => x.setRounds e { v with held := held }
  else
    let g := genNext (s.tile t).gen
    (s.modTile t fun x => { x.setRounds e { v with held := [] } with gen := g }).remoteAdd t e held g

/-- CHAIN_ENTRY: a half of an entry arrives for a range bound to the score; otherwise nothing is applied. -/
def State.chainIn (s : State) (p g : Nat) (m : Msg) : State :=
  if !s.applies p g m 4 then s
  else
    let f := s.group p g
    let s1 := s.applied p g m
    let a := m.addr.toNat
    let e := mapEntry a
    if !f.bound ∨ !inMap a ∨ f.score = 0 then s1
    else match (s1.hopTile p g).filter fun t => s1.rangeScore t e == f.score, s1.foreignTile f.score e with
    | some t, _ => s1.hopPart t e (a % 4096 == 0) m.blocks
    | none, some t => s1.hopForeign t e (a % 4096 == 0) m.blocks
    | none, none => s1

/-- CHAIN_ENTRY (R120). -/
def execChainEntry (p : PortId) (g : GroupId) (m : Msg) (s : State) : Host.Outcome State Fault Refusal :=
  .next (s.chainIn p.val g.val m)

/-! ### Services (R227 to R231) -/

def Score.batch (c : Score) (svc : Nat) : Batch := Tab.get dBatch c.batches svc
def State.setBatch (s : State) (i : ScoreId) (svc : Nat) (b : Batch) : State :=
  let c := s.score i
  s.setScore i { c with batches := Tab.set dBatch c.batches svc b }

/-- A request header as a block carries it (R230): partner, service, tag and payload length. -/
def headerOf (b : Block) : BitVec 12 × BitVec 4 × BitVec 32 × Nat :=
  let w := leNat (b.data.take 64)
  (BitVec.ofNat 12 (bits w 511 500), BitVec.ofNat 4 (bits w 499 496), BitVec.ofNat 32 (bits w 495 464), bits w 455 440)

/-- A request header (R230). -/
def requestHeader (partner : BitVec 12) (svc : BitVec 4) (tag : BitVec 32) (status len : Nat) : Block :=
  ⟨leBytes 64 (partner.toNat * 2 ^ 500 + svc.toNat * 2 ^ 496 + tag.toNat * 2 ^ 464 + status % 256 * 2 ^ 456 +
    len % 65536 * 2 ^ 440), none⟩

/-- The header blocks of a batch (R228, R229). -/
def batchHeader (d : ServiceDecl) (b : Batch) : List Block :=
  let e0 := leBytes 8 (d.svc % 16 * 2 ^ 36 + b.bseq % 2 ^ 20 * 2 ^ 16 + b.reqs.length % 65536)
  let es := b.reqs.flatMap fun r => leBytes 8 (r.tag.toNat * 2 ^ 32 + 2 ^ 12 + r.partner.toNat)
  let h := (d.batch + 1 + 7) / 8
  (chunks 64 h (padTo (64 * h) 0 (e0 ++ es))).map fun x => ⟨x, none⟩

/-- The slots of a batch, padded. -/
def batchSlots (d : ServiceDecl) (b : Batch) : List Block :=
  (List.range d.batch).flatMap fun k => match b.reqs[k]? with
    | some r => (List.range d.slot).map fun j => match r.blocks[j]? with
      | some x => ⟨padTo 64 d.pad x.data, x.mark⟩
      | none => ⟨List.replicate 64 d.pad, none⟩
    | none => List.replicate d.slot ⟨List.replicate 64 d.pad, none⟩

/-- The number of a service's buffer on the bay that its sequence runs on. -/
def State.serviceBuf (s : State) (i : ScoreId) (d : ServiceDecl) (idx : Nat) : Option Nat :=
  match (s.score i).pkg with
  | none => none
  | some p => match p.seqs[d.seq]? with
    | none => none
    | some q => ((s.score i).roleRes 0 q.bayRole).map fun b => 64 * b + (if q.cls = .spare then 32 else 0) + idx

/-- The timing claims that a batch of a service triggers (R231). -/
def State.batchClaims (s : State) (i : ScoreId) (svc : Nat) : State :=
  (s.score i).claims.foldl (fun s x => if x.2.trigger = .batch svc then s.claimTrigger i x.1 else s) s

/-- Closes the batch of a service if its buffer has room and the buffer's bank a remote slot of its class (R228, R316). -/
def State.closeBatch (s : State) (i : ScoreId) (d : ServiceDecl) : State :=
  let b := (s.score i).batch d.svc
  let l := batchHeader d b ++ batchSlots d b
  match s.serviceBuf i d d.reqBuf with
  | none => s
  | some n =>
    let v := s.sbuf n
    if v.blocks < v.present + v.reserved + l.length || !s.slotFor v.base remoteKinds d.cls then s
    else
      let due := (List.range d.batch).map fun k => match b.reqs[k]? with
        | some r => DueReply.mk true r.partner r.tag r.group
        | none => DueReply.mk false 0 0 0
      let s1 := (s.bufPut n l).setBatch i d.svc ⟨[], none, b.bseq + 1, b.due ++ due⟩
      (s1.batchClaims i d.svc).signal 0 i d.counter 1 0xFFFF 0

/-- The service of a score that a number names. -/
def State.service (s : State) (i : ScoreId) (svc : Nat) : Option ServiceDecl :=
  match (s.score i).pkg with
  | some p => p.services.find? (·.svc == svc)
  | none => none

/-- All of a request has arrived. -/
def Request.whole (r : Request) : Bool := r.len ≤ r.blocks.length

/-- The place of a request in an open batch of which a sender's message carries a further part (log 144). -/
def Batch.partOf (b : Batch) (partner : BitVec 12) (tag : BitVec 32) (group : Nat) : Option Nat :=
  b.reqs.findIdx? fun r => r.partner == partner && r.tag == tag && r.group == group && !r.whole

/-- The status with which a request of `len` payload blocks is turned away at once: 2 no such service, 3 not running, 4 too long,
1 busy. -/
def State.serviceStatus (s : State) (f : FabGroup) (m : Msg) (len : Nat) : Nat :=
  match s.service f.score m.svc.toNat with
  | none => 2
  | some d =>
    if !f.bound ∨ !d.groups.contains f.role then 2
    else if (s.score f.score).state ≠ .running then 3
    else if d.slot < len then 4
    else if d.batch ≤ ((s.score f.score).batch d.svc).reqs.length then 1
    else 0

/-- A busy reply is a cause that a later miss of the service's claims names (R232, R233). -/
def State.noteBusy (s : State) (i : ScoreId) (svc : Nat) : State :=
  (s.score i).claims.foldl (fun s x =>
    if x.2.trigger = .batch svc then s.noteClaim i x.1 11 else s) s

/-- The open batch with a request's message, whose first block is the request header (R230). -/
def Batch.take (b : Batch) (tick : Nat) (partner : BitVec 12) (group : Nat) (l : List Block) : Batch :=
  let h := headerOf (l.headD (zeroBlock none))
  let reqs := match b.partOf partner h.2.2.1 group with
    | some i => b.reqs.modify i fun r => { r with blocks := r.blocks ++ l.drop 1 }
    | none => b.reqs ++ [⟨partner, h.2.2.1, group, h.2.2.2, l.drop 1⟩]
  { b with reqs := reqs, since := some (b.since.getD tick) }

/-- SERVICE_REQUEST: into the open batch, which closes when it is full; or turned away. -/
def State.serviceIn (s : State) (p g : Nat) (m : Msg) : State :=
  if !s.applies p g m 5 then s
  else
    let f := s.group p g
    let s1 := s.applied p g m
    let h := headerOf (m.blocks.headD (zeroBlock none))
    let part := ((s1.score f.score).batch m.svc.toNat).partOf m.src h.2.2.1 (4 * p + g)
    let st := s1.serviceStatus f m h.2.2.2
    if st ≠ 0 ∧ !(st = 1 ∧ part.isSome) then
      (if st = 1 then s1.noteBusy f.score m.svc.toNat else s1).answer p g m 6 0 m.svc [requestHeader m.src m.svc h.2.2.1 st 0]
    else match s1.service f.score m.svc.toNat with
      | none => s1
      | some d =>
        let b := ((s1.score f.score).batch d.svc).take s.tick m.src (4 * p + g) m.blocks
        let s3 := s1.setBatch f.score d.svc b
        if b.reqs.length = d.batch ∧ b.reqs.all Request.whole then s3.closeBatch f.score d else s3

/-- SERVICE_REQUEST (R228). -/
def execServiceRequest (p : PortId) (g : GroupId) (m : Msg) (s : State) : Host.Outcome State Fault Refusal :=
  .next (s.serviceIn p.val g.val m)

/-- BATCH_DEADLINE: the oldest request has waited the deadline; a full batch that found no room is tried again. -/
def State.batchDeadline (s : State) (i : ScoreId) (svc : Nat) : State :=
  match s.service i svc with
  | none => s
  | some d =>
    let b := (s.score i).batch d.svc
    match b.since with
    | none => s
    | some t => if t + d.deadline ≤ s.tick ∨ b.reqs.length = d.batch then s.closeBatch i d else s

/-- BATCH_DEADLINE (R228). -/
def execBatchDeadline (score : ScoreId) (svc : BitVec 4) (s : State) : Host.Outcome State Fault Refusal :=
  .next (s.batchDeadline score svc.toNat)

/-- Takes blocks from a stream buffer at its read pointer. -/
def State.bufTake (s : State) (n : Nat) : Nat → List Block × State
  | 0 => ([], s)
  | k + 1 =>
    let v := s.sbuf n
    let r := s.readBlock (v.base + 64 * v.rd)
    let q := (r.2.setSbuf n { v with rd := (v.rd + 1) % v.blocks, present := v.present - 1 }).bufTake n k
    (r.1 :: q.1, q.2)

/-- The messages that carry a reply: each opens with the request header (R230), before at most 62 blocks of the reply. -/
def State.sendReply (s : State) (d : ServiceDecl) (y : DueReply) (bs : List Block) : State :=
  let p := y.group / 4
  let g := y.group % 4
  (chunks 62 ((bs.length + 61) / 62) bs).foldl (fun s c =>
    let f := s.group p g
    let l := requestHeader y.partner (BitVec.ofNat 4 d.svc) y.tag 0 bs.length :: c
    let m : Msg := ⟨6, y.partner, s.ownId, 0, f.cls, false, BitVec.ofNat 2 g, BitVec.ofNat 4 (dataFlits l.length),
      BitVec.ofNat 6 l.length, y.tag, f.score, 0, BitVec.ofNat 4 d.svc, false, 0, l⟩
    s.setGroup p g { f with out := f.out ++ [m] }) s

/-- SERVICE_REPLY_SEND: the next reply slot, once the score has written it; that of an unfilled slot is discarded. -/
def State.replySend (s : State) (i : ScoreId) (svc : Nat) : State :=
  match s.service i svc with
  | none => s
  | some d => match ((s.score i).batch d.svc).due, s.serviceBuf i d d.repBuf with
    | y :: rest, some n =>
      if (s.sbuf n).present < d.slot then s
      else
        let r := s.bufTake n d.slot
        let s1 := r.2.setBatch i d.svc { (r.2.score i).batch d.svc with due := rest }
        if y.filled then s1.sendReply d y r.1 else s1
    | _, _ => s

/-- SERVICE_REPLY_SEND (R230). -/
def execServiceReplySend (score : ScoreId) (svc : BitVec 4) (s : State) : Host.Outcome State Fault Refusal :=
  .next (s.replySend score svc.toNat)

/-- SERVICE_REPLY: written at the address that the message names, if the group's score may write there. -/
def State.serviceReplyIn (s : State) (p g : Nat) (m : Msg) (l : List (GddrFind × GddrFind)) : State :=
  let f := s.group p g
  if !s.applies p g m 6 then s
  else if s.targetStatus f m ≠ 0 then s.applied p g m
  else if !s.msgReady p g m true then s
  else ((s.grantTo (s.msgClaim p g)).writeMsg f.score m l).applied p g m

/-- SERVICE_REPLY (R230). -/
def execServiceReply (p : PortId) (g : GroupId) (m : PartnerAccess) (s : State) : Host.Outcome State Fault Refusal :=
  .next (s.serviceReplyIn p.val g.val m.msg m.finds)

end Sys2Proof.Machine
end

