-- ==== Sys2Proof/Machine/Security.lean ====
section
/-! DEFINITION. Firmware: boot, the trim release, updates, confirmation and rollback, the watchdog, the DOE mailbox (R348, R394,
R435 to R443). -/

namespace Sys2Proof.Machine

/-! ### Images and the counter (R435, R442) -/

/-- The security version counter: the fuses as delivered, and as the Guard has blown them since. -/
def State.svnCounter (s : State) : Nat := max Config.fuseSvn.toNat s.sec.svn

def State.slot (s : State) (n : Nat) : FwSlot := Tab.get dFwSlot s.sec.slots n
def State.setSlot (s : State) (n : Nat) (v : FwSlot) : State :=
  { s with sec := { s.sec with slots := Tab.set dFwSlot s.sec.slots n v } }

/-- Bytes of the header that opens an image. -/
def imageHeader : Nat := 0x200

/-- The header's format: magic, a known kind, security version and length in range. -/
def formatOk (i : Image) : Bool :=
  i.magic == 0x414E4855 && 1 ≤ i.kind.toNat && i.kind.toNat ≤ 3 && i.svn ≤ 64 && i.blen ≤ 8388608 - 512

/-- An image that verifies. -/
def verified (i : Image) : Bool := formatOk i && i.keyOk && i.sigOk

/-! ### Boot (R291, R394, R436 to R438, R443, R474) -/

/-- The records that firmware gives the loops of an engine, and its writes to the engine's oscillators (R301). -/
def State.giveRecords (s0 : State) (e : Nat) : State :=
  let s := s0.setEngine e { s0.engine e with nco := (List.range 16).foldl (fun m n =>
    Tab.set dNco m n (0, (Config.oscillator e n).1, (Config.oscillator e n).2)) (s0.engine e).nco }
  ((List.range 512).filter (slotUsed e)).foldl (fun s l =>
    let L := s.loopOf e l
    s.setLoop e l { L with recs := (List.range 9).foldl (fun t r =>
      Tab.set dZero t r (Config.loopRecord e l r)) L.recs }) s

/-- The Guard's trim release: outputs forced by power-up alone return to their loops, and the engines run (R291, R474). -/
def State.trimGiven (s : State) : State :=
  if s.flag GUARD_STAT.rel ∨ !s.flag SEC_BOOT.ver then s
  else
    let s1 := s.setFlag GUARD_STAT.rel true
    let s2 : State := { s1 with pins := { s1.pins with powForce := false } }
    (List.range 10).foldl (fun s e => (s.giveRecords e).setFlag (LOOP_STAT.run.on e) true) s2

/-- A firmware reset: the management cores and Ahnun's working memory. Commands wait for the image that runs next, and SPDM sessions
are over (R440). -/
def State.firmwareReset (s : State) (slot : BitVec 2) : State :=
  let s1 := (s.setFld SEC_BOOT.run 3).bump SEC_BOOT.fres
  { s1 with sec := { s1.sec with staging := none, pendingBoot := some slot, akey := none, session := none } }

/-- Indices 1, 2 and 5 are extended once after the registers were cleared. -/
def State.measureBoot (s : State) (loader : List Byte) : State :=
  if Tab.get dZero s.sec.exts 1 = 0 then
    ((s.extend 1 Config.romDigest).extend 2 loader).extend 5 Config.strapDigest
  else s

/-- A measurement register. -/
def State.measurement (s : State) (n : Nat) : List Byte := Tab.get (fun _ => List.replicate 64 (0 : Byte)) s.sec.meas n

/-- The Guard derives the alias key from the secret and registers 1, 2 and 3, and signs its certificate with the identity key,
which signs nothing else. -/
def State.deriveAlias (s : State) : State :=
  let key := Config.aliasKey Config.deviceSecret [s.measurement 1, s.measurement 2, s.measurement 3]
  let body := Config.aliasBody (Config.ed448Public key)
  { s with sec := { s.sec with
      akey := some ⟨key, body ++ Config.ed448Sign (Config.identityKey Config.deviceSecret) body⟩, session := none } }

/-- MAIN_IMAGE_HANDOVER: the image that the loader verified starts: that of the slot tried first; that of the other slot if
its security version is at least the counter; the recovery image. -/
def State.handover (s : State) (slot : BitVec 2) (i : Image) (loader : List Byte) : State :=
  let first := s.sec.pendingBoot.getD (BitVec.ofNat 2 (s.fld SEC_BOOT.next))
  let kind := if slot = 2 then 3 else 2
  let ok := slot != 3 && verified i && i.kind.toNat == kind &&
    (slot == 2 || (first != 2 && (slot == first || s.svnCounter ≤ i.svn)))
  if s.fld SEC_BOOT.run ≠ 3 ∨ !(s.dom 1).run ∨ !ok then s
  else
    let s1 := ((s.measureBoot loader).extend 3 i.digest).deriveAlias
    let s2 := (s1.setFld SEC_BOOT.run slot.toNat).setFlag SEC_BOOT.rec (slot == 2)
    let s3 := if slot = first then s2 else s2.setFlag SEC_BOOT.fb true
    let s4 := if slot = 2 then s3 else s3.setFlag SEC_BOOT.ver true
    let s5 : State := { s4 with
      sec := { s4.sec with runTick := s.tick, ver := i.ver, pendingBoot := none }, link := { s4.link with heart := false } }
    let s6 := if slot = 2 then s5
      else s5.setSlot slot.toNat { s5.slot slot.toNat with main := some ⟨i.ver, i.svn, i.digest⟩ }
    if s6.bitOf GLB_PUP.steps 3 then s6.trimGiven else s6

/-- MAIN_IMAGE_HANDOVER (R436, R440). -/
def execMainImageHandover (slot : BitVec 2) (img : Image) (loader : List Byte) (s : State) :
    Host.Outcome State Fault Refusal := .next (s.handover slot img loader)

/-- WATCHDOG_RESET: the heartbeat is missed; an activation under way fails, and the next boot takes the other slot. -/
def State.watchdog (s : State) : State :=
  let run := s.fld SEC_BOOT.run
  let s0 : State := { s with link := { s.link with heart := true } }
  if run = 3 then s0
  else
    let ver := s.sec.ver.toNat
    let s1 := (s0.setFlag CLK_RST_CAUSE.wdog true).raise { cls := 14, code := 1, unit := run, arg0 := ver }
    if s.flag SEC_BOOT.pend then
      let other := 1 - run
      let s2 := ((s1.setFlag SEC_BOOT.pend false).setFlag SEC_BOOT.fb true).setFld SEC_BOOT.next other
      (s2.raise { cls := 14, code := 2, unit := run, arg0 := ver }).firmwareReset (BitVec.ofNat 2 other)
    else s1.firmwareReset (BitVec.ofNat 2 (s.fld SEC_BOOT.next))

/-- WATCHDOG_RESET (R394). -/
def execWatchdogReset (s : State) : Host.Outcome State Fault Refusal := .next s.watchdog

/-- ACTIVATION_CONFIRM: the activated image has run for 10 s; the counter rises to its security version. -/
def State.confirm (s : State) : State :=
  let run := s.fld SEC_BOOT.run
  if !s.flag SEC_BOOT.pend ∨ 2 ≤ run ∨ s.tick < s.sec.runTick + 10000000 then s
  else
    let s1 := s.setFlag SEC_BOOT.pend false
    match (s.slot run).main with
    | some i => if s.svnCounter < i.svn then { s1 with sec := { s1.sec with svn := i.svn } } else s1
    | none => s1

/-- ACTIVATION_CONFIRM (R442). -/
def execActivationConfirm (s : State) : Host.Outcome State Fault Refusal := .next s.confirm

/-! ### FW_STAGE, FW_COMMIT, FW_ACTIVATE (R441) -/

/-- FW_STAGE's start; `img` is what the staged bytes spell. -/
def State.fwStage (s : State) (k : Nat) (c : Taken) (img : Image) : State :=
  let n := c.p 1
  if n = 0 ∨ 131072 < n ∨ 64 * n < imageHeader + img.blen then s.complete k 3 1
  else if !s.staging (c.p 0) (64 * n) then s.complete k 3 6
  else
    let s1 := (List.range n).foldl (fun s b => s.countRead (c.p 0 + 64 * b)) s
    ({ s1 with sec := { s1.sec with staging := some img } } : State).complete k 0

/-- FW_STAGE (R441). -/
def execFwStage (k : Nat) (img : Image) (s : State) : Host.Outcome State Fault Refusal :=
  .next (s.command k 0x0801 fun s c => s.fwStage k c img)

/-- Why a staged image is not committed to a slot. -/
def State.commitRefusal (s : State) (i : Image) (slot : Nat) : Option Nat :=
  if !formatOk i ∨ i.kind = 3 then some 1
  else if !i.keyOk then some 2
  else if !i.sigOk then some 3
  else if i.svn < s.svnCounter then some 4
  else if 2 ≤ slot ∨ slot = s.fld SEC_BOOT.run then some 5
  else none

/-- FW_COMMIT's start: the staging buffer is cleared either way. Without a staged image the state is wrong for it. -/
def State.fwCommit (s : State) (k : Nat) (c : Taken) : State :=
  let slot := c.p 0
  if 256 ≤ slot then s.complete k 3
  else match s.sec.staging with
    | none => s.complete k 5
    | some i =>
      let s1 : State := { s with sec := { s.sec with staging := none } }
      match s.commitRefusal i slot with
      | some code => s1.complete k 3 code
      | none =>
        let f : FwImage := ⟨i.ver, i.svn, i.digest⟩
        let old := s1.slot slot
        (s1.setSlot slot (if i.kind = 1 then { old with loader := some f } else { old with main := some f })).complete k 0 0
          [i.ver.toNat]

/-- FW_COMMIT (R441). -/
def execFwCommit (k : Nat) (s : State) : Host.Outcome State Fault Refusal := .next (s.command k 0x0802 (·.fwCommit k))

/-- FW_ACTIVATE's start: the reply, then a firmware reset. -/
def State.fwActivate (s : State) (k : Nat) (c : Taken) : State :=
  let slot := c.p 0
  if 256 ≤ slot then s.complete k 3
  else if 2 ≤ slot ∨ slot = s.fld SEC_BOOT.run ∨ (s.slot slot).main.isNone then s.complete k 3 5
  else
    let s1 := ((s.setFld SEC_BOOT.next slot).setFlag SEC_BOOT.pend true).complete k 0
    (s1.setFlag CLK_RST_CAUSE.fwr true).firmwareReset (BitVec.ofNat 2 slot)

/-- FW_ACTIVATE (R441). -/
def execFwActivate (k : Nat) (s : State) : Host.Outcome State Fault Refusal := .next (s.command k 0x0803 (·.fwActivate k))

/-! ### The DOE mailbox (R348) -/

/-- The six measurement registers: SPDM measurement block i holds register i (R438). -/
def State.measurements (s : State) : List (List Byte) := (List.range 6).map fun i => s.measurement (i + 1)

/-- The chain of certificate slot 0: Magamer root, device identity, alias (R440). -/
def AliasKey.chain (k : AliasKey) : List (List Byte) := [Config.rootCert, Config.identityCert, k.cert]

/-- The SPDM requests whose responses the alias key signs: CHALLENGE, and GET_MEASUREMENTS that asks for a signature (PRESUMED, log
152). -/
def signedRequest (bytes : List Byte) : Bool :=
  bytes.getD 1 0 == 0x83 || (bytes.getD 1 0 == 0xE0 && (bytes.getD 2 0).getLsbD 0)

/-- An SPDM request within a session whose transcript so far is `t`: the response, with the signature over the transcript where it
takes one, and the transcript after it. -/
def State.spdm (s : State) (k : AliasKey) (t bytes : List Byte) : List Byte × List Byte :=
  let body := Config.spdmResponse 1 bytes s.measurements k.chain
  let said := t ++ bytes ++ body
  let r := if signedRequest bytes then body ++ Config.ed448Sign k.key (Config.sha3 said) else body
  (r, t ++ bytes ++ r)

/-- DOE_REQUEST: an object of DOE Discovery (0) or CMA-SPDM (1), of at most 16 KiB, is answered; Abort empties the
mailbox. An object of another type or size gets no answer. An SPDM session begins at GET_VERSION (PRESUMED, log 152); a session from
before a firmware reset must be begun again. -/
def State.doeRequest (s : State) (type : Byte) (bytes : List Byte) (abort : Bool) : State :=
  let answer := fun (s : State) (r : List Byte) => ({ s with link := { s.link with doe := r } } : State)
  if abort then answer s []
  else if 1 < type.toNat ∨ 16384 < bytes.length then s
  else if type = 0 then answer s (Config.spdmResponse 0 bytes [] [])
  else match s.sec.akey, (if bytes.getD 1 0 = 0x84 then some [] else s.sec.session) with
    | some k, some t =>
      let r := s.spdm k t bytes
      answer { s with sec := { s.sec with session := some r.2 } } r.1
    | _, _ => answer s (Config.spdmRestart bytes)

/-- DOE_REQUEST (R348, R440). -/
def execDoeRequest (type : Byte) (bytes : List Byte) (abort : Bool) (s : State) : Host.Outcome State Fault Refusal :=
  .next (s.doeRequest type bytes abort)

end Sys2Proof.Machine
end

