-- ==== Sys2Proof/Machine/Commands.lean ====
section
/-! DEFINITION. Commands on the module, the light supply, the Guard and the trim outputs (R274, R285, R297, R366, R367, R444). -/

namespace Sys2Proof.Machine

/-! ### Family 0x00 (R366) -/

/-- NOP_COMMAND (R366). -/
def execNopCommand (k : Nat) (s : State) : Host.Outcome State Fault Refusal :=
  .next (s.command k 0x0001 fun s _ => s.complete k 0)

/-- IDENTIFY's result. -/
def State.identify (s : State) (k : Nat) : State :=
  let serial := Config.fuseSerial.toNat
  s.complete k 0 0 [(s.reg GLB_ID.part.off).toNat, s.sec.ver.toNat, s.fld FAB_PID.id + 4096 * s.fld FAB_PID.asg,
    serial % 2 ^ 32, serial / 2 ^ 32, (s.reg GLB_STRAP.compat.off).toNat]

/-- IDENTIFY (R366). -/
def execIdentify (k : Nat) (s : State) : Host.Outcome State Fault Refusal :=
  .next (s.command k 0x0002 fun s _ => s.identify k)

/-! ### REQUALIFY (R274, R276, R285) -/

/-- A line at its source's qualification: its power becomes its reference, and its states clear. -/
def Line.qualified (l : Line) (uw : Nat) : Line := { Line.reset with uw := uw, ref := uw, hot := l.hot }

/-- One comb of a source at its qualification: at nominal drive, its lines' powers their references, its boost and its line
states cleared; failed if it does not lock. A comb marked failed stays failed. A spare that is available is powered off
again (R280, R281). `refs` are the powers measured, by 32 · comb + line in µW; a line that is not listed stands at its last
sample. -/
def State.qualifyComb (s : State) (i c : Nat) (locked : Bool) (refs : List (Nat × Nat)) : State :=
  let y := s.comb i c
  let spare := c == spareComb i
  let inUse := spare && s.spareState i == 3
  let y1 := { y with boost := 0, boostTick := s.tick, cut := false, clamp := false, exceeded := 0 }
  if y.state = 4 ∨ !locked then
    let s1 := s.setComb i c { y1 with pos := 7 }
    let s2 := s1.combDown i c 4
    let s3 := (List.range (linesOf i)).foldl (fun s n => s.setLine i c n Line.reset) s2
    if spare then s3.setSpare i 4 else s3
  else
    let s1 := (List.range (linesOf i)).foldl (fun s n =>
      s.setLine i c n ((s.line i c n).qualified (sampleOf refs (32 * c + n) (s.line i c n).uw))) s
    let ref : Int := ((4096 * s1.meanPower i c + 500) / 1000 : Nat)
    let s2 := s1.setComb i c { y1 with
      state := 2, ref := ref, pos := if inUse then y.pos else if spare then 7 else BitVec.ofNat 3 c }
    if spare ∧ !inUse then (s2.combDown i c 3).setSpare i 1 else s2.driveTo (driveSlot i c) ref

/-- Lines of a position that no comb serves are lost (R284). -/
def State.loseUnserved (s : State) (i : Nat) : State :=
  (List.range (combsOf i - 1)).foldl (fun s c =>
    if s.served i c then s
    else (List.range (linesOf i)).foldl (fun s n => s.setLine i c n { s.line i c n with lost := true, aff := true }) s) s

/-- Source qualification: every comb in turn, then the lines that no comb serves. -/
def State.qualify (s : State) (i : Nat) (locked : List Nat) (refs : List (Nat × Nat)) : State :=
  let s0 := s.setSource i { s.source i with armPos := none, suspended := false, locked := false
                                            spos := if s.spareState i = 3 then (s.source i).spos else 7 }
  let s1 := (List.range (combsOf i)).foldl (fun s c => s.qualifyComb i c (locked.contains c) refs) s0
  let s2 := (s1.loseUnserved i).darkenLanes s i
  if i < 8 then s2.spreadAffected i else s2

/-- What a qualification means for the source's bay: degraded by lost lines; a withdrawn one returns to free with enough
working lines, unless broken zone sensors withdrew it (R285). -/
def State.qualifiedBay (s : State) (b : Nat) : State :=
  let s1 := (s.modBay b fun y => { y with lostSeen := s.lostLines b }).setDegraded b (s.lostLines b != 0)
  if s1.bayState b = 6 then
    if s1.bayScore b = 0 ∧ !(s1.bay b).brokenZones ∧ s1.fld LSA_CFG.wmin ≤ 128 - s1.lostLines b then s1.setBayState b 1 else s1
  else s1.judgeBay b

/-- Combs of a source marked failed. -/
def State.failedCombs (s : State) (i : Nat) : Nat :=
  (List.range (combsOf i)).foldl (fun m c => m + if (s.comb i c).state = 4 then 2 ^ c else 0) 0

/-- REQUALIFY's start; `locked` are the combs that lock, `refs` the powers of their lines in µW by 32 · comb + line. -/
def State.requalify (s : State) (k : Nat) (c : Taken) (locked : List Nat) (refs : List (Nat × Nat)) : State :=
  let i := c.p 0
  if 9 ≤ i then s.complete k 3
  else if (i < 8 ∧ s.bayScore i ≠ 0) ∨ (i = 8 ∧ (List.range 64).any fun n => (s.group (n / 4) (n % 4)).bound) then
    s.complete k 5
  else
    let s1 := s.qualify i locked refs
    let s2 := if i < 8 then s1.qualifiedBay i else s1
    s2.complete k 0 0 [32 * (if i < 8 then 4 else 1) - s2.lostLines i, s2.failedCombs i]

/-- REQUALIFY (R285). -/
def execRequalify (k : Nat) (locked : List Nat) (refs : List (Nat × Nat)) (s : State) :
    Host.Outcome State Fault Refusal := .next (s.command k 0x0501 fun s c => s.requalify k c locked refs)

/-! ### GUARD_CLEAR and TRIM_RELEASE (R293, R297, R365, R444) -/

/-- A paired parameter that disagrees: status 0x09 and a paired-word fault of the CMD block. -/
def State.badPairOf (s : State) (k : Nat) (c : Taken) : State :=
  (s.raise { cls := 4, code := 1, unit := 1, arg1 := c.p 0, arg2 := c.p 1 }).complete k 9

/-- The two words of a paired parameter agree. -/
def Taken.paired (c : Taken) : Bool := c.p 1 == 2 ^ 32 - 1 - c.p 0

/-- The causes of Guard faults that are still there: those that the sensors see, a comb over its cap whose drive is still
on, and a trip until R432 ends it. -/
def State.guardCauses (s : State) (seen : Nat) : Nat :=
  seen % 16 + if s.flag THM_TRIP.latched then 16 else 0

/-- GUARD_CLEAR's start. -/
def State.guardClear (s : State) (k : Nat) (c : Taken) (seen : Nat) : State :=
  let i := c.p 0
  let causes := s.guardCauses seen
  if !c.paired then s.badPairOf k c
  else if 5 ≤ i then s.complete k 3
  else if i = 4 ∨ inMask causes i ∨ !s.bitOf GUARD_STAT.flt i then s.complete k 5 0 [causes]
  else (s.setBitOf GUARD_STAT.flt i false).complete k 0 0 [causes]

/-- GUARD_CLEAR (R444). -/
def execGuardClear (k : Nat) (causes : BitVec 5) (s : State) : Host.Outcome State Fault Refusal :=
  .next (s.command k 0x0701 fun s c => s.guardClear k c causes.toNat)

/-- TRIM_RELEASE's start. -/
def State.trimRelease (s : State) (k : Nat) (c : Taken) : State :=
  let o := c.p 0
  if !c.paired then s.badPairOf k c
  else if 8192 ≤ o then s.complete k 3
  else if 5227 ≤ o then s.complete k 4
  else if !(s.trimOut o).rb then s.complete k 5
  else (s.setTrimOut o { s.trimOut o with rb := false, mcnt := 0 }).complete k 0

/-- TRIM_RELEASE (R297). -/
def execTrimRelease (k : Nat) (s : State) : Host.Outcome State Fault Refusal :=
  .next (s.command k 0x0702 (·.trimRelease k))

end Sys2Proof.Machine
end

