-- ==== Sys2Proof/Machine/Power.lean ====
section
/-! DEFINITION. Power states: rails and clocks, the entry handshake and the three entries, the save list of A2, wake and its failures, and
the steps of power-up (R396 to R417, R466 to R478, R481). -/

namespace Sys2Proof.Machine

/-! ### Rails and clocks (R396, R397, R410, R412) -/

/-- Nominal levels in mV. -/
def railMv (r : Nat) : Nat := [750, 800, 750, 900, 1200, 2500, 1800, 2500, 750, 750, 1200, 750].getD r 0

/-- The order in which rails are turned on. -/
def wakeOrder : List Nat := [0, 1, 11, 9, 10, 8, 6, 7, 3, 2, 4, 5]

/-- A rail at a level in mV; READ_VOUT lies within 10 mV of it. -/
def State.railAt (s : State) (r mv : Nat) : State :=
  let v := mv - 10 + (Config.reading s.free).toNat % 21
  s.draw.setRail r { s.rail r with on := true, pg := true, mv := BitVec.ofNat 16 v }
/-- A rail turned on; one that is on stays as it is. -/
def State.railOn (s : State) (r : Nat) : State := if (s.rail r).on then s else s.railAt r (railMv r)

/-- The clock domains whose logic a rail feeds. -/
def railFeeds (r : Nat) : List Nat :=
  if r = 0 then [1] else if 2 ≤ r ∧ r ≤ 4 then [0, 2] else if r = 8 then (List.range 16).map (· + 7)
  else if r = 9 ∨ r = 10 then [3] else if r = 11 then [4] else []

/-- Whether the PMBus port sends a command that lowers a rail to a level, or turns it off at 0: every domain that the rail feeds is
stopped, or runs at the divider that the level allows (R410). -/
def State.mayLower (s : State) (r mv : Nat) : Bool :=
  (railFeeds r).all fun d => !(s.dom d).run || (mv == 700 && (s.dom d).div != 0)

/-- The port refuses a command: PWR_PMB_LAST and a power fault (R410, log 84). -/
def State.pmbusRefuse (s : State) (r cmd data : Nat) : State :=
  let s1 := ((((s.setFlag PWR_PMB_LAST.valid true).setFlag PWR_PMB_LAST.fw false).setFld PWR_PMB_LAST.rail r).setFld
    PWR_PMB_LAST.cmd cmd).setFld PWR_PMB_LAST.data data
  s1.raise { cls := 12, code := 1, unit := r, arg0 := (s1.reg PWR_PMB_LAST.data.off).toNat }

/-- OPERATION off, where the port sends it. -/
def State.railOff (s : State) (r : Nat) : State :=
  if s.mayLower r 0 then s.setRail r { s.rail r with on := false, pg := false, mv := 0 } else s.pmbusRefuse r 1 0

/-- VOUT_COMMAND to a lower level, where the port sends it. -/
def State.railLower (s : State) (r mv : Nat) : State := if s.mayLower r mv then s.railAt r mv else s.pmbusRefuse r 0x21 mv

/-- CORE and LOOP on the RC oscillator, which clocks BRONZE. -/
def State.rcClocks (s : State) : State :=
  (([1, 5].foldl (fun s d => s.onSource d 1) s).setDom 6 ⟨true, true, 1, false, 0, (s.dom 6).share, (s.dom 6).flt⟩)

/-- The on-module oscillator starts. -/
def State.xoStart (s : State) : State := { s with clk := { s.clk with xoOn := some (s.clk.xoOn.getD s.tick) } }

/-- The PCIE domain runs on its own reference clock while VPCIE is good. -/
def State.pcieClock (s : State) : State :=
  let run := (s.rail 11).on && s.pins.refclk
  s.setDom 4 ⟨run, run, 3, false, 0, (s.dom 4).share, (s.dom 4).flt⟩

/-- The reference PLL locks on the on-module oscillator; its domains run, and CORE and LOOP are switched to it. -/
def State.pllClocks (s : State) : State :=
  let s1 := (s.setFlag CLK_REF_STAT.lock true).setFld CLK_REF_STAT.sel 2
  [0, 1, 2, 3, 5].foldl (fun s d =>
    if (s.dom d).run then (s.onSource d 0).switchLast false d 1 0 6 else s.onSource d 0) s1

/-! ### The entry handshake (R403, R406 to R409) -/

/-- The blocks that are asked, in the order of their numbers. -/
def entryBlocks : List Nat := (List.range 37).map (· + 1)

/-- Whether a block refuses a target state. -/
def State.refuses (s : State) (tgt n : Nat) : Bool :=
  if n = 1 then tgt == 3 && s.scores.scores.any fun x => x.2.state != .none
  else if n < 10 then s.bayState (n - 2) == 3 || s.bayState (n - 2) == 5
  else if 20 ≤ n ∧ n < 36 then
    (tgt == 1 || tgt == 2) && (List.range 4).any fun g => (s.group (n - 20) g).bound && (s.group (n - 20) g).cls == .assured
  else false

/-- Whether a block delays. -/
def State.delays (s : State) (n : Nat) : Bool :=
  if n = 1 then s.scores.scores.any fun x => x.2.state == .loading || x.2.state == .analysing
  else if n < 10 then s.bayState (n - 2) == 4
  else if n < 20 then
    ((s.slots (n - 10)).any fun l => (s.loopOf (n - 10) l).ramping) ||
      (n == 19 && (List.range 9).any fun i => s.spareState i == 2)
  else if n < 36 then (List.range 4).any fun g =>
    let f := s.group (n - 20) g
    !f.replay.isEmpty || !f.reads.isEmpty || !f.writes.isEmpty
  else if n = 36 then s.strm.queues.any fun q => !q.2.xfers.isEmpty
  else !s.gddr.trained || !s.gddr.retry.isEmpty

def State.refusing (s : State) (tgt : Nat) : Option Nat := entryBlocks.find? (s.refuses tgt)
def State.delaying (s : State) : Option Nat := entryBlocks.find? s.delays

/-- The present power state. -/
def State.pstate (s : State) : Nat := s.fld PWR_STAT.state

/-- Completes the command of an entry or a wake, if one asked for it. -/
def State.answerNo (s : State) (no : Option Nat) (status : Nat) (vs : List Nat) : State :=
  match no with
  | some n => s.completeNo n status 0 vs
  | none => s

/-- An entry ends without being made: the block is recorded, the command answered. -/
def State.abandon (s : State) (e : Entry) (status n : Nat) : State :=
  let s1 : State := (s.setFld PWR_STAT.blk n).setFld PWR_STAT.phase 0
  ({ s1 with pwr := { s1.pwr with entry := none } } : State).answerNo e.no status [s.pstate, n]

/-- ENTRY_TIMEOUT. -/
def State.entryExpired (s : State) : State :=
  match s.pwr.entry, s.delaying with
  | some e, some n => if e.due ≤ s.tick then s.abandon e 1 n else s
  | _, _ => s

/-- ENTRY_TIMEOUT (R409). -/
def execEntryTimeout (s : State) : Host.Outcome State Fault Refusal := .next s.entryExpired

/-! ### The save list (R404) -/

/-- Bits of a word. -/
def fieldMask (hi lo : Nat) : Word := BitVec.ofNat 32 (2 ^ (hi + 1) - 2 ^ lo)

/-- The registers saved of a tile, a bay and an engine: offset within the unit and the bits kept. -/
def savedTile : List (Nat × Word) :=
  [0x30, 0x38, 0x50, 0x54, 0x60, 0x10, 0x14, 0x18, 0x48, 0x20, 0x24, 0x28, 0x2C, 0x3C, 0x64].map (·, fieldMask 31 0) ++
    [(0x6C, fieldMask 15 0)]
def savedBay : List (Nat × Word) := [0x24, 0x28, 0x2C, 0x30, 0x18, 0x08, 0x1C].map (·, fieldMask 31 0)
def savedEngine : List (Nat × Word) :=
  [(0x04, fieldMask 31 0), (0x54, fieldMask 15 0), (0x58, fieldMask 31 0), (0x5C, fieldMask 31 0), (0x60, fieldMask 31 0),
    (0x28, fieldMask 15 0)]

def tileRegs (t : Nat) : Nat := 0x200000 + t * 0x10000
def bayRegs (b : Nat) : Nat := 0x100000 + b * 0x10000
def engineRegs (e : Nat) : Nat := 0x400000 + e * 0x10000

/-- The saved registers of the units of a bay. -/
def savedRegs (b : Nat) : List (Nat × Word) :=
  ((List.range 4).flatMap fun k => savedTile.map fun p => (tileRegs (4 * b + k) + p.1, p.2)) ++
    (savedBay.map fun p => (bayRegs b + p.1, p.2)) ++ (savedEngine.map fun p => (engineRegs b + p.1, p.2))

/-- The save image. -/
def State.saveImage (s : State) : SaveImage where
  regs := ((List.range 8).flatMap savedRegs).foldl (fun t p => Tab.set regReset t p.1 (s.reg p.1)) []
  tiles := (List.range 32).foldl (fun t n => Tab.set (fun _ => (0, 0)) t n ((s.tile n).gen, (s.tile n).hop)) []
  events := (List.range 8).foldl (fun t b => Tab.set dNil t b (s.bay b).events) []
  loops := (List.range 8).foldl (fun t e => Tab.set dNil t e (s.engine e).loops) []
  ncos := (List.range 8).foldl (fun t e => Tab.set dNil t e (s.engine e).nco) []

/-- Whether an offset lies in a block of the BAYS domain that belongs to a bay. -/
def ofBay (b off : Nat) : Bool :=
  let u := off / 0x10000
  (0x20 + 4 * b ≤ u && u < 0x24 + 4 * b) || u == 0x10 + b || u == 0x40 + b

/-- What a bay loses with the BAYS rails: its tiles, strands, code, queues and engine, and its registers. A withdrawn bay
stays withdrawn (R285). -/
def State.parkBay (s : State) (b : Nat) : State :=
  let i := s.bayScore b
  let s1 := s.clearBay b i i []
  let s2 := (List.range 4).foldl (fun s k => s.modTile (4 * b + k) fun x =>
    { x with mant := [], gword := [], dither := 1, reseed := none, started := 0, ended := 0, band := false, scaleBad := false }) s1
  let s3 := s2.modBay b fun y => { Bay.reset with
    role := y.role, minLines := y.minLines, brokenZones := y.brokenZones, calibrated := y.calibrated, nextJob := y.nextJob }
  let s4 : State := { s3.setEngine b Engine.reset with regs := s3.regs.filter fun p => !ofBay b p.1 }
  let s5 := s4.setFld (levelFld b) 0
  if s5.bayState b = 6 then s5 else s5.setBayState b 0

/-- Every output of LE0 to LE7 and every bay comb's heater at its safe code; the bay combs' drives at zero, their loops in
HOLD (R402). -/
def State.parkLight (s : State) : State :=
  let s1 := ((List.range 4864) ++ (List.range 40).map (· + 5184)).foldl (fun s o =>
    s.setTrimOut o { s.trimOut o with code := BitVec.ofNat 16 (s.safeCode o) }) s
  (List.range 8).foldl (fun s i => (List.range 5).foldl (fun s c =>
    ((s.setComb i c { s.comb i c with ma := 0, mw := 0 }).askMode 9 (driveSlot i c) .hold).askMode 9 (tuneSlot i c) .hold) s) s1

/-! ### The entries (R399, R402, R403, R404, R406, R410) -/

/-- SYM and PEWTER stop at the outputs of their PLLs, CORE runs at divider 2, VCORE falls to 0.700 V after it. -/
def State.slowClocks (s : State) : State :=
  let s1 := [0, 2].foldl (fun s d => s.setDom d { s.dom d with run := false }) s
  (s1.setDom 1 { s1.dom 1 with div := 1 }).railLower 0 700

/-- The clocks of A0, VCORE first; SYM and PEWTER stay stopped while the reference is lost. -/
def State.fullClocks (s : State) : State :=
  let s1 := s.railAt 0 750
  let s2 := s1.setDom 1 { s1.dom 1 with div := 0 }
  if s2.flag CLK_REF_STAT.lost then s2 else [0, 2].foldl (fun s d => s.setDom d { s.dom d with run := true }) s2

/-- The steady end of an entry or a wake. -/
def State.reached (s : State) (st : Nat) : State := (s.setFld PWR_STAT.state st).setFld PWR_STAT.phase 0

/-- Entry to A2. -/
def State.enterA2 (s : State) : State :=
  let img := s.saveImage
  let s1 := s.parkLight
  let s2 := (List.range 8).foldl State.parkBay s1
  let s3 := (([2, 3, 4, 5].foldl State.railOff s2.slowClocks).setFlag PWR_SAVE.valid true).setFld PWR_SAVE.bytes 241760
  ({ s3 with pwr := { s3.pwr with img := some img, imgBad := false } } : State).reached 2

/-- Every reply that the ring has room for is written. -/
def State.drainReplies (s : State) : State := s.cmd.done.foldl (fun s _ => s.replyWrite) s

/-- Entry to A3 by the handshake or by force: leave announcements on every port that is up, then everything goes. -/
def State.leaveForA3 (s : State) : State :=
  let n := s.fab.leaves + s.upPorts.length
  let t := s.drainReplies.enterA3
  { t with fab := { t.fab with leaves := n } }

/-- An entry that every block has granted. -/
def State.enter_ (s : State) (e : Entry) : State :=
  let s1 : State := { s.bump PWR_STAT.ents with pwr := { s.pwr with entry := none } }
  if e.target = 1 then (s1.slowClocks.reached 1).answerNo e.no 0 [1]
  else if e.target = 2 then s1.enterA2.answerNo e.no 0 [2]
  else
    let t := (s1.answerNo e.no 0 [3]).leaveForA3
    (t.setFld PWR_STAT.ents (s1.fld PWR_STAT.ents)).setFld PWR_STAT.target 3

/-- POWER_ENTRY: a refusal ends the entry, a delay lets it wait, and with every grant it is made. -/
def State.powerEntry (s : State) : State :=
  match s.pwr.entry with
  | none => s
  | some e =>
    match s.refusing e.target with
    | some n => s.abandon e 5 n
    | none => if s.delaying.isSome then s else s.enter_ e

/-- POWER_ENTRY (R407). -/
def execPowerEntry (s : State) : Host.Outcome State Fault Refusal := .next s.powerEntry

/-- A wake begins. -/
def State.startWake (s : State) (no : Option Nat) : State :=
  let s1 := (s.setFld PWR_STAT.phase 2).setFld PWR_STAT.target 0
  { s1 with pwr := { s1.pwr with wake := some ⟨s.pstate, 0, no, s.tick, none⟩ } }

/-- POWER_STATE's start. -/
def State.powerState (s : State) (k : Nat) (c : Taken) : State :=
  let cur := s.pstate
  let t := c.p 0
  if 4 ≤ t then s.complete k 3
  else if t = cur then s.complete k 0 0 [cur]
  else if s.pwr.wake.isSome then s
  else if t = 0 then (s.begin k).startWake (some c.no)
  else if cur ≠ 0 ∧ ¬ (cur = 2 ∧ t = 3) then s.complete k 5 0 [cur]
  else match s.refusing t with
    | some n => (s.setFld PWR_STAT.blk n).complete k 5 0 [cur, n]
    | none =>
      let s1 := (s.begin k).setFld PWR_STAT.target t
      { s1 with pwr := { s1.pwr with entry := some ⟨t, some c.no, s.tick + 1000 * s.fld PWR_ENT_TMO.ms⟩ } }

/-- POWER_STATE (R407). -/
def execPowerState (k : Nat) (s : State) : Host.Outcome State Fault Refusal := .next (s.command k 0x0601 (·.powerState k))

/-! ### Leaving A1 (R401) -/

/-- Work that A1 returns to A0 for: a command taken other than the four named, or a message that has arrived. -/
def State.workArrived (s : State) : Bool :=
  (s.cmd.taken.any fun c => !([0x0001, 0x0002, 0x0302, 0x0601].contains c.opcode.toNat)) ||
    (List.range 64).any fun n => !(s.group (n / 4) (n % 4)).arrived.isEmpty

/-- A1_EXIT (R401). -/
def execA1Exit (s : State) : Host.Outcome State Fault Refusal :=
  .next (if s.pstate = 1 ∧ s.pwr.wake.isNone ∧ s.workArrived then s.fullClocks.reached 0 else s)

/-! ### Wake (R402, R404, R405, R412 to R415) -/

/-- A loop of LE0 to LE7 as its saved records, target and profile leave it, in HOLD. -/
def wokenLoop (e l : Nat) (old : Loop) : Loop :=
  { dLoop e l with recs := old.recs, target := old.target, clp := old.clp, prof := old.prof, pairBad := old.pairBad
                   r := (old.target.toInt : Rat) / 4096 }

/-- Restores what the image holds of a bay. -/
def State.restoreBay (s : State) (img : SaveImage) (b : Nat) : State :=
  let s1 := (savedRegs b).foldl (fun s p => s.setReg p.1 ((Tab.get regReset img.regs p.1 &&& p.2) ||| (s.reg p.1 &&& ~~~p.2))) s
  let s2 := (List.range 4).foldl (fun s k =>
    let t := 4 * b + k
    let g := Tab.get (fun _ => (0, 0)) img.tiles t
    s.modTile t fun x => { x with gen := g.1, hop := g.2, dither := seed32 (s.reg (TILE_DITH_SEED.seed.on t).off) }) s1
  let s3 := s2.modBay b fun y => { y with events := Tab.get dNil img.events b }
  let loops := ((Tab.get dNil img.loops b).map fun p => (p.1, wokenLoop b p.1 p.2)).foldl
    (fun t p => Tab.set (dLoop b) t p.1 p.2) []
  let nco := (Tab.get dNil img.ncos b).foldl (fun t p => Tab.set dNco t p.1 (0, p.2.2)) []
  s3.setEngine b { s3.engine b with loops := loops, nco := nco }

/-- The claims of the score that holds a bay whose sequences run on it are broken. -/
def State.breakBound (s : State) (b : Nat) : State :=
  let i := s.bayScore b
  match (s.score i).pkg with
  | none => s
  | some p => (s.score i).claims.foldl (fun s c =>
      match p.seqs[c.2.seq]? with
      | some q => if q.bayRole = (s.bay b).role then s.promiseBreak i c.1 0 else s
      | none => s) s

/-- A bay whose restore has failed. -/
def State.restoreFailed (s : State) (b : Nat) : State :=
  ((s.setBitOf PWR_SAVE.bfail b true).breakBound b).raise { cls := 12, code := 2, unit := b, score := s.bayScore b }

/-- A bay returns from A2: its code copied again, its tables copied, its planes written with zero codes and its entries
clear. -/
def State.unparkBay (s : State) (b : Nat) : State :=
  let i := s.bayScore b
  let y := s.bay b
  let code := match (s.score i).pkg with | some p => bayCode p y.role | none => []
  let s1 := s.modBay b fun y => { y with imem := if i = 0 then [] else codeTab code }
  let s3 := (List.range 4).foldl (fun s k => (s.copyTable (4 * b + k)).zeroPlanes (4 * b + k)) s1
  s3.setFlag (LOOP_STAT.run.on b) (s3.flag GUARD_STAT.rel)

/-- Wake from A2. -/
def State.wakeA2 (s : State) (headerOk : Bool) (badBays : BitVec 8) : State :=
  let ok := headerOk && !s.pwr.imgBad
  let failed := fun (b : Nat) => !ok || badBays.getLsbD b
  let s1 := (wakeOrder.foldl State.railOn s).fullClocks.setFld PWR_SAVE.bfail 0
  let s2 := (List.range 8).foldl (fun s b =>
    if failed b then s.restoreFailed b else match s.pwr.img with | some img => s.restoreBay img b | none => s) s1
  let s3 := if (List.range 8).any failed then s2.setFlag PWR_SAVE.chk true else s2
  let s4 := ((List.range 8).foldl State.unparkBay s3).setFlag PWR_SAVE.valid false
  let s5 : State := { s4 with pwr := { s4.pwr with img := none, imgBad := false } }
  let s6 := ((List.range 10).foldl State.startLoops s5).returnBays
  let s7 := if s6.pins.pinForce then s6.forceAll 2 else s6
  if !ok then s7.setFld PWR_WAKE.code 0x40
  else if badBays = 0 then s7.setFld PWR_WAKE.code 0
  else s7

/-- Wake from A3: rails and clocks, then the steps of power-up from step 3. -/
def State.wakeA3 (s : State) : State :=
  let s1 := (((wakeOrder.foldl State.railOn s.xoStart).rcClocks.pllClocks.pcieClock).setFlag PWR_STAT.mgmt false).forceAll 1
  let s2 := ([0, 1, 2].foldl (fun s n => s.setBitOf GLB_PUP.steps n true) s1).setFld PWR_WAKE.code 0
  { s2 with pwr := { s2.pwr with step := 3 } }

/-- WAKE: the attempt under way succeeds. `headerOk` and `badBays` are what the check of the save image finds. -/
def State.wake (s : State) (headerOk : Bool) (badBays : BitVec 8) : State :=
  match s.pwr.wake with
  | none => s
  | some w =>
    if w.failed.isSome then s
    else
      let s0 : State := { s with pwr := { s.pwr with wake := none } }
      let s1 := if w.src = 1 then s0.fullClocks.setFld PWR_WAKE.code 0
        else if w.src = 2 then s0.wakeA2 headerOk badBays else s0.wakeA3
      let s2 := ((((List.range 8).foldl (fun s b => s.noteUpset b 2) s1).reached 0).setFld PWR_WAKE.retries w.retries).setSat PWR_WAKE.ms ((s.tick - w.start) / 1000)
      s2.answerNo w.no 0 [0]

/-- WAKE (R412). -/
def execWake (headerOk : Bool) (badBays : BitVec 8) (s : State) : Host.Outcome State Fault Refusal :=
  .next (s.wake headerOk badBays)

/-- The rail that a failure code names. -/
def codeRail (code : Nat) : Option Nat := if 0x10 ≤ code ∧ code ≤ 0x1B then some (code - 0x10) else none

/-- Whether a failure can happen: a rail that the attempt turns on, the oscillator or the reference PLL. -/
def State.canFail (s : State) (code : Nat) : Bool :=
  match codeRail code with
  | some r => !(s.rail r).on
  | none => code == 0x30 || code == 0x31

/-- A failed attempt counts on its rail. -/
def State.railFailed (s : State) (code : Nat) : State :=
  match codeRail code with
  | some r =>
    let x := s.rail r
    s.setRail r { x with fails := if x.fails = 255 then 255 else x.fails + 1 }
  | none => s

/-- The record of a wake or power-up that has failed for good; when only the oscillator or the PLL failed, CTRL and LINK stay
powered, and in A3 management runs on the RC oscillator. -/
def State.wakeFailed (s : State) (code : Nat) : State :=
  let s1 := ((s.setFld PWR_WAKE.code code).setFld PWR_WAKE.retries 3).setFld PWR_STAT.phase 0
  let s2 := s1.raise { cls := 12, code := 3, unit := (codeRail code).getD 0, arg0 := code }
  if codeRail code = none ∧ s2.pstate = 3 then
    (([0, 1, 11].foldl State.railOn s2).rcClocks.pcieClock).setFlag PWR_STAT.mgmt true
  else s2

/-- WAKE_FAILURE: the rails that the attempt turned on are off again; the third retry's failure is recorded. -/
def State.wakeFailure (s : State) (code : Nat) : State :=
  match s.pwr.wake with
  | none => s
  | some w =>
    if w.failed.isSome ∨ !s.canFail code then s
    else
      let s1 := s.railFailed code
      if w.retries < 3 then { s1 with pwr := { s1.pwr with wake := some { w with failed := some s.tick } } }
      else
        let s2 := ({ s1 with pwr := { s1.pwr with wake := none } } : State).wakeFailed code
        s2.answerNo w.no 5 [s2.pstate]

/-- WAKE_FAILURE (R413). -/
def execWakeFailure (code : Byte) (s : State) : Host.Outcome State Fault Refusal := .next (s.wakeFailure code.toNat)

/-- WAKE_RETRY: 10 ms after the failure. -/
def State.wakeRetry (s : State) : State :=
  match s.pwr.wake with
  | none => s
  | some w => match w.failed with
    | none => s
    | some t => if t + 10000 ≤ s.tick then
        { s with pwr := { s.pwr with wake := some { w with failed := none, retries := w.retries + 1 } } } else s

/-- WAKE_RETRY (R413). -/
def execWakeRetry (s : State) : Host.Outcome State Fault Refusal := .next s.wakeRetry

/-! ### Power-up (R474 to R478) -/

/-- The nominal mean line power of a comb in units of 2^-12 mW (R276). -/
def nominalPower : Int := 251494

/-- A comb starts to lock: its drive to nominal, its loops asked for their working modes. -/
def State.lockComb (s : State) (i c : Nat) : State :=
  if (s.comb i c).state = 4 then s
  else
    let s1 := (s.setComb i c { s.comb i c with state := 1 }).driveTo (driveSlot i c) nominalPower
    (s1.askMode 9 (tuneSlot i c) (if (s1.loopOf 9 (tuneSlot i c)).kind = 1 then .acquire else .track)).askMode 9 (driveSlot i c) .track
def State.lockSource (s : State) (i : Nat) : State := (List.range (combsOf i)).foldl (fun s c => s.lockComb i c) s

/-- Loop modes as firmware asks for them at power-up. -/
def State.askLoops (s : State) (e : Nat) : State :=
  (s.slots e).foldl (fun s l => s.askMode e l (if (s.loopOf e l).kind = 1 then .acquire else .track)) s

def State.tracks (s : State) (e l : Nat) : Bool := (s.loopOf e l).mode == .track

/-- A source qualified at power-up: the combs whose tuning loops track are locked, their lines' last samples their
references. -/
def State.firstQualify (s : State) (i : Nat) : State :=
  s.qualify i ((List.range (combsOf i)).filter fun c => s.tracks 9 (tuneSlot i c)) []

/-- A bay enters service: its tables are checked and built if the check fails. -/
def State.openBay (s : State) (b : Nat) : State :=
  let s1 := (List.range 4).foldl (fun s k => s.copyTable (4 * b + k)) s
  let s2 := if (List.range 4).all fun k => (s1.tile (4 * b + k)).tblOk then s1 else s1.firstCalibration b
  let s3 := (s2.freshBay b).modBay b fun y => { y with calibrated := true, lostSeen := 0 }
  ((s3.setBayState b 1).setDegraded b (s3.lostLines b != 0)).judgeBay b

/-- A step reached. -/
def State.stepDone (s : State) (n : Nat) : State :=
  let s1 := s.setBitOf GLB_PUP.steps n true
  { s1 with pwr := { s1.pwr with step := n + 1 } }

/-- What the conditions of a step are. Step 3 waits for an image, steps 5 to 7 for CLR_TRIM_N and the loops. -/
def State.stepReady (s : State) (n : Nat) : Bool :=
  if n = 3 then s.fld SEC_BOOT.run != 3
  else if n < 5 then true
  else if n = 5 then s.pins.clrTrim && s.flag SEC_BOOT.ver && s.tracks 9 40 && s.tracks 9 41
  else if n = 6 then s.pins.clrTrim && (List.range 8).all fun e => (s.slots e).all (s.tracks e)
  else s.pins.clrTrim

/-- The effect of a step. -/
def State.stepEffect (s : State) (n : Nat) : State :=
  match n with
  | 0 => (s.railAt 0 750).rcClocks.xoStart
  | 1 => ((wakeOrder.drop 1).foldl State.railOn s).pcieClock
  | 2 => s.pllClocks
  | 3 => s.trimGiven
  | 4 => (({ s with gddr := { s.gddr with trained := true } } : State).setFlag MEM_STAT.trained true).setFld MEM_STAT.dev 0xFFFF |>.lockSource 8
  | 5 => (List.range 8).foldl State.lockSource ((List.range 9).foldl State.askLoops (s.firstQualify 8).lockRelease)
  | 6 => (List.range 8).foldl State.firstQualify s
  | _ =>
    let s1 := (List.range 8).foldl State.openBay s
    if s1.bitOf GLB_PUP.steps 7 then s1 else s1.setSat GLB_PUP.ms (s1.tick / 1000)

/-- POWER_UP: the next step is reached, or fails: a rail or clock that fails before step 3 leaves the module in A3. -/
def State.powerUp (s : State) (o : StepOutcome) : State :=
  let n := s.pwr.step
  if s.pstate = 3 ∨ !s.pins.modReset ∨ s.flag THM_TRIP.latched ∨ 8 ≤ n then s
  else match o with
    | .ok => if s.stepReady n then (s.stepEffect n).stepDone n else s
    | .fail code =>
      if 3 ≤ n ∨ !s.canFail code.toNat then s
      else ((s.railFailed code.toNat).enterA3).wakeFailed code.toNat

/-- POWER_UP (R474). -/
def execPowerUp (o : StepOutcome) (s : State) : Host.Outcome State Fault Refusal := .next (s.powerUp o)

end Sys2Proof.Machine
end

