-- ==== Sys2Proof/Machine/Pins.lean ====
section
/-! DEFINITION. Pins, straps and supplies, the resets that they start, and the PCI Express link (R292, R293, R326, R341 to R349,
R382, R393, R468, R473, R476, R479, R480). -/

namespace Sys2Proof.Machine

/-! ### The reset of the function (R346, R393) -/

/-- A load in the loading state is abandoned: its home granules are free, and a LOAD_END that waits for it ends. -/
def State.dropLoad (s : State) (i : ScoreId) : State :=
  let s1 := match s.waitingEnd i with
    | some k => s.complete k 6 0x11
    | none => s
  s1.releaseAll i

/-- What a Function Level Reset clears: the window, the CMD registers, MSI-X, the loads in the loading state. Commands already
taken run on, and their replies are discarded. -/
def State.functionReset (s : State) : State :=
  let s1 : State := { s with
    regs := s.regs.filter fun p => p.1 / 0x10000 != 1
    armed := s.armed.filter fun p => p.1 / 0x10000 != 1
    cmd := { s.cmd with window := [], fresh := true, partial_ := none, ringNew := false, msix := [], done := []
                        taken := s.cmd.taken.map fun c => { c with mute := true } } }
  ((s1.scores.scores.filter fun x => x.2.state == .loading).foldl
    (fun s x => s.dropLoad (BitVec.ofNat 16 x.1)) s1).nextAnalysis

/-- The link goes down. -/
def State.linkDown (s : State) : State := { s with link := { s.link with up := false } }

/-- FUNCTION_LEVEL_RESET (R346). -/
def execFunctionLevelReset (s : State) : Host.Outcome State Fault Refusal :=
  .next (s.setFlag CLK_RST_CAUSE.flr true).functionReset

/-! ### The link (R342, R344, R349, R382, R476) -/

/-- PERST_N_ASSERT (R393): the link reset includes the function reset. -/
def execPerstNAssert (s : State) : Host.Outcome State Fault Refusal :=
  .next (if s.pins.perst then
      let s1 := ((s.setFlag CLK_RST_CAUSE.perst true).functionReset).linkDown
      { s1 with pins := { s1.pins with perst := false } }
    else s)

/-- PERST_N_RELEASE (R476). -/
def execPerstNRelease (s : State) : Host.Outcome State Fault Refusal :=
  .next (if s.pins.perst then s
    else { s with pins := { s.pins with perst := true }, link := { s.link with perstTick := s.tick } })

/-- The link may leave Detect. -/
def State.mayTrain (s : State) : Bool := (s.rail 11).pg && s.pins.refclk && s.pins.perst && !s.link.up

/-- LINK_RETRY: the link trains; without Flit mode it returns to Detect. -/
def State.linkRetry (s : State) (flit : Bool) (width : BitVec 3) (gen : BitVec 4) : State :=
  if !s.mayTrain then s
  else if flit then { s with link := { s.link with up := true, flit := true, width := width, gen := gen } }
  else { s with link := { s.link with flit := false } }

/-- LINK_RETRY (R342). -/
def execLinkRetry (flit : Bool) (width : BitVec 3) (gen : BitVec 4) (s : State) : Host.Outcome State Fault Refusal :=
  .next (s.linkRetry flit width gen)

/-- PCIE_REFCLK_STABLE: its loss keeps the link down and has no effect on another domain (R382, R476). -/
def execPcieRefclkStable (stable : Bool) (s : State) : Host.Outcome State Fault Refusal :=
  .next (let s1 := ({ s with pins := { s.pins with refclk := stable } } : State).pcieClock
    if stable then s1 else s1.linkDown)

/-- An error reported through AER. -/
def State.aer (s : State) : State := { s with link := { s.link with aer := s.link.aer + 1 } }

/-- An access that completes with Unsupported Request (R344, R349). -/
def State.unsupported (s : State) : State :=
  let s1 := s.aer
  { s1 with link := { s1.link with cpl := 1, read := [] } }

/-- LINK_ERROR: what R349 does about each. -/
def State.linkError (s : State) (e : LinkErr) : State :=
  match e with
    | .corrected | .unexpectedCompletion | .poisonedBar => s.aer
    | .poisonedWindow _ _ => s.aer.setFlag CMD_STAT.part true
    | .unsupported => s.unsupported
    | .fatal => s.aer.functionReset.linkDown

/-- LINK_ERROR (R349). -/
def execLinkError (e : LinkErr) (s : State) : Host.Outcome State Fault Refusal := .next (s.linkError e)

/-- The tick from which configuration requests are answered: 100 ms after PERST_N has risen or 120 ms after power good,
whichever is later. -/
def State.configFrom (s : State) : Nat := max (s.link.perstTick + 100000) 120000

/-- CONFIGURATION_REQUEST (R476). -/
def execConfigurationRequest (s : State) : Host.Outcome State Fault Refusal :=
  .next { s with link := { s.link with cpl := if s.tick < s.configFrom then 2 else 0 } }

/-! ### MOD_RESET_N and the supplies (R468, R473, R479, R480) -/

/-- MOD_RESET_N_ASSERT (R479). -/
def execModResetNAssert (s : State) : Host.Outcome State Fault Refusal :=
  .next (if s.pins.modReset then
      let s1 := s.moduleReset.setFlag CLK_RST_CAUSE.pin true
      { s1 with pins := { s1.pins with modReset := false } }
    else s)

/-- Power-up begins: steps and time cleared, the trip cleared and its pin released; every output is forced, which pauses every
bay (R291, R295). -/
def State.beginPowerUp (s : State) : State :=
  let s1 := (((s.setFld GLB_PUP.steps 0).setFld GLB_PUP.ms 0).setFlag THM_TRIP.latched false).forceAll 1
  { s1 with
    tick := 0, core := 0, pins := { s1.pins with modReset := true, trip := true }, pwr := { s1.pwr with step := 0 }
    link := { s1.link with perstTick := 0 } }

/-- The straps sampled at power good: an ID of 0x000 or 0xFFF leaves the module unassigned, with an ID fault (R326). -/
def State.sampleStraps (s : State) (compat : Bool) (nid : BitVec 12) : State :=
  let asg := nid != 0 && nid != 0xFFF
  let s1 := ((s.setFlag GLB_STRAP.compat compat).setFld FAB_PID.id nid.toNat).setFlag FAB_PID.asg asg
  if asg then s1 else s1.raise { cls := 8, code := 2 }

/-- POWER_GOOD (R473): the rising edge of MOD_RESET_N. -/
def execPowerGood (compat : Bool) (nid : BitVec 12) (s : State) : Host.Outcome State Fault Refusal :=
  .next (if s.pins.modReset ∨ !s.pins.vbrz then s else s.beginPowerUp.sampleStraps compat nid)

/-- POWER_ON_RESET (R393, R468). -/
def execPowerOnReset (sba : BitVec 3) (s : State) : Host.Outcome State Fault Refusal := .next (s.powerOn sba.toNat)

/-- STANDBY_LOSS: power-on reset is taken; until VBRZ is back the module drives nothing (R468, R480). -/
def execStandbyLoss (s : State) : Host.Outcome State Fault Refusal :=
  .next (let t := s.powerOn 0
    { t with pins := { t.pins with vbrz := false } })

/-- VRET_LOSS: the contents of stage banks 46 and 47 are lost (R468). -/
def execVretLoss (s : State) : Host.Outcome State Fault Refusal :=
  .next { s with stage := s.stage.keep fun a => a < 0x17000000 }

/-! ### CLR_TRIM_N (R292, R293, R295, R323) -/

/-- CLR_TRIM_N_ASSERT: every output is forced at once; bays pause, with a trim fault that names the pin, and groups go
down. -/
def State.clrTrimLow (s : State) : State :=
  if !s.pins.clrTrim then s
  else
    let s1 := (if s.pins.pinForce then s else s.forceAll 2).portsDown
    { s1 with pins := { s1.pins with clrTrim := false, pinForce := true, trimRise := none } }

/-- CLR_TRIM_N_ASSERT (R292). -/
def execClrTrimNAssert (s : State) : Host.Outcome State Fault Refusal := .next s.clrTrimLow

/-- CLR_TRIM_N_RELEASE (R293). -/
def execClrTrimNRelease (s : State) : Host.Outcome State Fault Refusal :=
  .next (if s.pins.clrTrim then s else { s with pins := { s.pins with clrTrim := true, trimRise := some s.tick } })

end Sys2Proof.Machine
end

