-- ==== Sys2Proof/Machine/RegViews.lean ====
section
/-! DEFINITION. What a read of a register returns: its stored fields, and the fields that show the state of units (R8, R9, R13,
R43, R44, R482 to R486 and the register tables of the chapters). -/

namespace Sys2Proof.Machine

/-- Puts values into fields of a word. -/
def putAll (w : Word) (l : List (Fld × Nat)) : Word := l.foldl (fun w p => putBits w p.1.hi p.1.lo p.2) w
/-- A number that a field of `n` bits can hold. -/
def sat (n v : Nat) : Nat := min v (2 ^ n - 1)
/-- One bit per unit. -/
def maskOf (n : Nat) (f : Nat → Bool) : Nat := (List.range n).foldl (fun m i => m + if f i then 2 ^ i else 0) 0

/-! ### GLB -/

/-- A load in the tile's queue stalls on the temperature table (R19). -/
def Tile.tblWait (x : Tile) : Bool :=
  match x.loadQ with
  | l :: _ => !x.tblOk && (l.zero || l.phase == 1)
  | [] => false

/-- A strand of the tile's bay stalls at a PLD to the tile while the table is not valid (R19). -/
def State.pldStall (s : State) (t : Nat) : Bool :=
  !(s.tile t).tblOk && (List.range 64).any fun j =>
    s.strandState (t / 4) j == .waitTable &&
      match s.nextInstr (t / 4) j with
      | some (_, .ok (.pld m ..)) => inMask m (t % 4)
      | _ => false

/-- A plane load on the tile stalls, in its strand or in the tile's queue. -/
def State.tblStall (s : State) (t : Nat) : Bool := (s.tile t).tblWait || s.pldStall t

def State.bayTblWait (s : State) (b : Nat) : Bool := (List.range 4).any fun k => s.tblStall (4 * b + k)

def ScoreState.code : ScoreState → Nat
  | .none => 0
  | .loading => 1
  | .analysing => 2
  | .loaded => 3
  | .running => 4
  | .unloading => 5

/-- Claimed roles of a score that are not bound. -/
def Score.unboundRoles (x : Score) : Nat :=
  match x.pkg with
  | none => 0
  | some p =>
    (p.bays.filter fun y => (x.roleRes 0 y.role).isNone).length + (p.pewter.filter fun y => (x.roleRes 1 y.role).isNone).length +
      (p.groups.filter fun y => (x.roleRes 2 y.1).isNone).length + (p.windows.filter fun r => (x.roleRes 3 r.1).isNone).length

/-- Whether a sequence of a class of a score runs on a bay. -/
def State.classRuns (s : State) (i : ScoreId) (c : Cls) : Bool :=
  (List.range 8).any fun b => match (s.bay b).run c with | some r => r.score == i | none => false

/-- GLB_SCORE_STAT of the selected score. -/
def State.scoreStat (s : State) : Word :=
  let i := BitVec.ofNat 16 (s.fld GLB_SCORE_SEL.score)
  let x := s.score i
  if i = 0 then 0
  else putAll 0 [(GLB_SCORE_STAT.state, x.state.code), (GLB_SCORE_STAT.a_run, (s.classRuns i .assured).toNat),
    (GLB_SCORE_STAT.s_run, (s.classRuns i .spare).toNat),
    (GLB_SCORE_STAT.bays, ((List.range 8).filter fun b => s.bayScore b == i).length),
    (GLB_SCORE_STAT.sgran, (heldBy s.scores.sgran i.toNat).length), (GLB_SCORE_STAT.unbound, sat 6 x.unboundRoles),
    (GLB_SCORE_STAT.claims, x.claims.length), (GLB_SCORE_STAT.svcs, match x.pkg with | some p => p.services.length | none => 0)]

/-- The power step applied to the sequence of a claim: λ − 8 of the bay that it runs on. -/
def State.claimStep (s : State) (i : ScoreId) (n : Nat) : Nat :=
  match (s.score i).claims.find? (·.1 == n) with
  | some c => (s.claimBays i c.2).foldl (fun a b => max a (s.level b - 8)) 0
  | none => 0

def State.promSel (s : State) : ScoreId × Nat := (BitVec.ofNat 16 (s.fld GLB_PROM_SEL.score), s.fld GLB_PROM_SEL.claim)
def State.promShown (s : State) : Promise := (s.score s.promSel.1).promise s.promSel.2

/-- The selected word of the selected fault record. -/
def State.faultWord (s : State) : Word :=
  let v := if s.flag GLB_FLT_SEL.last then s.faults.last.getD 0 else s.ringRec (s.fld GLB_FLT_SEL.idx)
  let w := s.fld GLB_FLT_SEL.word
  if w < 8 then BitVec.ofNat 32 (v.toNat / 2 ^ (32 * w)) else ~~~BitVec.ofNat 32 (v.toNat / 2 ^ (32 * (w - 8)))

def State.pepCount (s : State) : Nat :=
  let r := s.fld GLB_PEP_SEL.rsn
  if r = 0 then sat 32 ((List.range 16).foldl (fun a k => a + (s.markCount k).toNat) 0) else (s.markCount r).toNat

def State.viewGLB (s : State) (o : Nat) : Word :=
  if o = 0x14 then putAll (s.reg o) [(GLB_INTERLOCK.thr, maskOf 8 fun b => s.level b != 0), (GLB_INTERLOCK.tblw, maskOf 8 s.bayTblWait)]
  else if 0x20 ≤ o ∧ o ≤ 0x3C then
    let y := s.bay ((o - 0x20) / 4)
    putAll (s.reg o) [(GLB_BAY_OWNER.cls, y.assured.isSome.toNat + 2 * y.spare.isSome.toNat)]
  else if o = 0x44 then s.scoreStat
  else if o = 0x4C then
    let p := s.promShown
    putAll 0 [(GLB_PROM_STAT.state, p.state.toNat), (GLB_PROM_STAT.floor, p.floor.toNat),
      (GLB_PROM_STAT.step, s.claimStep s.promSel.1 s.promSel.2), (GLB_PROM_STAT.cause, p.cause.toNat),
      (GLB_PROM_STAT.misses, p.misses)]
  else if o = 0x50 then BitVec.ofNat 32 (sat 32 s.promShown.bound)
  else if o = 0x54 then BitVec.ofNat 32 (sat 32 s.promShown.worst)
  else if o = 0x78 then s.faultWord
  else if o = 0x80 then BitVec.ofNat 32 s.pepCount
  else s.reg o

/-! ### CMD, GUARD and SEC -/

/-- `o` is the offset within the block. -/
def State.viewCMD (s : State) (o : Nat) : Word :=
  if o = 0 then BitVec.ofNat 32 (s.cons / 32 * 32)
  else if o = 8 then putAll (s.reg 0x10008) [(CMD_STAT.inprog, s.cmd.taken.length)]
  else if (0x8000 ≤ o ∧ o < 0x8400) ∨ o = 0x9000 ∨ o = 0x9004 then Tab.get dMsix s.cmd.msix o
  else s.reg (0x10000 + o)

def State.viewGUARD (s : State) (o : Nat) : Word :=
  if o = 0xC then (s.guardPair (s.fld GUARD_LIM_SEL.idx)).val else s.reg (0x20000 + o)

/-- The measurement register that SEC_MEAS_SEL selects, if it names one. -/
def State.measSel (s : State) : Option Nat :=
  let n := s.fld SEC_MEAS_SEL.idx
  if 1 ≤ n ∧ n ≤ 6 then some n else none

def State.viewSEC (s : State) (o : Nat) : Word :=
  if o = 0 then putAll (s.reg 0x30000) [(SEC_BOOT.svn, sat 6 s.svnCounter)]
  else if o = 4 then putAll (s.reg 0x30004) [(SEC_MEAS_SEL.ext, match s.measSel with | some n => Tab.get dZero s.sec.exts n | none => 0)]
  else if o = 8 then match s.measSel with
    | some n => BitVec.ofNat 32 (leDword (Tab.get (fun _ => List.replicate 64 (0 : Byte)) s.sec.meas n) (s.fld SEC_MEAS_SEL.word))
    | none => 0
  else s.reg (0x30000 + o)

/-! ### CLK, PWR and THM -/

/-- A correction applied within the last `n` ticks. -/
def State.since (s : State) (t : Option Nat) (n : Nat) : Bool := match t with | some a => decide (s.tick ≤ a + n) | none => false

def State.viewCLK (s : State) (o : Nat) : Word :=
  if o = 0 then putAll (s.reg 0x40000) [(CLK_REF_STAT.cand, s.xoLocked.toNat), (CLK_REF_STAT.ppb, (Config.reading s.free).toNat)]
  else if o = 4 then
    putAll (s.reg 0x40004) [(CLK_CORR.xo_ok, (s.since s.clk.xoTick 100000).toNat), (CLK_CORR.rc_ok, (s.since s.clk.rcTick 1000).toNat)]
  else if o = 0xC then
    let n := s.fld CLK_DOM_SEL.dom
    let d := s.dom n
    if 22 < n then 0
    else putAll 0 [(CLK_DOM_STAT.run, d.run.toNat), (CLK_DOM_STAT.pll, (d.pll || n == 6).toNat), (CLK_DOM_STAT.src, d.src.toNat),
      (CLK_DOM_STAT.ramp, d.ramp.toNat), (CLK_DOM_STAT.div, d.div.toNat), (CLK_DOM_STAT.gated, d.share.toNat),
      (CLK_DOM_STAT.flt, d.flt.toNat)]
  else s.reg (0x40000 + o)

def State.viewPWR (s : State) (o : Nat) : Word :=
  if o = 0xC then
    let n := s.fld PWR_RAIL_SEL.rail
    let r := s.rail n
    if 11 < n then 0
    else putAll 0 [(PWR_RAIL_STAT.on, r.on.toNat), (PWR_RAIL_STAT.pg, r.pg.toNat), (PWR_RAIL_STAT.fails, r.fails.toNat),
      (PWR_RAIL_STAT.mv, r.mv.toNat)]
  else s.reg (0x50000 + o)

/-- A sensor that governs a bay is broken. -/
def State.bayBroken (s : State) (b : Nat) : Bool := (List.range 632).any fun n => (s.sensor n).broken && (governed n).contains b

def State.viewTHM (s : State) (o : Nat) : Word :=
  if o = 0 then putAll (s.reg 0x60000) [(THM_STAT.trip, (s.flag THM_TRIP.latched).toNat), (THM_STAT.exc, maskOf 8 fun b => (s.engine b).exc),
    (THM_STAT.brk, maskOf 8 s.bayBroken), (THM_STAT.mod, if s.moduleCause then 255 else 0)]
  else if o = 8 then
    let n := s.fld THM_SEL.sensor
    let x := s.sensor n
    if 631 < n then 0
    else putAll 0 [(THM_SENS.brk, x.broken.toNat), (THM_SENS.fast, x.fast.toNat), (THM_SENS.state, x.state.toNat),
      (THM_SENS.rate, unsigned 8 (clampI (x.rate * 5 / 16) (-128) 127)), (THM_SENS.temp, x.temp.toNat)]
  else s.reg (0x60000 + o)

/-! ### LSA and TRIM -/

def State.viewLSA (s : State) (o : Nat) : Word :=
  let i := s.fld LSA_SRC_SEL.src
  let c := s.fld LSA_SRC_SEL.comb
  let n := s.fld LSA_SRC_SEL.line
  if o = 8 then
    if 8 < i then 0
    else putAll 0 [(LSA_SRC_STAT.deg, (s.lostLines i != 0).toNat), (LSA_SRC_STAT.wdr, (i < 8 && s.bayState i == 6).toNat),
      (LSA_SRC_STAT.spos, (s.source i).spos.toNat), (LSA_SRC_STAT.lost, s.lostLines i),
      (LSA_SRC_STAT.aff, (s.affected i).length), (LSA_SRC_STAT.arms, (s.source i).arms.toNat)]
  else if o = 0xC then
    let y := s.comb i c
    if 8 < i ∨ combsOf i ≤ c then 0
    else putAll 0 [(LSA_COMB_STAT.state, y.state.toNat), (LSA_COMB_STAT.pos, y.pos.toNat), (LSA_COMB_STAT.boost, y.boost),
      (LSA_COMB_STAT.clamp, y.clamp.toNat), (LSA_COMB_STAT.ma, sat 12 y.ma), (LSA_COMB_STAT.mw, sat 10 y.mw)]
  else if o = 0x10 then
    let l := s.line i c n
    if 8 < i ∨ combsOf i ≤ c ∨ linesOf i ≤ n then 0
    else putAll 0 [(LSA_LINE.lost, l.lost.toNat), (LSA_LINE.aff, l.aff.toNat), (LSA_LINE.arm, l.arm.toNat), (LSA_LINE.warn, l.warn.toNat),
      (LSA_LINE.fast, l.fast.toNat), (LSA_LINE.rel, unsigned 16 l.rel)]
  else s.reg (0x70000 + o)

/-- Outputs that are forced. -/
def State.forcedCount (s : State) : Nat := if s.allForced then 5227 else (s.trims.filter fun p => p.2.rb).length

def State.viewTRIM (s : State) (o : Nat) : Word :=
  let n := s.fld TRIM_SEL.out
  let x := s.trimOut n
  let e := s.fld TRIM_NCO_SEL.eng
  let t := (s.engine e).tone (s.fld TRIM_NCO_SEL.nco)
  if o = 0 then putAll 0 [(TRIM_STAT.pin, (!s.pins.clrTrim).toNat), (TRIM_STAT.gflt, (s.flag GUARD_STAT.flt).toNat),
    (TRIM_STAT.rel, (s.flag GUARD_STAT.rel).toNat), (TRIM_STAT.forced, s.forcedCount)]
  else if o = 8 then
    if 5226 < n then 0
    else putAll 0 [(TRIM_OUT.class, outClass n), (TRIM_OUT.why, s.whyForced n), (TRIM_OUT.mcnt, x.mcnt), (TRIM_OUT.code, s.outCode n)]
  else if o = 0xC then
    if 5226 < n then 0 else putAll 0 [(TRIM_RB.exp, x.exp.toNat), (TRIM_RB.meas, x.meas.toNat)]
  else if o = 0x1C then (if 9 < e then 0 else t.2.1)
  else if o = 0x20 then (if 9 < e then 0 else t.2.2 &&& 0xFFC00FFF)
  else s.reg (0x80000 + o)

/-! ### BAY and TILE -/

def StrandState.code : StrandState → Nat
  | .unused => 0
  | .idle => 1
  | .ready => 2
  | .waitQueue => 3
  | .waitTable => 4
  | .waitStream => 5
  | .waitEvent => 6
  | .waitTest => 7
  | .halted => 8
  | .faulted => 9

/-- Whether a counter is allocated to the score that holds a bay: to a sequence of the bay's role, or to the score. -/
def State.allocated (s : State) (b ev : Nat) : Bool :=
  let x := s.score (s.bayScore b)
  if 256 ≤ ev then x.hasCounter ev
  else match x.pkg with
    | some p => p.seqs.any fun q => q.bayRole == (s.bay b).role && q.events.contains ev
    | none => false

def strandsOf (r : Option SeqRun) : Nat := match r with | some r => r.strands.length | none => 0

def State.viewBAY (s : State) (b o : Nat) : Word :=
  let y := s.bay b
  if o = 4 then putAll (s.reg (0x100000 + 0x10000 * b + 4)) [(BAY_SEQ_STAT.a_run, y.assured.isSome.toNat),
    (BAY_SEQ_STAT.s_run, y.spare.isSome.toNat), (BAY_SEQ_STAT.a_str, strandsOf y.assured), (BAY_SEQ_STAT.s_str, strandsOf y.spare),
    (BAY_SEQ_STAT.rdy, ((List.range 64).filter (s.ready b)).length)]
  else if o = 0xC then
    let t := y.strand (s.fld (BAY_STRAND_SEL.strand.on b))
    putAll 0 [(BAY_STRAND_STAT.state, (s.strandState b (s.fld (BAY_STRAND_SEL.strand.on b))).code), (BAY_STRAND_STAT.fault, t.fault.toNat),
      (BAY_STRAND_STAT.cls, if t.cls = .spare then 1 else 0), (BAY_STRAND_STAT.depth, t.loops.length),
      (BAY_STRAND_STAT.t_neg, t.neg.toNat), (BAY_STRAND_STAT.t_zero, t.zero.toNat), (BAY_STRAND_STAT.t_pep, t.pep.toNat),
      (BAY_STRAND_STAT.t_val, t.valid.toNat), (BAY_STRAND_STAT.pc, t.pc.toNat)]
  else if o = 0x20 then
    let ev := s.fld (BAY_EV_SEL.ev.on b)
    putAll 0 [(BAY_EV_VAL.alloc, (s.allocated b ev).toNat), (BAY_EV_VAL.count, s.counter b ev)]
  else s.reg (0x100000 + 0x10000 * b + o)

/-- A swap stands at the head of the window queue. -/
def Tile.swapPending (x : Tile) : Bool :=
  match x.winQ with
  | .psw .. :: _ => true
  | _ => false

/-- What a read in TILE shows; TILE_ROW_INFO shows the last completed load of a plane (R101). -/
def State.viewTILE (s : State) (t o : Nat) : Word :=
  let x := s.tile t
  let r := s.reg (0x200000 + 0x10000 * t + o)
  if o = 4 then putAll r [(TILE_PLANE_STAT.age, sat 20 (s.tick - (x.planeOf (s.active t)).settled)),
    (TILE_PLANE_STAT.swap_pend, x.swapPending.toNat), (TILE_PLANE_STAT.load_busy, x.loading.isSome.toNat),
    (TILE_PLANE_STAT.tbl_wait, (s.tblStall t).toNat)]
  else if o = 8 then BitVec.ofNat 32 x.started
  else if o = 0x10 then putAll r [(TILE_CAPT_CTL.busy, (x.capLeft != 0).toNat)]
  else if o = 0x1C then
    let m := Tab.get dRowMeas x.noise (s.fld (TILE_NOISE_SEL.row.on t))
    putAll 0 [(TILE_NOISE_STAT.sigma, m.sigma.toNat), (TILE_NOISE_STAT.mean, m.mean.toNat)]
  else if o = 0x4C then
    let p := x.planeOf (s.flag (TILE_ROW_SEL.plane.on t))
    let n := s.fld (TILE_ROW_SEL.row.on t)
    putAll 0 [(TILE_ROW_INFO.sumw, unsigned 16 (p.sum n)), (TILE_ROW_INFO.h, (p.hdr n).h.toNat), (TILE_ROW_INFO.g, (p.hdr n).g.toNat)]
  else if o = 0x58 then x.gen.setWidth 32
  else if o = 0x6C then putAll r [(TILE_DRAIN_STAT.busy, (!x.drainQ.isEmpty).toNat), (TILE_DRAIN_STAT.queue, sat 5 x.updQ.length)]
  else r

/-! ### LOOP -/

/-- A value in target units. -/
def targetUnits (v : Rat) : Nat := unsigned 24 (roundUp (v * 4096))

/-- The output code of a loop: that of its output, or what a drive loop's output rounds to. -/
def State.loopCode (s : State) (e l : Nat) : Nat :=
  match loopOut e l with
  | some o => s.outCode o
  | none => (clampI (roundUp ((s.loopOf e l).o * 65536)) 0 65535).toNat

def State.viewLOOP (s : State) (e o : Nat) : Word :=
  let g := s.engine e
  let r := s.reg (0x400000 + 0x10000 * e + o)
  let sel := s.fld (LOOP_SEL.loop.on e)
  let L := s.loopOf e sel
  if o = 0 then putAll r [(LOOP_STAT.exc, g.exc.toNat), (LOOP_STAT.oob, ((s.slots e).filter (s.oobAt e)).length),
    (LOOP_STAT.trk, ((s.slots e).filter (s.tracks e)).length)]
  else if o = 8 then putAll 0 [(LOOP_MODE.pend, L.pend.isSome.toNat), (LOOP_MODE.hflt, L.hflt.toNat), (LOOP_MODE.aflt, L.aflt.toNat),
    (LOOP_MODE.region, L.region.toNat), (LOOP_MODE.hcnt, sat 16 L.hcnt), (LOOP_MODE.cur, L.mode.code), (LOOP_MODE.req, L.req.toNat)]
  else if o = 0xC then
    putAll 0 [(LOOP_SETPT.clp, L.clp.toNat), (LOOP_SETPT.tgt, (if L.mode = .manual then L.mtgt else L.target).toNat)]
  else if o = 0x14 then L.prof
  else if o = 0x1C then BitVec.ofNat 32 (targetUnits (if L.mode = .manual then L.mr else L.r))
  else if o = 0x20 then BitVec.ofNat 32 (targetUnits L.yf)
  else if o = 0x24 then putAll 0 [(LOOP_OBS2.oob, L.oob.toNat), (LOOP_OBS2.frz, L.frz.toNat), (LOOP_OBS2.ramp, L.ramping.toNat),
    (LOOP_OBS2.code, s.loopCode e sel)]
  else if o = 0x2C then putAll r [(LOOP_GAIN_SEL.busy, g.commit.isSome.toNat)]
  else if 0x30 ≤ o ∧ o ≤ 0x4C then
    if 8 < s.fld (LOOP_GAIN_SEL.rec.on e) then 0 else Tab.get dZero g.staged ((o - 0x30) / 4)
  else if o = 0x50 then
    if s.runs e then putAll 0 [(LOOP_VH.mv, sat 16 g.supply), (LOOP_VH.gv, sat 16 (gvOf g.supply * 16384).floor.toNat)] else r
  else r

/-! ### FAB, MEM and STRM -/

/-- A port's state code. A port that is disabled or held dark is off; an up port with a group short of lanes is degraded. -/
def State.portCode (s : State) (p : Nat) : Nat :=
  let st := s.fld (FAB_PORT_STAT.state.on p)
  if !s.portEnabled p then 0
  else if st = 3 ∧ (List.range 4).any fun g => (s.group p g).state != 1 then 4 else st

/-- The entry that FAB_PT_SEL selects. -/
def State.entryShown (s : State) : Partner := s.partner (s.fld FAB_PT_SEL.ent)
def Partner.code (x : Partner) : Nat := if x.dup then 3 else if x.gone then 2 else if x.present then 1 else 0

def State.viewFAB (s : State) (p o : Nat) : Word :=
  let r := s.reg (0x500000 + 0x10000 * p + o)
  let x := s.entryShown
  if o = 0 then putAll r [(FAB_PORT_STAT.state, s.portCode p)]
  else if 0x10 ≤ o ∧ o ≤ 0x1C then
    let f := s.group p ((o - 0x10) / 4)
    let lanes := fun (m : BitVec 4) => m.toNat
    putAll 0 [(FAB_GRP_STAT.state, f.state.toNat), (FAB_GRP_STAT.rxl, lanes f.rxl), (FAB_GRP_STAT.txl, lanes f.txl),
      (FAB_GRP_STAT.bound, f.bound.toNat), (FAB_GRP_STAT.cls, if f.cls = .spare then 1 else 0), (FAB_GRP_STAT.rbuf, sat 4 f.replay.length),
      (FAB_GRP_STAT.cred, sat 8 f.cred)]
  else if 0x20 ≤ o ∧ o ≤ 0x2C then
    let f := s.group p ((o - 0x20) / 4)
    if f.bound then putAll 0 [(FAB_GRP_OWN.partner, f.partner.toNat), (FAB_GRP_OWN.score, f.score.toNat)] else 0
  else if p ≠ 0 then r
  else if o = 0x800C then
    putAll 0 [(FAB_PT_ENT.state, x.code), (FAB_PT_ENT.kind, x.bridge.toNat), (FAB_PT_ENT.hops, x.hops), (FAB_PT_ENT.cand, x.cand.toNat),
      (FAB_PT_ENT.id, x.id.toNat)]
  else if o = 0x8010 then putAll 0 [(FAB_PT_PORTS.anum, x.anum.toNat),
    (FAB_PT_PORTS.dir, maskOf 16 fun p => x.code != 0 && s.portUp p && s.farId p == x.id)]
  else if o = 0x8014 then x.serial.setWidth 32
  else if o = 0x801C then
    putAll r [(FAB_PT_STAT.pres, ((List.range 128).filter fun n => (s.partner n).present && !(s.partner n).gone).length)]
  else r

/-- The owner codes of eight slots of a bank. -/
def State.frameWord (s : State) (first : Nat) : Word :=
  let b := s.fld MEM_FRAME_SEL.bank
  if 47 < b then 0
  else BitVec.ofNat 32 ((List.range 8).foldl (fun a k => a + (s.slotOwner b (first + k)).toNat * 2 ^ (4 * k)) 0)

def State.viewMEM (s : State) (o : Nat) : Word :=
  if o = 8 then s.frameWord 0
  else if o = 0xC then s.frameWord 8
  else if o = 0x18 then
    let exceeded := (List.range 96).find? fun n => Tab.get dFalse s.gddr.ovf n
    putAll 0 [(MEM_MARKLIST.ovf, exceeded.isSome.toNat), (MEM_MARKLIST.gran, exceeded.getD 0), (MEM_MARKLIST.used, s.gddr.list.length)]
  else s.reg (0x600000 + o)

/-- The state of a stream queue: 0 idle, 1 moving, 2 waiting for space, 3 waiting for data, 4 waiting for a slot. -/
def State.queueState (s : State) (q : Nat) : Nat :=
  let xs := (s.queue q).xfers
  match waitingIdx xs with
  | none => if xs.isEmpty then 0 else 1
  | some i => match xs[i]? with
    | none => 0
    | some x => if !x.started then (if s.xferRoom x then 1 else 2)
      else if !s.xferData q x then 3 else if !s.xferSlots x then 4 else 1

def State.viewSTRM (s : State) (o : Nat) : Word :=
  let n := s.fld STRM_Q_SEL.q
  let q := s.queue n
  let w := s.rwin (s.fld STRM_WIN_SEL.win)
  if o = 4 then
    if 271 < n ∨ !q.en then 0
    else putAll 0 [(STRM_Q_CFG.en, 1), (STRM_Q_CFG.cls, if q.cls = .spare then 1 else 0), (STRM_Q_CFG.lim, sat 8 (q.limit - 1)),
      (STRM_Q_CFG.score, q.owner.toNat)]
  else if o = 8 then
    if 271 < n then 0
    else putAll 0 [(STRM_Q_STAT.state, s.queueState n), (STRM_Q_STAT.on, (s.waitsOn n).getD 0), (STRM_Q_STAT.out, sat 9 q.xfers.length)]
  else if o = 0x18 then
    if w.valid then putAll 0 [(STRM_WIN_CFG.valid, 1), (STRM_WIN_CFG.grp, w.group), (STRM_WIN_CFG.port, w.port),
      (STRM_WIN_CFG.partner, w.partner.toNat), (STRM_WIN_CFG.pages, w.pages)] else 0
  else s.reg (0x700000 + o)

/-! ### A register by its absolute offset -/

/-- The value word of a register. -/
def State.viewReg (s : State) (off : Nat) : Word :=
  let b := off / 0x10000
  let o := off % 0x10000
  if b = 0 then s.viewGLB o
  else if b = 1 then s.viewCMD o
  else if b = 2 then s.viewGUARD o
  else if b = 3 then s.viewSEC o
  else if b = 4 then s.viewCLK o
  else if b = 5 then s.viewPWR o
  else if b = 6 then s.viewTHM o
  else if b = 7 then s.viewLSA o
  else if b = 8 then s.viewTRIM o
  else if 0x10 ≤ b ∧ b < 0x18 then s.viewBAY (b - 0x10) o
  else if 0x20 ≤ b ∧ b < 0x40 then s.viewTILE (b - 0x20) o
  else if 0x40 ≤ b ∧ b < 0x4A then s.viewLOOP (b - 0x40) o
  else if 0x50 ≤ b ∧ b < 0x60 then s.viewFAB (b - 0x50) o
  else if b = 0x60 then s.viewMEM o
  else if b = 0x70 then s.viewSTRM o
  else 0

/-- The value word of a paired register whose complement word stands at an offset. -/
def pairedBelow (off : Nat) : Bool := 4 ≤ off && match regSpec (off - 4) with | some r => r.paired | none => false

/-- A read of an aligned word: the complement word of a paired register reads the complement of its active value (R13), an
unlisted offset 0 (R482). -/
def State.readReg (s : State) (off : Nat) : Word := if pairedBelow off then ~~~s.viewReg (off - 4) else s.viewReg off

/-- SERIAL_READ: a read of FAB_PT_SER_LO latches the upper half of the serial. -/
def State.serialRead (s : State) : State :=
  let v := s.entryShown.serial
  (s.setReg FAB_PT_SER_HI.ser_hi.off (v.extractLsb' 32 32)).give (leBytes 4 v.toNat)

/-- SERIAL_READ (R329). -/
def execSerialRead (s : State) : Host.Outcome State Fault Refusal := .next s.serialRead

end Sys2Proof.Machine
end

