-- ==== Sys2Proof/Machine/Sideband.lean ====
section
/-! DEFINITION. The sideband bus: reads, register access, the nonce, rescue and the wake address (R370, R372 to R377, R412, R431, R432,
R484). -/

namespace Sys2Proof.Machine

/-! ### Reads (R374, R375, R377) -/

/-- Whether the target answers at all: Bronze is supplied. -/
def State.sbAlive (s : State) : Bool := s.pins.vbrz

/-- The bytes that a block read returns. -/
def State.sbGive (s : State) (bs : List Byte) : State := { s with link := { s.link with sb := bs } }

/-- Byte 0 of STATUS. -/
def State.statusState (s : State) : Nat := if s.pwr.wake.isSome then 4 else s.pstate

/-- Bays that are free, bound, running or in debug. -/
def State.statusBays (s : State) : Nat := maskOf 8 fun b => [1, 2, 3, 5].contains (s.bayState b)

/-- Byte 4 of STATUS; a link that is down shows nothing. -/
def State.statusLink (s : State) : Nat :=
  if s.link.up then s.link.width.toNat + 8 * s.link.gen.toNat + 128 * s.link.flit.toNat else 0

/-- The eight bytes of STATUS. -/
def State.statusBytes (s : State) : List Byte :=
  [BitVec.ofNat 8 s.statusState, BitVec.ofNat 8 (s.fld PWR_WAKE.code), BitVec.ofNat 8 s.statusBays, s.alertBits,
    BitVec.ofNat 8 s.statusLink, s.link.pec, 0, 0]

/-- ALERT_N is asserted: a bit of byte 3 is set that has not been read. -/
def State.alert (s : State) : Bool := s.alertBits &&& ~~~s.link.alerted != 0

/-- STATUS (R375, R377): the read takes note of the bits of byte 3. -/
def execStatus (s : State) : Host.Outcome State Fault Refusal :=
  .next (if s.sbAlive then
      let s1 := s.sbGive s.statusBytes
      { s1 with link := { s1.link with alerted := s.alertBits } }
    else s)

/-- IDENT (R375). -/
def execIdent (s : State) : Host.Outcome State Fault Refusal :=
  .next (if s.sbAlive then s.sbGive ([GLB_ID.part.off, GLB_STRAP.compat.off, FAB_PID.id.off, FAB_START.trn.off].flatMap fun o =>
      leBytes 4 (s.readReg o).toNat) else s)

/-- SERIAL (R375). -/
def execSerial (s : State) : Host.Outcome State Fault Refusal :=
  .next (if s.sbAlive then s.sbGive (leBytes 8 Config.fuseSerial.toNat) else s)

/-- The hottest reading among sensors, two's complement. -/
def State.hottest (s : State) (first n : Nat) : Int :=
  (List.range n).foldl (fun m k => max m (s.sensor (first + k)).temp.toInt) (s.sensor first).temp.toInt

/-- A 16-bit field in A3. -/
def noField : List Byte := leBytes 2 0x8000

/-- TEMPS (R374, R375); no answer while a trip is latched (R431). -/
def execTemps (s : State) : Host.Outcome State Fault Refusal :=
  .next (if !s.sbAlive || s.flag THM_TRIP.latched then s
    else if s.pstate = 3 then s.sbGive (noField ++ noField ++ noField ++ noField)
    else s.sbGive ([(0, 512), (512, 96), (608, 8), (616, 16)].flatMap fun c => leBytes 2 (unsigned 16 (s.hottest c.1 c.2))))

/-- POWER (R374, R375). -/
def execPower (s : State) : Host.Outcome State Fault Refusal :=
  .next (if !s.sbAlive || s.flag THM_TRIP.latched then s
    else if s.pstate = 3 then s.sbGive (noField ++ noField)
    else s.sbGive (leBytes 2 (s.fld PWR_INPUT.watts) ++ leBytes 2 (s.fld GLB_ADM_PLIM.watts)))

/-- FAULT (R375, R455). -/
def execFaultRead (s : State) : Host.Outcome State Fault Refusal :=
  .next (if s.sbAlive then s.sbGive (leBytes 32 (s.faults.last.getD 0).toNat) else s)

/-- A write whose PEC byte is wrong is discarded and counted (R372). -/
def State.pecError (s : State) : State :=
  { s with link := { s.link with pec := if s.link.pec = 255 then 255 else s.link.pec + 1 } }

/-- REG_ADDR (R375): a dword-aligned offset; another is discarded. -/
def execRegAddr (v : Word) (pec : Option Bool) (s : State) : Host.Outcome State Fault Refusal :=
  .next (if !s.sbAlive then s
    else if pec = some false then s.pecError
    else if v.toNat % 4 = 0 then { s with link := { s.link with regAddr := v } } else s)

/-- Registers held in Bronze (R340, R484). -/
def bronzeReads : List Nat :=
  [0x0, 0x4, 0x84, 0x30000, 0x4001C, 0x50000, 0x50008, 0x5000C, 0x50010, 0x6002C, 0x508000, 0x508020]

/-- REG_DATA: the register at REG_ADDR, with what its read does; all ones where A3 does not hold it. -/
def State.regData (s : State) : State :=
  let o := s.link.regAddr.toNat
  let v := leBytes 4 (s.readReg o).toNat
  if s.pstate = 3 ∧ !bronzeReads.contains o then s.sbGive (leBytes 4 (2 ^ 32 - 1))
  else if o = FAB_PT_SER_LO.ser_lo.off then
    ({ s.serialRead with link := s.link } : State).sbGive v
  else if 0x200000 ≤ o ∧ o < 0x400000 ∧ o % 0x10000 = 0x58 then
    ({ s.pewterState ((o - 0x200000) / 0x10000) with link := s.link } : State).sbGive v
  else s.sbGive v

/-- REG_DATA (R374, R375). -/
def execRegData (s : State) : Host.Outcome State Fault Refusal := .next (if s.sbAlive then s.regData else s)

/-! ### The nonce and rescue (R376, R415, R417, R432, R443) -/

/-- NONCE (R375). -/
def execNonceRead (s : State) : Host.Outcome State Fault Refusal :=
  .next (if s.sbAlive then s.sbGive (leBytes 4 s.link.nonce.toNat) else s)

def State.newNonce (s : State) : State := { s.draw with link := { s.link with nonce := Config.nonce s.free } }

/-- NONCE_CHANGE (R376). -/
def execNonceChange (s : State) : Host.Outcome State Fault Refusal := .next (if s.sbAlive then s.newNonce else s)

/-- A rescue write: `f` acts when the action and its complement agree, bytes 2 and 3 are zero and the nonce is the current one; a
write without PEC is discarded, one with a wrong PEC counted. The nonce changes after it. -/
def State.rescue (s : State) (r : Rescue) (action : Byte) (f : State → State) : State :=
  if !s.sbAlive then s
  else match r.pec with
    | none => s
    | some false => s.pecError
    | some true =>
      if r.cmpl = ~~~action ∧ r.zeros = 0 ∧ r.nonce = s.link.nonce then (f s).newNonce else s.newNonce

/-- RESCUE_FLUSH (R355, R376). -/
def execRescueFlush (r : Rescue) (s : State) : Host.Outcome State Fault Refusal := .next (s.rescue r 1 State.flush)

/-- A3 without the handshake; in A3 a wake under way stops. -/
def State.forceA3 (s : State) : State :=
  if s.flag THM_TRIP.latched then s
  else if s.pstate = 3 ∧ !s.flag PWR_STAT.mgmt then
    let s1 := s.setFld PWR_STAT.phase 0
    { s1 with pwr := { s1.pwr with wake := none } }
  else s.leaveForA3

/-- RESCUE_FORCE_A3 (R376, R417). -/
def execRescueForceA3 (r : Rescue) (s : State) : Host.Outcome State Fault Refusal := .next (s.rescue r 2 State.forceA3)

/-- A module reset by rescue: the straps stay as sampled; power-up starts unless MOD_RESET_N is low. -/
def State.rescueReset (s : State) : State :=
  let s1 := (s.moduleReset.keepRegs s [FAB_PID.id.off]).setFlag CLK_RST_CAUSE.resc true
  let s2 := s1.setFlag FAB_PID.dup false
  if s.pins.modReset then s2.beginPowerUp else s2

/-- RESCUE_MODULE_RESET (R376, R393). -/
def execRescueModuleReset (r : Rescue) (s : State) : Host.Outcome State Fault Refusal := .next (s.rescue r 3 State.rescueReset)

/-- A power-up under way starts step 3 again; steps 0 to 2 are kept (R478). -/
def State.stepThree (s : State) : State :=
  if 3 < s.pwr.step ∧ s.pwr.step < 8 then
    let s1 := s.setFld GLB_PUP.steps (s.fld GLB_PUP.steps % 8)
    { s1 with pwr := { s1.pwr with step := 3 } }
  else s

/-- Ahnun restarted from the recovery image, where CORE runs. -/
def State.recover (s : State) : State :=
  if s.flag THM_TRIP.latched ∨ !(s.dom 1).run then s
  else ((s.setFlag CLK_RST_CAUSE.fwr true).firmwareReset 2).stepThree

/-- RESCUE_RECOVERY_IMAGE (R376, R443). -/
def execRescueRecoveryImage (r : Rescue) (s : State) : Host.Outcome State Fault Refusal := .next (s.rescue r 4 State.recover)

/-- The code cleared, and a new wake where one has failed (R414, R415). -/
def State.retryWake (s : State) : State :=
  if s.flag THM_TRIP.latched then s
  else
    let s1 := s.setFld PWR_WAKE.code 0
    if s.fld PWR_WAKE.code ≠ 0 ∧ s.pstate ≠ 0 ∧ s.pwr.wake.isNone then s1.startWake none else s1

/-- RESCUE_RETRY_WAKE (R376, R415). -/
def execRescueRetryWake (r : Rescue) (s : State) : Host.Outcome State Fault Refusal := .next (s.rescue r 5 State.retryWake)

/-! ### The wake address (R373, R412) -/

/-- A match on the wake address in A3: a wake starts, and a read returns the wake-failure code. -/
def State.wakeMatch (s : State) : State :=
  if !s.sbAlive ∨ s.pstate ≠ 3 ∨ s.flag THM_TRIP.latched then s
  else
    let s1 := s.sbGive [BitVec.ofNat 8 (s.fld PWR_WAKE.code)]
    if s.pwr.wake.isSome then s1 else s1.startWake none

/-- WAKE_MATCH (R412). -/
def execWakeMatch (s : State) : Host.Outcome State Fault Refusal := .next s.wakeMatch

end Sys2Proof.Machine
end

