-- ==== Sys2Proof/Machine/Regs.lean ====
section
/-! DEFINITION. The host's 4-byte and 8-byte writes to BAR0: paired registers, and registers by the access codes of their fields
(R8 to R13, R344, R482, R483, R485, R486). -/

namespace Sys2Proof.Machine

/-! ### Paired registers (R10 to R13, R485) -/

/-- Whether the module takes software writes to a paired register, given by the offset of its value word (R100, R234, R248, R444, R485). -/
def State.pairTakes (s : State) (off : Nat) : Bool :=
  let b := off / 0x10000
  if off = GLB_ADM_PLIM.watts.off then true
  else if 0x20 ≤ b ∧ b < 0x40 then s.bayState ((b - 0x20) / 4) == 5
  else if 0x40 ≤ b ∧ b < 0x48 then s.bayState (b - 0x40) == 5 && slotUsed (b - 0x40) (s.fld (LOOP_SEL.loop.on (b - 0x40)))
  else false

/-- Whether an offset is that of the value word of a paired register. -/
def isPaired (off : Nat) : Bool := match regSpec off with | some r => r.paired | none => false

/-- The value armed in a paired register. -/
def State.armedAt (s : State) (off : Nat) : Option Word := Tab.get dNone s.armed off

/-- A committed value takes effect: the admission limit up to 1,400 W (R234), a tile's scale word, the target or the profile limits
of the selected loop (R248). -/
def State.commitPair (s : State) (off : Nat) (v : Word) : State :=
  let b := off / 0x10000
  if off = GLB_ADM_PLIM.watts.off then s.setFld GLB_ADM_PLIM.watts (min (bits v.toNat 10 0) 1400)
  else if b < 0x40 then
    (s.setReg off (v &&& 0xFF00FFFF)).modTile (b - 0x20) fun x => { x with scaleBad := false }
  else
    let e := b - 0x40
    let l := s.fld (LOOP_SEL.loop.on e)
    let L := s.loopOf e l
    if off = setptOff e then s.setLoop e l (L.setTarget (s.engine e).supply (s.guardLim 1) (v.setWidth 24))
    else s.setLoop e l { L with prof := v, pairBad := false }

/-- The paired-word fault of a complement that does not fit, with the value concerned (R11, R453). -/
def State.pairMismatch (s : State) (off : Nat) (armed : Option Word) (c : Word) : State :=
  match armed with
  | some p => s.raise { cls := 4, code := 1, unit := off / 0x10000, arg0 := off % 0x10000, arg1 := p.toNat, arg2 := c.toNat }
  | none => s.raise { cls := 4, code := 1, unit := off / 0x10000, arg0 := off % 0x10000 + 2 ^ 31, arg1 := (s.viewReg off).toNat,
                      arg2 := c.toNat }

/-- A write of the value word arms a pending value (R10). -/
def State.armPair (s : State) (off : Nat) (v : Word) : State :=
  if isPaired off && s.pairTakes off then { s with armed := Tab.set dNone s.armed off (some v) } else s

/-- A write of the complement word of the register whose value word is at an offset (R10, R11). -/
def State.closePair (s : State) (off : Nat) (c : Word) : State :=
  if isPaired off && s.pairTakes off then
    let p := s.armedAt off
    let s1 := s.disarm off
    if p = some (~~~c) then s1.commitPair off (~~~c) else s1.pairMismatch off p c
  else s

/-- PAIRED_VALUE_WRITE: the offset is that of the value word (R10). -/
def execPairedValueWrite (off : BitVec 25) (v : Word) (s : State) : Host.Outcome State Fault Refusal := .next (s.armPair off.toNat v)

/-- PAIRED_COMPLEMENT_WRITE: the offset is that of the complement word (R10, R11). -/
def execPairedComplementWrite (off : BitVec 25) (v : Word) (s : State) : Host.Outcome State Fault Refusal :=
  .next (if 4 ≤ off.toNat then s.closePair (off.toNat - 4) v else s)

/-! ### Registers whose writes do more than their access codes say -/

/-- A write in GLB: the counts of the selected claim and of the selected mark reason restart on 0 (R486). -/
def State.writeGLB (s : State) (o : Nat) (v : Word) : State :=
  let i := s.promSel.1
  let n := s.promSel.2
  let x := s.score i
  if o = GLB_PROM_STAT.misses.off then
    if bits v.toNat 15 0 = 0 then s.setScore i (x.setPromise n { x.promise n with misses := 0 }) else s
  else if o = GLB_PROM_WORST.w_ns.off then
    if v = 0 then s.setScore i (x.setPromise n { x.promise n with worst := 0 }) else s
  else if o = GLB_PEP_CNT.count.off then
    if v ≠ 0 then s
    else if s.fld GLB_PEP_SEL.rsn = 0 then { s with faults := { s.faults with marks := [] } }
    else { s with faults := { s.faults with marks := Tab.set dZero s.faults.marks (s.fld GLB_PEP_SEL.rsn) 0 } }
  else s.rawWrite o v

/-- A write of one dword of the MSI-X table: a vector that loses its mask while it is pending is sent (R347; log 6). -/
def State.writeMsix (s : State) (o : Nat) (v : Word) : State :=
  let w := if o % 16 = 12 then v &&& 1 else if o % 16 = 0 then v &&& 0xFFFFFFFC else v
  let s1 : State := { s with cmd := { s.cmd with msix := Tab.set dMsix s.cmd.msix o w } }
  let n := (o - 0x8000) / 16
  let p := 0x9000 + 4 * (n / 32)
  let pend := Tab.get dMsix s1.cmd.msix p
  if !s1.masked n && pend.getLsbD (n % 32) then
    let m := Tab.set dMsix s1.cmd.msix p (pend &&& ~~~BitVec.ofNat 32 (2 ^ (n % 32)))
    ({ s1 with cmd := { s1.cmd with msix := m } } : State).sendMsix n
  else s1

/-- A write in CMD: the ring's registers only while en is 0 (R361), the timeout only in its range. -/
def State.writeCMD (s : State) (o : Nat) (v : Word) : State :=
  if o = 4 then
    let s1 := s.commandEnable (v.getLsbD 0)
    if v.getLsbD 1 then s1.flush else s1
  else if o = 0x10 ∨ o = 0x14 ∨ o = 0x18 then
    if s.flag CMD_CTL.en then s
    else
      let s1 := s.rawWrite (0x10000 + o) v
      { s1 with cmd := { s1.cmd with ringNew := true } }
  else if o = 0x24 then
    let n := bits v.toNat 9 0
    if n = 0 ∨ 1000 < n then s else s.setFld CMD_TMO.ms n
  else if 0x8000 ≤ o ∧ o < 0x8400 then s.writeMsix o v
  else s.rawWrite (0x10000 + o) v

/-- A write in CLK. -/
def State.writeCLK (s : State) (o : Nat) (v : Word) : State :=
  let n := s.fld CLK_DOM_SEL.dom
  if o = 0xC then if bits v.toNat 7 0 = 0 ∧ n < 23 then s.setDom n { s.dom n with flt := 0 } else s
  else if o = 0x14 then s.gateDisable v
  else s.rawWrite (0x40000 + o) v

/-- A write in PWR: the entry timeout only in its range (R418). -/
def State.writePWR (s : State) (o : Nat) (v : Word) : State :=
  let n := s.fld PWR_RAIL_SEL.rail
  let t := bits v.toNat 9 0
  if o = 4 then if t = 0 ∨ 1000 < t then s else s.setFld PWR_ENT_TMO.ms t
  else if o = 0xC then if bits v.toNat 23 16 = 0 ∧ n < 12 then s.setRail n { s.rail n with fails := 0 } else s
  else s.rawWrite (0x50000 + o) v

/-- A write in LSA. -/
def State.writeLSA (s : State) (o : Nat) (v : Word) : State :=
  let i := s.fld LSA_SRC_SEL.src
  if o = 8 then if bits v.toNat 7 0 = 0 ∧ i < 9 then s.setSource i { s.source i with arms := 0 } else s
  else s.rawWrite (0x70000 + o) v

/-- A write in TRIM. -/
def State.writeTRIM (s : State) (o : Nat) (v : Word) : State :=
  if o = 0x1C then s.ncoWrite false v
  else if o = 0x20 then s.ncoWrite true v
  else if o = 0x24 then s.toneWrite v
  else s.rawWrite (0x80000 + o) v

/-- A write in BAY; a step issues an instruction without a memory error and with an observability slot free. -/
def State.writeBAY (s : State) (b o : Nat) (v : Word) : State :=
  if o = 0 then if v.getLsbD 0 then s.stepStrand b .clean true else s
  else if o = 0x24 then s.traceWrite b v
  else s.rawWrite (0x100000 + 0x10000 * b + o) v

/-- A write in TILE. -/
def State.writeTILE (s : State) (t o : Nat) (v : Word) : State :=
  if o = 0 then
    let s1 := if v.getLsbD 1 then s.zeroIdle t else s
    if v.getLsbD 0 then s1.swapRequest t else s1
  else if o = 0x10 then s.capture t v
  else if o = 0x38 then (s.setReg (TILE_DITH_SEED.seed.on t).off v).modTile t fun x => { x with reseed := some v }
  else if o = 0x54 then s.pewterSeed t v
  else s.rawWrite (0x200000 + 0x10000 * t + o) v

/-- A write in LOOP. -/
def State.writeLOOP (s : State) (e o : Nat) (v : Word) : State :=
  if o = 4 then s.loopSelect e v
  else if o = 8 then s.handOverRequest e v
  else if o = 0x2C then
    if v.getLsbD 31 then (s.rawWrite (LOOP_GAIN_SEL.loop.on e).off v).recordCommit e else s.recordSelect e v
  else if 0x30 ≤ o ∧ o ≤ 0x4C then
    s.setEngine e { s.engine e with staged := Tab.set dZero (s.engine e).staged ((o - 0x30) / 4) v }
  else if o = 0x54 then s.intervalWrite e v
  else if o = 0x58 then s.telWriteCtl e v
  else s.rawWrite (0x400000 + 0x10000 * e + o) v

/-- A write in FAB. -/
def State.writeFAB (s : State) (p o : Nat) (v : Word) : State :=
  if o = 4 then
    let s1 := s.portDisable p (v.getLsbD 0)
    if v.getLsbD 1 then s1.retrain p else s1
  else s.rawWrite (0x500000 + 0x10000 * p + o) v

/-- A write in MEM: an aperture base above 16 is ignored. -/
def State.writeMEM (s : State) (o : Nat) (v : Word) : State :=
  if o = 0x1C ∧ 16 < bits v.toNat 4 0 then s else s.rawWrite (0x600000 + o) v

/-- A write in STRM: a timer of 0 leaves the timer as it is. -/
def State.writeSTRM (s : State) (o : Nat) (v : Word) : State :=
  if o = 0xC ∧ bits v.toNat 9 0 = 0 then s.rawWrite 0x70000C (putBits v 9 0 (s.fld STRM_WG_TMO.tmo))
  else s.rawWrite (0x700000 + o) v

/-! ### A write by its absolute offset -/

/-- A write of one aligned 32-bit word; an unlisted offset ignores it (R482). -/
def State.writeWord (s : State) (off : Nat) (v : Word) : State :=
  let b := off / 0x10000
  let o := off % 0x10000
  if isPaired off then s.armPair off v
  else if pairedBelow off then s.closePair (off - 4) v
  else if b = 0 then s.writeGLB o v
  else if b = 1 then s.writeCMD o v
  else if b = 4 then s.writeCLK o v
  else if b = 5 then s.writePWR o v
  else if b = 7 then s.writeLSA o v
  else if b = 8 then s.writeTRIM o v
  else if 0x10 ≤ b ∧ b < 0x18 then s.writeBAY (b - 0x10) o v
  else if 0x20 ≤ b ∧ b < 0x40 then s.writeTILE (b - 0x20) o v
  else if 0x40 ≤ b ∧ b < 0x4A then s.writeLOOP (b - 0x40) o v
  else if 0x50 ≤ b ∧ b < 0x60 then s.writeFAB (b - 0x50) o v
  else if b = 0x60 then s.writeMEM o v
  else if b = 0x70 then s.writeSTRM o v
  else s.rawWrite off v

/-- Whether an access of `width` bytes at an offset is naturally aligned, of 4 or 8 bytes (R344). -/
def aligned (off width : Nat) : Bool := (width == 4 && off % 4 == 0) || (width == 8 && off % 8 == 0)

/-- A write to BAR0: 8 bytes act as the lower word and then the upper (R12); another access completes with Unsupported Request
(R344). -/
def State.writeBar0 (s : State) (off width : Nat) (v : BitVec 64) : State :=
  if !aligned off width then s.unsupported
  else
    let s1 := s.writeWord off (v.setWidth 32)
    if width = 4 then s1 else s1.writeWord (off + 4) (v.extractLsb' 32 32)

/-- REGISTER_WRITE (R9, R12, R344, R482). -/
def execRegisterWrite (off : BitVec 25) (width : Nat) (v : BitVec 64) (s : State) : Host.Outcome State Fault Refusal :=
  .next (s.writeBar0 off.toNat width v)

end Sys2Proof.Machine
end

