-- ==== Sys2Proof/Machine/Dispatch.lean ====
section
/-! DEFINITION. One arm for each command of the block. -/

namespace Sys2Proof.Machine

/-- The effect of a command on everything but the queue. -/
def exec (i : Instr) (s : State) : Host.Outcome State Fault Refusal :=
  match i with
  | .nop b j ecc => Sys2Proof.Machine.execNop b j ecc s
  | .win b j ecc => Sys2Proof.Machine.execWin b j ecc s
  | .pld b j ecc => Sys2Proof.Machine.execPld b j ecc s
  | .psw b j ecc => Sys2Proof.Machine.execPsw b j ecc s
  | .ssc b j ecc => Sys2Proof.Machine.execSsc b j ecc s
  | .ccf b j ecc => Sys2Proof.Machine.execCcf b j ecc s
  | .drn b j ecc => Sys2Proof.Machine.execDrn b j ecc s
  | .smv b j ecc => Sys2Proof.Machine.execSmv b j ecc s
  | .swt b j ecc => Sys2Proof.Machine.execSwt b j ecc s
  | .evs b j ecc => Sys2Proof.Machine.execEvs b j ecc s
  | .evw b j ecc => Sys2Proof.Machine.execEvw b j ecc s
  | .loop b j ecc => Sys2Proof.Machine.execLoop b j ecc s
  | .brt b j ecc => Sys2Proof.Machine.execBrt b j ecc s
  | .mrk b j ecc slotFree => Sys2Proof.Machine.execMrk b j ecc slotFree s
  | .endStrand b j ecc => Sys2Proof.Machine.execEndStrand b j ecc s
  | .sequenceEnd b c => Sys2Proof.Machine.execSequenceEnd b c s
  | .stepBay b v ecc slotFree => Sys2Proof.Machine.execStepBay b v ecc slotFree s
  | .windowIssue t => Sys2Proof.Machine.execWindowIssue t s
  | .windowEnd t => Sys2Proof.Machine.execWindowEnd t s
  | .overflowDecision t => Sys2Proof.Machine.execOverflowDecision t s
  | .replay t => Sys2Proof.Machine.execReplay t s
  | .pewterUpdate t => Sys2Proof.Machine.execPewterUpdate t s
  | .chainStep t => Sys2Proof.Machine.execChainStep t s
  | .chainConfigurationChange t => Sys2Proof.Machine.execChainConfigurationChange t s
  | .remoteChainTimeout t entry => Sys2Proof.Machine.execRemoteChainTimeout t entry s
  | .imageFetch t => Sys2Proof.Machine.execImageFetch t s
  | .planeLoadStart t => Sys2Proof.Machine.execPlaneLoadStart t s
  | .planeLoadValid t => Sys2Proof.Machine.execPlaneLoadValid t s
  | .planeSwap t => Sys2Proof.Machine.execPlaneSwap t s
  | .holdLimitExpiry t => Sys2Proof.Machine.execHoldLimitExpiry t s
  | .drainRelease t => Sys2Proof.Machine.execDrainRelease t s
  | .drainReadEnd t => Sys2Proof.Machine.execDrainReadEnd t s
  | .slotAccess q up find => Sys2Proof.Machine.execSlotAccess q up find s
  | .pewterMapAccess r t off wr mark => Sys2Proof.Machine.execPewterMapAccess r t off wr mark s
  | .transferStart q => Sys2Proof.Machine.execTransferStart q s
  | .transferComplete q => Sys2Proof.Machine.execTransferComplete q s
  | .waitGraphCut members => Sys2Proof.Machine.execWaitGraphCut members s
  | .waitTimeout b j => Sys2Proof.Machine.execWaitTimeout b j s
  | .gddr7Retry blk find => Sys2Proof.Machine.execGddr7Retry blk find s
  | .gddr7SpanClear span => Sys2Proof.Machine.execGddr7SpanClear span s
  | .spareLock src => Sys2Proof.Machine.execSpareLock src s
  | .darkWindowStart b align => Sys2Proof.Machine.execDarkWindowStart b align s
  | .darkWindowEnd b => Sys2Proof.Machine.execDarkWindowEnd b s
  | .fabricSpareSwap => Sys2Proof.Machine.execFabricSpareSwap s
  | .armingFault src => Sys2Proof.Machine.execArmingFault src s
  | .armingRestart src => Sys2Proof.Machine.execArmingRestart src s
  | .boostStep src c => Sys2Proof.Machine.execBoostStep src c s
  | .opticalCut src c => Sys2Proof.Machine.execOpticalCut src c s
  | .recalibrationSlotDue e => Sys2Proof.Machine.execRecalibrationSlotDue e s
  | .recalibrationSlot t m => Sys2Proof.Machine.execRecalibrationSlot t m s
  | .loopTick inp => Sys2Proof.Machine.execLoopTick inp s
  | .handOverTimeout e l => Sys2Proof.Machine.execHandOverTimeout e l s
  | .followingFault e l => Sys2Proof.Machine.execFollowingFault e l s
  | .bayResume b => Sys2Proof.Machine.execBayResume b s
  | .telemetryRecord e slotFree => Sys2Proof.Machine.execTelemetryRecord e slotFree s
  | .readbackDwell o meas => Sys2Proof.Machine.execReadbackDwell o meas s
  | .trimOutputReturn => Sys2Proof.Machine.execTrimOutputReturn s
  | .heaterCurrentFault t => Sys2Proof.Machine.execHeaterCurrentFault t s
  | .guardLimitCommit idx v cmpl => Sys2Proof.Machine.execGuardLimitCommit idx v cmpl s
  | .emissionLockRelease => Sys2Proof.Machine.execEmissionLockRelease s
  | .emissionLockSet => Sys2Proof.Machine.execEmissionLockSet s
  | .thermalSample n reading => Sys2Proof.Machine.execThermalSample n reading s
  | .fastSamplingEnd n => Sys2Proof.Machine.execFastSamplingEnd n s
  | .trip n => Sys2Proof.Machine.execTrip n s
  | .throttleStepUp b => Sys2Proof.Machine.execThrottleStepUp b s
  | .belowFloor b => Sys2Proof.Machine.execBelowFloor b s
  | .throttleStepDown b => Sys2Proof.Machine.execThrottleStepDown b s
  | .excursionClear b => Sys2Proof.Machine.execExcursionClear b s
  | .pmbusPowerRead watts => Sys2Proof.Machine.execPmbusPowerRead watts s
  | .storedPairCheck p v cmpl => Sys2Proof.Machine.execStoredPairCheck p v cmpl s
  | .sourceSwitch d src => Sys2Proof.Machine.execSourceSwitch d src s
  | .stoppedClock d src => Sys2Proof.Machine.execStoppedClock d src s
  | .referenceInputStopped => Sys2Proof.Machine.execReferenceInputStopped s
  | .pllUnlock d => Sys2Proof.Machine.execPllUnlock d s
  | .referenceLost => Sys2Proof.Machine.execReferenceLost s
  | .referenceReturn recovered port => Sys2Proof.Machine.execReferenceReturn recovered port s
  | .referenceReelection => Sys2Proof.Machine.execReferenceReelection s
  | .temperatureCorrection item v broken => Sys2Proof.Machine.execTemperatureCorrection item v broken s
  | .gateClose d share => Sys2Proof.Machine.execGateClose d share s
  | .crossingReset r sd => Sys2Proof.Machine.execCrossingReset r sd s
  | .crossingOpen r sd => Sys2Proof.Machine.execCrossingOpen r sd s
  | .domainReset d => Sys2Proof.Machine.execDomainReset d s
  | .watchdogReset => Sys2Proof.Machine.execWatchdogReset s
  | .activationConfirm => Sys2Proof.Machine.execActivationConfirm s
  | .powerUp o => Sys2Proof.Machine.execPowerUp o s
  | .powerEntry => Sys2Proof.Machine.execPowerEntry s
  | .entryTimeout => Sys2Proof.Machine.execEntryTimeout s
  | .a1Exit => Sys2Proof.Machine.execA1Exit s
  | .wake headerOk badBays => Sys2Proof.Machine.execWake headerOk badBays s
  | .wakeFailure code => Sys2Proof.Machine.execWakeFailure code s
  | .wakeRetry => Sys2Proof.Machine.execWakeRetry s
  | .portTraining p failedStep ms => Sys2Proof.Machine.execPortTraining p failedStep ms s
  | .portIdleRetry p light => Sys2Proof.Machine.execPortIdleRetry p light s
  | .hello p g h => Sys2Proof.Machine.execHello p g h s
  | .nodeAnnouncement p a => Sys2Proof.Machine.execNodeAnnouncement p a s
  | .announcementTimer => Sys2Proof.Machine.execAnnouncementTimer s
  | .leaveAnnouncement id => Sys2Proof.Machine.execLeaveAnnouncement id s
  | .partnerEntryTimeout id => Sys2Proof.Machine.execPartnerEntryTimeout id s
  | .partnerRejoin id accepted => Sys2Proof.Machine.execPartnerRejoin id accepted s
  | .codewordPair p g w => Sys2Proof.Machine.execCodewordPair p g w s
  | .nakTimeout p g => Sys2Proof.Machine.execNakTimeout p g s
  | .lossNotice p g h => Sys2Proof.Machine.execLossNotice p g h s
  | .messageSend p g => Sys2Proof.Machine.execMessageSend p g s
  | .write p g m => Sys2Proof.Machine.execWrite p g m s
  | .readRequest p g m => Sys2Proof.Machine.execReadRequest p g m s
  | .readReply p g m => Sys2Proof.Machine.execReadReply p g m s
  | .chainEntry p g m => Sys2Proof.Machine.execChainEntry p g m s
  | .serviceRequest p g m => Sys2Proof.Machine.execServiceRequest p g m s
  | .batchDeadline score svc => Sys2Proof.Machine.execBatchDeadline score svc s
  | .serviceReplySend score svc => Sys2Proof.Machine.execServiceReplySend score svc s
  | .serviceReply p g m => Sys2Proof.Machine.execServiceReply p g m s
  | .writeCompletion p g m => Sys2Proof.Machine.execWriteCompletion p g m s
  | .groupRetrain p g done => Sys2Proof.Machine.execGroupRetrain p g done s
  | .laneStop p g lane transmit => Sys2Proof.Machine.execLaneStop p g lane transmit s
  | .laneChange p g => Sys2Proof.Machine.execLaneChange p g s
  | .groupFilterReturn p g => Sys2Proof.Machine.execGroupFilterReturn p g s
  | .packetTake => Sys2Proof.Machine.execPacketTake s
  | .windowStall => Sys2Proof.Machine.execWindowStall s
  | .commandWindowWrite off dws poisoned => Sys2Proof.Machine.execCommandWindowWrite off dws poisoned s
  | .replyWrite => Sys2Proof.Machine.execReplyWrite s
  | .nopCommand k => Sys2Proof.Machine.execNopCommand k s
  | .identify k => Sys2Proof.Machine.execIdentify k s
  | .loadBegin k => Sys2Proof.Machine.execLoadBegin k s
  | .loadChunk k => Sys2Proof.Machine.execLoadChunk k s
  | .analysis score pkg => Sys2Proof.Machine.execAnalysis score pkg s
  | .loadEnd k => Sys2Proof.Machine.execLoadEnd k s
  | .start k => Sys2Proof.Machine.execStart k s
  | .stop k => Sys2Proof.Machine.execStop k s
  | .unload k => Sys2Proof.Machine.execUnload k s
  | .bind k => Sys2Proof.Machine.execBind k s
  | .rebindComplete k b => Sys2Proof.Machine.execRebindComplete k b s
  | .reservationExchange k accepted => Sys2Proof.Machine.execReservationExchange k accepted s
  | .release k => Sys2Proof.Machine.execRelease k s
  | .windowMap k => Sys2Proof.Machine.execWindowMap k s
  | .eventSignal k => Sys2Proof.Machine.execEventSignal k s
  | .eventRead k => Sys2Proof.Machine.execEventRead k s
  | .eventNotify k => Sys2Proof.Machine.execEventNotify k s
  | .debugEnter k => Sys2Proof.Machine.execDebugEnter k s
  | .debugExit k => Sys2Proof.Machine.execDebugExit k s
  | .requalify k locked refs => Sys2Proof.Machine.execRequalify k locked refs s
  | .powerState k => Sys2Proof.Machine.execPowerState k s
  | .guardClear k causes => Sys2Proof.Machine.execGuardClear k causes s
  | .trimRelease k => Sys2Proof.Machine.execTrimRelease k s
  | .fwStage k img => Sys2Proof.Machine.execFwStage k img s
  | .fwCommit k => Sys2Proof.Machine.execFwCommit k s
  | .fwActivate k => Sys2Proof.Machine.execFwActivate k s
  | .doeRequest type bytes abort => Sys2Proof.Machine.execDoeRequest type bytes abort s
  | .status => Sys2Proof.Machine.execStatus s
  | .ident => Sys2Proof.Machine.execIdent s
  | .serial => Sys2Proof.Machine.execSerial s
  | .temps => Sys2Proof.Machine.execTemps s
  | .power => Sys2Proof.Machine.execPower s
  | .faultRead => Sys2Proof.Machine.execFaultRead s
  | .regAddr v pec => Sys2Proof.Machine.execRegAddr v pec s
  | .regData => Sys2Proof.Machine.execRegData s
  | .nonceRead => Sys2Proof.Machine.execNonceRead s
  | .nonceChange => Sys2Proof.Machine.execNonceChange s
  | .rescueFlush r => Sys2Proof.Machine.execRescueFlush r s
  | .rescueForceA3 r => Sys2Proof.Machine.execRescueForceA3 r s
  | .rescueModuleReset r => Sys2Proof.Machine.execRescueModuleReset r s
  | .rescueRecoveryImage r => Sys2Proof.Machine.execRescueRecoveryImage r s
  | .rescueRetryWake r => Sys2Proof.Machine.execRescueRetryWake r s
  | .wakeMatch => Sys2Proof.Machine.execWakeMatch s
  | .modResetNAssert => Sys2Proof.Machine.execModResetNAssert s
  | .powerGood compat nid => Sys2Proof.Machine.execPowerGood compat nid s
  | .powerOnReset sba => Sys2Proof.Machine.execPowerOnReset sba s
  | .standbyLoss => Sys2Proof.Machine.execStandbyLoss s
  | .clrTrimNAssert => Sys2Proof.Machine.execClrTrimNAssert s
  | .clrTrimNRelease => Sys2Proof.Machine.execClrTrimNRelease s
  | .perstNAssert => Sys2Proof.Machine.execPerstNAssert s
  | .perstNRelease => Sys2Proof.Machine.execPerstNRelease s
  | .linkRetry flit width gen => Sys2Proof.Machine.execLinkRetry flit width gen s
  | .functionLevelReset => Sys2Proof.Machine.execFunctionLevelReset s
  | .linkError e => Sys2Proof.Machine.execLinkError e s
  | .configurationRequest => Sys2Proof.Machine.execConfigurationRequest s
  | .apertureRead off len slotFree => Sys2Proof.Machine.execApertureRead off len slotFree s
  | .apertureWrite off bytes slotFree => Sys2Proof.Machine.execApertureWrite off bytes slotFree s
  | .pairedValueWrite off v => Sys2Proof.Machine.execPairedValueWrite off v s
  | .pairedComplementWrite off v => Sys2Proof.Machine.execPairedComplementWrite off v s
  | .registerWrite off width v => Sys2Proof.Machine.execRegisterWrite off width v s
  | .zeroIdle t => Sys2Proof.Machine.execZeroIdle t s
  | .swap t => Sys2Proof.Machine.execSwap t s
  | .capture t v => Sys2Proof.Machine.execCapture t v s
  | .ditherSeedWrite t v => Sys2Proof.Machine.execDitherSeedWrite t v s
  | .pewterSeedWrite t v => Sys2Proof.Machine.execPewterSeedWrite t v s
  | .pewterStateRead t => Sys2Proof.Machine.execPewterStateRead t s
  | .serialRead => Sys2Proof.Machine.execSerialRead s
  | .traceEnable b v => Sys2Proof.Machine.execTraceEnable b v s
  | .loopSelect e v => Sys2Proof.Machine.execLoopSelect e v s
  | .handOverRequest e v => Sys2Proof.Machine.execHandOverRequest e v s
  | .recordSelect e v => Sys2Proof.Machine.execRecordSelect e v s
  | .recordCommit e => Sys2Proof.Machine.execRecordCommit e s
  | .recalibrationIntervalWrite e v => Sys2Proof.Machine.execRecalibrationIntervalWrite e v s
  | .telemetryEnable e v => Sys2Proof.Machine.execTelemetryEnable e v s
  | .ncoWrite config v => Sys2Proof.Machine.execNcoWrite config v s
  | .toneInjection v => Sys2Proof.Machine.execToneInjection v s
  | .retrain p => Sys2Proof.Machine.execRetrain p s
  | .portDisable p dis => Sys2Proof.Machine.execPortDisable p dis s
  | .flush => Sys2Proof.Machine.execFlush s
  | .commandEnable en => Sys2Proof.Machine.execCommandEnable en s
  | .gateDisable v => Sys2Proof.Machine.execGateDisable v s
  | .tableRebuild t => Sys2Proof.Machine.execTableRebuild t s
  | .mainImageHandover slot img loader => Sys2Proof.Machine.execMainImageHandover slot img loader s
  | .vretLoss => Sys2Proof.Machine.execVretLoss s
  | .pcieRefclkStable stable => Sys2Proof.Machine.execPcieRefclkStable stable s
  | .noLightReceived p => Sys2Proof.Machine.execNoLightReceived p s

end Sys2Proof.Machine
end

