-- ==== Sys2Proof/Machine/Step.lean ====
section
/-! DEFINITION. One step: the command at the front of the queue, or one CORE cycle of the block on its own. -/

namespace Sys2Proof.Machine

/-- The CORE counter of a 1 µs sample: 2,000 cycles of 0.5 ns (R158, R381). It stays below 2,000; the sample
counter itself advances with LOOP_TICK. -/
def State.idle (s : State) : State := { s with core := (s.core + 1) % 2000 }

/-- The command at the front of the queue is taken and executed with the queue's rest; on an empty queue the
block idles for one CORE cycle (DESIGN CHOICE, log 11). -/
def step (s : State) : Host.Outcome State Fault Refusal :=
  match s.pending with
  | [] => .next s.idle
  | c :: rest => exec c { s with pending := rest }

/-- The state with the command that a word spells put at the front of the queue; the table's rows have no
bits, so every word leaves the state as it is (log 12). -/
def State.withFetchWord (s : State) (nbits w : Nat) : State :=
  match decodeTableWord nbits w with
  | some c => { s with pending := c :: s.pending }
  | none => s

end Sys2Proof.Machine
end

