-- ==== Sys2Proof/Safety.lean ====
section
/-! DEFINITION. What claims take for granted of a state, and what they compare: memory in its canonical form, waiting commands that
are well formed, and what the module holds beyond its resets. -/

namespace Sys2Proof.Machine

/-- Stage memory and GDDR7 are in canonical form: addresses rise, and no entry says what an unlisted address reads as. -/
def State.memOk (s : State) : Bool :=
  Tab.wf dZero s.stage.bytes && Tab.wf dZero s.stage.flips && Tab.wf dMark s.stage.marks && Tab.wf dOwner s.stage.owner &&
    Tab.wf dZero s.stage.chk && Tab.wf dZero s.gddr.bytes && Tab.wf dMark s.gddr.list

/-- Every waiting command is well formed. -/
def State.queueOk (s : State) : Bool := s.pending.all Instr.wf

/-- A state with a command put in front of the waiting ones. -/
def State.withFront (s : State) (c : Instr) : State := { s with pending := c :: s.pending }

/-- Strand `j` of bay `b` issues instruction `i` of sequence `r` in this cycle: fetched and decoded, without a fault, its wait
condition met, and granted what it claims (R159, R163). -/
def State.mayIssue (s : State) (b j : Nat) (r : SeqRun) (i : SInstr) : Prop :=
  s.nextInstr b j = some (r, .ok i) ∧ s.faultOf b j r i = none ∧ s.waitOf b j i = none ∧ s.wins b j i = true

/-- The command that is the row of a decoded instruction: strand `j` of bay `b`, with what the fetch's check bits find and, for MRK, whether
the observability slot of the trace ring is free. -/
def SInstr.row (b : BayId) (j : StrandId) (e : Ecc) (free : Bool) : SInstr → Instr
  | .nop => .nop b j e
  | .win .. => .win b j e
  | .pld .. => .pld b j e
  | .psw .. => .psw b j e
  | .ssc .. => .ssc b j e
  | .ccf .. => .ccf b j e
  | .drn .. => .drn b j e
  | .smv .. => .smv b j e
  | .swt .. => .swt b j e
  | .evs .. => .evs b j e
  | .evw .. => .evw b j e
  | .loop .. => .loop b j e
  | .brt .. => .brt b j e
  | .mrk _ => .mrk b j e free
  | .endStrand => .endStrand b j e

/-- A command that starts a host command: its place among the taken ones and the opcode (R365 to R369). -/
def hostCommand : Instr → Option (Nat × Nat)
  | .nopCommand k => some (k, 0x0001)
  | .identify k => some (k, 0x0002)
  | .loadBegin k => some (k, 0x0101)
  | .loadChunk k => some (k, 0x0102)
  | .loadEnd k => some (k, 0x0103)
  | .start k => some (k, 0x0104)
  | .stop k => some (k, 0x0105)
  | .unload k => some (k, 0x0106)
  | .bind k => some (k, 0x0201)
  | .release k => some (k, 0x0202)
  | .windowMap k => some (k, 0x0203)
  | .eventSignal k => some (k, 0x0301)
  | .eventRead k => some (k, 0x0302)
  | .eventNotify k => some (k, 0x0303)
  | .debugEnter k => some (k, 0x0401)
  | .debugExit k => some (k, 0x0402)
  | .requalify k _ _ => some (k, 0x0501)
  | .powerState k => some (k, 0x0601)
  | .guardClear k _ => some (k, 0x0701)
  | .trimRelease k => some (k, 0x0702)
  | .fwStage k _ => some (k, 0x0801)
  | .fwCommit k => some (k, 0x0802)
  | .fwActivate k => some (k, 0x0803)
  | _ => none

/-- The bytes of stage memory that a state holds at an address and above. -/
def State.stageBytesAt (s : State) (a n : Nat) : List Byte := (List.range n).map fun i => s.stageByte (a + i)

/-- The command in place `k` of the taken ones is `c`, of opcode `op`, and starts now: nothing earlier stands in its way, an image
runs, and no power state, recovery image or management on the RC oscillator answers in its place (R362, R364, R401, R415, R443). -/
def State.mayRun (s : State) (k op : Nat) (c : Taken) : Prop :=
  s.cmd.taken[k]? = some c ∧ c.opcode.toNat = op ∧ s.startable k c = true ∧
    (s.fld PWR_STAT.state = 1 → op ∈ [0x0001, 0x0002, 0x0302, 0x0601]) ∧
    s.barred op (op == 0x0201 && bits (c.p 0) 23 16 == 0) = none

/-- Between two states the command in place `k` has completed with a status and values: it is taken no more, and its reply waits to be
written unless a function reset has cut it off (R346, R358). -/
def State.Replied (s u : State) (k : Nat) (c : Taken) (status : Byte) (vs : List Word) : Prop :=
  u.cmd.taken = s.cmd.taken.eraseIdx k ∧
    (c.mute = false → ∃ r, u.cmd.done = s.cmd.done ++ [r] ∧ r.tag = c.tag ∧ r.seq = c.seq ∧ r.opcode = c.opcode ∧
      r.status = status ∧ r.vs = vs)

/-- Between two states the command in place `k` has begun and completes later (R358, R364). -/
def State.Begun (s u : State) (k : Nat) (c : Taken) : Prop :=
  u.cmd.taken[k]? = some { c with begun := some s.tick } ∧ u.cmd.done = s.cmd.done

/-! ### What a command may change -/

/-- The register blocks; the fabric ports, the memory system and the stream engines lie from 0x500000 up and count as one. -/
inductive RegBlock where
  | glb | cmd | guard | sec | clk | pwr | thm | lsa | trim | bay | tile | loop | upper
deriving DecidableEq, Repr

def RegBlock.all : List RegBlock := [.glb, .cmd, .guard, .sec, .clk, .pwr, .thm, .lsa, .trim, .bay, .tile, .loop, .upper]

/-- The block of a BAR0 offset (R7). -/
def regBlock (off : Nat) : RegBlock :=
  if off < 0x10000 then .glb else if off < 0x20000 then .cmd else if off < 0x30000 then .guard else if off < 0x40000 then .sec
  else if off < 0x50000 then .clk else if off < 0x60000 then .pwr else if off < 0x70000 then .thm else if off < 0x80000 then .lsa
  else if off < 0x100000 then .trim else if off < 0x200000 then .bay else if off < 0x400000 then .tile
  else if off < 0x500000 then .loop else .upper

/-- The parts of a state: the registers of a block, and each other component. -/
inductive Part where
  | regs (b : RegBlock)
  | tick | core | free | armed | arb | pins | bays | tiles | stage | gddr | strm | scores | engines | light | trims | scan | sensors
  | sec | fab | cmd | clk | pwr | faults | link
deriving DecidableEq, Repr

/-- The part is the same in two states. -/
def Part.kept (s u : State) : Part → Prop
  | .regs b => ∀ off, regBlock off = b → u.reg off = s.reg off
  | .tick => u.tick = s.tick
  | .core => u.core = s.core
  | .free => u.free = s.free
  | .armed => u.armed = s.armed
  | .arb => u.arb = s.arb
  | .pins => u.pins = s.pins
  | .bays => u.bays = s.bays
  | .tiles => u.tiles = s.tiles
  | .stage => u.stage = s.stage
  | .gddr => u.gddr = s.gddr
  | .strm => u.strm = s.strm
  | .scores => u.scores = s.scores
  | .engines => u.engines = s.engines
  | .light => u.light = s.light
  | .trims => u.trims = s.trims
  | .scan => u.scan = s.scan
  | .sensors => u.sensors = s.sensors
  | .sec => u.sec = s.sec
  | .fab => u.fab = s.fab
  | .cmd => u.cmd = s.cmd
  | .clk => u.clk = s.clk
  | .pwr => u.pwr = s.pwr
  | .faults => u.faults = s.faults
  | .link => u.link = s.link

/-- What a command of the sequencers, tiles, planes, streams and memories may change.
Not listed: a command of another function, or one that resets the module or takes it to A3. -/
def computeChanges : Instr → Option (List Part)
  | .nop _ _ _ | .win _ _ _ | .pld _ _ _ | .psw _ _ _ | .ssc _ _ _ | .ccf _ _ _ | .drn _ _ _ | .smv _ _ _ | .swt _ _ _
  | .evs _ _ _ | .evw _ _ _ | .loop _ _ _ | .brt _ _ _ | .mrk _ _ _ _ | .endStrand _ _ _ | .stepBay _ _ _ _
    => some [.arb, .bays, .tiles, .stage, .strm, .scores, .cmd, .faults, .regs .glb, .regs .bay, .regs .tile]
  | .sequenceEnd _ _ => some [.bays, .tiles, .stage, .strm, .scores, .sec, .fab, .cmd, .regs .glb]
  | .windowIssue _ => some [.bays, .tiles, .cmd, .faults, .regs .glb, .regs .bay, .regs .tile]
  | .planeLoadStart _ => some [.free, .bays, .tiles, .cmd, .faults, .regs .glb, .regs .bay, .regs .tile]
  | .windowEnd _ => some [.free, .tiles, .stage, .cmd, .faults, .regs .glb]
  | .overflowDecision _ | .drainRelease _ => some [.tiles, .faults, .regs .tile]
  | .replay _ => some [.free, .tiles, .scores, .cmd, .faults, .regs .glb, .regs .tile]
  | .pewterUpdate _ | .planeLoadValid _ | .planeSwap _ => some [.bays, .tiles, .scores, .cmd, .faults, .regs .glb, .regs .tile]
  | .chainStep _ => some [.bays, .tiles, .scores, .cmd, .faults, .regs .glb, .regs .bay, .regs .tile]
  | .chainConfigurationChange _ => some [.tiles, .regs .tile]
  | .remoteChainTimeout _ _ => some [.tiles, .cmd, .faults, .regs .glb]
  | .imageFetch _ => some [.arb, .tiles, .faults, .regs .upper]
  | .holdLimitExpiry _ => some [.regs .tile]
  | .drainReadEnd _ => some [.arb, .bays, .tiles, .stage, .strm, .scores, .fab, .cmd, .faults, .regs .glb, .regs .bay, .regs .tile]
  | .slotAccess _ _ _ => some [.free, .arb, .tiles, .stage, .gddr, .strm, .fab, .cmd, .faults, .regs .glb, .regs .upper]
  | .pewterMapAccess _ _ _ _ _ => some [.tiles, .cmd, .faults, .link, .regs .glb]
  | .transferStart _ => some [.tiles, .strm]
  | .transferComplete _ => some [.bays, .strm, .scores, .cmd, .faults, .regs .glb]
  | .waitGraphCut _ => some [.tiles, .stage, .gddr, .strm, .fab, .cmd, .faults, .regs .glb, .regs .upper]
  | .waitTimeout _ _ => some [.bays, .tiles, .cmd, .faults, .regs .glb, .regs .bay]
  | .gddr7Retry _ _ => some [.tiles, .stage, .gddr, .strm, .cmd, .faults, .regs .glb, .regs .upper]
  | .gddr7SpanClear _ => some [.gddr]
  | _ => none

/-- What a command of the light, the loops, the trims, the guard, the thermal monitor, the clocks and the power states may change.
Not listed: a command of another function, or one that resets the module or takes it to A3. -/
def plantChanges : Instr → Option (List Part)
  | .spareLock _ => some [.bays, .tiles, .engines, .light, .fab, .cmd, .faults, .regs .glb, .regs .lsa]
  | .darkWindowStart _ _ => some [.bays, .regs .bay]
  | .darkWindowEnd _ => some [.bays, .tiles, .scores, .engines, .light, .fab, .cmd, .faults, .regs .glb, .regs .lsa, .regs .bay]
  | .fabricSpareSwap => some [.tiles, .engines, .light, .fab, .cmd, .faults, .regs .glb, .regs .lsa]
  | .armingFault _ => some [.engines, .light, .fab, .cmd, .faults, .regs .glb, .regs .lsa]
  | .armingRestart _ | .boostStep _ _ => some [.engines, .light]
  | .opticalCut _ _ => some [.bays, .engines, .light, .fab, .cmd, .faults, .regs .glb, .regs .guard]
  | .recalibrationSlotDue _ => some [.bays, .regs .loop]
  | .recalibrationSlot _ _
    => some [.free, .tiles, .stage, .scores, .cmd, .faults, .regs .glb, .regs .tile, .regs .loop, .regs .upper]
  | .loopTick _
    => some [.tick, .core, .bays, .tiles, .scores, .engines, .light, .trims, .fab, .cmd, .faults, .link, .regs .glb, .regs .lsa,
      .regs .trim]
  | .handOverTimeout _ _ => some [.engines, .cmd, .faults, .regs .glb]
  | .followingFault _ _ => some [.bays, .engines, .fab, .cmd, .faults, .regs .glb, .regs .loop]
  | .bayResume _ => some [.bays]
  | .telemetryRecord _ _ => some [.stage, .engines, .cmd, .faults, .regs .glb, .regs .loop]
  | .readbackDwell _ _ => some [.bays, .engines, .light, .trims, .scan, .fab, .cmd, .faults, .regs .glb, .regs .lsa, .regs .trim]
  | .trimOutputReturn => some [.pins]
  | .heaterCurrentFault _ => some [.bays, .fab, .cmd, .faults, .regs .glb, .regs .guard]
  | .guardLimitCommit _ _ _ => some [.sec, .cmd, .faults, .regs .glb, .regs .thm]
  | .emissionLockRelease => some [.fab, .regs .guard, .regs .upper]
  | .emissionLockSet
    => some [.tiles, .stage, .gddr, .strm, .scores, .fab, .cmd, .clk, .faults, .regs .glb, .regs .guard, .regs .clk, .regs .upper]
  | .thermalSample _ _
    => some [.bays, .tiles, .scores, .engines, .light, .sensors, .cmd, .faults, .regs .glb, .regs .thm, .regs .trim]
  | .fastSamplingEnd _ => some [.sensors]
  | .throttleStepUp _ | .throttleStepDown _ => some [.bays, .scores, .regs .thm]
  | .belowFloor _ => some [.bays, .scores, .cmd, .faults, .regs .glb, .regs .thm]
  | .excursionClear _ => some [.bays, .engines]
  | .pmbusPowerRead _ => some [.bays, .regs .pwr, .regs .thm]
  | .storedPairCheck _ _ _ => some [.bays, .tiles, .engines, .sec, .cmd, .pwr, .faults, .regs .glb, .regs .bay]
  | .sourceSwitch _ _ => some [.clk, .regs .clk]
  | .stoppedClock _ _ => some [.cmd, .clk, .faults, .regs .glb, .regs .clk]
  | .temperatureCorrection _ _ _ => some [.scores, .fab, .cmd, .clk, .faults, .regs .glb, .regs .clk, .regs .upper]
  | .referenceInputStopped => some [.cmd, .clk, .faults, .regs .glb, .regs .clk, .regs .upper]
  | .pllUnlock _ => some [.cmd, .clk, .faults, .regs .glb]
  | .referenceLost
    => some [.bays, .tiles, .scores, .engines, .fab, .cmd, .clk, .faults, .regs .glb, .regs .clk, .regs .pwr, .regs .trim,
      .regs .upper]
  | .referenceReturn _ _ => some [.engines, .cmd, .clk, .regs .glb, .regs .clk, .regs .pwr]
  | .referenceReelection => some [.scores, .cmd, .faults, .regs .glb, .regs .clk, .regs .upper]
  | .gateClose _ _ | .crossingOpen _ _ => some [.clk]
  | .crossingReset _ _ => some [.tiles, .stage, .gddr, .strm, .fab, .cmd, .clk, .faults, .regs .glb, .regs .clk]
  | .domainReset _ => some [.tiles, .stage, .gddr, .strm, .fab, .cmd, .clk, .faults, .regs .glb]
  | .watchdogReset => some [.sec, .cmd, .faults, .link, .regs .glb, .regs .sec, .regs .clk]
  | .activationConfirm => some [.sec, .regs .sec]
  | .entryTimeout => some [.cmd, .pwr, .regs .pwr]
  | .a1Exit => some [.free, .clk, .pwr, .regs .pwr]
  | .wake _ _
    => some [.free, .bays, .tiles, .scores, .engines, .cmd, .clk, .pwr, .faults, .regs .glb, .regs .clk, .regs .pwr, .regs .bay,
      .regs .tile, .regs .loop, .regs .upper]
  | .wakeFailure _ => some [.free, .cmd, .clk, .pwr, .faults, .regs .glb, .regs .pwr]
  | .wakeRetry => some [.pwr]
  | _ => none

/-- What a command from outside may change: the fabric, the host, the sideband, pins and register accesses.
Not listed: a command of another function, or one that resets the module or takes it to A3. -/
def outsideChanges : Instr → Option (List Part)
  | .portTraining _ _ _ | .retrain _ | .portDisable _ _ | .noLightReceived _
    => some [.tiles, .stage, .gddr, .strm, .scores, .fab, .cmd, .clk, .faults, .regs .glb, .regs .clk, .regs .upper]
  | .portIdleRetry _ _ => some [.fab, .regs .upper]
  | .hello _ _ _ | .nodeAnnouncement _ _ | .leaveAnnouncement _ | .partnerEntryTimeout _
    => some [.scores, .fab, .cmd, .clk, .faults, .regs .glb, .regs .clk, .regs .upper]
  | .partnerRejoin _ _ | .nakTimeout _ _ | .laneStop _ _ _ _ | .groupFilterReturn _ _ => some [.fab]
  | .announcementTimer => some [.scores, .fab, .cmd, .clk, .faults, .regs .glb, .regs .clk, .regs .upper]
  | .codewordPair _ _ _ => some [.tiles, .stage, .gddr, .strm, .scores, .fab, .cmd, .faults, .regs .glb, .regs .upper]
  | .lossNotice _ _ _ => some [.fab, .faults, .regs .upper]
  | .readRequest _ _ _ => some [.arb, .fab, .faults, .regs .upper]
  | .messageSend _ _ | .readReply _ _ _ | .writeCompletion _ _ _ | .groupRetrain _ _ _
    => some [.tiles, .stage, .gddr, .strm, .fab, .cmd, .faults, .regs .glb, .regs .upper]
  | .write _ _ _ | .serviceReply _ _ _ => some [.arb, .tiles, .stage, .gddr, .fab, .cmd, .faults, .regs .glb, .regs .upper]
  | .chainEntry _ _ _ => some [.tiles, .fab, .faults, .regs .tile]
  | .serviceRequest _ _ _ => some [.bays, .stage, .strm, .scores, .fab, .cmd, .faults, .regs .glb]
  | .batchDeadline _ _ => some [.bays, .stage, .strm, .scores, .cmd, .faults, .regs .glb]
  | .serviceReplySend _ _ => some [.strm, .scores, .fab, .faults, .regs .upper]
  | .laneChange _ _ => some [.scores, .fab, .cmd, .faults, .regs .glb]
  | .packetTake | .commandWindowWrite _ _ _ => some [.cmd, .faults, .regs .glb, .regs .cmd]
  | .windowStall | .flush | .commandEnable _ => some [.cmd, .regs .cmd]
  | .replyWrite => some [.stage, .cmd, .regs .cmd]
  | .nopCommand _ | .identify _ | .windowMap _ | .eventRead _ => some [.cmd]
  | .loadBegin _ | .rebindComplete _ _ => some [.scores, .cmd, .regs .glb]
  | .loadChunk _ => some [.stage, .gddr, .scores, .cmd, .faults, .regs .upper]
  | .analysis _ _ => some [.free, .bays, .stage, .gddr, .strm, .scores, .sec, .fab, .cmd, .regs .glb]
  | .loadEnd _ => some [.bays, .stage, .strm, .scores, .sec, .fab, .cmd, .regs .glb]
  | .start _ => some [.bays, .strm, .scores, .cmd, .faults, .regs .glb, .regs .upper]
  | .stop _ => some [.bays, .cmd]
  | .unload _ => some [.bays, .stage, .strm, .scores, .sec, .fab, .cmd, .regs .glb]
  | .bind _
    => some [.free, .bays, .tiles, .stage, .strm, .scores, .engines, .light, .fab, .cmd, .faults, .regs .glb, .regs .lsa,
      .regs .tile]
  | .reservationExchange _ _ => some [.scores, .fab, .cmd]
  | .release _ => some [.bays, .strm, .scores, .fab, .cmd, .regs .glb]
  | .eventSignal _ => some [.bays, .scores, .cmd, .faults, .regs .glb]
  | .eventNotify _ => some [.scores, .cmd]
  | .debugEnter _ => some [.bays, .cmd, .regs .glb]
  | .debugExit _ => some [.bays, .tiles, .engines, .cmd, .regs .glb, .regs .trim]
  | .requalify _ _ _ => some [.bays, .tiles, .scores, .engines, .light, .fab, .cmd, .faults, .regs .glb, .regs .lsa, .regs .trim]
  | .powerState _ => some [.cmd, .pwr, .regs .pwr]
  | .guardClear _ _ => some [.cmd, .faults, .regs .glb, .regs .guard]
  | .trimRelease _ => some [.trims, .cmd, .faults, .regs .glb]
  | .fwStage _ _ => some [.sec, .cmd, .faults, .regs .upper]
  | .fwCommit _ => some [.sec, .cmd]
  | .fwActivate _ => some [.sec, .cmd, .regs .sec, .regs .clk]
  | .status | .ident | .serial | .temps | .power | .faultRead | .regAddr _ _ | .nonceRead | .linkRetry _ _ _
  | .configurationRequest => some [.link]
  | .doeRequest _ _ _ => some [.sec, .link]
  | .regData => some [.link, .regs .tile, .regs .upper]
  | .nonceChange => some [.free, .link]
  | .rescueFlush _ => some [.free, .cmd, .link, .regs .cmd]
  | .rescueRecoveryImage _ => some [.free, .sec, .pwr, .link, .regs .glb, .regs .sec, .regs .clk]
  | .rescueRetryWake _ => some [.free, .pwr, .link, .regs .pwr]
  | .wakeMatch => some [.pwr, .link, .regs .pwr]
  | .powerGood _ _ => some [.tick, .core, .pins, .bays, .cmd, .pwr, .faults, .link, .regs .glb, .regs .thm, .regs .upper]
  | .clrTrimNAssert => some [.pins, .bays, .fab, .cmd, .faults, .regs .glb]
  | .clrTrimNRelease => some [.pins]
  | .perstNAssert => some [.armed, .pins, .bays, .stage, .strm, .scores, .fab, .cmd, .link, .regs .glb, .regs .cmd, .regs .clk]
  | .perstNRelease => some [.pins, .link]
  | .functionLevelReset => some [.armed, .bays, .stage, .strm, .scores, .fab, .cmd, .regs .glb, .regs .cmd, .regs .clk]
  | .linkError _ => some [.armed, .bays, .stage, .strm, .scores, .fab, .cmd, .link, .regs .glb, .regs .cmd]
  | .apertureRead _ _ _ => some [.faults, .link, .regs .upper]
  | .apertureWrite _ _ _ => some [.stage, .cmd, .faults, .regs .glb]
  | .pairedValueWrite _ _ => some [.armed]
  | .zeroIdle _ | .swap _ | .capture _ _ | .ditherSeedWrite _ _ | .pewterSeedWrite _ _ => some [.tiles, .regs .tile]
  | .pewterStateRead _ => some [.link, .regs .tile]
  | .serialRead => some [.link, .regs .upper]
  | .traceEnable _ _ => some [.regs .bay]
  | .loopSelect _ _ => some [.armed, .regs .loop]
  | .handOverRequest _ _ | .recordCommit _ | .ncoWrite _ _ => some [.engines]
  | .recordSelect _ _ | .telemetryEnable _ _ => some [.engines, .regs .loop]
  | .recalibrationIntervalWrite _ _ => some [.regs .loop]
  | .toneInjection _ => some [.regs .trim]
  | .gateDisable _ => some [.regs .clk]
  | .tableRebuild _ => some [.tiles, .stage, .cmd, .faults, .regs .glb, .regs .upper]
  | .mainImageHandover _ _ _ => some [.pins, .engines, .sec, .link, .regs .guard, .regs .sec, .regs .loop]
  | .vretLoss => some [.stage]
  | .pcieRefclkStable _ => some [.pins, .clk, .link]
  | _ => none

end Sys2Proof.Machine
end

