-- ==== Sys2Proof/Certificates/Slice0/Obligations.lean ====
section
/-! DEFINITION. The statements for the provers. -/

open Sys2Proof Sys2Proof.Machine

/-! ### Tiles (02, 03, 04) -/

/-- R161, R55, R88: a window that may leave issues with the next two blocks of its queue, on the plane that is active and with the
scale word of that moment, and is counted; the blocks leave the input buffer. R103, R140, R141: a window whose entry, plane or role
is not right faults its strand with code 7, 6 or 9 in its place, and no window starts. A window whose inputs are not there, or that
has no room, waits, and so do those of a tile that is held (R166, R169, R262) or whose scale pair disagrees (R458), and one whose turn
to leave has not come (R55, R168). -/
def Obligations.WindowIssues : Prop :=
  ∀ (s : State) (t : TileId) (pos job strand wl entry estep left iq : Nat) (role : Role) (pl : BitVec 2) (pc : BitVec 14) (begun : Bool)
    (rest : List WinEntry), (s.tile t).winQ = .win pos job strand wl entry estep left iq role pl pc begun :: rest →
    ((s.tileHeld t = true ∨ (s.tile t).scaleBad = true ∨ (s.tile t).mayLeave = false) → exec (.windowIssue t) s = .next s) ∧
    (s.tileHeld t = false → (s.tile t).scaleBad = false → (s.tile t).mayLeave = true →
      (∀ code, s.winFault t entry pl role begun = some code → ∃ u, exec (.windowIssue t) s = .next u ∧
        (u.strand (t / 4) strand).state = .faulted ∧ (u.strand (t / 4) strand).fault = BitVec.ofNat 4 code ∧
        (u.tile t).wins = (s.tile t).wins ∧ (u.tile t).started = (s.tile t).started) ∧
      (s.winFault t entry pl role begun = none →
        (∀ a b inbuf, takeInputs iq (s.tile t).inbuf = some (a, b, inbuf) →
          (s.windowRoom t pos entry wl role = true → ∃ u, exec (.windowIssue t) s = .next u ∧
            (u.tile t).started = (s.tile t).started + 1 ∧ (u.tile t).inbuf = inbuf ∧
            ∃ w ∈ (u.tile t).wins, w.no = (s.tile t).started + 1 ∧ w.wl = wl ∧ w.entry = entry ∧ w.inputs = a.data ++ b.data ∧
              w.plane = s.active t ∧ w.scale = s.reg (TILE_SCALE.s_m.on t).off ∧ w.phase = .integrating) ∧
          (s.windowRoom t pos entry wl role = false → exec (.windowIssue t) s = .next s)) ∧
        (takeInputs iq (s.tile t).inbuf = none → exec (.windowIssue t) s = .next s)))

/-- R56, R89 to R92: the oldest window that integrates is converted and counted as ended. A converted window with a rail code that can
be replayed waits for its replay and TILE_OVF_LAST shows it; one that cannot be replayed leaves the tile with its rows counted as
saturated, and one without a rail code leaves it. A replay whose boundary has come is counted, and its window leaves; before that
it waits. -/
def Obligations.WindowsConvertAndLeave : Prop :=
  ∀ (s : State) (t : TileId) (w : Win),
    ((s.tile t).firstIn .integrating = some w → ∃ u, exec (.windowEnd t) s = .next u ∧ (u.tile t).ended = (s.tile t).ended + 1 ∧
      ∃ v ∈ (u.tile t).wins, v.no = w.no ∧ v.phase = .converted ∧
        v.codes = (s.tile t).convert w ((s.tile t).planeOf w.plane) false s.free) ∧
    ((s.tile t).firstIn .integrating = none → exec (.windowEnd t) s = .next s) ∧
    ((s.tile t).firstIn .converted = some w →
      (overRows w.codes ≠ [] → s.replayable t w = true → ∃ u, exec (.overflowDecision t) s = .next u ∧
        (∃ v ∈ (u.tile t).wins, v.no = w.no ∧ v.phase = .replaying) ∧ u.flag (TILE_OVF_LAST.valid.on t) = true ∧
        u.flag (TILE_OVF_LAST.sat.on t) = false ∧ u.fld (TILE_OVF_LAST.win.on t) = w.no % 2 ^ 21 ∧
        u.fld (TILE_OVF_LAST.row.on t) = (overRows w.codes).headD 0) ∧
      (overRows w.codes ≠ [] → s.replayable t w = false → ∃ u, exec (.overflowDecision t) s = .next u ∧
        (∀ v ∈ (u.tile t).wins, v.no ≠ w.no) ∧ u.flag (TILE_OVF_LAST.sat.on t) = true ∧
        u.fld (TILE_OVF_STAT.sats.on t) = min (s.fld (TILE_OVF_STAT.sats.on t) + (overRows w.codes).length) 65535) ∧
      (overRows w.codes = [] → ∃ u, exec (.overflowDecision t) s = .next u ∧ ∀ v ∈ (u.tile t).wins, v.no ≠ w.no)) ∧
    ((s.tile t).firstIn .replaying = some w →
      (s.replayDue t = true → ∃ u, exec (.replay t) s = .next u ∧ (∀ v ∈ (u.tile t).wins, v.no ≠ w.no) ∧
        u.fld (TILE_OVF_STAT.replays.on t) = min (s.fld (TILE_OVF_STAT.replays.on t) + 1) 65535) ∧
      (s.replayDue t = false → exec (.replay t) s = .next s))

/-- R107, R108, R109, R110: an update of a group. With s_r the exact sum of the old value and the partial, the new exponent is the smallest
from the old one on at which floor and ceiling of every s_r / 2^E lie in the range of a mantissa, 127 when there is none; a mantissa is the
floor, or one more when f · 2^24 exceeds the row's number; only at 127 can one lie outside the range, and it is then clamped and the
group's overflow bit set. -/
def Obligations.GroupUpdateIsExact : Prop :=
  ∀ (g : GroupVal) (p es : List Int) (mark : Mark) (rhos : List Nat), g.e ≤ 127 → p.length ≤ es.length →
    let x := (groupUpdate g p es mark rhos).1
    let sum : Nat → Rat := fun r => (g.m.getD r 0 : Rat) * (2 : Rat) ^ g.e + (p.getD r 0 : Rat) * (2 : Rat) ^ es.getD r 0
    let fits : Int → Prop := fun e => ∀ r, r < 16 → -(2 ^ 39) ≤ (sum r / (2 : Rat) ^ e).floor ∧ (sum r / (2 : Rat) ^ e).ceil ≤ 2 ^ 39 - 1
    let near : Nat → Int := fun r =>
      let v := sum r / (2 : Rat) ^ x.e
      if (rhos.getD r 0 : Rat) < (v - v.floor) * 2 ^ 24 then v.floor + 1 else v.floor
    g.e ≤ x.e ∧ x.e ≤ 127 ∧ (∀ e, g.e ≤ e → e < x.e → ¬ fits e) ∧ (fits x.e ∨ x.e = 127) ∧
    (∀ r, r < 16 → x.m.getD r 0 = clampI (near r) (-(2 ^ 39)) (2 ^ 39 - 1)) ∧
    (x.e ≠ 127 → ∀ r, r < 16 → x.m.getD r 0 = near r) ∧
    (x.ovf = true ↔ g.ovf = true ∨ ∃ r, r < 16 ∧ (near r < -(2 ^ 39) ∨ 2 ^ 39 - 1 < near r)) ∧
    ((∃ r, r < 16 ∧ (near r < -(2 ^ 39) ∨ 2 ^ 39 - 1 < near r)) → x.mark.isSome = true ∧
      (g.mark = none → mark = none → x.mark = some 2))

/-- R107, R108, R128: the first applicable update leaves the queue, and each of the 32 groups of its entry takes the value that one
step with the group's partials gives; without an applicable update nothing happens. -/
def Obligations.UpdateIsApplied : Prop :=
  ∀ (s : State) (t : TileId),
    (∀ u : Update, (s.tile t).updQ.find? (s.updReady t) = some u →
      ∃ v, exec (.pewterUpdate t) s = .next v ∧ (v.tile t).updQ = (s.tile t).updQ.filter (·.gid != u.gid) ∧
        ∀ g x, (groupSteps ((List.range 32).map ((s.tile t).groupVal u.entry)) u.p u.e u.marks u.ovfs u.gen (updateKey t))[g]? = some x →
          ((v.tile t).groupVal u.entry g).mark = x.new.mark ∧ ((v.tile t).groupVal u.entry g).e = x.new.e ∧
          ∀ i, i < 16 → Tab.get dZero (v.tile t).mant (512 * u.entry + 16 * g + i) = x.new.m.getD i 0) ∧
    ((s.tile t).updQ.find? (s.updReady t) = none → exec (.pewterUpdate t) s = .next s)

/-- R118: the head of a chain adds its next own group to nothing and passes the word on; a later position adds its own group to the word
that has come, with the hop generator's next state, and passes the sum on, or, at the end, queues it as the update of its entry. R147: a
word of another configuration is discarded, and the sequence that holds the tile faults with code 9. R118, R119: with no word and no own
group to step with, nothing happens.
R117, R146: a CCF at the head of the window queue takes effect once the tile's present chain is idle and its bay is not paused, and waits
until then: the tile takes head, length, position, port use, time-out and group role, or, with dis, gives up the configuration that the
CCF names.
R121: the target of a remote entry that has not come within the timeout is cleared, and its 32 groups are marked with reason 8. -/
def Obligations.ChainsMoveChangeAndTimeOut : Prop :=
  (∀ (s : State) (t : TileId),
      (∀ g rest, (s.tile t).chainIn = [] → (s.tile t).ownQ = g :: rest → s.chainAct t = true → s.chainPos t = 0 → s.chainEnd t = false →
        s.mayCross t (nextTile t) = true → (s.tile (nextTile t)).chainIn.length < 8 →
        (s.compat = true ∨ s.remotePending t g.entry g.stamp = false) →
        ∃ u, exec (.chainStep t) s = .next u ∧ (u.tile t).ownQ = rest ∧
          ∃ w, (u.tile (nextTile t)).chainIn = (s.tile (nextTile t)).chainIn ++ [w] ∧ w.head = s.chainHead t ∧ w.len = s.chainLen t ∧
            w.m = (groupSteps (List.replicate 32 GroupVal.cleared) g.p g.e g.marks (List.replicate 32 false) (genNext (s.tile t).hop)
              (hopKey t)).flatMap (·.new.m)) ∧
      (∀ w g own rest, (s.tile t).chainIn = w :: rest → (s.tile t).ownQ = g :: own → s.chainAct t = true → w.head = s.chainHead t →
        w.len = s.chainLen t →
        let sum := (groupSteps w.vals g.p g.e g.marks (List.replicate 32 false) (genNext (s.tile t).hop) (hopKey t)).flatMap (·.new.m)
        (s.chainEnd t = false → s.mayCross t (nextTile t) = true → (s.tile (nextTile t)).chainIn.length < 8 →
          ∃ u, exec (.chainStep t) s = .next u ∧ (u.tile t).ownQ = own ∧ (u.tile t).chainIn = rest ∧
            ∃ x, (u.tile (nextTile t)).chainIn = (s.tile (nextTile t)).chainIn ++ [x] ∧ x.m = sum) ∧
        (s.chainEnd t = true → ∃ u, exec (.chainStep t) s = .next u ∧ (u.tile t).ownQ = own ∧ (u.tile t).chainIn = rest ∧
          ∃ x, (u.tile t).updQ = (s.tile t).updQ ++ [x] ∧ x.entry = g.entry ∧ x.p = sum)) ∧
      (∀ w rest, (s.tile t).chainIn = w :: rest → (s.chainAct t = false ∨ w.head ≠ s.chainHead t ∨ w.len ≠ s.chainLen t) →
        ∃ u, exec (.chainStep t) s = .next u ∧ (u.tile t).chainIn = rest ∧
          ∀ r, s.holder t = some r → u.fld (BAY_FAULT.code.on (t / 4)) = 9) ∧
      ((s.tile t).chainIn = [] → (s.tile t).ownQ = [] → exec (.chainStep t) s = .next s)) ∧
  (∀ (s : State) (t : TileId) (st head len : Nat) (rin rout dis : Bool) (tmo : Byte) (wgr : BitVec 6) (rest : List WinEntry),
      (s.tile t).winQ = .ccf st head len rin rout dis tmo wgr :: rest → head < 32 → 1 ≤ len → len ≤ 32 →
      (s.chainIdle t = true → (s.bay (t / 4)).paused = false →
        (dis = false → ∃ u, exec (.chainConfigurationChange t) s = .next u ∧ u.chainAct t = true ∧ u.chainHead t = head ∧
          u.chainLen t = len ∧ u.chainPos t = (t + 32 - head) % 32 ∧ (u.tile t).wgr = wgr ∧
          u.fld (TILE_CHAIN_CFG.tmo.on t) = tmo.toNat ∧ u.flag (TILE_CHAIN_CFG.rin.on t) = (rin && (t + 32 - head) % 32 == 0) ∧
          u.flag (TILE_CHAIN_CFG.rout.on t) = (rout && (t + 32 - head) % 32 + 1 == len)) ∧
        (dis = true → s.chainAct t = true → s.chainHead t = head → s.chainLen t = len →
          ∃ u, exec (.chainConfigurationChange t) s = .next u ∧ u.chainAct t = false) ∧
        (dis = true → (s.chainAct t = false ∨ s.chainHead t ≠ head ∨ s.chainLen t ≠ len) →
          ∃ u, exec (.chainConfigurationChange t) s = .next u ∧ u.chainAct t = s.chainAct t ∧ u.chainHead t = s.chainHead t ∧
            u.chainLen t = s.chainLen t)) ∧
      ((s.chainIdle t = false ∨ (s.bay (t / 4)).paused = true) → exec (.chainConfigurationChange t) s = .next s)) ∧
  (∀ (s : State) (t : TileId) (e : EntryId) (r : Remote), ((s.tile t).rounds e).due.find? (fun x => !x.done) = some r →
      (s.flag (TILE_CHAIN_CFG.rin.on t) = true → (s.tile t).roundOpen e r = true →
        r.since + s.fld (TILE_CHAIN_CFG.tmo.on t) ≤ s.tick →
        ∃ u, exec (.remoteChainTimeout t e) s = .next u ∧ (∀ x ∈ ((u.tile t).rounds e).due, x.pos = r.pos → x.done = true) ∧
          (∀ g, g < 32 → ((u.tile t).groupVal e g).mark = some 8) ∧ ∀ k, k < 512 → Tab.get dZero (u.tile t).mant (512 * e + k) = 0) ∧
      (s.tick < r.since + s.fld (TILE_CHAIN_CFG.tmo.on t) → exec (.remoteChainTimeout t e) s = .next s))

/-- R184, R48, R49, R81: the next load's image arrives in an image buffer as stage memory delivers it, once its slot is
granted, and without a load to fetch or a grant nothing happens; the first load begins, of the
plane that is not active, and faults its strand with code 4 where it names the active plane and with code 5 where a header of its image
is not right; when it has settled its plane holds it.
R50, R53, R144: a swap at the head of the window queue makes the other plane active once every earlier load is valid, at a boundary
without a replay, and waits until then; a plane past its hold limit of 1 ms is stale, and none before. -/
def Obligations.PlanesLoadSwapAndAge : Prop :=
  (∀ (s : State) (t : TileId) (l : Load),
      (∀ i, nextFetch (s.tile t).loadQ = some l → (s.tile t).pickBuf (s.active t) = some i →
        s.rangeSlots l.addr imageSize readKinds ((s.bay (t / 4)).job l.job).cls = true → s.grantsOpt s.claims (s.fetchClaim t) = true →
        ∃ u, exec (.imageFetch t) s = .next u ∧ ((u.tile t).buf i).full = true ∧ ((u.tile t).buf i).stamp = l.stamp ∧
          ∀ k, k < imageSize → Tab.get dZero ((u.tile t).buf i).bytes k = (s.blockAt (l.addr + 64 * (k / 64))).data.getD (k % 64) 0) ∧
      ((nextFetch (s.tile t).loadQ = none ∨ s.grantsOpt s.claims (s.fetchClaim t) = false) → exec (.imageFetch t) s = .next s) ∧
      (∀ q, (s.tile t).loadQ = l :: q → ((s.bay (t / 4)).paused = true ∨ (s.tile t).mayStart l = false) →
        exec (.planeLoadStart t) s = .next s) ∧
      (∀ q, (s.tile t).loadQ = l :: q → (s.bay (t / 4)).paused = false → (s.tile t).mayStart l = true →
        (l.target (s.active t) = s.active t → ∃ u, exec (.planeLoadStart t) s = .next u ∧
          (u.strand (t / 4) l.strand).state = .faulted ∧ (u.strand (t / 4) l.strand).fault = 4 ∧
          (u.tile t).loading = (s.tile t).loading) ∧
        (l.target (s.active t) ≠ s.active t → l.zero = false → (∃ r, r < 512 ∧ badHdr (((s.tile t).buf l.buf).hdrWord r) = true) →
          ∃ u, exec (.planeLoadStart t) s = .next u ∧ (u.strand (t / 4) l.strand).state = .faulted ∧
            (u.strand (t / 4) l.strand).fault = 5 ∧ (u.tile t).loading = (s.tile t).loading) ∧
        (l.target (s.active t) ≠ s.active t →
          (l.zero = true ∨ ∀ r, r < 512 → badHdr (((s.tile t).buf l.buf).hdrWord r) = false) →
          ∃ u, exec (.planeLoadStart t) s = .next u ∧ (u.tile t).loading.isSome = true ∧
            (∃ y ∈ (u.tile t).loadQ, y.stamp = l.stamp ∧ y.phase = 2) ∧
            (l.zero = true → ∀ p, (u.tile t).loading = some p → p.zeros = true ∧ p.codes = []))) ∧
      (∀ p, (s.tile t).loadQ.find? (·.phase == 2) = some l → (s.tile t).loading = some p →
        ∃ u, exec (.planeLoadValid t) s = .next u ∧ (u.tile t).loading = none ∧
          (u.tile t).planeOf l.plane = { p with settled := s.tick })) ∧
  (∀ (s : State) (t : TileId),
      (∀ st job rest, (s.tile t).winQ = .psw st job :: rest →
        ((s.tile t).loadQ.any (·.stamp < st) = false → (s.tile t).boundary = true → (s.bay (t / 4)).paused = false →
          ∃ u, exec (.planeSwap t) s = .next u ∧ u.active t = !s.active t) ∧
        (((s.tile t).loadQ.any (·.stamp < st) = true ∨ (s.tile t).boundary = false ∨ (s.bay (t / 4)).paused = true) →
          exec (.planeSwap t) s = .next s)) ∧
      (((s.tile t).planeOf (s.active t)).settled + 1000 ≤ s.tick →
        ∃ u, exec (.holdLimitExpiry t) s = .next u ∧ u.flag (TILE_PLANE_STAT.stale.on t) = true) ∧
      (s.tick < ((s.tile t).planeOf (s.active t)).settled + 1000 → exec (.holdLimitExpiry t) s = .next s))

/-- R127, R128: the first drain is released when the updates before it have been applied to its entry, with its remote entry when one
falls due, and waits until then. R124, R148, R105: its read takes one entry off it, and its last read takes it out of the queue and counts
it; it clears the entry that it names if it says so, unless a later round's remote entry stands ready for it; draining to stage memory
it writes there the rows of the entry as converted, in the entry's range alone, and draining to a chain hop it writes no stage memory.
It reads once its slot in stage memory is granted (R163), and the queue of
a paused bay waits (R262). -/
def Obligations.DrainsReadTheirEntry : Prop :=
  ∀ (s : State) (t : TileId) (d : Drain) (q : List Drain), (s.tile t).drainQ = d :: q →
    (d.released = false → (s.bay (t / 4)).paused = false → (s.tile t).drainClear d (s.tileFaulted t) = true →
      (s.tile t).drainGen d = true → (s.reserveRemote t d.entry d.stamp).remotePending t d.entry d.stamp = false →
      ∃ u, exec (.drainRelease t) s = .next u ∧ ∃ d' q', (u.tile t).drainQ = d' :: q' ∧ d'.released = true ∧ d'.entry = d.entry) ∧
    (((s.bay (t / 4)).paused = true ∨ (s.tile t).drainClear d (s.tileFaulted t) = false) → exec (.drainRelease t) s = .next s) ∧
    ((d.released = false ∨ (s.bay (t / 4)).paused = true ∨ s.drainRoom t d = false ∨ s.grantsOpt s.claims (s.drainClaim t) = false) →
      exec (.drainReadEnd t) s = .next s) ∧
    (d.released = true → (s.bay (t / 4)).paused = false → s.drainRoom t d = true → s.grantsOpt s.claims (s.drainClaim t) = true →
      (d.left ≤ 1 → ∃ u, exec (.drainReadEnd t) s = .next u ∧ (u.tile t).drainQ = q ∧
        u.fld (TILE_DRAIN_STAT.count.on t) = min (s.fld (TILE_DRAIN_STAT.count.on t) + 1) 65535) ∧
      (1 < d.left → ∃ u, exec (.drainReadEnd t) s = .next u ∧ ∃ d', (u.tile t).drainQ = d' :: q ∧ d'.entry = (d.entry + 1) % 1024 ∧
        d'.left = d.left - 1 ∧ d'.released = false) ∧
      ∃ u, exec (.drainReadEnd t) s = .next u ∧
        (d.clr = true → (∀ r ∈ ((s.tile t).rounds d.entry).due, r.pos ≤ d.stamp) →
          ∀ r, r < 512 → Tab.get dZero (u.tile t).mant (512 * d.entry + r) = 0) ∧
        (d.dst = 0 → (∀ a, (a < d.addr ∨ d.addr + drainBytes d.fmt.toNat ≤ a) → u.stageByte a = s.stageByte a) ∧
          (d.fmt.toNat ≤ 4 → (∀ k, s.holdsDesc (d.addr + 64 * k) = false) →
            u.stageBytesAt d.addr (drainBytes d.fmt.toNat) = (List.range 32).flatMap fun g =>
              (drainGroup d t (d.gens.headD 0) ((s.tile t).groupVal d.entry g) g).rows.flatMap (·.1))) ∧
        (d.dst = 2 → u.stage = s.stage))

/-! ### Bay sequencers (05) -/

/-- R159, R137, R151, R155, R156, R150, R152, R133: an instruction that may issue counts in BAY_ISSUE_CNT and takes the strand to its
next address. NOP and SWT do no more; LOOP enters its body with a new frame; END leaves the strand idle; BRT goes to its target when its
condition holds on the strand's test flags, and on otherwise; EVS adds its increment to the counter, which stops at 65,535; EVW takes its
amount off, which the counter has. -/
def Obligations.StrandControlIssues : Prop :=
  ∀ (s : State) (b : BayId) (j : StrandId) (r : SeqRun),
    let past := { (s.strand b j).advance false with waitFrom := some s.tick }
    let counted := fun (t : State) => t.fld (BAY_ISSUE_CNT.count.on b) = (s.fld (BAY_ISSUE_CNT.count.on b) + 1) % 2 ^ 32
    (s.mayIssue b j r .nop → ∃ t, exec (.nop b j .clean) s = .next t ∧ t.strand b j = past ∧ counted t ∧
      t.tiles = s.tiles ∧ t.stage = s.stage ∧ t.strm = s.strm ∧ t.scores = s.scores) ∧
    (∀ q mode n tag tmo, s.mayIssue b j r (.swt q mode n tag tmo) → ∃ t, exec (.swt b j .clean) s = .next t ∧
      t.strand b j = past ∧ counted t ∧ t.tiles = s.tiles ∧ t.stage = s.stage ∧ t.strm = s.strm ∧ t.scores = s.scores) ∧
    (∀ cm1 last, s.mayIssue b j r (.loop cm1 last) → ∃ t, exec (.loop b j .clean) s = .next t ∧ counted t ∧
      (t.strand b j).pc = (s.strand b j).pc + 1 ∧
      (t.strand b j).loops = ⟨(s.strand b j).pc + 1, BitVec.ofNat 14 last, cm1⟩ :: (s.strand b j).loops) ∧
    (s.mayIssue b j r .endStrand → ∃ t, exec (.endStrand b j .clean) s = .next t ∧ counted t ∧ (t.strand b j).state = .idle ∧
      (t.strand b j).pc = (s.strand b j).pc) ∧
    (∀ cond tgt, s.mayIssue b j r (.brt cond tgt) → ∃ t, exec (.brt b j .clean) s = .next t ∧ counted t ∧
      (t.strand b j).pc =
        (if (match cond with
            | 0 => (s.strand b j).neg
            | 1 => (s.strand b j).zero
            | 2 => !(s.strand b j).neg && !(s.strand b j).zero
            | 3 => !(s.strand b j).neg
            | 4 => !(s.strand b j).zero
            | 5 => (s.strand b j).neg || (s.strand b j).zero
            | _ => (s.strand b j).pep) = true
          then BitVec.ofNat 14 tgt else past.pc)) ∧
    (∀ ev n, s.mayIssue b j r (.evs ev n) → ∃ t, exec (.evs b j .clean) s = .next t ∧ counted t ∧
      t.counter b ev = min (s.counter b ev + n) 65535 ∧ t.strand b j = past) ∧
    (∀ ev n tmo, s.mayIssue b j r (.evw ev n tmo) → n ≤ s.counter b ev ∧ ∃ t, exec (.evw b j .clean) s = .next t ∧ counted t ∧
      t.counter b ev = s.counter b ev - n ∧ t.strand b j = past)

/-- R139, R144, R145, R146, R160, R87: WIN, PSW and CCF put an entry into the window queue of every tile that they name; SSC does too,
or its word is the tile's scale word already, its reserved bits zero. A WIN whose input queues are not shared takes one queue per tile,
in rising order. -/
def Obligations.TileInstructionsQueue : Prop :=
  ∀ (s : State) (b : BayId) (j : StrandId) (r : SeqRun) (m : Nat) (ev : Option (BitVec 9)),
    (∀ wl role pl entry estep cnt iq shr, s.mayIssue b j r (.win m wl role pl entry estep cnt iq shr ev) →
      ∃ t, exec (.win b j .clean) s = .next t ∧ ∀ n k, (maskList 4 m)[n]? = some k →
        ∃ st job, WinEntry.win st job j wl entry (estep % 1024).toNat (cnt + 1) (if shr then iq else iq + n) (roleOf role)
          (BitVec.ofNat 2 pl) (s.strand b j).pc false ∈ (t.tile (4 * b + k)).winQ) ∧
    (s.mayIssue b j r (.psw m ev) → ∃ t, exec (.psw b j .clean) s = .next t ∧ ∀ k ∈ maskList 4 m,
        ∃ st job, WinEntry.psw st job ∈ (t.tile (4 * b + k)).winQ) ∧
    (∀ w, s.mayIssue b j r (.ssc m w (~~~w)) → ∃ t, exec (.ssc b j .clean) s = .next t ∧ ∀ k ∈ maskList 4 m,
        (∃ st, WinEntry.ssc st w ∈ (t.tile (4 * b + k)).winQ) ∨ t.reg (TILE_SCALE.s_m.on (4 * b + k)).off = w &&& 0xFF00FFFF) ∧
    (∀ head len rin rout dis tmo wgr, s.mayIssue b j r (.ccf head len rin rout dis tmo wgr) →
      ∃ t, exec (.ccf b j .clean) s = .next t ∧ ∀ k ∈ chainTiles b head len,
        ∃ st, WinEntry.ccf st head len rin rout dis (BitVec.ofNat 8 tmo) (BitVec.ofNat 6 wgr) ∈ (t.tile (4 * b + k)).winQ)

/-- R142, R148, R150, R151: PLD puts a load into the load queue of every tile that it names, DRN a drain into the drain queue of
its tile, SMV a transfer at the end of its stream queue; a DRN that tests makes the strand's flags not valid. -/
def Obligations.LoadsDrainsAndMovesQueue : Prop :=
  ∀ (s : State) (b : BayId) (j : StrandId) (r : SeqRun) (ev : Option (BitVec 9)),
    (∀ m pl zero addr, s.mayIssue b j r (.pld m pl zero addr ev) → ∃ t, exec (.pld b j .clean) s = .next t ∧
      ∀ n k, (maskList 4 m)[n]? = some k → ∃ st job,
        (⟨st, job, j, (s.strand b j).pc, BitVec.ofNat 2 pl, zero, addr + n * 0x10400, 0, 0, false⟩ : Load) ∈
          (t.tile (4 * b + k)).loadQ) ∧
    (∀ k entry cnt fmt rnd clr sh dst addr tst trow, s.mayIssue b j r (.drn k entry cnt fmt rnd clr sh dst addr tst trow ev) →
      ∃ t, exec (.drn b j .clean) s = .next t ∧ (∃ d ∈ (t.tile (4 * b + k)).drainQ,
        d.entry = entry ∧ d.left = cnt + 1 ∧ d.fmt = BitVec.ofNat 3 fmt ∧ d.clr = clr ∧ d.dst = BitVec.ofNat 2 dst ∧
          d.addr = (if dst = 0 then 64 * addr else addr)) ∧
        (tst = true → (t.strand b j).valid = false ∧ (t.strand b j).tstEver = true)) ∧
    (∀ q desc tag d, s.mayIssue b j r (.smv q desc tag ev) → r.descs.find? (·.1 == desc) = some d →
      ∃ t, exec (.smv b j .clean) s = .next t ∧ ∃ x, (t.queue (globalQueue b q)).xfers =
        (s.queue (globalQueue b q)).xfers ++ [x] ∧ x.bay = b.val ∧ x.cls = (s.strand b j).cls ∧ x.tag = BitVec.ofNat 8 tag ∧
          x.desc = d.2 ∧ x.started = false ∧ x.next = 0 ∧ x.total = d.2.blocks ∧ x.done = 0)

/-- R158: MRK with the trace ring on and a slot free writes its record of 16 bytes where the ring stands and moves the ring on, the
sequence's descriptor region apart; without a free observability slot it counts a dropped record instead; with the ring off it writes
nothing. In each case it issues, and the strand goes on. -/
def Obligations.MarksAreTraced : Prop :=
  ∀ (s : State) (b : BayId) (j : StrandId) (r : SeqRun) (v : Word) (free : Bool), s.mayIssue b j r (.mrk v) →
    let a := 64 * s.fld (BAY_TRACE_ADDR.addr.on b) + 16 * s.fld (BAY_TRACE_PTR.next.on b)
    let entries := 2 ^ (s.fld (BAY_TRACE_CTL.size.on b) + 10) / 16
    ∃ t, exec (.mrk b j .clean free) s = .next t ∧ t.strand b j = { (s.strand b j).advance false with waitFrom := some s.tick } ∧
      t.fld (BAY_ISSUE_CNT.count.on b) = (s.fld (BAY_ISSUE_CNT.count.on b) + 1) % 2 ^ 32 ∧ t.tiles = s.tiles ∧
      (s.flag (BAY_TRACE_CTL.en.on b) = false → t.stage = s.stage ∧ t.fld (BAY_TRACE_PTR.next.on b) = s.fld (BAY_TRACE_PTR.next.on b) ∧
        t.fld (BAY_TRACE_CTL.drops.on b) = s.fld (BAY_TRACE_CTL.drops.on b)) ∧
      (s.flag (BAY_TRACE_CTL.en.on b) = true → free = true → s.hasSlot a writeKinds 5 = true →
        t.fld (BAY_TRACE_PTR.next.on b) = (s.fld (BAY_TRACE_PTR.next.on b) + 1) % entries ∧
        (s.holdsDesc a = false → s.holdsDesc (a + 15) = false →
          t.stageBytesAt a 16 = leBytes 16 (traceRecord s.coreCycles j (s.strand b j).cls b (s.strand b j).pc.toNat v) ∧
          ((∀ k, s.blockBad (64 * k) = false) → ∀ n, (n < a ∨ a + 16 ≤ n) → t.stageByte n = s.stageByte n))) ∧
      (s.flag (BAY_TRACE_CTL.en.on b) = true → (free = false ∨ s.hasSlot a writeKinds 5 = false) → t.stage = s.stage ∧
        t.fld (BAY_TRACE_CTL.drops.on b) = min (s.fld (BAY_TRACE_CTL.drops.on b) + 1) 65535)

/-- Of every instruction, by its row. R154, R159: one whose wait condition is not met stands in its wait, from the tick since which it is
the strand's next; nothing else changes. R172, R173: one that its check refuses faults the strand with its code, in the strand, in
BAY_FAULT and in the class's flag. R137, R136: a word that is no instruction faults it with the code that decoding gives. R135: an
error of two bits in the word faults it with code 2 and is counted, one of one bit is counted and corrected. A strand that is not
live issues nothing. R154: a wait that has lasted its timeout, of 0 or more µs other than 0, faults the strand with code 11; one
that has not lasted so long goes on. -/
def Obligations.WaitsAndFaultsOfStrands : Prop :=
  ∀ (s : State) (b : BayId) (j : StrandId) (free : Bool),
    let faulted := fun (t : State) (code : Nat) => (t.strand b j).state = .faulted ∧ (t.strand b j).fault = BitVec.ofNat 4 code ∧
      t.flag (BAY_FAULT.valid.on b) = true ∧ t.fld (BAY_FAULT.code.on b) = code % 16 ∧ t.fld (BAY_FAULT.strand.on b) = j ∧
      t.flag ((if (s.strand b j).cls = .assured then BAY_SEQ_STAT.a_flt else BAY_SEQ_STAT.s_flt).on b) = true
    (∀ (r : SeqRun) (i : SInstr), s.nextInstr b j = some (r, .ok i) →
      (∀ w, s.faultOf b j r i = none → s.waitOf b j i = some w → exec (i.row b j .clean free) s =
        .next (s.setStrand b j { s.strand b j with state := w, waitFrom := some ((s.strand b j).waitFrom.getD s.tick) })) ∧
      (∀ code, s.faultOf b j r i = some code → s.wins b j i = true →
        ∃ t, exec (i.row b j .clean free) s = .next t ∧ faulted t code) ∧
      ((s.strand b j).state.waiting = false → exec (i.row b j .single free) s =
        exec (i.row b j .clean free) (s.bump (BAY_IMEM_ECC.corr.on b))) ∧
      (∀ t0, (s.strand b j).waitFrom = some t0 →
        ((s.waitOf b j i).isSome = true → i.timeout ≠ 0 → t0 + i.timeout ≤ s.tick →
          ∃ t, exec (.waitTimeout b j) s = .next t ∧ faulted t 11) ∧
        ((s.waitOf b j i = none ∨ i.timeout = 0 ∨ s.tick < t0 + i.timeout) → exec (.waitTimeout b j) s = .next s))) ∧
    (∀ (r : SeqRun) (x : Except Nat SInstr) (i : SInstr), s.nextInstr b j = some (r, x) →
      (∀ code, x = .error code → ∃ t, exec (i.row b j .clean free) s = .next t ∧ faulted t code) ∧
      ((s.strand b j).state.waiting = false → ∃ t, exec (i.row b j .double free) s = .next t ∧ faulted t 2 ∧
        t.fld (BAY_IMEM_ECC.uncorr.on b) = min (s.fld (BAY_IMEM_ECC.uncorr.on b) + 1) 65535)) ∧
    (∀ (i : SInstr) (e : Ecc), s.nextInstr b j = none →
      exec (i.row b j e free) s = .next s ∧ exec (.waitTimeout b j) s = .next s)

/-- R171: in bay debug state a write of BAY_SEQ_CTL with step set issues the next instruction of the selected strand, whichever it is,
and the strand stays halted unless it ends; an instruction that waits stays, and one that its check refuses faults. A write without
step, and one outside debug state, does nothing.
R133: a sequence whose strands are idle or faulted and whose work is complete ends: its strands are unused, the class runs no more;
until then it goes on. -/
def Obligations.StepsIssueAndSequencesEnd : Prop :=
  (∀ (s : State) (b : BayId) (r : SeqRun) (v : Word) (free : Bool),
      let j := s.fld (BAY_STRAND_SEL.strand.on b)
      ((v.getLsbD 0 = false ∨ s.bayState b ≠ 5 ∨ (s.strand b j).state ≠ .halted) → exec (.stepBay b v .clean free) s = .next s) ∧
      (v.getLsbD 0 = true → s.bayState b = 5 → (s.strand b j).state = .halted → (s.bay b).seqOf j = some r →
        (∀ i, s.fetch b j r = .ok i →
          (s.faultOf b j r i = none → s.waitOf b j i = none → ∃ t, exec (.stepBay b v .clean free) s = .next t ∧
            (t.strand b j).state = (if i = .endStrand then .idle else .halted) ∧
            t.fld (BAY_ISSUE_CNT.count.on b) = (s.fld (BAY_ISSUE_CNT.count.on b) + 1) % 2 ^ 32) ∧
          (i = .nop → ∃ t, exec (.stepBay b v .clean free) s = .next t ∧
            t.strand b j = { (s.strand b j).advance true with waitFrom := some s.tick }) ∧
          (s.faultOf b j r i = none → (s.waitOf b j i).isSome = true → exec (.stepBay b v .clean free) s = .next s) ∧
          (∀ code, s.faultOf b j r i = some code → ∃ t, exec (.stepBay b v .clean free) s = .next t ∧
            (t.strand b j).state = .faulted ∧ (t.strand b j).fault = BitVec.ofNat 4 code)) ∧
        (∀ code, s.fetch b j r = .error code → ∃ t, exec (.stepBay b v .clean free) s = .next t ∧
          (t.strand b j).state = .faulted ∧ (t.strand b j).fault = BitVec.ofNat 4 code))) ∧
  (∀ (s : State) (b : BayId) (c : Cls) (r : SeqRun), (s.bay b).run c = some r →
      (s.seqEnded b c r = true → ∃ t, exec (.sequenceEnd b c) s = .next t ∧ (t.bay b).run c = none ∧
        ∀ j ∈ r.strands, (t.strand b j).state = .unused) ∧
      (s.seqEnded b c r = false → exec (.sequenceEnd b c) s = .next s))

/-! ### Stage memory, GDDR7, streams, and the host's view of them (06) -/

/-- R163, R175, R179, R182, R191, R195, R196, R188, R197, R309: a slot that a queue's transfer wins moves its next block, of those whose
source and destination are there. From a granule of its score to another one: bytes as read, with their mark, and nothing else in stage
memory. To input buffers: the block joins the buffer of every tile that it names. To GDDR7 and from there: the bytes; a read of GDDR7 with a CRC error is
put aside for its retry. Into and out of a stream buffer: a block more, and a block less, is present. Through a remote window: a block
joins the write message, a read request goes to the partner. The transfer goes on by a block, or by the blocks asked for. A transfer whose data are not there waits, and one
that could not move, or that another requester goes before, is as it was. -/
def Obligations.SlotMovesABlock : Prop :=
  ∀ (s : State) (q : QueueId) (i : Nat) (x : Transfer) (find : GddrFind),
    readingIdx (s.queue q).xfers = some i → (s.queue q).xfers[i]? = some x →
    let o := (s.queue q).owner
    let src := x.desc.srcOf x.next
    let dst := x.desc.dstOf x.next
    let went := fun (u : State) => (u.queue q).xfers[i]? = some { x with next := x.next + 1, done := x.done + 1, waitTick := none }
    let fromStage := x.desc.srcSp = 0 ∧ x.desc.srcBuf = 0 ∧ s.ownsStage src o = true
    let toStage := x.desc.dstSp = 0 ∧ x.desc.dstBuf = 0 ∧ s.ownsStage dst o = true ∧ s.holdsDesc dst = false
    (s.xferData q x = false → exec (.slotAccess q [] find) s =
      .next (s.putXfer q i { x with waitTick := some (x.waitTick.getD s.tick) })) ∧
    (s.xferData q x = true → (s.moving q = none ∨ s.slotWins q = false) → exec (.slotAccess q [] find) s = .next s) ∧
    (s.moving q = some x → s.slotWins q = true →
      (fromStage → toStage → ∃ u, exec (.slotAccess q [] find) s = .next u ∧ went u ∧
        u.stageBytesAt dst 64 = (s.blockAt src).data ∧ u.stageMark dst = (s.blockAt src).mark ∧
        ∀ a, (a < dst ∨ dst + 64 ≤ a) → u.stageByte a = s.stageByte a) ∧
      (fromStage → x.desc.dstSp = 3 → ∃ u, exec (.slotAccess q [] find) s = .next u ∧ went u ∧ u.stage = s.stage ∧
        ∀ t ∈ x.tiles, (u.tile t).inbuf = (s.tile t).inbuf ++ [⟨if q.val < 256 then q.val % 32 else q.val - 256 + 32, s.blockAt src⟩]) ∧
      (fromStage → x.desc.dstSp = 1 → find.crcBad = false → ∃ u, exec (.slotAccess q [] find) s = .next u ∧ went u ∧
        ∀ k, k < 64 → u.gByte (dst + k) = (s.blockAt src).data.getD k 0) ∧
      (fromStage → ∀ n, x.dstBufIdx = some n → (s.sbuf n).skip = 0 → ∃ u, exec (.slotAccess q [] find) s = .next u ∧ went u ∧
        (u.sbuf n).present = (s.sbuf n).present + 1 ∧ (u.sbuf n).reserved = (s.sbuf n).reserved - 1) ∧
      (toStage → ∀ n, x.srcBufIdx = some n → ∃ u, exec (.slotAccess q [] find) s = .next u ∧ went u ∧
        (u.sbuf n).present = (s.sbuf n).present - 1 ∧
        u.stageBytesAt dst 64 = (s.blockAt ((s.sbuf n).base + 64 * (s.sbuf n).rd)).data) ∧
      (x.desc.srcSp = 1 → toStage → (find.crcBad = false ∨ s.gSpanZero src = true) → ∃ u, exec (.slotAccess q [] find) s = .next u ∧
        went u ∧ u.stageBytesAt dst 64 = (s.gddrRead src find).1.data.take 64 ∧ u.stageMark dst = (s.gddrRead src find).1.mark) ∧
      (x.desc.srcSp = 1 → find.crcBad = true → s.gSpanZero src = false → ∃ u, exec (.slotAccess q [] find) s = .next u ∧
        u.gddr.retry = s.gddr.retry ++ [(src / 64, q.val, none)] ∧ u.stage = s.stage ∧
        (u.queue q).xfers[i]? = some x) ∧
      (fromStage → x.desc.dstSp = 2 → (s.winGroup x.desc.dstWin.toNat).carries = true →
        (s.translate o x.desc.dstWin.toNat dst true).isSome = true → ∃ u y, exec (.slotAccess q [] find) s = .next u ∧
          (u.queue q).xfers[i]? = some y ∧ y.next = x.next + 1 ∧ u.stage = s.stage) ∧
      (∀ a, x.desc.srcSp = 2 → (s.winGroup x.desc.srcWin.toNat).carries = true →
        s.translate o x.desc.srcWin.toNat src false = some a →
        ((s.winGroup x.desc.srcWin.toNat).reads.filter (·.q == q.val)).length < 8 →
        ∃ u y m, exec (.slotAccess q [] find) s = .next u ∧ (u.queue q).xfers[i]? = some y ∧ y.next = x.next + m.nblk.toNat ∧
          0 < m.nblk.toNat ∧ m.type = 2 ∧ m.addr = BitVec.ofNat 48 a.1 ∧
          (u.winGroup x.desc.srcWin.toNat).out = (s.winGroup x.desc.srcWin.toNat).out ++ [m]))

/-- R191, R195, R204: the next transfer of a queue starts when those before it have made their last read and its destination has room for
all of it, which is reserved; without room it waits from the first such tick, and before its turn nothing happens. R138, R191: the oldest
transfer, once it has delivered every block, leaves its queue, and not before.
R205: when the members of a cycle have all waited for the timer's time, the transfer of the member that the rule names is cut: it has
made its last read, and the cut is counted; members that wait on no such cycle go on. -/
def Obligations.TransfersStartCompleteAndAreCut : Prop :=
  (∀ (s : State) (q : QueueId) (i : Nat) (x : Transfer),
      (firstWaiting (s.queue q).xfers = some i → (s.queue q).xfers[i]? = some x →
        ((((s.queue q).xfers.take i).all (·.readAll)) = false → exec (.transferStart q) s = .next s) ∧
        ((((s.queue q).xfers.take i).all (·.readAll)) = true →
          (s.xferRoom x = true → ∃ u, exec (.transferStart q) s = .next u ∧
            (u.queue q).xfers[i]? = some { x with started := true, waitTick := none } ∧ u.stage = s.stage ∧
            (∀ n, x.dstBufIdx = some n → (u.sbuf n).reserved = (s.sbuf n).reserved + x.total) ∧
            ∀ t ∈ x.tiles, (u.tile t).inRes = (s.tile t).inRes + x.total) ∧
          (s.xferRoom x = false → ∃ u, exec (.transferStart q) s = .next u ∧
            (u.queue q).xfers[i]? = some { x with waitTick := some (x.waitTick.getD s.tick) } ∧ u.tiles = s.tiles ∧
            u.stage = s.stage))) ∧
      (firstWaiting (s.queue q).xfers = none → exec (.transferStart q) s = .next s) ∧
      (∀ r, (s.queue q).xfers = x :: r →
        (x.started = true → x.done = x.total → ∃ u, exec (.transferComplete q) s = .next u ∧ (u.queue q).xfers = r ∧
          u.stage = s.stage ∧ u.tiles = s.tiles) ∧
        ((x.started = false ∨ x.done ≠ x.total) → exec (.transferComplete q) s = .next s))) ∧
  (∀ (s : State) (l : List QueueId),
      (s.isCycle (l.map (·.val)) = true → ∃ u, exec (.waitGraphCut l) s = .next u ∧
        u.fld STRM_WG_TMO.cuts = min (s.fld STRM_WG_TMO.cuts + 1) 65535 ∧
        ∀ i x, waitingIdx (s.queue (s.victim (l.map (·.val)))).xfers = some i →
          (s.queue (s.victim (l.map (·.val)))).xfers[i]? = some x →
          ∃ y, (u.queue (s.victim (l.map (·.val)))).xfers[i]? = some y ∧ y.started = true ∧ y.next = x.total ∧ y.total = x.total) ∧
      (s.isCycle (l.map (·.val)) = false → exec (.waitGraphCut l) s = .next s))

/-- R188, R225: a GDDR7 access that met a CRC error is made again once and counted; a write whose second attempt meets none has its bytes
stored. A block with no retry due has none, and one whose data go to an entry of the Pewter map waits for the updates of the entry. A
span marked as zero that is cleared reads as zeros and is marked no more; one that is not marked stays. -/
def Obligations.Gddr7RetriesAndClears : Prop :=
  ∀ (s : State) (find : GddrFind),
    (∀ (blk : BitVec 30) (n q : Nat) (w : Option Block), s.gddr.retry.find? (·.1 == blk.toNat) = some (n, q, w) →
      (s.retryBusy q w = false → ∃ u, exec (.gddr7Retry blk find) s = .next u ∧
        u.gddr.retry = s.gddr.retry.eraseP (·.1 == blk.toNat) ∧
        u.fld MEM_GERR.retry = min (s.fld MEM_GERR.retry + 1) 65535 ∧
        ∀ b, w = some b → find.crcBad = false → ∀ k, k < b.data.length → u.gByte (64 * blk.toNat + k) = b.data.getD k 0) ∧
      (s.retryBusy q w = true → exec (.gddr7Retry blk find) s = .next s)) ∧
    (∀ blk : BitVec 30, s.gddr.retry.find? (·.1 == blk.toNat) = none → exec (.gddr7Retry blk find) s = .next s) ∧
    (∀ k : BitVec 24,
      (s.spanZero k.toNat = true → ∃ u, exec (.gddr7SpanClear k) s = .next u ∧ u.spanZero k.toNat = false ∧
        (∀ a, spanOf a = k.toNat → u.gByte a = 0) ∧ ∀ a, spanOf a ≠ k.toNat → u.gByte a = s.gByte a) ∧
      (s.spanZero k.toNat = false → exec (.gddr7SpanClear k) s = .next s))

/-- R129, R130, R131, R206: an aligned access to a row word of the Pewter map. A stream of the score that the entry is bound to reads
the word, and writes the mantissa that its low 40 bits spell, no other one, and with the first row of a group the exponent that bits 47 to 40
spell; any other score reads zeros, which are marked access refused, and writes nothing. The aperture reads a visible tile's word, and
writes nothing. An access that is not aligned is none, one to an entry with updates queued waits for them, and one of the aperture waits
for the streams at the tile's port (R163). -/
def Obligations.MapAccesses : Prop :=
  ∀ (s : State) (t : TileId) (off : BitVec 22) (m : Mark),
    let e := off.toNat / 0x1000
    let row := off.toNat % 0x1000 / 8
    (∀ r wr, (off.toNat % 8 ≠ 0 ∨ s.mapBusy t e = true ∨ (r = .aperture ∧ s.mapClaimed t = true)) →
      exec (.pewterMapAccess r t off wr m) s = .next s) ∧
    (off.toNat % 8 = 0 → s.mapBusy t e = false →
      (∀ i : ScoreId, s.mapOpen t e i = true →
        (∃ u, exec (.pewterMapAccess (.stream i) t off none m) s = .next u ∧
          u.link.read = leBytes 8 ((s.tile t).mapWord e row) ∧ u.tiles = s.tiles) ∧
        (∀ v : BitVec 64, ∃ u, exec (.pewterMapAccess (.stream i) t off (some v) m) s = .next u ∧
          Tab.get dZero (u.tile t).mant (512 * e + row) = (v.setWidth 40).toInt ∧
          (∀ k, k ≠ 512 * e + row → Tab.get dZero (u.tile t).mant k = Tab.get dZero (s.tile t).mant k) ∧
          (row % 16 = 0 → ((u.tile t).groupVal e (row / 16)).e = (v.extractLsb' 40 8).toInt) ∧ u.link = s.link)) ∧
      (∀ i : ScoreId, s.mapOpen t e i = false →
        (∃ u, exec (.pewterMapAccess (.stream i) t off none m) s = .next u ∧ u.link.read = leBytes 8 0 ∧ u.tiles = s.tiles ∧
          u.markCount 15 = BitVec.ofNat 32 (min ((s.markCount 15).toNat + 1) (2 ^ 32 - 1))) ∧
        (∀ v : BitVec 64, ∃ u, exec (.pewterMapAccess (.stream i) t off (some v) m) s = .next u ∧ u.tiles = s.tiles)) ∧
      (s.mapClaimed t = false →
        (∃ u, exec (.pewterMapAccess .aperture t off none m) s = .next u ∧ u.tiles = s.tiles ∧
          u.link.read = leBytes 8 (if s.mapVisible t then (s.tile t).mapWord e row else 0)) ∧
        (∀ v : BitVec 64, ∃ u, exec (.pewterMapAccess .aperture t off (some v) m) s = .next u ∧ u.tiles = s.tiles)))

/-- R206, R27, R179: an aperture read of a granule in a free slot of its own returns the block's bytes, and waits while the slot is
taken; without such a slot it is refused with all ones and counted. A read of the reserved regions returns the bytes, one of the Pewter
map an aligned row word of a visible tile, and one of unmapped addresses or of what the map does not show zeros. No read changes stage
memory. An aperture write reaches only a granule bound to no score, in a free slot of no one, and its bytes alone; any other write is dropped. -/
def Obligations.ApertureAccesses : Prop :=
  ∀ (s : State) (off : BitVec 28),
    let a := s.aperAddr off.toNat
    let block := fun (len : Nat) => ((s.blockAt (a / 64 * 64)).data.drop (a % 64)).take len
    (∀ (len : Nat) (free : Bool), ∃ u, exec (.apertureRead off len free) s = .next u ∧ u.stage = s.stage ∧ u.tiles = s.tiles ∧
      (a < 0x17000000 → s.hasSlot a remoteKinds (s.aperCode a) = true → (free = true → u.link.read = block len) ∧ (free = false → u = s)) ∧
      (a < 0x17000000 → s.hasSlot a remoteKinds (s.aperCode a) = false → u.link.read = List.replicate len 0xFF ∧
        u.fld MEM_APER_BASE.refused = min (s.fld MEM_APER_BASE.refused + 1) 2047) ∧
      (0x17000000 ≤ a → a < 0x18000000 → (free = true → u.link.read = block len) ∧ (free = false → u = s)) ∧
      (0x18000000 ≤ a → a < 0x20000000 → s.mapVisible (mapTile a) = true → a % 8 = 0 → len = 8 →
        s.mapBusy (mapTile a) (mapEntry a) = false → s.mapClaimed (mapTile a) = false →
        u.link.read = leBytes 8 ((s.tile (mapTile a)).mapWord (mapEntry a) (mapRow a))) ∧
      (0x18000000 ≤ a → (0x20000000 ≤ a ∨ s.mapVisible (mapTile a) = false ∨ a % 8 ≠ 0 ∨ len ≠ 8) → u.link.read = List.replicate len 0)) ∧
    (∀ (bs : List Byte) (free : Bool),
      (a < 0x17000000 → s.granScore a = 0 → s.hasSlot a remoteKinds 0 = true →
        (free = true → ∃ u, exec (.apertureWrite off bs free) s = .next u ∧ u.stageBytesAt a bs.length = bs ∧
          ((∀ k, s.blockBad (64 * k) = false) → ∀ n, (n < a ∨ a + bs.length ≤ n) → u.stageByte n = s.stageByte n)) ∧
        (free = false → exec (.apertureWrite off bs free) s = .next s)) ∧
      ((0x17000000 ≤ a ∨ s.granScore a ≠ 0 ∨ s.hasSlot a remoteKinds 0 = false) →
        ∃ u, exec (.apertureWrite off bs free) s = .next u ∧ u.stage = s.stage))

/-- R65: in bay debug state ZERO_IDLE asks for a load of zero codes and SWAP for a swap, held until their queue takes them; in any other
state they do nothing.
R70, R113: the dither seed takes effect at the next window boundary; a write of the upper Pewter seed loads both generators while the
bay is free, bound or in debug state; a read of the lower generator state latches the upper.
R62, R63, R174: a capture that is accepted takes its count plus one windows from the next one issued, and one that is refused sets err;
a write without start begins none. A trace ring is enabled at its first record where its whole range is the score's, stays off where it
is not, and a running sequence keeps the write off; a write without en turns it off. -/
def Obligations.TileControlsOfTheHost : Prop :=
  (∀ (s : State) (t : TileId),
      (s.bayState (t / 4) = 5 →
        (∃ u, exec (.zeroIdle t) s = .next u ∧ ((u.tile t).zeroReq = true ∨ ∃ l ∈ (u.tile t).loadQ, l.zero = true ∧ l.pl = 0)) ∧
        ∃ u, exec (.swap t) s = .next u ∧ ((u.tile t).swapReq = true ∨ ∃ st, WinEntry.psw st 0 ∈ (u.tile t).winQ)) ∧
      (s.bayState (t / 4) ≠ 5 → exec (.zeroIdle t) s = .next s ∧ exec (.swap t) s = .next s)) ∧
  ((∀ (s : State) (t : TileId) (v : Word),
        (∃ u, exec (.ditherSeedWrite t v) s = .next u ∧ u.reg (TILE_DITH_SEED.seed.on t).off = v ∧ (u.tile t).reseed = some v ∧
          (u.tile t).dither = (s.tile t).dither) ∧
        (s.bayState (t / 4) ∈ [1, 2, 5] → ∃ u, exec (.pewterSeedWrite t v) s = .next u ∧ (u.tile t).gen = (u.tile t).hop ∧
          (u.tile t).gen = seed64 (v ++ s.reg (TILE_PEW_SEED_LO.seed_lo.on t).off)) ∧
        (s.bayState (t / 4) ∉ [1, 2, 5] → exec (.pewterSeedWrite t v) s = .next s) ∧
        (∃ u, exec (.pewterStateRead t) s = .next u ∧ u.link.read = leBytes 4 ((s.tile t).gen.toNat % 2 ^ 32) ∧
          u.reg (TILE_PEW_STATE_HI.state_hi.on t).off = (s.tile t).gen.extractLsb' 32 32 ∧ u.tiles = s.tiles)) ∧
    (∀ (s : State) (v : Word),
        (∀ t : TileId, v.getLsbD 30 = true → (s.rawWrite (TILE_CAPT_CTL.start.on t).off v).captureOk t = true →
          ∃ u, exec (.capture t v) s = .next u ∧ (u.tile t).capLeft = v.toNat % 65536 + 1 ∧ (u.tile t).capOff = 0) ∧
        (∀ t : TileId, v.getLsbD 30 = true → (s.rawWrite (TILE_CAPT_CTL.start.on t).off v).captureOk t = false →
          ∃ u, exec (.capture t v) s = .next u ∧ u.flag (TILE_CAPT_CTL.err.on t) = true ∧ u.tiles = s.tiles) ∧
        (∀ t : TileId, v.getLsbD 30 = false → ∃ u, exec (.capture t v) s = .next u ∧ u.tiles = s.tiles) ∧
        (∀ b : BayId, v.getLsbD 31 = true → (s.bay b).anyRun = false → s.bayScore b ≠ 0 →
          s.ringOk (64 * s.fld (BAY_TRACE_ADDR.addr.on b)) (2 ^ (v.toNat % 16 + 10)) (s.bayScore b) = true →
          ∃ u, exec (.traceEnable b v) s = .next u ∧ u.flag (BAY_TRACE_CTL.en.on b) = true ∧ u.fld (BAY_TRACE_PTR.next.on b) = 0) ∧
        (∀ b : BayId, v.getLsbD 31 = true → (s.bay b).anyRun = false → (s.bayScore b = 0 ∨
          s.ringOk (64 * s.fld (BAY_TRACE_ADDR.addr.on b)) (2 ^ (v.toNat % 16 + 10)) (s.bayScore b) = false) →
          ∃ u, exec (.traceEnable b v) s = .next u ∧ u.flag (BAY_TRACE_CTL.en.on b) = false) ∧
        (∀ b : BayId, v.getLsbD 31 = false → ∃ u, exec (.traceEnable b v) s = .next u ∧ u.flag (BAY_TRACE_CTL.en.on b) = false) ∧
        (∀ b : BayId, v.getLsbD 31 = true → (s.bay b).anyRun = true → exec (.traceEnable b v) s = .next s)))

/-! ### Stabilisation loops and temperature tables (08) -/

/-- R236, R290, R291: a sample tick counts; with every output forced, each output takes its safe code; stage memory, GDDR7 and the
waiting commands stay.
R254: a hand-over that has waited its time is cancelled and shows in hflt; before that nothing happens. R260, R262, R323, R430: a
following fault that is due is recorded in LOOP_FOLLOW. It pauses the bay that its loop acts for, unless the loop is one of a bay's
engine in a thermal excursion whose fault neither the error limit nor the authority limit makes; a filter's fault takes its group
down. One that is not due does nothing.
R262, R295, R387: the pauses of a bay end once every loop has been in band for 1,000 samples, no output of its engine is forced and the
reference is there; until then they stand. -/
def Obligations.TicksAndLoopFaults : Prop :=
  (∀ (s : State) (i : TickInputs), ∃ u, exec (.loopTick i) s = .next u ∧ u.tick = s.tick + 1 ∧ u.core = 0 ∧ u.stage = s.stage ∧
    u.gddr = s.gddr ∧ u.pending = s.pending ∧
    (s.allForced = true → ∀ o, o < 5227 → (u.trimOut o).code = BitVec.ofNat 16 (s.safeCode o))) ∧
  (∀ (s : State) (e : EngineId) (l : SlotId), slotUsed e l = true →
      ((s.loopOf e l).handOverDue = true → ∃ u, exec (.handOverTimeout e l) s = .next u ∧ (u.loopOf e l).pend = none ∧
        (u.loopOf e l).hflt = true ∧ (u.loopOf e l).mode = (s.loopOf e l).mode) ∧
      ((s.loopOf e l).handOverDue = false → exec (.handOverTimeout e l) s = .next s) ∧
      (let spared := e.val < 8 ∧ (s.engine e).exc = true ∧ (s.loopOf e l).followLim = false ∧ (s.loopOf e l).clamped = false
       (s.loopOf e l).followDue = true → ∃ u, exec (.followingFault e l) s = .next u ∧ u.flag (LOOP_FOLLOW.valid.on e) = true ∧
        u.fld (LOOP_FOLLOW.loop.on e) = l ∧ u.flag (LOOP_FOLLOW.auth.on e) = (s.loopOf e l).clamped ∧
        u.flag (LOOP_FOLLOW.lim.on e) = (s.loopOf e l).followLim ∧ (u.loopOf e l).fired = true ∧
        (e.val = 8 → (u.group (l / 4) (l % 4)).state = 3) ∧
        (∀ b, e.val ≠ 8 → loopBay e l = some b →
          (¬ spared → (u.bay b).pauseFollow = true) ∧ (spared → (u.bay b).pauseFollow = (s.bay b).pauseFollow))) ∧
      ((s.loopOf e l).followDue = false → exec (.followingFault e l) s = .next s)) ∧
  (∀ (s : State) (b : BayId),
      (1000 ≤ (s.bay b).inBand → s.unforced b = true → s.flag CLK_REF_STAT.lost = false →
        ∃ u, exec (.bayResume b) s = .next u ∧ (u.bay b).paused = false) ∧
      (((s.bay b).inBand < 1000 ∨ s.unforced b = false ∨ s.flag CLK_REF_STAT.lost = true) → exec (.bayResume b) s = .next s))

/-- R271: in a sample that the decimation takes, of an engine that evaluates and whose ring is on, the records of the selected loops are
taken, once. With one loop selected and an observability slot free its record is written where the ring stands, and the ring goes on; with
no slot free the records are dropped and counted, and stage memory stays. In any other sample nothing happens. A write of the control
register with en starts the ring at record 0, where its range is the score's of the bay, for LE8 and LE9 where it is no score's; a write
whose range is not so, or without en, leaves the ring off. -/
def Obligations.TelemetryIsTaken : Prop :=
  ∀ (s : State) (e : EngineId) (v : Word) (free : Bool),
    let takes := s.flag (LOOP_TEL_CTL.en.on e) = true ∧ s.runs e = true ∧
      s.tick % 2 ^ min 10 (s.fld (LOOP_TEL_CTL.dec.on e)) = 0 ∧ (s.engine e).telTick ≠ some s.tick
    let n := max 1 (s.fld (LOOP_TEL_SEL.n.on e))
    let a := 64 * s.fld (LOOP_TEL_ADDR.addr.on e) + 32 * (s.engine e).telPtr
    let rangeOk := s.ringOk (64 * s.fld (LOOP_TEL_ADDR.addr.on e)) (2 ^ (v.toNat / 16 % 16 + 10)) (if e.val < 8 then s.bayScore e else 0) = true ∧
      (e.val < 8 → s.bayScore e ≠ 0)
    (takes → ∃ u, exec (.telemetryRecord e free) s = .next u ∧ (u.engine e).telTick = some s.tick ∧
      (n = 1 → free = true → s.hasSlot a writeKinds 5 = true → s.holdsDesc a = false → s.holdsDesc (a + 31) = false →
        u.stageBytesAt a 32 = leBytes 32 (s.telRecord e (s.fld (LOOP_TEL_SEL.la.on e))) ∧
        (u.engine e).telPtr = ((s.engine e).telPtr + 1) % 2 ^ (s.fld (LOOP_TEL_CTL.size.on e) + 5) ∧
        ((∀ k, s.blockBad (64 * k) = false) → ∀ k, (k < a ∨ a + 32 ≤ k) → u.stageByte k = s.stageByte k)) ∧
      (free = false → u.stage = s.stage ∧ (u.engine e).telPtr = (s.engine e).telPtr ∧
        u.fld (LOOP_TEL_CTL.drops.on e) = min (s.fld (LOOP_TEL_CTL.drops.on e) + min n 3) 65535)) ∧
    (¬ takes → exec (.telemetryRecord e free) s = .next s) ∧
    (v.getLsbD 31 = false → ∃ u, exec (.telemetryEnable e v) s = .next u ∧ u.flag (LOOP_TEL_CTL.en.on e) = false) ∧
    (v.getLsbD 31 = true → rangeOk → ∃ u, exec (.telemetryEnable e v) s = .next u ∧ u.flag (LOOP_TEL_CTL.en.on e) = true ∧
      (u.engine e).telPtr = 0) ∧
    (v.getLsbD 31 = true → ¬ rangeOk → ∃ u, exec (.telemetryEnable e v) s = .next u ∧ u.flag (LOOP_TEL_CTL.en.on e) = false)

/-- R252, R258, R272: a write of LOOP_SEL selects a loop and discards what is armed. A mode request that the module may act on waits as a
hand-over with its count at 0, or, for the mode that the loop is in, takes back what waits; one that it may not act on leaves what waits,
and shows in req alone; one for a slot without a loop does nothing.
R247: a choice of loop and record loads the eight words with the record as committed, or with zeros where there is no such record; a commit
of a record of a bay in debug state waits for the tick, and any other is ignored.
R301, R300: in bay debug state a host write sets the frequency word of an oscillator of that bay, to 0 or within its range and to no other
word, and the phase offset and amplitude; it turns a tone into an output of that bay on or off. In any other state, for an engine that is
no bay's, and for an output that is no bay's, it does nothing. -/
def Obligations.LoopWindowIsWritten : Prop :=
  (∀ (s : State) (e : EngineId) (v : Word),
    let l := s.fld (LOOP_SEL.loop.on e)
    let m := Mode.ofCode (v.toNat % 4)
    (∃ u, exec (.loopSelect e v) s = .next u ∧ u.fld (LOOP_SEL.loop.on e) = v.toNat % 512 ∧ u.armedAt (setptOff e) = none ∧
      u.armedAt (profOff e) = none) ∧
    (slotUsed e l = true → ∃ u, exec (.handOverRequest e v) s = .next u ∧ (u.loopOf e l).mode = (s.loopOf e l).mode ∧
      (u.loopOf e l).req = BitVec.ofNat 2 (v.toNat % 4) ∧
      (s.mayAsk e (s.loopOf e l) m = true → (s.loopOf e l).mode ≠ m → (u.loopOf e l).pend = some m ∧ (u.loopOf e l).hcnt = 0) ∧
      (s.mayAsk e (s.loopOf e l) m = true → (s.loopOf e l).mode = m → (u.loopOf e l).pend = none) ∧
      (s.mayAsk e (s.loopOf e l) m = false → (u.loopOf e l).pend = (s.loopOf e l).pend)) ∧
    (slotUsed e l = false → exec (.handOverRequest e v) s = .next s) ∧
    (∃ u, exec (.recordSelect e v) s = .next u ∧ u.fld (LOOP_GAIN_SEL.loop.on e) = v.toNat / 2 ^ 16 % 512 ∧
      u.fld (LOOP_GAIN_SEL.rec.on e) = v.toNat % 16 ∧ ∀ k, k < 8 → Tab.get dZero (u.engine e).staged k =
        if v.toNat % 16 ≤ 8 then ((s.loopOf e (v.toNat / 2 ^ 16 % 512)).record (v.toNat % 16)).extractLsb' (32 * k) 32 else 0) ∧
    (e.val < 8 → s.bayState e = 5 → s.fld (LOOP_GAIN_SEL.rec.on e) ≤ 8 →
      ∃ u k w, exec (.recordCommit e) s = .next u ∧ (u.engine e).commit = some (k, w) ∧ (u.engine e).loops = (s.engine e).loops ∧
        k = 16 * s.fld (LOOP_GAIN_SEL.loop.on e) + s.fld (LOOP_GAIN_SEL.rec.on e) ∧
        ∀ j, j < 8 → w.extractLsb' (32 * j) 32 = Tab.get dZero (s.engine e).staged j) ∧
    ((8 ≤ e.val ∨ s.bayState e ≠ 5 ∨ 8 < s.fld (LOOP_GAIN_SEL.rec.on e)) → exec (.recordCommit e) s = .next s)) ∧
  ∀ (s : State) (v : Word),
    let e := s.fld TRIM_NCO_SEL.eng
    let n := s.fld TRIM_NCO_SEL.nco
    let o := v.toNat % 8192
    let inRange := v = 0 ∨ (429497 ≤ v.toNat ∧ v.toNat ≤ 429496730)
    (e < 8 → s.bayState e = 5 →
      (inRange → ∃ u, exec (.ncoWrite false v) s = .next u ∧ ((u.engine e).tone n).2.1 = v ∧
        ((u.engine e).tone n).2.2 = ((s.engine e).tone n).2.2) ∧
      (¬ inRange → exec (.ncoWrite false v) s = .next s) ∧
      ∃ u, exec (.ncoWrite true v) s = .next u ∧ ((u.engine e).tone n).2.2 = v &&& 0xFFC00FFF ∧
        ((u.engine e).tone n).2.1 = ((s.engine e).tone n).2.1) ∧
    (∀ config, (8 ≤ e ∨ s.bayState e ≠ 5) → exec (.ncoWrite config v) s = .next s) ∧
    (o < 4864 → s.bayState (o / 608) = 5 → ∃ u, exec (.toneInjection v) s = .next u ∧ u.flag TRIM_TEST.en = v.getLsbD 31 ∧
      u.fld TRIM_TEST.out = o) ∧
    ((4864 ≤ o ∨ s.bayState (o / 608) ≠ 5) → exec (.toneInjection v) s = .next s)

/-- R268, R269, R273: a slot falls due at the engine's ticks, once at each, and at no other tick; a slot of a tile that can be held takes
one of those that are due and passes the turn to the next tile, and one of another tile waits; the interval changes only while the bay is
offline or free, and only to 250 or more.
R20: firmware rebuilds the table of a calibrated tile whose table is not valid and whose rows are within their bounds: its header says valid,
no block of it is marked, and it is valid; in any other tile it rebuilds none. -/
def Obligations.RecalibrationAndRebuild : Prop :=
  (∀ (s : State) (e : EngineId),
      let due := s.runs e = true ∧ s.fld (LOOP_RECAL.ivl.on e) ≠ 0 ∧ e * (s.fld (LOOP_RECAL.ivl.on e) / 8) ≤ s.tick ∧
        (s.tick - e * (s.fld (LOOP_RECAL.ivl.on e) / 8)) % s.fld (LOOP_RECAL.ivl.on e) = 0 ∧ (s.bay e).slotTick ≠ some s.tick
      (e.val < 8 → due → ∃ u, exec (.recalibrationSlotDue e) s = .next u ∧ (u.bay e).slotTick = some s.tick ∧
        u.fld (LOOP_RECAL.pend.on e) = min (s.fld (LOOP_RECAL.pend.on e) + 1) 255) ∧
      (e.val < 8 → ¬ due → exec (.recalibrationSlotDue e) s = .next s) ∧
      ∀ v : Word,
        (e.val < 8 → s.bayState e < 2 → 250 ≤ v.toNat % 65536 → ∃ u, exec (.recalibrationIntervalWrite e v) s = .next u ∧
          u.fld (LOOP_RECAL.ivl.on e) = v.toNat % 65536) ∧
        ((8 ≤ e.val ∨ 2 ≤ s.bayState e ∨ v.toNat % 65536 < 250) → exec (.recalibrationIntervalWrite e v) s = .next s)) ∧
  (∀ (s : State) (t : TileId),
      (∀ m : SlotMeas, s.slotReady t = true → ∃ u, exec (.recalibrationSlot t m) s = .next u ∧
        u.fld (LOOP_RECAL.pend.on (t / 4)) = s.fld (LOOP_RECAL.pend.on (t / 4)) - 1 ∧
        u.fld (LOOP_RECAL.next.on (t / 4)) = (t + 1) % 4 ∧
        u.fld (TILE_ERR_COEF0.n_fe.on t) = (worstRows m.rows).getD 1 0) ∧
      (∀ m : SlotMeas, s.slotReady t = false → exec (.recalibrationSlot t m) s = .next s) ∧
      (let rebuilds := (s.bay (t / 4)).calibrated = true ∧ (s.tile t).tblOk = false ∧ (s.tile t).quality = false
       (rebuilds → ∃ u, exec (.tableRebuild t) s = .next u ∧ (u.stageByte (tableBase t + 4)).getLsbD 0 = true ∧
          (∀ a, tableBase t ≤ a → a < tableBase t + tableSize → a % 64 = 0 → u.stageMark a = none) ∧ (u.tile t).tblOk = true) ∧
       (¬ rebuilds → exec (.tableRebuild t) s = .next s)))

/-! ### Light supply, trim outputs and the Guard (09, 15) -/

/-- R281, R282, R41, R166, R167, R287: the lock of a bay's spare asks for a dark window, or, in a bay that rebinds, makes the swap at once;
the fabric's spare waits for its swap. The dark window of a bay that does not rebind starts at its boundary and, at its end, is counted and
shown in GLB_INTERLOCK, and the locked spare serves the position that it was armed for, whose comb is failed, unless more than four combs
would pass light. Without a lock, a dark window due at the boundary, or one that is on, nothing happens. -/
def Obligations.DarkWindowsSwapTheLight : Prop :=
  ∀ (s : State) (i : SourceId) (b : BayId) (align : BitVec 9),
    let swapped := fun (u : State) (n pos : Nat) => u.spareState n = 3 ∧ (u.comb n 4).state = 2 ∧
      (u.comb n 4).pos = BitVec.ofNat 3 pos ∧ (u.comb n pos).state = 4
    (s.spareLocked i = true → ∃ u, exec (.spareLock i) s = .next u ∧
      (i.val < 8 → s.bayState i ≠ 4 → (u.source i).locked = true ∧ (u.bay i).darkDue = true) ∧
      (i.val = 8 → (u.source i).locked = true) ∧
      (∀ pos, i.val < 8 → s.bayState i = 4 → (s.source i).armPos = some pos → pos < 4 → s.passing i pos ≤ 4 → swapped u i pos)) ∧
    (s.spareLocked i = false → exec (.spareLock i) s = .next s) ∧
    ((s.bay b).darkDue = true → s.bayState b ≠ 4 → s.bayAtBoundary b = true → ∃ u, exec (.darkWindowStart b align) s = .next u ∧
      (u.bay b).darkOn = true ∧ (u.bay b).darkDue = false ∧ u.fld (BAY_DARK.align.on b) = align.toNat) ∧
    (((s.bay b).darkDue = false ∨ s.bayState b = 4 ∨ s.bayAtBoundary b = false) → exec (.darkWindowStart b align) s = .next s) ∧
    ((s.bay b).darkOn = true → ∃ u, exec (.darkWindowEnd b) s = .next u ∧ (u.bay b).darkOn = false ∧
      u.fld (BAY_DARK.count.on b) = min (s.fld (BAY_DARK.count.on b) + 1) 65535 ∧ u.bitOf GLB_INTERLOCK.dark b = true ∧
      ∀ pos, (s.source b).locked = true → (s.source b).armPos = some pos → pos < 4 → s.passing b pos ≤ 4 → swapped u b pos) ∧
    ((s.bay b).darkOn = false → exec (.darkWindowEnd b) s = .next s)

/-- R283, R281, R286, R322: the fabric's spare, once locked, takes the position that it was armed for, and each carrying group of its eight
ports sends one pair of idle flits; an arming without a lock after 40 ms fails, and the spare is failed; a suspended arming begins again
once nothing holds it up. Each waits for its conditions.
R276, R287: a working comb with a line in fade warning is boosted by one step every 10 ms, at most four; a comb whose mean or a line of
which was over its cap for sixteen samples is cut, its drive is at zero, and the Guard's fault 0 forces every output. Otherwise nothing
happens. -/
def Obligations.CombsAreBoostedCutAndReplaced : Prop :=
  ∀ (s : State) (i : SourceId),
    (∀ pos, (s.source 8).locked = true → (s.source 8).armPos = some pos → pos < 2 → s.passing 8 pos ≤ 2 →
      ∃ u, exec .fabricSpareSwap s = .next u ∧ u.spareState 8 = 3 ∧ (u.source 8).armPos = none ∧ (u.comb 8 pos).state = 4 ∧
        ∀ p g, 8 * pos ≤ p → p < 8 * pos + 8 → g < 4 → (s.group p g).carries = true →
          (u.group p g).txSlot = (s.group p g).txSlot + 5 ∧
            ∃ w, (u.group p g).line = (s.group p g).line ++ [w] ∧ w.slots = List.replicate 5 .idle) ∧
    ((s.source 8).locked = false → exec .fabricSpareSwap s = .next s) ∧
    (let fails := s.spareState i = 2 ∧ (s.source i).suspended = false ∧ (s.source i).locked = false ∧
       (s.source i).armTick + 40000 ≤ s.tick
     (fails → ∃ u, exec (.armingFault i) s = .next u ∧ u.spareState i = 4 ∧ (u.source i).armPos = none ∧
       u.flag LSA_ARM_LAST.fail = true) ∧
     (¬ fails → exec (.armingFault i) s = .next s)) ∧
    (let restarts := s.spareState i = 2 ∧ (s.source i).suspended = true ∧ (s.source i).armPos.isSome = true ∧ s.armHeld i = false
     (restarts → ∃ u, exec (.armingRestart i) s = .next u ∧ (u.source i).suspended = false ∧ (u.source i).armTick = s.tick) ∧
     (¬ restarts → exec (.armingRestart i) s = .next s)) ∧
    ∀ c : CombId, c.val < combsOf i →
      (let boosts := (s.comb i c).state = 2 ∧ (s.comb i c).boost < 4 ∧
         ((List.range (linesOf i)).any fun n => (s.line i c n).warn) = true ∧
         ((s.comb i c).boost = 0 ∨ (s.comb i c).boostTick + 10000 ≤ s.tick)
       (boosts → ∃ u, exec (.boostStep i c) s = .next u ∧ (u.comb i c).boost = (s.comb i c).boost + 1 ∧
         (u.comb i c).boostTick = s.tick) ∧
       (¬ boosts → exec (.boostStep i c) s = .next s)) ∧
      (s.tooBright i c = true → ∃ u, exec (.opticalCut i c) s = .next u ∧ (u.comb i c).cut = true ∧ (u.comb i c).ma = 0 ∧
        u.allForced = true ∧ u.bitOf GUARD_STAT.flt 0 = true) ∧
      (s.tooBright i c = false → exec (.opticalCut i c) s = .next s)

/-- R296: the read-back dwell of the output that a converter stands at stores what it expected and measured, counts or clears the
mismatches, and the converter goes on to its next output; when the mismatches reach the limit the output is forced and recorded. A dwell
of any other output is none.
R292, R293, R295: CLR_TRIM_N low forces every output at once; the forcing ends at the first return at least 10 µs after the pin has
risen, and not before. -/
def Obligations.ReadbackAndClrTrimForce : Prop :=
  (∀ (s : State) (o : OutId) (meas : BitVec 12),
      let exp : BitVec 12 := BitVec.ofNat 12 (s.expected o)
      let bad := s.fld TRIM_SCAN.tol < ((meas.toNat : Int) - exp.toNat).natAbs
      let n := min ((s.trimOut o).mcnt + 1) 15
      (Tab.get dZero s.scan (o / 32) = o % 32 → ∃ u, exec (.readbackDwell o meas) s = .next u ∧ (u.trimOut o).meas = meas ∧
        (u.trimOut o).exp = exp ∧ Tab.get dZero u.scan (o / 32) = nextDwell (o / 32) (o % 32) ∧
        (¬ bad → (u.trimOut o).mcnt = 0 ∧ (u.trimOut o).rb = (s.trimOut o).rb) ∧
        (bad → (u.trimOut o).mcnt = n) ∧
        (bad → s.fld TRIM_SCAN.cnt ≤ n → (s.trimOut o).rb = false →
          (u.trimOut o).rb = true ∧ u.flag TRIM_MISM.valid = true ∧ u.fld TRIM_MISM.out = o) ∧
        (bad → (n < s.fld TRIM_SCAN.cnt ∨ (s.trimOut o).rb = true) → (u.trimOut o).rb = (s.trimOut o).rb)) ∧
      (Tab.get dZero s.scan (o / 32) ≠ o % 32 → exec (.readbackDwell o meas) s = .next s)) ∧
  (∀ (s : State),
      (s.pins.clrTrim = true → ∃ u, exec .clrTrimNAssert s = .next u ∧ u.allForced = true ∧ u.pins.clrTrim = false ∧
        ∀ o, o < 5227 → u.outCode o = s.safeCode o) ∧
      (s.pins.clrTrim = false → exec .clrTrimNAssert s = .next s) ∧
      (s.pins.clrTrim = false → ∃ u, exec .clrTrimNRelease s = .next u ∧ u.pins.clrTrim = true ∧ u.pins.trimRise = some s.tick ∧
        u.pins.pinForce = s.pins.pinForce) ∧
      (s.pins.clrTrim = true → exec .clrTrimNRelease s = .next s) ∧
      (let ends := ∃ t, s.pins.trimRise = some t ∧ s.pins.pinForce = true ∧ s.pins.clrTrim = true ∧ t + 10 ≤ s.tick
       (ends → ∃ u, exec .trimOutputReturn s = .next u ∧ u.pins.pinForce = false) ∧
       (¬ ends → exec .trimOutputReturn s = .next s)))

/-- R444, R291: a limit commit of a whole pair within its bound, not by the recovery image, is stored and extends measurement register 4;
any other changes no limit and no measurement. A heater current fault is recorded and forces every output.
R445: the Guard releases the emission lock with a verified image running and both working fabric combs in TRACK, and not without them; it
may set the lock at any time, and then every port is off. -/
def Obligations.GuardCommitsFaultsAndLock : Prop :=
  (∀ (s : State) (i : BitVec 7) (v : Word),
    (guardIndex i.toNat = true → s.guardBound i.toNat v.toNat = true → s.flag SEC_BOOT.rec = false →
      ∃ u, exec (.guardLimitCommit i v (~~~v)) s = .next u ∧ u.guardLim i.toNat = v.toNat ∧
        Tab.get dZero u.sec.exts 4 = min (Tab.get dZero s.sec.exts 4 + 1) 65535) ∧
    (∀ c, (guardIndex i.toNat = false ∨ s.guardBound i.toNat v.toNat = false ∨ s.flag SEC_BOOT.rec = true ∨ c ≠ ~~~v) →
      ∃ u, exec (.guardLimitCommit i v c) s = .next u ∧ u.sec = s.sec) ∧
    (∀ t : Option TileId, ∃ u, exec (.heaterCurrentFault t) s = .next u ∧ u.allForced = true ∧
      u.flag GUARD_FLT_LAST.valid = true ∧ u.fld GUARD_FLT_LAST.idx = (if t.isSome then 1 else 2))) ∧
  (∀ (s : State),
    let releases := s.flag GUARD_STAT.elock = true ∧ s.flag SEC_BOOT.ver = true ∧ (s.loopOf 9 40).mode = .track ∧
      (s.loopOf 9 41).mode = .track
    (releases → ∃ u, exec .emissionLockRelease s = .next u ∧ u.flag GUARD_STAT.elock = false) ∧
    (¬ releases → exec .emissionLockRelease s = .next s) ∧
    (∃ u, exec .emissionLockSet s = .next u ∧ u.flag GUARD_STAT.elock = true ∧
      ∀ p, p < 16 → u.fld (FAB_PORT_STAT.state.on p) = 0))

/-! ### Fabric ports, partners and messages (10) -/

/-- R318, R327, R305, R315: a training that succeeds leaves each group with 128 credits and with sequence and slot numbers from 0; a failed
step is recorded and the training begins anew, and the third failure in succession takes the port down. Of a port that does not train, and
whose groups are not all down, no training ends. An idle port trains when light is there, and is idle without; a port without light is
idle. A training port whose four hellos agree is up with the far end that they name, until then it keeps each hello, and a port that is up
keeps them too.
R339: while none of its groups is bound an enabled port can be retrained, and a port disabled and enabled, and not otherwise. -/
def Obligations.PortsTrainAndGreet : Prop :=
  ∀ (s : State) (p : PortId),
    let st := s.fld (FAB_PORT_STAT.state.on p)
    let trains := s.portEnabled p = true ∧ (st = 2 ∨ (st = 3 ∧ s.allDown p = true))
    (∀ ms : Byte, trains →
      (∃ u, exec (.portTraining p none ms) s = .next u ∧ (u.port p).fails = 0 ∧ u.fld (FAB_TRAIN.ms.on p) = ms.toNat ∧
        ∀ g, g < 4 → (u.group p g).cred = 128 ∧ (u.group p g).txSeq = 0 ∧ (u.group p g).rxSeq = 0 ∧ (u.group p g).txSlot = 0 ∧
          (u.group p g).rxSlot = 0 ∧ (u.group p g).rxl = 15 ∧ (u.group p g).txl = 15) ∧
      ∀ k : Fin 5, ∃ u, exec (.portTraining p (some k) ms) s = .next u ∧ u.fld (FAB_TRAIN.fstep.on p) = k + 1 ∧
        ((s.port p).fails < 2 → u.fld (FAB_PORT_STAT.state.on p) = 2 ∧ (u.port p).fails = (s.port p).fails + 1) ∧
        (2 ≤ (s.port p).fails → u.fld (FAB_PORT_STAT.state.on p) = 5 ∧ ∀ g, g < 4 → (u.group p g).state = 3)) ∧
    (∀ k ms, ¬ trains → exec (.portTraining p k ms) s = .next s) ∧
    (∀ light,
      (st = 1 → s.portEnabled p = true → ∃ u, exec (.portIdleRetry p light) s = .next u ∧
        u.fld (FAB_TRAIN.count.on p) = min (s.fld (FAB_TRAIN.count.on p) + 1) 255 ∧
        u.fld (FAB_PORT_STAT.state.on p) = if light then 2 else 1) ∧
      ((st ≠ 1 ∨ s.portEnabled p = false) → exec (.portIdleRetry p light) s = .next s)) ∧
    (st ∉ [0, 1, 5] → ∃ u, exec (.noLightReceived p) s = .next u ∧ u.fld (FAB_PORT_STAT.state.on p) = 1 ∧
      u.flag (FAB_PORT_STAT.light.on p) = false ∧ ∀ g, g < 4 → (u.group p g).state = 3) ∧
    (st ∈ [0, 1, 5] → exec (.noLightReceived p) s = .next (s.setFlag (FAB_PORT_STAT.light.on p) false)) ∧
    (∀ (g : GroupId) (h : Hello),
      let hears := (st = 2 ∨ st = 3) ∧ (s.group p g).state ≠ 0 ∧ (s.group p g).state ≠ 3 ∧ (s.group p g).rxl ≠ 0
      (hears → st = 2 → (∀ k, k < 4 → k ≠ g.val → ∃ x, (s.group p k).helloOf = some x ∧ helloAgrees x h = true) →
        ∃ u, exec (.hello p g h) s = .next u ∧ u.fld (FAB_PORT_STAT.state.on p) = 3 ∧
          u.fld (FAB_PORT_STAT.fid.on p) = h.id.toNat ∧ u.fld (FAB_PORT_STAT.fport.on p) = h.port.toNat) ∧
      (hears → st = 2 → (∃ k, k < 4 ∧ k ≠ g.val ∧ ∀ x, (s.group p k).helloOf = some x → helloAgrees x h = false) →
        exec (.hello p g h) s = .next (s.setGroup p g { s.group p g with helloOf := some h })) ∧
      (hears → st = 3 → ∃ u, exec (.hello p g h) s = .next u ∧ (u.group p g).helloOf = some h) ∧
      (¬ hears → exec (.hello p g h) s = .next s)) ∧
    (s.portUnbound p = true → s.portEnabled p = true → ∃ u, exec (.retrain p) s = .next u ∧
      u.fld (FAB_PORT_STAT.state.on p) = 2 ∧ (u.port p).fails = 0 ∧ ∀ g, g < 4 → (u.group p g).cred = 128) ∧
    ((s.portUnbound p = false ∨ s.portEnabled p = false) → exec (.retrain p) s = .next s) ∧
    (s.portUnbound p = true → s.flag (FAB_PORT_CTL.dis.on p) = false → ∃ u, exec (.portDisable p true) s = .next u ∧
      u.flag (FAB_PORT_CTL.dis.on p) = true ∧ u.fld (FAB_PORT_STAT.state.on p) = 0) ∧
    (s.portUnbound p = true → s.flag (FAB_PORT_CTL.dis.on p) = true → ∃ u, exec (.portDisable p false) s = .next u ∧
      u.flag (FAB_PORT_CTL.dis.on p) = false ∧ u.fld (FAB_PORT_STAT.state.on p) = if s.flag GUARD_STAT.elock then st else 2) ∧
    (∀ dis, (s.portUnbound p = false ∨ s.flag (FAB_PORT_CTL.dis.on p) = dis) → exec (.portDisable p dis) s = .next s)

/-- R328, R329, R330, R332: an announcement by an up port, of a node that is not held yet, is entered and forwarded on every other up port,
and so is a newer one of a node that is held; one whose number is not newer changes nothing; one of another node with the ID of a held node
is forwarded and its serial kept; with no entry empty the table is full. After 100 ms, and when its oscillator has become or ceased to be a
candidate, the module floods its own announcement with the next number. A node that leaves, or is silent for 350 ms, is gone, and the groups
bound to a node that left wait for it; a partner that is back and accepts again brings them up. -/
def Obligations.PartnersComeAndGo : Prop :=
  ∀ (s : State),
    (∀ (p : PortId) (a : Announcement),
      (s.portUp p = true → a.id ≠ s.ownId →
        let forwarded := fun (u : State) => u.fab.flooded = s.fab.flooded ++ (s.upPorts.filter (· != p.val)).map fun q => (q, a)
        (∀ n, s.entryOf a.id = none → s.emptyEntry = some n → ∃ u, exec (.nodeAnnouncement p a) s = .next u ∧
          (u.partner n).present = true ∧ (u.partner n).id = a.id ∧ (u.partner n).serial = a.serial ∧ (u.partner n).anum = a.anum ∧
          forwarded u) ∧
        (∀ n, s.entryOf a.id = some n → ((s.partner n).present = true → (s.partner n).serial = a.serial ∧
          newer a.anum (s.partner n).anum = true) → ∃ u, exec (.nodeAnnouncement p a) s = .next u ∧
          (u.partner n).anum = a.anum ∧ (u.partner n).ports = a.ports ∧ forwarded u) ∧
        (∀ n, s.entryOf a.id = some n → (s.partner n).present = true → (s.partner n).serial = a.serial →
          newer a.anum (s.partner n).anum = false → exec (.nodeAnnouncement p a) s = .next s) ∧
        (∀ n, s.entryOf a.id = some n → (s.partner n).present = true → (s.partner n).serial ≠ a.serial →
          ∃ u, exec (.nodeAnnouncement p a) s = .next u ∧ (u.partner n).other = a.serial ∧ forwarded u) ∧
        (s.entryOf a.id = none → s.emptyEntry = none → ∃ u, exec (.nodeAnnouncement p a) s = .next u ∧
          u.flag FAB_PT_STAT.full = true ∧ u.fab = s.fab)) ∧
      (s.portUp p = false → exec (.nodeAnnouncement p a) s = .next s)) ∧
    (let due := s.fab.annTick + 100000 ≤ s.tick ∨ s.xoLocked ≠ s.fab.lastAnn.2
     (due → s.flag FAB_PID.asg = true → s.upPorts ≠ [] → ∃ u, exec .announcementTimer s = .next u ∧ u.fab.anum = s.fab.anum + 1 ∧
        u.fab.annTick = s.tick ∧ ∃ a, a.anum = s.fab.anum + 1 ∧ a.id = s.ownId ∧ a.cand = s.xoLocked ∧ a.ports = s.ownPorts ∧
          u.fab.flooded = s.fab.flooded ++ s.upPorts.map fun q => (q, a)) ∧
     (due → (s.flag FAB_PID.asg = false ∨ s.upPorts = []) → ∃ u, exec .announcementTimer s = .next u ∧ u.fab.flooded = s.fab.flooded ∧
        u.fab.anum = s.fab.anum) ∧
     (¬ due → exec .announcementTimer s = .next s)) ∧
    (∀ (id : BitVec 12) (n : Nat), id ≠ s.ownId → s.entryOf id = some n → (s.partner n).present = true →
      (∃ u, exec (.leaveAnnouncement id) s = .next u ∧ (u.partner n).present = false ∧ (u.partner n).gone = true ∧
        ∀ k, k < 64 → (s.group (k / 4) (k % 4)).bound = true → (s.group (k / 4) (k % 4)).partner = id →
          (u.group (k / 4) (k % 4)).pend = true) ∧
      ((s.partner n).dup = false → (s.partner n).heard + 350000 ≤ s.tick → ∃ u, exec (.partnerEntryTimeout id) s = .next u ∧
        (u.partner n).present = false ∧ (u.partner n).gone = true) ∧
      ((s.partner n).dup = false → s.tick < (s.partner n).heard + 350000 → exec (.partnerEntryTimeout id) s = .next s) ∧
      exec (.partnerRejoin id false) s = .next s ∧
      ((s.partner n).dup = false → ∃ u, exec (.partnerRejoin id true) s = .next u ∧
        ∀ k, k < 64 → (s.group (k / 4) (k % 4)).bound = true → (s.group (k / 4) (k % 4)).pend = true →
          (s.group (k / 4) (k % 4)).partner = id → (s.group (k / 4) (k % 4)).serial = (s.partner n).serial →
          s.portUp (k / 4) = true → s.farId (k / 4) = id →
          (u.group (k / 4) (k % 4)).pend = false ∧ (u.group (k / 4) (k % 4)).state = laneState (s.group (k / 4) (k % 4)))) ∧
    (∀ (id : BitVec 12) (acc : Bool), s.entryOf id = none → exec (.partnerEntryTimeout id) s = .next s ∧
      exec (.partnerRejoin id acc) s = .next s ∧ exec (.leaveAnnouncement id) s = .next s)

/-- R304 to R307, R310, R311, R314, R315: what a group that carries traffic sends. The next message leaves with the next sequence number, in
flits in codeword pairs, once credits and the replay buffer have room; an assured one is kept for a resend. Loss notices and resent copies
go before it. With nothing to send, or no room, an idle pair leaves, whose header returns the credits owed. Of a group that is down the next
message is not sent.
R304 to R307, R310, R311, R315: what it receives. A pair that decodes gives the credits of its header, and its message in order is taken; one
ahead of a lost message is held, and the message missing is asked for again; one that does not decode loses its flits and the first message
missing is asked for again; a nak has the messages from the one that it names on sent again. A group that is down takes no pair.
R311, R312: a nak that stays without a copy leaves again; a loss notice at the place of the nak lets the traffic go on, with every block of
the message marked, and at any other place does nothing. -/
def Obligations.GroupsCarryTraffic : Prop :=
  ∀ (s : State) (p : PortId) (g : GroupId),
    let f := s.group p g
    let sent := fun (u : State) (l : List Flit) => ∃ q : List LinePair, (u.group p g).line = f.line ++ q ∧
      (q.flatMap (·.slots)).filter (fun x => x ≠ .idle ∧ x ≠ .control (.hello (s.ownHello p))) = l
    let idle := fun (u : State) => ∃ w : LinePair, (u.group p g).line = f.line ++ [w] ∧ (u.group p g).out = f.out ∧
      (u.group p g).cred = f.cred ∧ (w.header.extractLsb' 20 7).toNat = min f.owed 127 ∧ (u.group p g).owed = f.owed - min f.owed 127 ∧
      ∀ x ∈ w.slots, x = .idle ∨ x = .control (.hello (s.ownHello p))
    (f.carries = true →
      (∀ m r, f.notices = [] → f.resend = [] → f.out = m :: r →
        (1 + m.nfl.toNat ≤ f.cred → (f.cls = .assured → f.replay.length < 8) → ∃ u, exec (.messageSend p g) s = .next u ∧
          (u.group p g).out = r ∧ (u.group p g).cred = f.cred - (1 + m.nfl.toNat) ∧ (u.group p g).txSeq = f.txSeq + 1 ∧
          ∃ x : Msg, x.seq = f.txSeq + 1 ∧ x.blocks = m.blocks ∧ x.dst = m.dst ∧ x.src = s.ownId ∧ sent u (lineFlits x) ∧
            (f.cls = .assured → (u.group p g).replay = f.replay ++ [x])) ∧
        ((f.cred < 1 + m.nfl.toNat ∨ (f.cls = .assured ∧ 8 ≤ f.replay.length)) →
          ∃ u, exec (.messageSend p g) s = .next u ∧ idle u)) ∧
      (f.notices = [] → f.resend = [] → f.out = [] → ∃ u, exec (.messageSend p g) s = .next u ∧ idle u) ∧
      (∀ m r, f.notices = [] → f.resend = m :: r → ∃ u, exec (.messageSend p g) s = .next u ∧ (u.group p g).resend = r ∧
        (u.group p g).out = f.out ∧ sent u (lineFlits m)) ∧
      (∀ m r, f.notices = m :: r → ∃ u, exec (.messageSend p g) s = .next u ∧ (u.group p g).notices = r ∧
        (u.group p g).out = f.out ∧ sent u [.control (.loss (headBytes m))])) ∧
    (∀ m r, f.carries = false → f.out = m :: r → ∃ u, exec (.messageSend p g) s = .next u ∧ (u.group p g).out = r ∧
      (u.group p g).line = f.line) ∧
    (∀ w : Pair,
      (f.carries = false → exec (.codewordPair p g w) s = .next s) ∧
      (f.carries = true → w.decoded = false → ∃ u, exec (.codewordPair p g w) s = .next u ∧
        u.fld (FAB_FEC.unc.on p) = min (s.fld (FAB_FEC.unc.on p) + 1) 65535 ∧ (u.group p g).rxSlot = f.rxSlot + 5 ∧
        (u.group p g).nakOut = some (f.rxSeq + 1) ∧ (u.group p g).nakDue = true ∧ (u.group p g).arrived = f.arrived) ∧
      (∀ h : List Byte, let m := decodeMsg h [some h]
        f.carries = true → w.decoded = true → pairNak w = false → w.slots = .head h :: List.replicate 4 .idle → f.rxSlot ≠ 63 →
        flitCount h = 1 → f.held = [] →
        (m.seq = f.rxSeq + 1 → s.unwanted m = false → ∃ u, exec (.codewordPair p g w) s = .next u ∧
          (u.group p g).arrived = f.arrived ++ [m] ∧ (u.group p g).rxSeq = m.seq ∧
          (u.group p g).cred = min 128 (f.cred + pairCred w)) ∧
        (m.seq = f.rxSeq + 2 → f.nakOut = none → ∃ u, exec (.codewordPair p g w) s = .next u ∧ (u.group p g).held = [m] ∧
          (u.group p g).nakOut = some (f.rxSeq + 1) ∧ (u.group p g).arrived = f.arrived)) ∧
      (∀ m r, f.carries = true → w.decoded = true → pairNak w = true → w.slots = List.replicate 5 .idle → f.cls = .assured → f.replay = m :: r →
        m.seq = pairAck w + 1 → m.rty = false → (f.replay.findIdx? (·.seq == pairAck w)) = none →
        ∃ u, exec (.codewordPair p g w) s = .next u ∧ (u.group p g).resend =
          f.resend ++ ((m :: r).filter fun x => !x.rty).map fun x => { x with rty := true })) ∧
    (f.carries = true → f.nakOut.isSome = true → f.cls = .assured → ∃ u, exec (.nakTimeout p g) s = .next u ∧
      (u.group p g).nakDue = true ∧ (u.group p g).nakOut = f.nakOut) ∧
    ((f.carries = false ∨ f.nakOut = none ∨ f.cls = .spare) → exec (.nakTimeout p g) s = .next s) ∧
    (∀ head : List Byte, let m := decodeMsg head (f.kept (headSeq head) (flitCount head))
      (f.carries = true → f.nakOut = some m.seq → f.held = [] → ∃ u, exec (.lossNotice p g head) s = .next u ∧
        (u.group p g).rxSeq = m.seq ∧ (u.group p g).nakOut = none ∧
        ((m.type = 2 ∨ s.unwanted m = true) → (u.group p g).arrived = f.arrived) ∧
        (m.type ≠ 2 → s.unwanted m = false → ∃ x, (u.group p g).arrived = f.arrived ++ [x] ∧ x.type = m.type ∧
          (m.type ≠ 7 → x.blocks.length = m.nblk.toNat) ∧ ∀ b ∈ x.blocks, b.mark.isSome = true)) ∧
      ((f.carries = false ∨ f.nakOut ≠ some m.seq) → exec (.lossNotice p g head) s = .next s))

/-- R319, R312: a group that carries traffic and retrains loses what was sent and not applied, and of what has arrived it applies the messages
with data alone, every block marked; it returns with 128 credits and with sequence and slot numbers from 0, up, degraded or down by its lanes,
and down while its binding waits for the partner.
R320: a lane that stops leaves the lane set that is announced, and the sets announced take effect at a lane change.
R323: a group that is down returns once its filter has been in band for 1,000 samples with its heater not forced, on a port that is up. -/
def Obligations.GroupsRetrainAndReturn : Prop :=
  ∀ (s : State) (p : PortId) (g : GroupId),
    let f := s.group p g
    (f.carries = true → ∃ u, exec (.groupRetrain p g false) s = .next u ∧ (u.group p g).state = 4 ∧ (u.group p g).replay = [] ∧
      (u.group p g).resend = [] ∧ (u.group p g).held = [] ∧
      ∀ m ∈ (u.group p g).arrived, m.type ∈ [1, 4, 5, 6] ∧ ∀ b ∈ m.blocks, b.mark.isSome = true) ∧
    (f.carries = false → exec (.groupRetrain p g false) s = .next s) ∧
    (f.state = 4 → ∃ u, exec (.groupRetrain p g true) s = .next u ∧
      (u.group p g).state = (if f.bound && f.pend then 3 else laneState f) ∧ (u.group p g).cred = 128 ∧ (u.group p g).txSeq = 0 ∧
      (u.group p g).rxSeq = 0 ∧ (u.group p g).txSlot = 0 ∧ (u.group p g).rxSlot = 0 ∧ (u.group p g).arrived = f.arrived) ∧
    (f.state ≠ 4 → exec (.groupRetrain p g true) s = .next s) ∧
    (∀ lane : Fin 4,
      (∃ u, exec (.laneStop p g lane true) s = .next u ∧ (u.group p g).newRx = f.newRx ∧
        (u.group p g).newTx = some (f.newTx.getD f.txl &&& BitVec.ofNat 4 (15 - 2 ^ lane.val))) ∧
      (∃ u, exec (.laneStop p g lane false) s = .next u ∧ (u.group p g).newTx = f.newTx ∧
        (u.group p g).newRx = some (f.newRx.getD f.rxl &&& BitVec.ofNat 4 (15 - 2 ^ lane.val)))) ∧
    (f.carries = true → (f.newRx.isSome = true ∨ f.newTx.isSome = true) →
      ∃ u, exec (.laneChange p g) s = .next u ∧ (u.group p g).rxl = f.newRx.getD f.rxl ∧ (u.group p g).txl = f.newTx.getD f.txl ∧
        (u.group p g).newRx = none ∧ (u.group p g).newTx = none ∧ (u.group p g).state = laneState (u.group p g)) ∧
    ((f.carries = false ∨ (f.newRx = none ∧ f.newTx = none)) → exec (.laneChange p g) s = .next s) ∧
    (let returns := f.state = 3 ∧ (s.loopOf 8 (4 * p + g)).mode = .track ∧ 1000 ≤ (s.loopOf 8 (4 * p + g)).inBand ∧
       s.isForced (4864 + 4 * p + g) = false ∧ s.fld (FAB_PORT_STAT.state.on p) = 3 ∧ (f.bound && f.pend) = false
     (returns → ∃ u, exec (.groupFilterReturn p g) s = .next u ∧ (u.group p g).state = laneState f) ∧
     (¬ returns → exec (.groupFilterReturn p g) s = .next s))

/-- R308, R309, R315 to R317, R130, R188: the first message that has arrived on a group is applied, and its flits' credits go back. A write
of one block that the group's score owns, once its slot is granted, reaches that block of stage memory or of GDDR7, and is answered with
status 0; a read of it is answered with the block; a service reply of it reaches the block and is not answered. Without the slot they wait. A
write or read whose target is not bound, not owned or outside its space is answered with that status and changes no memory, and such a
service reply changes none.
R309: the block of a read reply goes to the input buffers of the transfer that asked for it, and a write completion completes the blocks of
its write. R120: the first half of a chain entry waits for the second; with the second, and its round open, the entry is added to its target,
which is cleared first; without a round it waits.
A message that is not the first one, or not of the command's type, does nothing. -/
def Obligations.MessagesAreApplied : Prop :=
  ∀ (s : State) (p : PortId) (g : GroupId) (m : Msg) (l : List (GddrFind × GddrFind)),
    let f := s.group p g
    let a := m.addr.toNat
    let taken := fun (u : State) => (u.group p g).arrived = f.arrived.drop 1 ∧ (u.group p g).owed = f.owed + 1 + m.nfl.toNat
    let answered := fun (u : State) (type status : BitVec 8) (bs : List Block) => ∃ x, (u.group p g).out = f.out ++ [x] ∧
      x.type = type ∧ x.status = status ∧ x.tag = m.tag ∧ x.dst = m.src ∧ x.blocks = bs
    let stored := fun (u : State) (b : Block) =>
      (m.gddr = false → s.ownsStage a f.score = true → s.holdsDesc a = false →
        u.stageBytesAt a b.data.length = b.data ∧ u.stageMark a = b.mark ∧
        ∀ n, (n < a ∨ a + b.data.length ≤ n) → u.stageByte n = s.stageByte n) ∧
      (m.gddr = true → (findAt l 0).1.crcBad = false → ∀ k, k < b.data.length → u.gByte (a + k) = b.data.getD k 0)
    (∀ b : Block, m.nblk = 1 → s.targetStatus f m = 0 →
      (s.applies p g m 1 = true → m.blocks = [b] →
        (s.msgReady p g m true = true → ∃ u, exec (.write p g ⟨m, l⟩) s = .next u ∧ stored u b ∧ taken u ∧ answered u 7 0 []) ∧
        (s.msgReady p g m true = false → exec (.write p g ⟨m, l⟩) s = .next s)) ∧
      (s.applies p g m 2 = true →
        (s.msgReady p g m false = true → ∃ u bs, exec (.readRequest p g ⟨m, l⟩) s = .next u ∧ taken u ∧ answered u 3 0 bs ∧
          u.stage = s.stage ∧ u.gddr.bytes = s.gddr.bytes ∧
          (m.gddr = false → s.ownsStage a f.score = true → bs = [s.blockAt a]) ∧
          (m.gddr = true → (findAt l 0).1.crcBad = false → bs = [(s.gddrRead a (findAt l 0).1).1])) ∧
        (s.msgReady p g m false = false → exec (.readRequest p g ⟨m, l⟩) s = .next s)) ∧
      (s.applies p g m 6 = true → m.blocks = [b] →
        (s.msgReady p g m true = true → ∃ u, exec (.serviceReply p g ⟨m, l⟩) s = .next u ∧ stored u b ∧ taken u ∧
          (u.group p g).out = f.out) ∧
        (s.msgReady p g m true = false → exec (.serviceReply p g ⟨m, l⟩) s = .next s))) ∧
    (s.targetStatus f m ≠ 0 →
      (s.applies p g m 1 = true → ∃ u, exec (.write p g ⟨m, l⟩) s = .next u ∧ u.stage = s.stage ∧ u.gddr = s.gddr ∧ taken u ∧
        answered u 7 (s.targetStatus f m) []) ∧
      (s.applies p g m 2 = true → ∃ u, exec (.readRequest p g ⟨m, l⟩) s = .next u ∧ u.stage = s.stage ∧ u.gddr = s.gddr ∧ taken u ∧
        answered u 3 (s.targetStatus f m) []) ∧
      (s.applies p g m 6 = true → ∃ u, exec (.serviceReply p g ⟨m, l⟩) s = .next u ∧ u.stage = s.stage ∧ u.gddr = s.gddr ∧ taken u ∧
        (u.group p g).out = f.out)) ∧
    (∀ (o : Outstanding) (i : Nat) (x : Transfer), s.xferOf o = some i → (s.queue o.q).xfers[i]? = some x → m.status = 0 →
      (∀ b : Block, s.applies p g m 3 = true → f.reads.find? (·.tag == m.tag) = some o → o.n = 1 → m.blocks = [b] →
        x.desc.dstSp = 3 → x.refused = none → ∃ u, exec (.readReply p g m) s = .next u ∧ (u.group p g).reads = f.reads.erase o ∧
        (u.queue o.q).xfers[i]? = some { x with done := x.done + 1 } ∧
        ∀ t ∈ x.tiles, (u.tile t).inbuf = (s.tile t).inbuf ++ [⟨if o.q < 256 then o.q % 32 else o.q - 256 + 32, b⟩]) ∧
      (s.applies p g m 7 = true → f.writes.find? (·.tag == m.tag) = some o →
        ∃ u, exec (.writeCompletion p g m) s = .next u ∧ (u.group p g).writes = f.writes.erase o ∧
        (u.queue o.q).xfers[i]? = some { x with done := x.done + o.n })) ∧
    (s.applies p g m 4 = true →
      (∀ t, s.hopTile p g = some t → f.bound = true → inMap a = true → f.score ≠ 0 → s.rangeScore t (mapEntry a) = f.score →
        let e := mapEntry a
        let v := (s.tile t).rounds e
        let bs := v.held ++ m.blocks
        let w := rowWords bs
        (a % 4096 = 0 → v.held = [] → m.blocks.length < 64 → ∃ u, exec (.chainEntry p g m) s = .next u ∧ taken u ∧
          ((u.tile t).rounds e).held = m.blocks ∧ (u.tile t).mant = (s.tile t).mant) ∧
        (a % 4096 ≠ 0 → v.held ≠ [] → v.held.length < 64 → bs.length = 64 →
          (v.due.find? (fun x => !x.done) = none → ∃ u, exec (.chainEntry p g m) s = .next u ∧ taken u ∧
            ((u.tile t).rounds e).held = bs ∧ (u.tile t).mant = (s.tile t).mant) ∧
          (∀ r, v.due.find? (fun x => !x.done) = some r → (s.tile t).roundOpen e r = true → s.compat = false →
            ∃ u, exec (.chainEntry p g m) s = .next u ∧ taken u ∧ ((u.tile t).rounds e).held = [] ∧
              (∀ x ∈ ((u.tile t).rounds e).due, x.pos = r.pos → x.done = true) ∧
              ∀ k x, (groupSteps (List.replicate 32 GroupVal.cleared) (w.map fun v => signed 40 (bits v 39 0))
                  (w.map fun v => signed 8 (bits v 47 40)) ((List.range 32).map (remoteMark bs w))
                  ((List.range 32).map fun j => inMask (w.getD (16 * j) 0) 48) r.gen (updateKey t))[k]? = some x →
                ((u.tile t).groupVal e k).e = x.new.e ∧ ((u.tile t).groupVal e k).mark = x.new.mark ∧
                  ∀ i, i < 16 → Tab.get dZero (u.tile t).mant (512 * e + 16 * k + i) = x.new.m.getD i 0))) ∧
      ((f.bound = false ∨ inMap a = false ∨ f.score = 0) → ∃ u, exec (.chainEntry p g m) s = .next u ∧ taken u ∧
        u.tiles = s.tiles)) ∧
    (s.applies p g m 1 = false → exec (.write p g ⟨m, l⟩) s = .next s) ∧
    (s.applies p g m 2 = false → exec (.readRequest p g ⟨m, l⟩) s = .next s) ∧
    (s.applies p g m 3 = false → exec (.readReply p g m) s = .next s) ∧
    (s.applies p g m 4 = false → exec (.chainEntry p g m) s = .next s) ∧
    (s.applies p g m 6 = false → exec (.serviceReply p g ⟨m, l⟩) s = .next s) ∧
    (s.applies p g m 7 = false → exec (.writeCompletion p g m) s = .next s)

/-- R228, R229, R230: a service request that finds room goes into the open batch, a further part of one joins it, and one that does not is
turned away with its status in a reply. At the deadline of the oldest request, or full, the batch closes when its buffer has room and a remote
slot: its number rises and its reply slots are due. A reply slot that the score has written is sent to the partner that asked, in messages of
at most 62 blocks behind the request header; that of an unfilled slot is discarded. Each waits for its conditions. -/
def Obligations.ServicesBatchAndReply : Prop :=
  ∀ (s : State),
    (∀ (p : PortId) (g : GroupId) (m : Msg),
      let f := s.group p g
      let h := headerOf (m.blocks.headD (zeroBlock none))
      let b := (s.score f.score).batch m.svc.toNat
      let part := b.partOf m.src h.2.2.1 (4 * p + g)
      let st := s.serviceStatus f m h.2.2.2
      (s.applies p g m 5 = true →
        (∀ d, st = 0 → s.service f.score m.svc.toNat = some d →
          (part = none → b.reqs.length + 1 < d.batch → ∃ u, exec (.serviceRequest p g m) s = .next u ∧
            ((u.score f.score).batch d.svc).reqs = b.reqs ++ [⟨m.src, h.2.2.1, 4 * p + g, h.2.2.2, m.blocks.drop 1⟩] ∧
            ((u.score f.score).batch d.svc).since = some (b.since.getD s.tick)) ∧
          (∀ i, part = some i → ∃ u, exec (.serviceRequest p g m) s = .next u ∧
            ((u.score f.score).batch d.svc).reqs = b.reqs.modify i fun r => { r with blocks := r.blocks ++ m.blocks.drop 1 })) ∧
        (st ≠ 0 → (st = 1 → part = none) → ∃ u, exec (.serviceRequest p g m) s = .next u ∧
          ∃ x, (u.group p g).out = f.out ++ [x] ∧ x.type = 6 ∧ x.tag = m.tag ∧ x.dst = m.src ∧
            x.blocks = [requestHeader m.src m.svc h.2.2.1 st 0])) ∧
      (s.applies p g m 5 = false → exec (.serviceRequest p g m) s = .next s)) ∧
    (∀ (i : ScoreId) (svc : BitVec 4),
      (∀ d, s.service i svc.toNat = some d →
        let b := (s.score i).batch d.svc
        (∀ t n, b.since = some t → (t + d.deadline ≤ s.tick ∨ b.reqs.length = d.batch) → s.serviceBuf i d d.reqBuf = some n →
          let room := (s.sbuf n).present + (s.sbuf n).reserved + ((batchHeader d b).length + (batchSlots d b).length) ≤
              (s.sbuf n).blocks ∧ s.slotFor (s.sbuf n).base remoteKinds d.cls = true
          (room → ∃ u, exec (.batchDeadline i svc) s = .next u ∧ ((u.score i).batch d.svc).reqs = [] ∧
            ((u.score i).batch d.svc).since = none ∧ ((u.score i).batch d.svc).bseq = b.bseq + 1 ∧
            ((u.score i).batch d.svc).due.length = b.due.length + d.batch) ∧
          (¬ room → exec (.batchDeadline i svc) s = .next s)) ∧
        ((b.since = none ∨ ∃ t, b.since = some t ∧ s.tick < t + d.deadline ∧ b.reqs.length ≠ d.batch) →
          exec (.batchDeadline i svc) s = .next s) ∧
        (∀ y rest n, b.due = y :: rest → s.serviceBuf i d d.repBuf = some n →
          (d.slot ≤ (s.sbuf n).present → ∃ u, exec (.serviceReplySend i svc) s = .next u ∧ ((u.score i).batch d.svc).due = rest ∧
            (y.filled = true → ∃ l, (u.group (y.group / 4) (y.group % 4)).out = (s.group (y.group / 4) (y.group % 4)).out ++ l ∧
              l.length = (d.slot + 61) / 62 ∧ (l.flatMap (·.blocks.drop 1)).length = d.slot ∧
              ∀ x ∈ l, x.type = 6 ∧ x.tag = y.tag ∧ x.dst = y.partner ∧
                x.blocks.head? = some (requestHeader y.partner (BitVec.ofNat 4 d.svc) y.tag 0 d.slot)) ∧
            (y.filled = false → u.fab = s.fab)) ∧
          ((s.sbuf n).present < d.slot → exec (.serviceReplySend i svc) s = .next s)) ∧
        (b.due = [] → exec (.serviceReplySend i svc) s = .next s)) ∧
      (s.service i svc.toNat = none → exec (.batchDeadline i svc) s = .next s ∧ exec (.serviceReplySend i svc) s = .next s))

/-! ### The command window and its commands (11, 07) -/

/-- R351, R352, R353, R355, R357, R354, R361: a whole dword written into an empty place of the window is there and no other place changes;
one written into a place that is not empty is refused; a partial one, and any of a poisoned write, is discarded. A packet whose header
passes and that is all there is taken, and CMD_CONS stands behind it; one whose header does not suit its opcode, version or flags is
answered at once; a header that does not pass is hunted past by one unit; with nothing to take, or no room, nothing is taken. A header or
packet that stays partial for the time of CMD_TMO stalls the window, and no sooner; a flush empties it up to the next wrap; an enable
after a write of the ring's registers starts the ring anew. -/
def Obligations.WindowTakesPackets : Prop :=
  ∀ (s : State),
    (∀ (off : BitVec 16) (v : Word) (be : BitVec 4),
      (Tab.get dNone s.cmd.window (off.toNat / 4) = none → ∃ u, exec (.commandWindowWrite off [(v, 15)] false) s = .next u ∧
        Tab.get dNone u.cmd.window (off.toNat / 4) = some v ∧
        ∀ n, n ≠ off.toNat / 4 → Tab.get dNone u.cmd.window n = Tab.get dNone s.cmd.window n) ∧
      (Tab.get dNone s.cmd.window (off.toNat / 4) ≠ none → ∃ u, exec (.commandWindowWrite off [(v, 15)] false) s = .next u ∧
        u.cmd.window = s.cmd.window ∧ u.flag CMD_STAT.ovr = true) ∧
      (be ≠ 15 → ∃ u, exec (.commandWindowWrite off [(v, be)] false) s = .next u ∧ u.cmd.window = s.cmd.window ∧
        (be ≠ 0 → u.flag CMD_STAT.part = true)) ∧
      (∀ l, ∃ u, exec (.commandWindowWrite off l true) s = .next u ∧ u.cmd.window = s.cmd.window ∧
        u.flag CMD_STAT.part = true)) ∧
    (∀ h ps, s.mayTake = true → s.headerAt = some (some h) → s.winRead (s.cons + s.unit) (h.plen / 4) = some ps →
      (s.headerStatus h (fun i => (ps.getD i 0).toNat) = none → ∃ u, exec .packetTake s = .next u ∧
        u.cons = (s.cons + s.unit + h.plen) % 2 ^ 32 ∧ u.cmd.done = s.cmd.done ∧
        ∃ c, u.cmd.taken = s.cmd.taken ++ [c] ∧ c.opcode = BitVec.ofNat 16 h.opcode ∧ c.tag = h.tag ∧ c.params = ps ∧
          c.begun = none) ∧
      (∀ st, s.headerStatus h (fun i => (ps.getD i 0).toNat) = some st → (∀ c ∈ s.cmd.taken, c.no ≠ s.cmd.nextNo) →
        ∃ u, exec .packetTake s = .next u ∧ u.cons = (s.cons + s.unit + h.plen) % 2 ^ 32 ∧ u.cmd.taken = s.cmd.taken ∧
          ∃ r, u.cmd.done = s.cmd.done ++ [r] ∧ r.status = BitVec.ofNat 8 st ∧ r.tag = h.tag)) ∧
    (∀ h, s.mayTake = true → s.headerAt = some (some h) → s.winRead (s.cons + s.unit) (h.plen / 4) = none →
      ∃ u, exec .packetTake s = .next u ∧ u.cons = s.cons ∧ u.cmd = s.cmd) ∧
    (s.mayTake = true → s.headerAt = some none → ∃ u, exec .packetTake s = .next u ∧ u.cons = (s.cons + s.unit) % 2 ^ 32 ∧
      u.flag CMD_STAT.hunt = true ∧ u.cmd.taken = s.cmd.taken) ∧
    ((s.mayTake = false ∨ s.headerAt = none) → exec .packetTake s = .next s) ∧
    (∀ t, s.cmd.partial_ = some t → t + 1000 * s.fld CMD_TMO.ms ≤ s.tick →
      ∃ u, exec .windowStall s = .next u ∧ u.flag CMD_STAT.stall = true) ∧
    ((s.cmd.partial_ = none ∨ ∃ t, s.cmd.partial_ = some t ∧ s.tick < t + 1000 * s.fld CMD_TMO.ms) → exec .windowStall s = .next s) ∧
    (∃ u, exec .flush s = .next u ∧ u.cmd.window = [] ∧ u.cons = (s.cons + 65535) / 65536 * 65536 % 2 ^ 32 ∧
      u.flag CMD_STAT.hunt = false ∧ u.flag CMD_STAT.stall = false ∧ u.cmd.taken = s.cmd.taken) ∧
    (∀ en, ∃ u, exec (.commandEnable en) s = .next u ∧ u.flag CMD_CTL.en = en ∧
      (en = true → s.flag CMD_CTL.en = false → s.cmd.ringNew = true →
        u.fld CMD_RPL_TAIL.tail = 0 ∧ u.fld CMD_RPL_HEAD.head = 0 ∧ u.flag CMD_RPL_TAIL.phase = true))

/-- R359, R358, R361: the oldest completed reply is written into the ring's entry at the tail, and into no other place of host memory;
the tail advances. With no reply, the ring full, the block not enabled or the link down nothing is written. -/
def Obligations.RepliesAreWritten : Prop :=
  ∀ (s : State),
    (∀ (r : Reply) (rest : List Reply), s.cmd.done = r :: rest →
      let a := s.fld CMD_RPL_HI.addr_hi * 2 ^ 32 + s.fld CMD_RPL_LO.addr * 2 ^ 12 +
        (if s.compat then 32 else 64) * s.fld CMD_RPL_TAIL.tail
      let bs := r.bytes s.compat (s.flag CMD_RPL_TAIL.phase)
      (s.flag CMD_CTL.en = true → s.link.up = true → s.ringUsed ≠ s.ringSize - 1 → ∃ u, exec .replyWrite s = .next u ∧
        u.cmd.done = rest ∧ u.fld CMD_RPL_TAIL.tail = (s.fld CMD_RPL_TAIL.tail + 1) % s.ringSize ∧
        (∀ k, k < bs.length → Tab.get dZero u.cmd.host (a + k) = bs.getD k 0) ∧
        ∀ n, (n < a ∨ a + bs.length ≤ n) → Tab.get dZero u.cmd.host n = Tab.get dZero s.cmd.host n) ∧
      ((s.flag CMD_CTL.en = false ∨ s.link.up = false ∨ s.ringUsed = s.ringSize - 1) → exec .replyWrite s = .next s)) ∧
    (s.cmd.done = [] → exec .replyWrite s = .next s)

/-- R210 to R213, R215: a load begins with a header that passes and with home granules that are free, while fewer than five loads wait; a
chunk in order joins the image, out of stage memory that no score holds; an analysis of the load whose turn it is gives a code, and an
accepted score its package; the load's end gives a loaded score only where the length and the digest of the whole package agree, and
otherwise nothing remains of it; before the analysis has ended it waits. What does not pass is answered with its status. -/
def Obligations.ScoresLoad : Prop :=
  ∀ (s : State) (k : Nat) (c : Taken),
    (s.mayRun k 0x0101 c →
      let h := c.bytes 0 256
      let i := hdrScore h
      let ns := bits (c.p 64) 7 0
      let homes := (c.bytes 260 ns).map (·.toNat)
      let ghomes := (c.bytes (260 + ns) (bits (c.p 64) 15 8)).map (·.toNat)
      let free := (∀ n ∈ homes, n < 92 ∧ Tab.get dZero s.scores.sgran n = 0) ∧ ∀ n ∈ ghomes, n < 96 ∧ Tab.get dZero s.scores.ggran n = 0
      let passes := s.scores.loads.length < 5 ∧ headerOk h = true ∧ i ≠ 0 ∧ (s.score i).state = .none
      ((65536 ≤ c.p 64 ∨ ¬ homes.Nodup ∨ ¬ ghomes.Nodup) → ∃ u, exec (.loadBegin k) s = .next u ∧ u.scores = s.scores ∧
        s.Replied u k c 3 []) ∧
      (c.p 64 < 65536 → homes.Nodup → ghomes.Nodup →
        (¬ passes → ∃ u, exec (.loadBegin k) s = .next u ∧ u.scores = s.scores ∧ ∃ vs, s.Replied u k c 6 vs) ∧
        (passes → ¬ free → ∃ u, exec (.loadBegin k) s = .next u ∧ u.scores = s.scores ∧ s.Replied u k c 3 []) ∧
        (passes → free → ∃ u, exec (.loadBegin k) s = .next u ∧ (u.score i).state = .loading ∧ (u.score i).nextBlk = 4 ∧
          (u.score i).homes = homes ∧ (u.score i).ghomes = ghomes ∧ u.scores.loads = s.scores.loads ++ [i] ∧
          ∃ vs, s.Replied u k c 0 vs))) ∧
    (s.mayRun k 0x0102 c → c.p 0 < 65536 → ∀ x, s.score (BitVec.ofNat 16 (c.p 0)) = x →
      let inOrder := c.p 2 = x.nextBlk ∧ 0 < c.p 3 ∧ c.p 3 ≤ 1048576 ∧ s.staging (c.p 1) (64 * c.p 3) = true
      ((x.state = .loading ∨ x.state = .analysing) →
        (inOrder → ∃ u, exec (.loadChunk k) s = .next u ∧ (x.pkg = none → u.stage = s.stage) ∧
          (u.score (BitVec.ofNat 16 (c.p 0))).nextBlk = x.nextBlk + c.p 3 ∧
          (u.score (BitVec.ofNat 16 (c.p 0))).image =
            x.image ++ (List.range (c.p 3)).flatMap (fun b => (s.blockAt (c.p 1 + 64 * b)).data) ∧
          s.Replied u k c 0 [BitVec.ofNat 32 (x.nextBlk + c.p 3)]) ∧
        (¬ inOrder → ∃ u, exec (.loadChunk k) s = .next u ∧ u.scores = s.scores ∧ s.Replied u k c 3 [])) ∧
      (x.state = .none → ∃ u, exec (.loadChunk k) s = .next u ∧ u.scores = s.scores ∧ s.Replied u k c 4 []) ∧
      (x.state ∉ [.none, .loading, .analysing] → ∃ u, exec (.loadChunk k) s = .next u ∧ u.scores = s.scores ∧
        s.Replied u k c 5 [])) ∧
    (∀ (i : ScoreId) (p : Package) (s0 : State), s0 = { s with scores := { s.scores with loads := s.scores.loads.drop 1 } } →
      (s.scores.loads.head? = some i → (s.score i).state = .analysing →
        (∀ e, s0.analyse p i = some e → ∃ u, exec (.analysis i p) s = .next u ∧
          (u.score i).state = .none ∧ u.fld GLB_ADM_LAST.code = e.code % 256) ∧
        (s0.analyse p i = none → s.waitingEnd i = none → ∃ u, exec (.analysis i p) s = .next u ∧
          (u.score i).pkg = some p ∧ u.fld GLB_ADM_LAST.code = 0) ∧
        (∀ j, s.waitingEnd i = some j → ∃ u, exec (.analysis i p) s = .next u ∧ u.cmd.taken = s.cmd.taken.eraseIdx j)) ∧
      ((s.scores.loads.head? ≠ some i ∨ (s.score i).state ≠ .analysing) → exec (.analysis i p) s = .next s)) ∧
    (∀ x, s.mayRun k 0x0103 c → c.p 0 < 65536 → s.score (BitVec.ofNat 16 (c.p 0)) = x →
      (∀ p, x.state = .loading → x.refusal = none → x.pkg = some p →
        let agrees := (x.length + 63) / 64 = x.nextBlk ∧ Config.shake256 (zeroDigest (x.image.take x.length)) = x.digest
        (agrees → ∃ u, exec (.loadEnd k) s = .next u ∧ (u.score (BitVec.ofNat 16 (c.p 0))).state = .loaded ∧
          Tab.get dZero u.sec.exts 6 = min (Tab.get dZero s.sec.exts 6 + 1) 65535 ∧ ∃ vs, s.Replied u k c 0 vs) ∧
        (¬ agrees → ∃ u, exec (.loadEnd k) s = .next u ∧
          (u.score (BitVec.ofNat 16 (c.p 0))).state = .none ∧ u.fld GLB_ADM_LAST.code = 0x11 ∧ ∃ vs, s.Replied u k c 6 vs)) ∧
      (∀ code, x.refusal = some code → ∃ u, exec (.loadEnd k) s = .next u ∧ (u.score (BitVec.ofNat 16 (c.p 0))).state = .none ∧
        ∃ vs, s.Replied u k c 6 vs) ∧
      (x.refusal = none → x.pkg = none → (x.state = .loading ∨ x.state = .analysing) →
        (analysisEnd x.image ≤ x.nextBlk → ∃ u, exec (.loadEnd k) s = .next u ∧ u.scores = s.scores ∧ s.Begun u k c) ∧
        (x.nextBlk < analysisEnd x.image → ∃ u, exec (.loadEnd k) s = .next u ∧
          (u.score (BitVec.ofNat 16 (c.p 0))).state = .none ∧ ∃ vs, s.Replied u k c 6 vs)) ∧
      (x.refusal = none → x.state = .none → ∃ u, exec (.loadEnd k) s = .next u ∧ u.scores = s.scores ∧ s.Replied u k c 4 []) ∧
      (x.refusal = none → x.state ∉ [.none, .loading, .analysing] → ∃ u, exec (.loadEnd k) s = .next u ∧ u.scores = s.scores ∧
        s.Replied u k c 5 []))

/-- R214, R133, R24, R28: a start of a sequence that may start sets its strands ready on its bay, which is then running; a start of several
runs each of them where each may start and no two take one place; it waits while slots of recalibration are pending, and otherwise starts
none and is answered with status 5. A stop of a score with running sequences that it names halts them and waits for their end, one with
none is answered at once, one of a score that is not running with status 5. An unload of a score at rest releases every granule of stage
memory that it holds, and one of a running score waits. A score that is not there is answered with status 4. -/
def Obligations.ScoresStartStopAndUnload : Prop :=
  ∀ (s : State) (k : Nat) (c : Taken) (i : ScoreId), i = BitVec.ofNat 16 (c.p 0) → c.p 0 < 65536 → c.p 1 < 65536 →
    (∀ p, s.mayRun k 0x0104 c → (s.score i).state ≠ .none → (s.score i).pkg = some p →
      let l := maskSeqs p (c.p 1)
      let may := ((s.score i).state = .loaded ∨ (s.score i).state = .running) ∧ l.all (s.mayStart (s.score i) p) = true ∧
        ((s.score i).places p l).Nodup
      (∀ n ∈ l, n < p.seqs.length) →
      (l.any (s.slotsPending (s.score i) p) = true → exec (.start k) s = .next s) ∧
      (l.any (s.slotsPending (s.score i) p) = false →
        (may → ∃ u, exec (.start k) s = .next u ∧ (u.score i).state = .running ∧ s.Replied u k c 0 [] ∧
          ∀ n ∈ l, ∀ q b, p.seqs[n]? = some q → (s.score i).roleRes 0 q.bayRole = some b → u.bayState b = 3 ∧
            (∃ r, (u.bay b).run q.cls = some r ∧ r.score = i ∧ r.index = n) ∧
            (l = [n] → ∀ t ∈ q.strands, (u.strand b t.1).state = .ready ∧ (u.strand b t.1).cls = q.cls)) ∧
        (¬ may → ∃ u, exec (.start k) s = .next u ∧ u.scores = s.scores ∧ u.bays = s.bays ∧ s.Replied u k c 5 []))) ∧
    (∀ p, s.mayRun k 0x0105 c → (s.score i).state ≠ .none → (s.score i).pkg = some p →
      (∀ n ∈ maskSeqs p (c.p 1), n < p.seqs.length) →
      ((s.score i).state = .running → ((maskSeqs p (c.p 1)).any (s.seqRuns i)) = true → ∃ u, exec (.stop k) s = .next u ∧ s.Begun u k c ∧
        ∀ b cl r, b < 8 → (s.bay b).run cl = some r → r.score = i → r.index ∈ maskSeqs p (c.p 1) →
          (u.bay b).run cl = some { r with stopping := true }) ∧
      ((s.score i).state = .running → ((maskSeqs p (c.p 1)).any (s.seqRuns i)) = false →
        ∃ u, exec (.stop k) s = .next u ∧ s.Replied u k c 0 [0]) ∧
      ((s.score i).state ≠ .running → ∃ u, exec (.stop k) s = .next u ∧ u.bays = s.bays ∧ s.Replied u k c 5 [])) ∧
    (s.mayRun k 0x0106 c → (s.score i).state ≠ .none →
      (s.scoreRuns i = false → ∃ u, exec (.unload k) s = .next u ∧ (u.score i).state = .none ∧
        (∀ n, Tab.get dZero u.scores.sgran n = i → i = 0) ∧ s.Replied u k c 0 []) ∧
      (s.scoreRuns i = true → ∃ u, exec (.unload k) s = .next u ∧ (u.score i).state = .unloading ∧ s.Begun u k c)) ∧
    ((s.score i).state = .none →
      (s.mayRun k 0x0104 c → ∃ u, exec (.start k) s = .next u ∧ u.scores = s.scores ∧ s.Replied u k c 4 []) ∧
      (s.mayRun k 0x0105 c → ∃ u, exec (.stop k) s = .next u ∧ u.scores = s.scores ∧ s.Replied u k c 4 []) ∧
      (s.mayRun k 0x0106 c → ∃ u, exec (.unload k) s = .next u ∧ u.scores = s.scores ∧ s.Replied u k c 4 []))

/-- R222, R223, R224, R28, R37, R38, R40, R366: a bind of a bay that is free, or bound and at rest, sets it rebinding until its loops stand
still in band, and then bound; a bind of a Pewter range at rest on a tile of the bay holds it for the score at once, cleared; a bind of a
group that may pair ends with the partner's answer; a bind of a remote window goes through a group of its class to the partner. A bind whose
parameters are out of range, whose score is not there or not loaded, or whose role is bound already, is answered with its status and binds
nothing. A release gives the resource of a role back, but not while the score runs or moves data. -/
def Obligations.RolesAreBoundAndReleased : Prop :=
  ∀ (s : State) (k : Nat) (c : Taken) (i : ScoreId), i = BitVec.ofNat 16 (c.p 0) →
    let kind := bits (c.p 0) 23 16
    let role := bits (c.p 0) 31 24
    let n := c.p 1
    (∀ p, s.mayRun k 0x0201 c → bindOk c = true → ((s.score i).state = .loaded ∨ (s.score i).state = .running) →
      (s.score i).pkg = some p → (s.score i).roleRes kind role = none →
      (∀ cl, kind = 0 → p.bays.find? (·.role == role) = some cl →
        (s.bayState n = 1 ∨ (s.bayState n = 2 ∧ s.inFlight 0 (some n) = false)) → (s.bay n).anyRun = false →
        cl.minLines ≤ 128 - s.lostLines n → ∃ u, exec (.bind k) s = .next u ∧
          u.bayState n = 4 ∧ (u.bay n).role = role ∧ s.Begun u k c) ∧
      (∀ cl, kind = 1 → p.pewter.find? (·.role == role) = some cl → (s.score i).roleRes 0 cl.bayRole = some (n / 64) →
        (Tab.get dZero s.scores.pewter n = 0 ∨ (s.scoreRuns (Tab.get dZero s.scores.pewter n) = false ∧
          s.inFlight (Tab.get dZero s.scores.pewter n) none = false)) →
        ∃ u, exec (.bind k) s = .next u ∧ Tab.get dZero u.scores.pewter n = i ∧ s.Replied u k c 0 [0, 0] ∧
          ∀ e r, e < 64 → r < 512 → Tab.get dZero (u.tile (n / 16)).mant (512 * (64 * (n % 16) + e) + r) = 0) ∧
      (∀ cl, kind = 2 → p.groups.find? (·.1 == role) = some cl → Tab.get dZero s.scores.groups n = 0 →
        (s.group (n / 4) (n % 4)).pend = false → cl.2.1.toNat = bits (c.p 2) 11 0 → s.mayPair (n / 4) (bits (c.p 2) 11 0) = true →
        (cl.2.2 = .assured → Config.longFibre (n / 4) = false) → ∃ u, exec (.bind k) s = .next u ∧ s.Begun u k c ∧
          (u.group (n / 4) (n % 4)).pend = true ∧ (u.group (n / 4) (n % 4)).score = i ∧ (u.group (n / 4) (n % 4)).cls = cl.2.2 ∧
          (u.group (n / 4) (n % 4)).partner = cl.2.1) ∧
      (∀ cl, kind = 3 → p.windows.find? (·.1 == role) = some cl → (s.rwin n).valid = false →
        (∀ m, s.groupTo i cl.2 (bits (c.p 2) 11 0) = some m → ∃ u, exec (.bind k) s = .next u ∧ s.Replied u k c 0 [0, 0] ∧
          u.rwin n = ⟨true, i, BitVec.ofNat 12 (bits (c.p 2) 11 0), m / 4, m % 4, bits (c.p 2) 27 16 + 1⟩) ∧
        (s.groupTo i cl.2 (bits (c.p 2) 11 0) = none → ∃ u, exec (.bind k) s = .next u ∧ u.scores = s.scores ∧
          s.Replied u k c 5 []))) ∧
    (s.mayRun k 0x0201 c →
      (bindOk c = false → ∃ u, exec (.bind k) s = .next u ∧ u.scores = s.scores ∧ s.Replied u k c 3 []) ∧
      (bindOk c = true → (s.score i).state = .none → ∃ u, exec (.bind k) s = .next u ∧ u.scores = s.scores ∧ s.Replied u k c 4 []) ∧
      (bindOk c = true → (s.score i).state ≠ .none → ((s.score i).pkg = none ∨ (s.score i).state ∉ [.loaded, .running] ∨
        ((s.score i).roleRes kind role).isSome = true) → ∃ u, exec (.bind k) s = .next u ∧ u.scores = s.scores ∧
          s.Replied u k c 5 [])) ∧
    (∀ (b : BayId) r, s.rebinding k = some (c, r) →
      (r = b.val → s.bayState b = 4 → s.loopsSettled b = true → ∃ u, exec (.rebindComplete k b) s = .next u ∧ u.bayState b = 2 ∧
        u.bayScore b = i ∧ ∃ t, s.Replied u k c 0 [t, BitVec.ofNat 32 (s.bay b).upset.toNat]) ∧
      (r = b.val → s.bayState b = 4 → s.loopsSettled b = false → exec (.rebindComplete k b) s = .next s) ∧
      (r = b.val → s.bayState b ≠ 4 → ∃ u, exec (.rebindComplete k b) s = .next u ∧ u.scores = s.scores ∧ s.Replied u k c 5 []) ∧
      (r ≠ b.val → exec (.rebindComplete k b) s = .next s)) ∧
    (s.rebinding k = none → ∀ b, exec (.rebindComplete k b) s = .next s) ∧
    (s.cmd.taken[k]? = some c → c.opcode = 0x0201 → c.begun.isSome = true → kind = 2 → (s.group (n / 4) (n % 4)).pend = true →
      let takes := (s.group (n / 4) (n % 4)).cls = .spare ∨ s.flag FAB_REF.lock = true
      (takes → ∃ u, exec (.reservationExchange k true) s = .next u ∧ (u.group (n / 4) (n % 4)).bound = true ∧
          (u.group (n / 4) (n % 4)).pend = false ∧ Tab.get dZero u.scores.groups n = i ∧ ∃ vs, s.Replied u k c 0 vs) ∧
      (¬ takes → ∃ u, exec (.reservationExchange k true) s = .next u ∧ (u.group (n / 4) (n % 4)).bound = false ∧
        s.Replied u k c 7 []) ∧
      (∃ u, exec (.reservationExchange k false) s = .next u ∧ (u.group (n / 4) (n % 4)).bound = false ∧
        s.Replied u k c 7 [])) ∧
    (s.cmd.taken[k]? = some c → (c.opcode ≠ 0x0201 ∨ c.begun = none ∨ kind ≠ 2 ∨ (s.group (n / 4) (n % 4)).pend = false) →
      ∀ acc, exec (.reservationExchange k acc) s = .next s) ∧
    (s.mayRun k 0x0202 c → kind < 4 → (s.score i).state ≠ .none →
      (∀ m, (s.score i).roleRes kind role = some m →
        let moving := (s.score i).state = .running ∨ s.inFlight i none = true
        (moving → ∃ u, exec (.release k) s = .next u ∧ u.scores = s.scores ∧ s.Replied u k c 1 []) ∧
        (¬ moving → kind ≠ 2 → ∃ u, exec (.release k) s = .next u ∧ s.Replied u k c 0 [] ∧
          ∀ y ∈ (u.score i).bound, ¬ (y.1 = kind ∧ y.2.2 = m))) ∧
      ((s.score i).roleRes kind role = none → ∃ u, exec (.release k) s = .next u ∧ u.scores = s.scores ∧ s.Replied u k c 4 []))

/-- R362, R364, R401, R415, R443: a host command that is not the one in its place, that something earlier holds up, or that A1 lets wait,
does nothing yet; one that the power state, the recovery image or management on the RC oscillator bars is answered with its status and does
nothing. R366, R368, R198, R152: NOP does nothing, IDENTIFY returns what the module is, a window map's entries wait for their reply, the event
commands signal, read and notify a counter of a score; one whose parameters are out of range is answered with status 3, one whose score or
window is not there with 4. -/
def Obligations.ModuleCommandsAnswer : Prop :=
  ∀ (s : State) (k : Nat) (c : Taken),
    (∀ (i : Instr) (op : Nat), hostCommand i = some (k, op) →
      (s.cmd.taken[k]? = none → exec i s = .next s) ∧
      (s.cmd.taken[k]? = some c →
        ((c.opcode.toNat ≠ op ∨ s.startable k c = false ∨
          (s.fld PWR_STAT.state = 1 ∧ op ∉ [0x0001, 0x0002, 0x0302, 0x0601])) → exec i s = .next s) ∧
        (c.opcode.toNat = op → s.startable k c = true → s.fld PWR_STAT.state ≠ 1 →
          ∀ st, s.barred op (op == 0x0201 && bits (c.p 0) 23 16 == 0) = some st →
            ∃ u, exec i s = .next u ∧ s.Replied u k c (BitVec.ofNat 8 st) [] ∧ u.regs = s.regs ∧ u.scores = s.scores ∧
              u.bays = s.bays ∧ u.tiles = s.tiles ∧ u.stage = s.stage))) ∧
    (s.mayRun k 0x0001 c → ∃ u, exec (.nopCommand k) s = .next u ∧ s.Replied u k c 0 [] ∧ u.stage = s.stage ∧ u.scores = s.scores ∧
      u.regs = s.regs) ∧
    (s.mayRun k 0x0002 c → ∃ u, exec (.identify k) s = .next u ∧ u.regs = s.regs ∧
      s.Replied u k c 0 [s.reg GLB_ID.part.off, s.sec.ver, BitVec.ofNat 32 (s.fld FAB_PID.id + 4096 * s.fld FAB_PID.asg),
        BitVec.ofNat 32 (Config.fuseSerial.toNat % 2 ^ 32), BitVec.ofNat 32 (Config.fuseSerial.toNat / 2 ^ 32),
        s.reg GLB_STRAP.compat.off]) ∧
    (s.mayRun k 0x0203 c →
      let w := bits (c.p 0) 21 16
      let fits := c.p 0 < 2 ^ 22 ∧ c.p 1 < 2 ^ 25 ∧ bits (c.p 1) 15 12 = 0 ∧ mapEntries c ≠ [] ∧
        (mapEntries c).length ≤ 504 ∧ ∀ e ∈ mapEntries c, bits e 60 48 = 0 ∧ bits e 19 0 = 0
      let there := (s.score (BitVec.ofNat 16 (c.p 0))).state ≠ .none ∧ (s.rwin w).valid = true ∧
        (s.rwin w).score = BitVec.ofNat 16 (c.p 0)
      (¬ fits → ∃ u, exec (.windowMap k) s = .next u ∧ s.Replied u k c 3 [] ∧ u.cmd.maps = s.cmd.maps) ∧
      (fits → ¬ there → ∃ u, exec (.windowMap k) s = .next u ∧ s.Replied u k c 4 [] ∧ u.cmd.maps = s.cmd.maps) ∧
      (fits → there → (s.rwin w).pages < bits (c.p 1) 11 0 + (mapEntries c).length →
        ∃ u, exec (.windowMap k) s = .next u ∧ s.Replied u k c 3 [] ∧ u.cmd.maps = s.cmd.maps) ∧
      (fits → there → bits (c.p 1) 11 0 + (mapEntries c).length ≤ (s.rwin w).pages →
        ∃ u, exec (.windowMap k) s = .next u ∧ u.stage = s.stage ∧ s.Replied u k c 0 [] ∧
          u.cmd.maps = s.cmd.maps ++ (mapEntries c).zipIdx.map fun e =>
            (c.no, 0x17CC0000 + 8 * (4096 * w + bits (c.p 1) 11 0 + e.2), e.1))) ∧
    (∀ i ev, s.counterOf c = .ok (i, ev) →
      (s.mayRun k 0x0301 c →
        (0 < c.p 1 → c.p 1 < 256 → ∃ u, exec (.eventSignal k) s = .next u ∧ s.Replied u k c 0 [] ∧
          ((u.score i).counter ev).toNat = min (((s.score i).counter ev).toNat + c.p 1) 65535) ∧
        ((c.p 1 = 0 ∨ 256 ≤ c.p 1) → ∃ u, exec (.eventSignal k) s = .next u ∧ s.Replied u k c 3 [] ∧ u.scores = s.scores)) ∧
      (s.mayRun k 0x0302 c → ∃ u, exec (.eventRead k) s = .next u ∧ u.scores = s.scores ∧
        s.Replied u k c 0 [((s.score i).counter ev).setWidth 32]) ∧
      (s.mayRun k 0x0303 c →
        ((c.p 1 = 0 ∨ 8 ≤ c.p 1) → c.p 1 < 64 → ∃ u, exec (.eventNotify k) s = .next u ∧ s.Replied u k c 0 [] ∧
          (Tab.get dZero (u.score i).notify (ev - 256)).toNat = c.p 1) ∧
        ((64 ≤ c.p 1 ∨ (0 < c.p 1 ∧ c.p 1 < 8)) → ∃ u, exec (.eventNotify k) s = .next u ∧ s.Replied u k c 3 [] ∧
          u.scores = s.scores))) ∧
    (∀ st, s.counterOf c = .error st →
      (s.mayRun k 0x0301 c → ∃ u, exec (.eventSignal k) s = .next u ∧ u.scores = s.scores ∧ s.Replied u k c (BitVec.ofNat 8 st) []) ∧
      (s.mayRun k 0x0302 c → ∃ u, exec (.eventRead k) s = .next u ∧ u.scores = s.scores ∧ s.Replied u k c (BitVec.ofNat 8 st) []) ∧
      (s.mayRun k 0x0303 c → ∃ u, exec (.eventNotify k) s = .next u ∧ u.scores = s.scores ∧ s.Replied u k c (BitVec.ofNat 8 st) []))

/-- R171, R364: DEBUG_ENTER halts the live strands of a bay that is free, bound or running, waits for one that rebinds, and is answered with
status 5 for any other; DEBUG_EXIT lets the bay's halted strands go on. R285: REQUALIFY of a source whose bay no score holds brings every comb
that locks and is not failed to nominal, and fails the others, and is answered with status 5 while a score holds the bay. R444, R365:
GUARD_CLEAR clears a Guard fault whose cause is gone and no other, and nothing by words that do not agree. R297: TRIM_RELEASE gives a forced
output back, which keeps its code. R407, R413: POWER_STATE starts an entry that no block refuses or a wake, and is answered at once where the
module is there already, where a block refuses, and where the state allows no such entry; while a wake goes on it waits. R348, R440: a DOE
request of Discovery is answered, and one of SPDM within its session, signed where it asks for a signature, or told to begin again; one of
another type or size is not; an abort empties the mailbox. -/
def Obligations.SystemCommandsAct : Prop :=
  ∀ (s : State) (k : Nat) (c : Taken),
    (s.mayRun k 0x0401 c → c.p 0 < 8 →
      (s.bayState (c.p 0) ∈ [1, 2, 3] → ∃ u, exec (.debugEnter k) s = .next u ∧ u.bayState (c.p 0) = 5 ∧
        (∀ j, (s.strand (c.p 0) j).state.live = true → (u.strand (c.p 0) j).state = .halted) ∧ s.Replied u k c 0 []) ∧
      (s.bayState (c.p 0) = 4 → exec (.debugEnter k) s = .next s) ∧
      (s.bayState (c.p 0) ∉ [1, 2, 3, 4] → ∃ u, exec (.debugEnter k) s = .next u ∧ u.bays = s.bays ∧ s.Replied u k c 5 [])) ∧
    (s.mayRun k 0x0402 c → c.p 0 < 8 →
      (s.bayState (c.p 0) = 5 → ∃ u, exec (.debugExit k) s = .next u ∧
        u.bayState (c.p 0) = (if (s.bay (c.p 0)).anyRun then 3 else if s.bayScore (c.p 0) = 0 then 1 else 2) ∧
        (∀ j, (s.strand (c.p 0) j).state = .halted → u.strand (c.p 0) j =
          { s.strand (c.p 0) j with state := .ready, waitFrom := some s.tick }) ∧
        s.Replied u k c 0 [BitVec.ofNat 32 (s.fld (LOOP_RECAL.pend.on (c.p 0)))]) ∧
      (s.bayState (c.p 0) ≠ 5 → ∃ u, exec (.debugExit k) s = .next u ∧ u.bays = s.bays ∧ s.Replied u k c 5 [])) ∧
    (∀ locked refs, s.mayRun k 0x0501 c → c.p 0 < 8 →
      (s.bayScore (c.p 0) = 0 → ∃ u, exec (.requalify k locked refs) s = .next u ∧ (∃ vs, s.Replied u k c 0 vs) ∧ ∀ n, n < 5 →
        ((n ∉ locked ∨ (s.comb (c.p 0) n).state = 4) → (u.comb (c.p 0) n).state = 4) ∧
        (n ∈ locked → n < 4 → (s.comb (c.p 0) n).state ≠ 4 → (u.comb (c.p 0) n).state = 2 ∧ (u.comb (c.p 0) n).boost = 0)) ∧
      (s.bayScore (c.p 0) ≠ 0 → ∃ u, exec (.requalify k locked refs) s = .next u ∧ u.light = s.light ∧ s.Replied u k c 5 [])) ∧
    (∀ causes : BitVec 5, s.mayRun k 0x0701 c →
      (c.paired = false → ∃ u, exec (.guardClear k causes) s = .next u ∧ u.fld GUARD_STAT.flt = s.fld GUARD_STAT.flt ∧
        s.Replied u k c 9 []) ∧
      (c.paired = true → c.p 0 < 5 →
        (inMask (causes.toNat % 16) (c.p 0) = true ∨ c.p 0 = 4 ∨ s.bitOf GUARD_STAT.flt (c.p 0) = false) →
        ∃ u, exec (.guardClear k causes) s = .next u ∧ u.fld GUARD_STAT.flt = s.fld GUARD_STAT.flt ∧ ∃ vs, s.Replied u k c 5 vs) ∧
      (c.paired = true → c.p 0 < 4 → inMask (causes.toNat % 16) (c.p 0) = false → s.bitOf GUARD_STAT.flt (c.p 0) = true →
        ∃ u, exec (.guardClear k causes) s = .next u ∧ u.bitOf GUARD_STAT.flt (c.p 0) = false ∧ ∃ vs, s.Replied u k c 0 vs)) ∧
    (s.mayRun k 0x0702 c → c.p 0 < 5227 →
      (c.paired = true → (s.trimOut (c.p 0)).rb = true → ∃ u, exec (.trimRelease k) s = .next u ∧
        (u.trimOut (c.p 0)).rb = false ∧ (u.trimOut (c.p 0)).code = (s.trimOut (c.p 0)).code ∧ s.Replied u k c 0 []) ∧
      (c.paired = true → (s.trimOut (c.p 0)).rb = false → ∃ u, exec (.trimRelease k) s = .next u ∧ u.trims = s.trims ∧
        s.Replied u k c 5 []) ∧
      (c.paired = false → ∃ u, exec (.trimRelease k) s = .next u ∧ u.trims = s.trims ∧ s.Replied u k c 9 [])) ∧
    (s.mayRun k 0x0601 c → c.p 0 < 4 →
      (c.p 0 = s.pstate → ∃ u, exec (.powerState k) s = .next u ∧ u.pwr = s.pwr ∧ s.Replied u k c 0 [BitVec.ofNat 32 s.pstate]) ∧
      (c.p 0 ≠ s.pstate → s.pwr.wake.isSome = true → exec (.powerState k) s = .next s) ∧
      (c.p 0 ≠ s.pstate → s.pwr.wake = none →
        let reach := s.pstate = 0 ∨ (s.pstate = 2 ∧ c.p 0 = 3)
        (c.p 0 = 0 → ∃ u, exec (.powerState k) s = .next u ∧ s.Begun u k c ∧ u.pwr.wake = some ⟨s.pstate, 0, some c.no, s.tick, none⟩) ∧
        (c.p 0 ≠ 0 → reach → s.refusing (c.p 0) = none → ∃ u, exec (.powerState k) s = .next u ∧ s.Begun u k c ∧
          u.pwr.entry = some ⟨c.p 0, some c.no, s.tick + 1000 * s.fld PWR_ENT_TMO.ms⟩ ∧ u.pstate = s.pstate) ∧
        (∀ n, c.p 0 ≠ 0 → reach → s.refusing (c.p 0) = some n → ∃ u, exec (.powerState k) s = .next u ∧ u.pwr = s.pwr ∧
          u.fld PWR_STAT.blk = n ∧ s.Replied u k c 5 [BitVec.ofNat 32 s.pstate, BitVec.ofNat 32 n]) ∧
        (c.p 0 ≠ 0 → ¬ reach → ∃ u, exec (.powerState k) s = .next u ∧ u.pwr = s.pwr ∧
          s.Replied u k c 5 [BitVec.ofNat 32 s.pstate]))) ∧
    (∀ (type : Byte) (bytes : List Byte),
      (type = 0 → bytes.length ≤ 16384 → ∃ u, exec (.doeRequest type bytes false) s = .next u ∧
        u.link.doe = Config.spdmResponse 0 bytes [] [] ∧ u.sec = s.sec) ∧
      (type = 1 → bytes.length ≤ 16384 →
        let session := if bytes.getD 1 0 = 0x84 then some [] else s.sec.session
        (∀ key t, s.sec.akey = some key → session = some t → ∃ u, exec (.doeRequest type bytes false) s = .next u ∧
          u.link.doe = (s.spdm key t bytes).1 ∧ u.sec.session = some (s.spdm key t bytes).2 ∧ u.sec.akey = some key) ∧
        ((s.sec.akey = none ∨ session = none) → ∃ u, exec (.doeRequest type bytes false) s = .next u ∧
          u.link.doe = Config.spdmRestart bytes ∧ u.sec = s.sec)) ∧
      ((1 < type.toNat ∨ 16384 < bytes.length) → exec (.doeRequest type bytes false) s = .next s) ∧
      ∃ u, exec (.doeRequest type bytes true) s = .next u ∧ u.link.doe = [])

/-! ### Clocks (12) -/

/-- R384, R385, R386, R387, R392, R416, R335, R379, R402: CORE and LOOP switch to a source that runs: by the ramp while the old one runs
too, and forced, with a clock fault, when that has stopped; no other domain switches, and none to a source that stands. A PLL that unlocks
shows so. The reference PLL holds over when its input stops; when that ends the reference is lost: no bay is in service, SYM, PEWTER and MEM
stand, and CORE and LOOP leave the reference PLL, until a reference returns and the bays with it. In holdover the module elects again: it
follows its own oscillator if it elects itself, else the port of the node it elects. A correction moves its item by one step toward the
value given, and nothing on a broken sensor. -/
def Obligations.SourcesAndReference : Prop :=
  ∀ (s : State),
    (∀ (d : DomainId) (src : BitVec 2),
      let ready := switches d src.toNat = true ∧ (s.dom d).run = true ∧ (s.dom d).src ≠ src ∧ s.sourceRuns src.toNat = true
      let old := s.sourceRuns (s.dom d).src.toNat
      (ready → old = true → ∃ u, exec (.sourceSwitch d src) s = .next u ∧ (u.dom d).src = src ∧ (u.dom d).run = true ∧
        (u.dom d).div = 0 ∧ u.flag CLK_SW_LAST.forced = false ∧ u.fld CLK_SW_LAST.dom = d) ∧
      (¬ (ready ∧ old = true) → exec (.sourceSwitch d src) s = .next s) ∧
      (ready → old = false → ∃ u, exec (.stoppedClock d src) s = .next u ∧ (u.dom d).src = src ∧ (u.dom d).run = true ∧
        u.flag CLK_SW_LAST.forced = true ∧ (u.dom d).flt = if (s.dom d).flt = 255 then 255 else (s.dom d).flt + 1) ∧
      (¬ (ready ∧ old = false) → exec (.stoppedClock d src) s = .next s)) ∧
    (∀ d : DomainId,
      let locked := hasPll d = true ∧ (s.dom d).run = true ∧ (s.dom d).pll = true
      (locked → ∃ u, exec (.pllUnlock d) s = .next u ∧ (u.dom d).pll = false) ∧ (¬ locked → exec (.pllUnlock d) s = .next s)) ∧
    (s.fld CLK_REF_STAT.sel ≠ 0 → s.flag CLK_REF_STAT.hold = false → ∃ u, exec .referenceInputStopped s = .next u ∧
      u.flag CLK_REF_STAT.hold = true ∧ u.flag CLK_REF_STAT.lock = false ∧ u.clk.holdTick = s.tick) ∧
    ((s.fld CLK_REF_STAT.sel = 0 ∨ s.flag CLK_REF_STAT.hold = true) → exec .referenceInputStopped s = .next s) ∧
    (s.refGone = true → ∃ u, exec .referenceLost s = .next u ∧ u.flag CLK_REF_STAT.lost = true ∧
      u.flag CLK_REF_STAT.hold = false ∧ (∀ b, b < 8 → u.bayState b = 0 ∨ u.bayState b = 6) ∧
      (∀ d ∈ [0, 2, 3], (u.dom d).run = false) ∧
      ∀ d ∈ [1, 5], (s.dom d).src = 0 → (u.dom d).src = 1 ∧ (u.dom d).run = true) ∧
    (s.refGone = false → exec .referenceLost s = .next s) ∧
    (∀ rec (p : PortId),
      (s.flag CLK_REF_STAT.lost = true → ∃ u, exec (.referenceReturn rec p) s = .next u ∧
        u.flag CLK_REF_STAT.lost = false ∧ u.flag CLK_REF_STAT.lock = true ∧ u.fld CLK_REF_STAT.sel = (if rec then 1 else 2) ∧
        (∀ d ∈ [0, 1, 2, 3, 5], (u.dom d).run = true ∧ (u.dom d).src = 0) ∧
        ∀ b, b < 8 → (s.bayState b = 0 → u.bayState b = if s.bayScore b = 0 then 1 else 2) ∧
          (s.bayState b ≠ 0 → u.bayState b = s.bayState b)) ∧
      (s.flag CLK_REF_STAT.lost = false → exec (.referenceReturn rec p) s = .next s)) ∧
    (let elects := s.flag CLK_REF_STAT.hold = true ∧ s.flag CLK_REF_STAT.lost = false ∧
       (s.elected.isSome = true ∨ s.clk.holdTick + 100000 ≤ s.tick)
     (elects → s.takesPart = true → s.elected = some s.ownId → s.clk.xoOn.isSome = true →
       ∃ u, exec .referenceReelection s = .next u ∧ u.flag CLK_REF_STAT.hold = false ∧ u.fld CLK_REF_STAT.sel = 2 ∧
         u.flag FAB_REF.lock = true ∧ u.fld FAB_REF.rid = s.ownId.toNat) ∧
     (∀ r p h, elects → s.takesPart = true → s.elected = some r → r ≠ s.ownId → s.bestPort r = some (p, h) → h ≤ 3 →
       ∃ u, exec .referenceReelection s = .next u ∧ u.flag CLK_REF_STAT.hold = false ∧ u.fld CLK_REF_STAT.sel = 1 ∧
         u.fld CLK_REF_STAT.port = p % 16 ∧ u.flag FAB_REF.lock = true ∧ u.fld FAB_REF.rid = r.toNat) ∧
     (¬ elects → exec .referenceReelection s = .next s)) ∧
    (∀ v : BitVec 16,
      (∀ i, ∃ u, exec (.temperatureCorrection i v true) s = .next u ∧ u.clk.corr = s.clk.corr ∧
        u.fld CLK_CORR.xo_ofs = s.fld CLK_CORR.xo_ofs) ∧
      (∃ u, exec (.temperatureCorrection .xo v false) s = .next u ∧ u.clk.corr = s.clk.corr ∧
        signed 16 (u.fld CLK_CORR.xo_ofs) = stepTo (signed 16 (s.fld CLK_CORR.xo_ofs)) v.toInt) ∧
      ∀ i n, (i, n) ∈ [(CorrItem.rc, 0), (.readback, 1)] ∨ (∃ t : TileId, i = .adc t ∧ n = 2 + t.val) →
        ∃ u, exec (.temperatureCorrection i v false) s = .next u ∧ u.fld CLK_CORR.xo_ofs = s.fld CLK_CORR.xo_ofs ∧
          Tab.get dZero u.clk.corr n = stepTo (Tab.get dZero s.clk.corr n) v.toInt ∧
          ∀ m, m ≠ n → Tab.get dZero u.clk.corr m = Tab.get dZero s.clk.corr m)

/-- R388, R389, R391, R393: the gate of an idle block of a running domain closes unless it is held open; the gates can be held open only
while no sequence runs; a crossing with one side reset is closed and counted, the groups of a port on either side go down in the receive
direction, and it opens once both sides run, not before; a domain reset relocks a PLL, and of a port retrains its groups. -/
def Obligations.GatesCrossingsAndDomains : Prop :=
  ∀ (s : State),
    (∀ (d : DomainId) (share : Byte),
      (s.gateHeld d = false → (s.dom d).run = true → ∃ u, exec (.gateClose d share) s = .next u ∧ (u.dom d).share = share ∧
        (u.dom d).run = true) ∧
      ((s.gateHeld d = true ∨ (s.dom d).run = false) → exec (.gateClose d share) s = .next s)) ∧
    (∀ v : Word,
      ((∀ b, b < 8 → (s.bay b).anyRun = false) → ∃ u, exec (.gateDisable v) s = .next u ∧
        u.fld CLK_GATE_DIS.dom = v.toNat % 64 ∧ u.flag CLK_GATE_DIS.fab = v.getLsbD 7) ∧
      ((∃ b, b < 8 ∧ (s.bay b).anyRun = true) → exec (.gateDisable v) s = .next s)) ∧
    (∀ r t : DomainId,
      (r ≠ t → (r.val, t.val) ∉ s.clk.closed → ∃ u, exec (.crossingReset r t) s = .next u ∧
        u.clk.closed = s.clk.closed ++ [(r.val, t.val)] ∧ u.fld CLK_XRST.rdom = r ∧ u.fld CLK_XRST.sdom = t ∧
        u.fld CLK_XRST.count = min (s.fld CLK_XRST.count + 1) 65535 ∧
        ∀ d ∈ [r.val, t.val], 7 ≤ d → ∀ g, g < 4 → (s.group (d - 7) g).state ≠ 0 → (u.group (d - 7) g).state = 3) ∧
      ((r = t ∨ (r.val, t.val) ∈ s.clk.closed) → exec (.crossingReset r t) s = .next s) ∧
      ((s.dom r).run = true → (s.dom t).run = true → ∃ u, exec (.crossingOpen r t) s = .next u ∧
        (r.val, t.val) ∉ u.clk.closed ∧ ∀ p, p ≠ (r.val, t.val) → (p ∈ u.clk.closed ↔ p ∈ s.clk.closed)) ∧
      (((s.dom r).run = false ∨ (s.dom t).run = false) → exec (.crossingOpen r t) s = .next s)) ∧
    (∀ d : DomainId, ∃ u, exec (.domainReset d) s = .next u ∧
      (hasPll d = true → (s.dom d).run = true → (u.dom d).pll = true) ∧
      (7 ≤ d.val → ∀ g, g < 4 → (s.group (d.val - 7) g).state ≠ 0 → (u.group (d.val - 7) g).state = 4))

/-! ### Power states and power-up (13, 17) -/

/-- R474, R477: power-up goes on step by step as the condition of each is met; a rail or clock that fails before step 3 leaves the module
in A3 with the failure's code.
R407, R409, R399, R401, R402, R404: an entry is made when no block refuses and none delays, is abandoned on a refusal or at its time-out
with the block's number, and waits while a block delays; A1 is left when work arrives, and not before.
R405, R412 to R414: a wake ends in A0, and from A2 with the bays whose saved contents failed shown; a failed attempt is made again after
10 ms, and the third retry's failure is recorded. With nothing to do each command does nothing. -/
def Obligations.PowerStatesAreEnteredAndLeft : Prop :=
  ∀ (s : State),
    (let may := s.pstate ≠ 3 ∧ s.pins.modReset = true ∧ s.flag THM_TRIP.latched = false ∧ s.pwr.step < 8
     (may → s.stepReady s.pwr.step = true → ∃ u, exec (.powerUp .ok) s = .next u ∧ u.pwr.step = s.pwr.step + 1 ∧
        u.bitOf GLB_PUP.steps s.pwr.step = true) ∧
     (¬ (may ∧ s.stepReady s.pwr.step = true) → exec (.powerUp .ok) s = .next s) ∧
     (∀ code : Byte,
        (may → s.pwr.step < 3 → s.canFail code.toNat = true → ∃ u, exec (.powerUp (.fail code)) s = .next u ∧
          u.pstate = 3 ∧ u.fld PWR_WAKE.code = code.toNat) ∧
        (¬ (may ∧ s.pwr.step < 3 ∧ s.canFail code.toNat = true) → exec (.powerUp (.fail code)) s = .next s))) ∧
    (∀ e, s.pwr.entry = some e →
      (∀ n, s.refusing e.target = some n → ∃ u, exec .powerEntry s = .next u ∧ u.pwr.entry = none ∧ u.pstate = s.pstate ∧
        u.fld PWR_STAT.blk = n) ∧
      (s.refusing e.target = none → s.delaying.isSome = true → exec .powerEntry s = .next s) ∧
      (s.refusing e.target = none → s.delaying = none →
        (e.target = 1 → ∃ u, exec .powerEntry s = .next u ∧ u.pstate = 1 ∧ u.pwr.entry = none ∧ (u.dom 1).div = 1 ∧
          (u.dom 0).run = false ∧ (u.dom 2).run = false ∧ u.tiles = s.tiles) ∧
        (e.target = 2 → ∃ u, exec .powerEntry s = .next u ∧ u.pstate = 2 ∧ u.flag PWR_SAVE.valid = true ∧
          (∀ r ∈ [2, 3, 4, 5], (u.rail r).on = false) ∧ u.pwr.img.isSome = true) ∧
        (e.target = 3 → ∃ u, exec .powerEntry s = .next u ∧ u.pstate = 3 ∧ (∀ r, r < 12 → (u.rail r).on = false) ∧
          u.link.up = false)) ∧
      (∀ n, s.delaying = some n →
        (e.due ≤ s.tick → ∃ u, exec .entryTimeout s = .next u ∧ u.pwr.entry = none ∧ u.fld PWR_STAT.blk = n ∧
          u.pstate = s.pstate) ∧
        (s.tick < e.due → exec .entryTimeout s = .next s)) ∧
      (s.delaying = none → exec .entryTimeout s = .next s)) ∧
    (s.pwr.entry = none → exec .powerEntry s = .next s ∧ exec .entryTimeout s = .next s) ∧
    (let leaves := s.pstate = 1 ∧ s.pwr.wake = none ∧ s.workArrived = true
     (leaves → ∃ u, exec .a1Exit s = .next u ∧ u.pstate = 0 ∧ (u.dom 1).div = 0) ∧
     (¬ leaves → exec .a1Exit s = .next s)) ∧
    (∀ w, s.pwr.wake = some w →
      (∀ ok (bad : BitVec 8), w.failed = none → ∃ u, exec (.wake ok bad) s = .next u ∧ u.pstate = 0 ∧ u.pwr.wake = none ∧
        (w.src = 1 → u.fld PWR_WAKE.code = 0 ∧ u.tiles = s.tiles) ∧
        (w.src = 2 → u.flag PWR_SAVE.valid = false ∧ (ok = true → bad = 0 → s.pwr.imgBad = false → u.fld PWR_WAKE.code = 0) ∧
          (ok = false ∨ s.pwr.imgBad = true → u.fld PWR_WAKE.code = 0x40) ∧
          ∀ b, b < 8 → u.bitOf PWR_SAVE.bfail b = (!ok || s.pwr.imgBad || bad.getLsbD b)) ∧
        (w.src = 3 → u.pwr.step = 3 ∧ u.fld PWR_WAKE.code = 0)) ∧
      (∀ code : Byte,
        (w.failed = none → s.canFail code.toNat = true →
          (w.retries < 3 → ∃ u, exec (.wakeFailure code) s = .next u ∧ u.pwr.wake = some { w with failed := some s.tick } ∧
            ∀ r, codeRail code.toNat = some r →
              (u.rail r).fails = if (s.rail r).fails = 255 then 255 else (s.rail r).fails + 1) ∧
          (3 ≤ w.retries → ∃ u, exec (.wakeFailure code) s = .next u ∧ u.pwr.wake = none ∧ u.fld PWR_WAKE.code = code.toNat ∧
            u.fld PWR_WAKE.retries = 3)) ∧
        ((w.failed.isSome = true ∨ s.canFail code.toNat = false) → exec (.wakeFailure code) s = .next s)) ∧
      (∀ t, w.failed = some t →
        (∀ ok bad, exec (.wake ok bad) s = .next s) ∧
        (t + 10000 ≤ s.tick → ∃ u, exec .wakeRetry s = .next u ∧
          u.pwr.wake = some { w with failed := none, retries := w.retries + 1 }) ∧
        (s.tick < t + 10000 → exec .wakeRetry s = .next s)) ∧
      (w.failed = none → exec .wakeRetry s = .next s)) ∧
    (s.pwr.wake = none → exec .wakeRetry s = .next s ∧ (∀ ok bad, exec (.wake ok bad) s = .next s) ∧
      ∀ code, exec (.wakeFailure code) s = .next s)

/-! ### Temperature and stored pairs (14, 15) -/

/-- R421 to R423, R425: a reading within range is kept, and at or above the throttle threshold of its class it is a cause; one out of range,
or an open sensor, breaks the sensor, a device of the module that does not answer at its third missed readout in succession; a broken
sensor stays so. Fast sampling ends after 10 ms without cause. R429: a rate at the act limit sets the excursion flag of every bay that the
sensor governs. R431: two samples in succession at or above the trip threshold trip the module, with every rail off.
R426 to R429: the level of a bay rises by one each 100 µs with a cause in force, up to 8 and its floor, or up to 15 once it has held there too
long; it falls by one each 1 ms without one; 1 ms at the floor breaks the assured claims; the excursion flag clears after 2 ms of calm.
R398, R425: module input power above 1,400 W is a cause until below 1,360 W; in A3 it is not read. -/
def Obligations.ThermalResponses : Prop :=
  ∀ (s : State),
    (∀ (n : SensorId) (r : BitVec 16), (s.sensor n).broken = false →
      (-2560 ≤ r.toInt → r.toInt ≤ 9600 → ∃ u, exec (.thermalSample n (some r)) s = .next u ∧ (u.sensor n).temp = r ∧
        (u.sensor n).broken = false ∧
        (64 * (s.throttleAt (sensorClass n) : Int) ≤ r.toInt → (u.sensor n).state = 2) ∧
        (sensorClass n ≠ 3 → 64 * (s.fld THM_RATE.act : Int) ≤ 5 * (s.sensor n).change s.tick r.toInt →
          ∀ b ∈ governed n, (u.engine b).exc = true)) ∧
      ((r.toInt < -2560 ∨ 9600 < r.toInt) → ∃ u, exec (.thermalSample n (some r)) s = .next u ∧ (u.sensor n).broken = true ∧
        (u.sensor n).state = 2 ∧ (u.sensor n).temp = (s.sensor n).temp) ∧
      ((sensorClass n ≠ 3 ∨ 2 ≤ (s.sensor n).misses) → ∃ u, exec (.thermalSample n none) s = .next u ∧
        (u.sensor n).broken = true) ∧
      (sensorClass n = 3 → (s.sensor n).misses < 2 → ∃ u, exec (.thermalSample n none) s = .next u ∧
        (u.sensor n).broken = false ∧ (u.sensor n).misses = (s.sensor n).misses + 1)) ∧
    (∀ n : SensorId,
      ((s.sensor n).broken = true → ∀ r, exec (.thermalSample n (some r)) s = .next s) ∧
      ((s.sensor n).fast = true → (s.sensor n).fastTick + 10000 ≤ s.tick → ∃ u, exec (.fastSamplingEnd n) s = .next u ∧
        (u.sensor n).fast = false) ∧
      (((s.sensor n).fast = false ∨ s.tick < (s.sensor n).fastTick + 10000) → exec (.fastSamplingEnd n) s = .next s) ∧
      (2 ≤ (s.sensor n).above → s.flag THM_TRIP.latched = false → ∃ u, exec (.trip n) s = .next u ∧
        u.flag THM_TRIP.latched = true ∧ u.fld THM_TRIP.sensor = n ∧ u.fld THM_TRIP.temp = (s.sensor n).temp.toNat ∧
        u.pins.trip = false ∧ u.pstate = 3 ∧ ∀ r, r < 12 → (u.rail r).on = false) ∧
      (((s.sensor n).above < 2 ∨ s.flag THM_TRIP.latched = true) → exec (.trip n) s = .next s)) ∧
    (∀ b : BayId,
      let rises := s.bayCause b = true ∧ (s.level b < if (s.bay b).floorFault then 15 else s.levelCap b) ∧
        (s.bay b).levelTick + 100 ≤ s.tick
      let falls := s.bayCause b = false ∧ (s.engine b).exc = false ∧ 0 < s.level b ∧ (s.bay b).levelTick + 1000 ≤ s.tick
      let calm := ∀ n, n < 632 → b.val ∈ governed n → ∀ t, (s.sensor n).warnTick = some t → t + 2000 ≤ s.tick
      (rises → ∃ u, exec (.throttleStepUp b) s = .next u ∧ u.level b = s.level b + 1 ∧ (u.bay b).levelTick = s.tick) ∧
      (¬ rises → exec (.throttleStepUp b) s = .next s) ∧
      (falls → ∃ u, exec (.throttleStepDown b) s = .next u ∧ u.level b = s.level b - 1 ∧ (u.bay b).levelTick = s.tick) ∧
      (¬ falls → exec (.throttleStepDown b) s = .next s) ∧
      (∀ r t, (s.bay b).assured = some r → (s.bay b).floorTick = some t →
        let below := s.bayCause b = true ∧ (s.bay b).floorFault = false ∧ t + 1000 ≤ s.tick
        (below → ∃ u, exec (.belowFloor b) s = .next u ∧ (u.bay b).floorFault = true ∧ u.fld THM_LAST.kind = 6 ∧
          ∀ x ∈ (s.score r.score).claims, x.2.seq = r.index → ((s.score r.score).promise x.1).state ≠ 0 →
            ((u.score r.score).promise x.1).state = 3) ∧
        (¬ below → exec (.belowFloor b) s = .next s)) ∧
      (((s.bay b).assured = none ∨ (s.bay b).floorTick = none) → exec (.belowFloor b) s = .next s) ∧
      ((s.engine b).exc = true → calm → ∃ u, exec (.excursionClear b) s = .next u ∧ (u.engine b).exc = false ∧
        (u.bay b).levelTick = if s.bayCause b then (s.bay b).levelTick else s.tick) ∧
      (((s.engine b).exc = false ∨ ¬ calm) → exec (.excursionClear b) s = .next s)) ∧
    (∀ watts : List Nat,
      (s.pstate ≠ 3 → ∃ u, exec (.pmbusPowerRead watts) s = .next u ∧ u.fld PWR_INPUT.watts = min (watts.foldl (· + ·) 0) 65535 ∧
        (1400 < watts.foldl (· + ·) 0 → u.flag THM_STAT.pwr = true) ∧
        (watts.foldl (· + ·) 0 < 1360 → u.flag THM_STAT.pwr = false) ∧
        (1360 ≤ watts.foldl (· + ·) 0 → watts.foldl (· + ·) 0 ≤ 1400 → u.flag THM_STAT.pwr = s.flag THM_STAT.pwr)) ∧
      (s.pstate = 3 → exec (.pmbusPowerRead watts) s = .next s))

/-- R458: a stored pair in agreement changes nothing; one in disagreement acts as its kind gives: the more restrictive reading of a limit, no
window of the tile, the loop in HOLD at rest, the table invalid, the lower power limit, the save image refused. A limit or loop that does not
exist changes nothing. -/
def Obligations.StoredPairsAreChecked : Prop :=
  ∀ (s : State) (v c : Word),
    (∀ p, c = ~~~v → exec (.storedPairCheck p v c) s = .next s) ∧
    (c ≠ ~~~v →
      (∀ i : BitVec 7,
        (guardIndex i.toNat = true → ∃ u, exec (.storedPairCheck (.guardLimit i) v c) s = .next u ∧
          u.guardLim i.toNat = if 16 ≤ i.toNat then 0 else min v.toNat (~~~c).toNat) ∧
        (guardIndex i.toNat = false → exec (.storedPairCheck (.guardLimit i) v c) s = .next s)) ∧
      (∀ t, ∃ u, exec (.storedPairCheck (.tileScale t) v c) s = .next u ∧ (u.tile t).scaleBad = true) ∧
      (∀ (e : EngineId) (l : SlotId),
        (slotUsed e l = true →
          (∃ u, exec (.storedPairCheck (.loopSetpt e l) v c) s = .next u ∧ (u.loopOf e l).mode = .hold ∧ (u.loopOf e l).v = 0 ∧
            (u.loopOf e l).pairBad = true) ∧
          ∃ u, exec (.storedPairCheck (.loopProf e l) v c) s = .next u ∧ (u.loopOf e l).mode = .hold ∧ (u.loopOf e l).v = 0 ∧
            (u.loopOf e l).pairBad = true) ∧
        (slotUsed e l = false → exec (.storedPairCheck (.loopSetpt e l) v c) s = .next s ∧
          exec (.storedPairCheck (.loopProf e l) v c) s = .next s)) ∧
      (∀ t z, ∃ u, exec (.storedPairCheck (.tref t z) v c) s = .next u ∧ (u.tile t).tblOk = false) ∧
      (∃ u, exec (.storedPairCheck .admPlim v c) s = .next u ∧
        u.fld GLB_ADM_PLIM.watts = min v.toNat (~~~c).toNat % 2048) ∧
      ∃ u, exec (.storedPairCheck .saveHeader v c) s = .next u ∧ u.pwr.imgBad = true)

/-! ### Firmware (15) -/

/-- R436, R442, R443, R440: a verified main image of the slot tried first, or of the other slot if it is not older than the security version
counter, or the recovery image, runs and is measured, and the alias key is derived from the first three measurement registers; nothing else
runs. R394: the watchdog restarts firmware, and an activation under way falls back to the other slot; a firmware reset leaves no alias key
and no session. R441: a staged image is committed to a slot that does not run only when it verifies and is not older than the counter; an
activation takes effect at the firmware reset that follows it. R442: an image confirmed after 10 s raises the counter to its security
version. -/
def Obligations.FirmwareIsVerified : Prop :=
  ∀ (s : State),
    (∀ (slot : BitVec 2) (i : Image) (loader : List Byte),
      let first := s.sec.pendingBoot.getD (BitVec.ofNat 2 (s.fld SEC_BOOT.next))
      let starts := s.fld SEC_BOOT.run = 3 ∧ (s.dom 1).run = true ∧ verified i = true ∧
        ((slot = 2 ∧ i.kind = 3) ∨ (slot.toNat < 2 ∧ i.kind = 2 ∧ first ≠ 2 ∧ (slot = first ∨ s.svnCounter ≤ i.svn)))
      (starts → ∃ u, exec (.mainImageHandover slot i loader) s = .next u ∧ u.fld SEC_BOOT.run = slot.toNat ∧
        (u.flag SEC_BOOT.rec = true ↔ slot = 2) ∧ (slot ≠ 2 → u.flag SEC_BOOT.ver = true) ∧ u.sec.ver = i.ver ∧
        u.sec.pendingBoot = none ∧ u.sec.session = none ∧
        Tab.get dZero u.sec.exts 3 = min (Tab.get dZero s.sec.exts 3 + 1) 65535 ∧
        ∃ a, u.sec.akey = some a ∧
          a.key = Config.aliasKey Config.deviceSecret [u.measurement 1, u.measurement 2, u.measurement 3]) ∧
      (¬ starts → exec (.mainImageHandover slot i loader) s = .next s)) ∧
    (s.fld SEC_BOOT.run ≠ 3 → ∃ u, exec .watchdogReset s = .next u ∧ u.fld SEC_BOOT.run = 3 ∧ u.flag CLK_RST_CAUSE.wdog = true ∧
      u.sec.pendingBoot.isSome = true ∧ u.sec.akey = none ∧ u.sec.session = none ∧
      (s.flag SEC_BOOT.pend = true → u.flag SEC_BOOT.pend = false ∧ u.fld SEC_BOOT.next = 1 - s.fld SEC_BOOT.run)) ∧
    (s.fld SEC_BOOT.run = 3 → ∃ u, exec .watchdogReset s = .next u ∧ u = { s with link := u.link } ∧ u.link.heart = true) ∧
    (let due := s.flag SEC_BOOT.pend = true ∧ s.fld SEC_BOOT.run < 2 ∧ s.sec.runTick + 10000000 ≤ s.tick
     (due → ∃ u, exec .activationConfirm s = .next u ∧ u.flag SEC_BOOT.pend = false ∧
        ∀ i, (s.slot (s.fld SEC_BOOT.run)).main = some i → u.svnCounter = max s.svnCounter i.svn) ∧
     (¬ due → exec .activationConfirm s = .next s)) ∧
    (∀ (k : Nat) (c : Taken),
      (∀ img : Image, s.mayRun k 0x0801 c →
        let fits := 0 < c.p 1 ∧ c.p 1 ≤ 131072 ∧ imageHeader + img.blen ≤ 64 * c.p 1 ∧ s.staging (c.p 0) (64 * c.p 1) = true
        (fits → ∃ u, exec (.fwStage k img) s = .next u ∧ u.sec.staging = some img ∧ u.sec.slots = s.sec.slots ∧
          u.stage = s.stage ∧ s.Replied u k c 0 []) ∧
        (¬ fits → ∃ u, exec (.fwStage k img) s = .next u ∧ u.sec = s.sec ∧ s.Replied u k c 3 [])) ∧
      (s.mayRun k 0x0802 c →
        (∀ i, c.p 0 < 256 → s.sec.staging = some i →
          (s.commitRefusal i (c.p 0) = none → ∃ u, exec (.fwCommit k) s = .next u ∧ u.sec.staging = none ∧
            (if i.kind = 1 then (u.slot (c.p 0)).loader else (u.slot (c.p 0)).main) = some ⟨i.ver, i.svn, i.digest⟩ ∧
            s.Replied u k c 0 [i.ver]) ∧
          (s.commitRefusal i (c.p 0) ≠ none → ∃ u, exec (.fwCommit k) s = .next u ∧ u.sec.staging = none ∧
            u.sec.slots = s.sec.slots ∧ s.Replied u k c 3 [])) ∧
        (c.p 0 < 256 → s.sec.staging = none → ∃ u, exec (.fwCommit k) s = .next u ∧ u.sec = s.sec ∧ s.Replied u k c 5 []) ∧
        (256 ≤ c.p 0 → ∃ u, exec (.fwCommit k) s = .next u ∧ u.sec = s.sec ∧ s.Replied u k c 3 [])) ∧
      (s.mayRun k 0x0803 c →
        let takes := c.p 0 < 2 ∧ c.p 0 ≠ s.fld SEC_BOOT.run ∧ (s.slot (c.p 0)).main.isSome = true
        (takes → ∃ u, exec (.fwActivate k) s = .next u ∧ u.fld SEC_BOOT.next = c.p 0 ∧ u.flag SEC_BOOT.pend = true ∧
          u.fld SEC_BOOT.run = 3 ∧ u.sec.akey = none ∧ s.Replied u k c 0 []) ∧
        (¬ takes → ∃ u, exec (.fwActivate k) s = .next u ∧ u.regs = s.regs ∧ s.Replied u k c 3 [])))

/-! ### Sideband, pins, links and registers (00, 11, 17, 18) -/

/-- R370, R372, R374, R375, R377, R484: a sideband read returns its bytes and changes nothing but what the link side holds; in A3 the
temperature and power fields read 0x8000 and a register that Bronze does not hold reads all ones; a register whose read latches another one
does so. While a trip is latched the temperatures and powers are not given. R372: a write with a wrong PEC is counted and discarded. R412: a
match on the wake address in A3 starts a wake, unless one is under way. Without its supply the target does not answer. -/
def Obligations.SidebandReads : Prop :=
  ∀ (s : State),
    (s.pins.vbrz = true →
      (∃ u, exec .status s = .next u ∧ u = { s with link := u.link } ∧ u.link.alerted = s.alertBits ∧
        u.link.sb = [BitVec.ofNat 8 (if s.pwr.wake.isSome then 4 else s.pstate), BitVec.ofNat 8 (s.fld PWR_WAKE.code),
          BitVec.ofNat 8 s.statusBays, s.alertBits, BitVec.ofNat 8 s.statusLink, s.link.pec, 0, 0]) ∧
      (∃ u, exec .ident s = .next u ∧ u = { s with link := u.link } ∧ u.link.sb = [GLB_ID.part.off, GLB_STRAP.compat.off,
        FAB_PID.id.off, FAB_START.trn.off].flatMap fun o => leBytes 4 (s.readReg o).toNat) ∧
      (∃ u, exec .serial s = .next u ∧ u = { s with link := u.link } ∧ u.link.sb = leBytes 8 Config.fuseSerial.toNat) ∧
      (∃ u, exec .faultRead s = .next u ∧ u = { s with link := u.link } ∧
        u.link.sb = leBytes 32 (s.faults.last.getD 0).toNat) ∧
      (∃ u, exec .nonceRead s = .next u ∧ u = { s with link := u.link } ∧ u.link.sb = leBytes 4 s.link.nonce.toNat) ∧
      (s.flag THM_TRIP.latched = false →
        (∃ u, exec .temps s = .next u ∧ u = { s with link := u.link } ∧
          u.link.sb = if s.pstate = 3 then [0, 0x80, 0, 0x80, 0, 0x80, 0, 0x80] else
            ([(0, 512), (512, 96), (608, 8), (616, 16)].flatMap fun c => leBytes 2 (unsigned 16 (s.hottest c.1 c.2)))) ∧
        ∃ u, exec .power s = .next u ∧ u = { s with link := u.link } ∧
          u.link.sb = if s.pstate = 3 then [0, 0x80, 0, 0x80] else
            leBytes 2 (s.fld PWR_INPUT.watts) ++ leBytes 2 (s.fld GLB_ADM_PLIM.watts)) ∧
      (∀ (v : Word) (pec : Option Bool),
        (v.toNat % 4 = 0 → pec ≠ some false → ∃ u, exec (.regAddr v pec) s = .next u ∧ u = { s with link := u.link } ∧
          u.link.regAddr = v) ∧
        (v.toNat % 4 ≠ 0 → pec ≠ some false → exec (.regAddr v pec) s = .next s) ∧
        ∃ u, exec (.regAddr v (some false)) s = .next u ∧ u = { s with link := u.link } ∧ u.link.regAddr = s.link.regAddr ∧
          u.link.pec = if s.link.pec = 255 then 255 else s.link.pec + 1) ∧
      (let o := s.link.regAddr.toNat
       let v := leBytes 4 (s.readReg o).toNat
       (s.pstate = 3 → o ∉ bronzeReads → ∃ u, exec .regData s = .next u ∧ u = { s with link := u.link } ∧
          u.link.sb = [255, 255, 255, 255]) ∧
       ((s.pstate ≠ 3 ∨ o ∈ bronzeReads) →
         (o = FAB_PT_SER_LO.ser_lo.off → ∃ u x, exec .regData s = .next u ∧ exec .serialRead s = .next x ∧
           u = { x with link := u.link } ∧ u.link.sb = v) ∧
         (∀ t : TileId, o = 0x200058 + 0x10000 * t → ∃ u x, exec .regData s = .next u ∧ exec (.pewterStateRead t) s = .next x ∧
           u = { x with link := u.link } ∧ u.link.sb = v) ∧
         (o ≠ FAB_PT_SER_LO.ser_lo.off → (∀ t : TileId, o ≠ 0x200058 + 0x10000 * t) → ∃ u, exec .regData s = .next u ∧
           u = { s with link := u.link } ∧ u.link.sb = v)))) ∧
    (s.flag THM_TRIP.latched = true → exec .temps s = .next s ∧ exec .power s = .next s) ∧
    (let wakes := s.pins.vbrz = true ∧ s.pstate = 3 ∧ s.flag THM_TRIP.latched = false
     (wakes → ∃ u, exec .wakeMatch s = .next u ∧ u.link.sb = [BitVec.ofNat 8 (s.fld PWR_WAKE.code)] ∧
       (s.pwr.wake = none → u.pwr.wake = some ⟨3, 0, none, s.tick, none⟩) ∧ (s.pwr.wake.isSome = true → u.pwr = s.pwr)) ∧
     (¬ wakes → exec .wakeMatch s = .next s)) ∧
    (s.pins.vbrz = false → (∀ c ∈ [Instr.status, .ident, .serial, .faultRead, .nonceRead, .temps, .power, .regData, .nonceChange],
      exec c s = .next s) ∧ ∀ v pec, exec (.regAddr v pec) s = .next s)

/-- R376, R355, R417, R393, R443, R415, R432: a rescue write with the current nonce, the right complement, zeros and PEC acts, and the nonce
changes; with another of these it changes nothing but the nonce; without a PEC nothing at all, and with a wrong one it is counted. While a
trip is latched only the flush and the module reset act. Without its supply the target does nothing. -/
def Obligations.RescueNeedsTheNonce : Prop :=
  ∀ (s : State) (r : Rescue),
    let writes := [(Instr.rescueFlush r, (0xFE : Byte)), (.rescueForceA3 r, 0xFD), (.rescueModuleReset r, 0xFC),
      (.rescueRecoveryImage r, 0xFB), (.rescueRetryWake r, 0xFA)]
    (s.pins.vbrz = false → ∀ p ∈ writes, exec p.1 s = .next s) ∧
    (s.pins.vbrz = true →
      (∃ u, exec .nonceChange s = .next u ∧ u = { s with link := u.link, free := s.free + 1 } ∧
        u.link.nonce = Config.nonce s.free) ∧
      (∀ p ∈ writes,
        (r.pec = some true → ¬ (r.cmpl = p.2 ∧ r.zeros = 0 ∧ r.nonce = s.link.nonce) → exec p.1 s = exec .nonceChange s) ∧
        (r.pec = none → exec p.1 s = .next s) ∧
        (r.pec = some false → exec p.1 s =
          .next { s with link := { s.link with pec := if s.link.pec = 255 then 255 else s.link.pec + 1 } })) ∧
      (r.pec = some true → r.zeros = 0 → r.nonce = s.link.nonce →
        (r.cmpl = 0xFE → ∃ u, exec (.rescueFlush r) s = .next u ∧ u.cmd.window = [] ∧ u.flag CMD_STAT.stall = false) ∧
        (r.cmpl = 0xFD → s.flag THM_TRIP.latched = false →
          ((s.pstate ≠ 3 ∨ s.flag PWR_STAT.mgmt = true) → ∃ u, exec (.rescueForceA3 r) s = .next u ∧ u.pstate = 3 ∧
            ∀ n, n < 12 → (u.rail n).on = false) ∧
          (s.pstate = 3 → s.flag PWR_STAT.mgmt = false → ∃ u, exec (.rescueForceA3 r) s = .next u ∧ u.pstate = 3 ∧
            u.pwr.wake = none ∧ u.pwr.rails = s.pwr.rails)) ∧
        (r.cmpl = 0xFC → ∃ u, exec (.rescueModuleReset r) s = .next u ∧ u.flag CLK_RST_CAUSE.resc = true ∧ u.scores.scores = [] ∧
          u.fld FAB_PID.id = s.fld FAB_PID.id ∧ ∀ a, 0x17000000 ≤ a → u.stageByte a = s.stageByte a) ∧
        (r.cmpl = 0xFB → s.flag THM_TRIP.latched = false →
          ((s.dom 1).run = true → ∃ u, exec (.rescueRecoveryImage r) s = .next u ∧ u.sec.pendingBoot = some 2 ∧
            u.fld SEC_BOOT.run = 3 ∧ u.sec.akey = none ∧ u.scores = s.scores ∧ u.engines = s.engines) ∧
          ((s.dom 1).run = false → exec (.rescueRecoveryImage r) s = exec .nonceChange s)) ∧
        (r.cmpl = 0xFA → s.flag THM_TRIP.latched = false → ∃ u, exec (.rescueRetryWake r) s = .next u ∧ u.fld PWR_WAKE.code = 0 ∧
          (s.fld PWR_WAKE.code ≠ 0 → s.pstate ≠ 0 → s.pwr.wake = none → u.pwr.wake = some ⟨s.pstate, 0, none, s.tick, none⟩) ∧
          ((s.fld PWR_WAKE.code = 0 ∨ s.pstate = 0 ∨ s.pwr.wake ≠ none) → u.pwr = s.pwr)) ∧
        (s.flag THM_TRIP.latched = true →
          (r.cmpl = 0xFD → exec (.rescueForceA3 r) s = exec .nonceChange s) ∧
          (r.cmpl = 0xFB → exec (.rescueRecoveryImage r) s = exec .nonceChange s) ∧
          (r.cmpl = 0xFA → exec (.rescueRetryWake r) s = exec .nonceChange s))))

/-- R393, R473, R326, R468, R480, R479: what each reset and supply event leaves. A module reset keeps stage banks 46 and 47, forces every
trim output and removes every score; power good samples the straps, once the standby supply is there and the pin was low; power-on keeps
nothing of them. R342, R346, R349, R476, R382: the link trains where power, clock and pin allow, a function reset empties the window and
lets the tiles and loops run on, an error is reported, configuration requests are answered after their time. A pin that stands already, or a
link that may not train, changes nothing. -/
def Obligations.PinsResetsAndLink : Prop :=
  ∀ (s : State),
    (s.pins.modReset = true → ∃ u, exec .modResetNAssert s = .next u ∧ u.pins.modReset = false ∧ u.flag CLK_RST_CAUSE.pin = true ∧
      u.scores.scores = [] ∧ u.pins.powForce = true ∧ (∀ a, 0x17000000 ≤ a → u.stageByte a = s.stageByte a) ∧
      (∀ a, a < 0x17000000 → u.stageByte a = 0)) ∧
    (s.pins.modReset = false → exec .modResetNAssert s = .next s) ∧
    (∀ compat (nid : BitVec 12),
      (s.pins.modReset = false → s.pins.vbrz = true → ∃ u, exec (.powerGood compat nid) s = .next u ∧
        u.pins.modReset = true ∧ u.tick = 0 ∧ u.flag THM_TRIP.latched = false ∧ u.flag GLB_STRAP.compat = compat ∧
        u.fld FAB_PID.id = nid.toNat ∧ (u.flag FAB_PID.asg = true ↔ nid ≠ 0 ∧ nid ≠ 0xFFF)) ∧
      ((s.pins.modReset = true ∨ s.pins.vbrz = false) → exec (.powerGood compat nid) s = .next s)) ∧
    (∀ sba : BitVec 3, ∃ u, exec (.powerOnReset sba) s = .next u ∧ u.fld GLB_PUP.sba = sba.toNat ∧ u.stage = ⟨[], [], [], [], []⟩ ∧
      u.gddr.bytes = [] ∧ u.scores.scores = [] ∧ u.sec.slots = s.sec.slots ∧ u.sec.svn = s.sec.svn ∧ u.pins.powForce = true) ∧
    (∃ u, exec .standbyLoss s = .next u ∧ u.pins.vbrz = false ∧ u.stage = ⟨[], [], [], [], []⟩) ∧
    (∃ u, exec .vretLoss s = .next u ∧ (∀ a, 0x17000000 ≤ a → u.stageByte a = 0) ∧
      (∀ a, a < 0x17000000 → u.stageByte a = s.stageByte a) ∧ u = { s with stage := u.stage }) ∧
    (s.pins.perst = true → ∃ u, exec .perstNAssert s = .next u ∧ u.pins.perst = false ∧ u.link.up = false ∧
      u.flag CLK_RST_CAUSE.perst = true ∧ u.cmd.window = [] ∧ u.tiles = s.tiles ∧ u.engines = s.engines ∧ u.gddr = s.gddr) ∧
    (s.pins.perst = false → exec .perstNAssert s = .next s) ∧
    (s.pins.perst = false → ∃ u, exec .perstNRelease s = .next u ∧ u.pins.perst = true ∧ u.link.perstTick = s.tick) ∧
    (s.pins.perst = true → exec .perstNRelease s = .next s) ∧
    (∀ width gen,
      (s.mayTrain = true →
        (∃ u, exec (.linkRetry true width gen) s = .next u ∧ u.link.up = true ∧ u.link.width = width ∧ u.link.gen = gen) ∧
        ∃ u, exec (.linkRetry false width gen) s = .next u ∧ u.link.up = false ∧ u.link.flit = false) ∧
      (s.mayTrain = false → ∀ flit, exec (.linkRetry flit width gen) s = .next s)) ∧
    (∃ u, exec .functionLevelReset s = .next u ∧ u.flag CLK_RST_CAUSE.flr = true ∧ u.cmd.window = [] ∧
      (∀ c ∈ u.cmd.taken, c.mute = true) ∧ u.tiles = s.tiles ∧ u.engines = s.engines ∧ u.gddr = s.gddr) ∧
    (∀ e, ∃ u, exec (.linkError e) s = .next u ∧ u.link.aer = s.link.aer + 1 ∧
      (e = .fatal → u.link.up = false ∧ u.cmd.window = []) ∧ (e = .unsupported → u.link.cpl = 1) ∧
      (∀ o n, e = .poisonedWindow o n → u.flag CMD_STAT.part = true ∧ u.cmd.window = s.cmd.window) ∧
      (e ∈ [.corrected, .unexpectedCompletion, .poisonedBar] → u = { s with link := u.link })) ∧
    (∃ u, exec .configurationRequest s = .next u ∧ u = { s with link := u.link } ∧
      u.link.cpl = if s.tick < max (s.link.perstTick + 100000) 120000 then 2 else 0) ∧
    (∃ u, exec (.pcieRefclkStable false) s = .next u ∧ u.link.up = false ∧ (u.dom 4).run = false) ∧
    (∃ u, exec (.pcieRefclkStable true) s = .next u ∧ (u.dom 4).run = (s.rail 11).on ∧ u.link.up = s.link.up)

/-- R10, R11, R13, R485: a value word arms and changes nothing else; the complement word commits the armed value if it is the complement of
it (the limit up to 1,400 W, a scale word, the target or the profile limits of the selected loop); otherwise the armed value is discarded,
the active value stays and a paired-word fault is recorded. Reads give the active value and its complement. A register that takes no
software writes ignores both words. -/
def Obligations.PairedWordsNeedBothWrites : Prop :=
  ∀ (s : State) (off : BitVec 25), isPaired off.toNat = true →
    s.readReg (off.toNat + 4) = ~~~(s.readReg off.toNat) ∧
    (off = 0x58 → bits (s.readReg off.toNat).toNat 10 0 = s.fld GLB_ADM_PLIM.watts) ∧
    (∀ t : TileId, off.toNat = 0x200030 + 0x10000 * t → s.readReg off.toNat = s.reg off.toNat) ∧
    (∀ e : EngineId, let L := s.loopOf e (s.fld (LOOP_SEL.loop.on e))
      (off.toNat = 0x40000C + 0x10000 * e →
        bits (s.readReg off.toNat).toNat 23 0 = (if L.mode = .manual then L.mtgt else L.target).toNat) ∧
      (off.toNat = 0x400014 + 0x10000 * e → s.readReg off.toNat = L.prof)) ∧
    (s.pairTakes off.toNat = true → ∀ v c : Word,
      exec (.pairedValueWrite off v) s = .next { s with armed := Tab.set dNone s.armed off.toNat (some v) } ∧
      (s.armedAt off.toNat = some (~~~c) → ∃ u, exec (.pairedComplementWrite (off + 4) c) s = .next u ∧
        u.armedAt off.toNat = none ∧
        (off = 0x58 → u.fld GLB_ADM_PLIM.watts = min ((~~~c).toNat % 2048) 1400) ∧
        (∀ t : TileId, off.toNat = 0x200030 + 0x10000 * t → u.readReg off.toNat = ~~~c &&& 0xFF00FFFF) ∧
        (∀ e : EngineId, let l := s.fld (LOOP_SEL.loop.on e)
          (off.toNat = 0x40000C + 0x10000 * e →
            u.loopOf e l = (s.loopOf e l).setTarget (s.engine e).supply (s.guardLim 1) ((~~~c).setWidth 24)) ∧
          (off.toNat = 0x400014 + 0x10000 * e → u.readReg off.toNat = ~~~c))) ∧
      (s.armedAt off.toNat ≠ some (~~~c) → ∃ u r, exec (.pairedComplementWrite (off + 4) c) s = .next u ∧
        u = (s.disarm off.toNat).raise r ∧ r.cls = 4 ∧ r.code = 1 ∧ r.unit = off.toNat / 0x10000 ∧
        u.armedAt off.toNat = none ∧ u.readReg off.toNat = s.readReg off.toNat)) ∧
    (s.pairTakes off.toNat = false → ∀ v c : Word,
      exec (.pairedValueWrite off v) s = .next s ∧ exec (.pairedComplementWrite (off + 4) c) s = .next s)

/-- R9, R12, R344, R482, R486, R329: an 8-byte write is two 4-byte writes, lower word first; a write that is not aligned completes with
Unsupported Request; an unlisted offset ignores a write. In the blocks whose writes do nothing but what the access codes say (GUARD, SEC,
THM), each field of the register written takes the write by its code, and no other register changes. A write of the offset that is the
complement of no paired register does not commit one. A read of the serial's lower half latches its upper half. -/
def Obligations.RegistersTakeWrites : Prop :=
  ∀ (s : State) (off : BitVec 25),
    (∀ (w : Nat) (x : BitVec 64), aligned off.toNat w = false → ∃ u, exec (.registerWrite off w x) s = .next u ∧ u.link.cpl = 1 ∧
      u = { s with link := u.link }) ∧
    (∀ (x : BitVec 64) (u : State), off.toNat % 8 = 0 → exec (.registerWrite off 4 x) s = .next u →
      exec (.registerWrite off 8 x) s = exec (.registerWrite (off + 4) 4 (x >>> 32)) u) ∧
    (∀ x : BitVec 64, off.toNat % 4 = 0 → regSpec off.toNat = none → pairedBelow off.toNat = false →
      (off.toNat < 0x18000 ∨ 0x18400 ≤ off.toNat) → exec (.registerWrite off 4 x) s = .next s) ∧
    (∀ (x : BitVec 64) (r : RegSpec), off.toNat % 4 = 0 → off.toNat / 0x10000 ∈ [2, 3, 6] → regSpec off.toNat = some r →
      r.paired = false → pairedBelow off.toNat = false → ∃ u, exec (.registerWrite off 4 x) s = .next u ∧
        (∀ f ∈ r.fields, let g : Fld := ⟨off.toNat, f.hi, f.lo⟩
          let n := bits (x.toNat % 2 ^ 32) f.hi f.lo
          u.fld g = match f.acc with
            | .rw => n
            | .w1c => s.fld g - (s.fld g &&& n)
            | .cnt => if n = 0 then 0 else s.fld g
            | .ro | .wo | .rwp => s.fld g) ∧
        ∀ o, o ≠ off.toNat → u.reg o = s.reg o) ∧
    (∀ c : Word, pairedBelow off.toNat = false → exec (.pairedComplementWrite off c) s = .next s) ∧
    (∃ u, exec .serialRead s = .next u ∧ u.link.read = leBytes 4 (s.entryShown.serial.toNat % 2 ^ 32) ∧
      u.reg FAB_PT_SER_HI.ser_hi.off = s.entryShown.serial.extractLsb' 32 32)

/-- R395, R434: no command but a power-on reset (and the loss of the standby supply) clears a bit of CLK_RST_CAUSE, except a register write
that writes a 1 to it; each cause sets its bit, and power-on sets `por` and clears the others. The sensor and the temperature of
THM_TRIP stay through everything but power-on and a trip. -/
def Obligations.ResetCausesAreKept : Prop :=
  (∀ (c : Instr) (s u : State), exec c s = .next u → (∀ sba, c ≠ .powerOnReset sba) → c ≠ .standbyLoss →
    (∀ k, k < 8 → (s.reg 0x4001C).getLsbD k = true → (u.reg 0x4001C).getLsbD k = true ∨
      ∃ off w v, c = .registerWrite off w v ∧
        ((off.toNat = 0x4001C ∧ v.getLsbD k = true) ∨ (off.toNat = 0x40018 ∧ w = 8 ∧ v.getLsbD (32 + k) = true))) ∧
    ((∀ n, c ≠ .trip n) → u.fld THM_TRIP.sensor = s.fld THM_TRIP.sensor ∧ u.fld THM_TRIP.temp = s.fld THM_TRIP.temp)) ∧
  (∀ s : State,
    (∀ sba, ∃ u, exec (.powerOnReset sba) s = .next u ∧ u.reg 0x4001C = 0x80) ∧
    (s.pins.modReset = true → ∃ u, exec .modResetNAssert s = .next u ∧ u.flag CLK_RST_CAUSE.pin = true) ∧
    (∀ r : Rescue, s.pins.vbrz = true → r.pec = some true → r.zeros = 0 → r.nonce = s.link.nonce →
      (r.cmpl = 0xFC → ∃ u, exec (.rescueModuleReset r) s = .next u ∧ u.flag CLK_RST_CAUSE.resc = true) ∧
      (r.cmpl = 0xFB → s.flag THM_TRIP.latched = false → (s.dom 1).run = true → ∃ u, exec (.rescueRecoveryImage r) s = .next u ∧
        u.flag CLK_RST_CAUSE.fwr = true)) ∧
    (∀ k c, s.mayRun k 0x0803 c → c.p 0 < 2 → c.p 0 ≠ s.fld SEC_BOOT.run → (s.slot (c.p 0)).main.isSome = true →
      ∃ u, exec (.fwActivate k) s = .next u ∧ u.flag CLK_RST_CAUSE.fwr = true) ∧
    (s.fld SEC_BOOT.run ≠ 3 → ∃ u, exec .watchdogReset s = .next u ∧ u.flag CLK_RST_CAUSE.wdog = true) ∧
    (s.pins.perst = true → ∃ u, exec .perstNAssert s = .next u ∧ u.flag CLK_RST_CAUSE.perst = true) ∧
    (∃ u, exec .functionLevelReset s = .next u ∧ u.flag CLK_RST_CAUSE.flr = true) ∧
    (s.refGone = true → ∃ u, exec .referenceLost s = .next u ∧ u.flag CLK_RST_CAUSE.rlost = true))

/-- R437: only the hand-over of a verified main image sets SEC_BOOT.ver, and only a power-on reset, a module reset or entry to A3 clears
it. The trim release and the release of the emission lock need it. -/
def Obligations.VerifiedImageOpensTheGuard : Prop :=
  ∀ (c : Instr) (s u : State), exec c s = .next u →
    (s.flag SEC_BOOT.ver = false → u.flag SEC_BOOT.ver = true →
      ∃ slot i loader, c = .mainImageHandover slot i loader ∧ verified i = true ∧ i.kind = 2 ∧ slot.toNat < 2) ∧
    (s.flag SEC_BOOT.ver = true → u.flag SEC_BOOT.ver = false →
      (∃ sba, c = .powerOnReset sba) ∨ c = .standbyLoss ∨ c = .modResetNAssert ∨ (∃ r, c = .rescueModuleReset r) ∨
        u.pstate = 3) ∧
    (s.flag GUARD_STAT.rel = false → u.flag GUARD_STAT.rel = true → u.flag SEC_BOOT.ver = true) ∧
    (s.flag GUARD_STAT.elock = true → u.flag GUARD_STAT.elock = false → s.flag SEC_BOOT.ver = true)


/-! ### The whole block -/

/-- A step with a command in front of the queue executes that command on the state with the queue's rest. -/
def Obligations.FrontCommandIsTaken : Prop :=
  ∀ (c : Instr) (s : State), step (s.withFront c) = exec c s ∧ (s.withFront c).pending = c :: s.pending

/-- Every well formed command answers a next state and leaves the waiting commands alone, in every state; a command for a comb, a loop
slot or a calibration engine that the module does not have stops with noSuchUnit (log 3). -/
def Obligations.EveryCommandCompletes : Prop :=
  ∀ (c : Instr) (s : State),
    (c.wf = true → ∃ u, exec c s = .next u ∧ u.pending = s.pending) ∧
    (∀ i k, c = .boostStep i k ∨ c = .opticalCut i k → i.combs ≤ k.val → exec c s = .fault .noSuchUnit) ∧
    (∀ e l, c = .handOverTimeout e l ∨ c = .followingFault e l → slotUsed e l = false → exec c s = .fault .noSuchUnit) ∧
    (∀ e, c = .recalibrationSlotDue e → 8 ≤ e.val → exec c s = .fault .noSuchUnit)

/-- Stage memory, its owner table and GDDR7 stay in canonical form: equal memories are equal data. -/
def Obligations.MemoryStaysCanonical : Prop :=
  ∀ (s u : State), s.memOk = true → step s = .next u → u.memOk = true

/-- After power-on reset the memory is canonical and nothing waits; the emission lock is set, every trim output is forced, and the
registers read the reset values of their field tables, of which GLB_ID is one (R8, R9, R292, R293). The empty memory and the pins are the
model's (log 5, log 7). -/
def Obligations.ResetIsAsTheTablesSay : Prop :=
  State.reset.memOk = true ∧ State.reset.pending = [] ∧ State.reset.queueOk = true ∧ State.reset.pins.powForce = true ∧
  State.reset.flag GUARD_STAT.elock = true ∧ State.reset.flag GUARD_STAT.rel = false ∧
  State.reset.fld GLB_ID.part = 0x3208 ∧ State.reset.fld GLB_ID.family = 0xA3 ∧
  (∀ off, State.reset.reg off = regReset off) ∧ (∀ b, State.reset.bay b = Bay.reset) ∧
  (∀ r, step State.reset = .next r → r.core = 1 ∧ r.regs = State.reset.regs)

/-- A command of the sequencers, tiles, planes, streams or memories changes only the parts that `computeChanges` lists for it. -/
def Obligations.ComputingChangesOnlyItsParts : Prop :=
  ∀ (c : Instr) (s u : State) (ps : List Part), computeChanges c = some ps → exec c s = .next u → ∀ p, p ∉ ps → p.kept s u

/-- A command of the light, the loops, the trims, the guard, the thermal monitor, the clocks or the power states changes only the parts
that `plantChanges` lists for it. -/
def Obligations.PlantChangesOnlyItsParts : Prop :=
  ∀ (c : Instr) (s u : State) (ps : List Part), plantChanges c = some ps → exec c s = .next u → ∀ p, p ∉ ps → p.kept s u

/-- A command of the fabric, the host, the sideband, the pins or the registers changes only the parts that `outsideChanges` lists for
it. -/
def Obligations.OutsideChangesOnlyItsParts : Prop :=
  ∀ (c : Instr) (s u : State) (ps : List Part), outsideChanges c = some ps → exec c s = .next u → ∀ p, p ∉ ps → p.kept s u
end

