-- ==== Sys2Proof/Laws/Bits.lean ====
section
/-! SUPPORT. The bits of a word after a field is put into it. -/

namespace Sys2Proof.Machine

/-- The number of a word with a field put into it: what stands above, the field, what stands below. -/
theorem putBits_toNat (w : Word) (hi lo v : Nat) (h : lo ≤ hi) (k : hi < 32) :
    (putBits w hi lo v).toNat =
      2 ^ (hi + 1) * (w.toNat / 2 ^ (hi + 1)) + (2 ^ lo * (v % 2 ^ (hi - lo + 1)) + w.toNat % 2 ^ lo) := by
  have e : 2 ^ (hi + 1) = 2 ^ lo * 2 ^ (hi - lo + 1) := by rw [← Nat.pow_add]; congr 1; omega
  have d : 2 ^ 32 = 2 ^ (hi + 1) * 2 ^ (31 - hi) := by rw [← Nat.pow_add]; congr 1; omega
  have hv : v % 2 ^ (hi - lo + 1) < 2 ^ (hi - lo + 1) := Nat.mod_lt _ (Nat.two_pow_pos _)
  have hw : w.toNat % 2 ^ lo < 2 ^ lo := Nat.mod_lt _ (Nat.two_pow_pos _)
  have low : 2 ^ lo * (v % 2 ^ (hi - lo + 1)) + w.toNat % 2 ^ lo < 2 ^ (hi + 1) := by
    calc _ < 2 ^ lo * (v % 2 ^ (hi - lo + 1)) + 2 ^ lo := by omega
      _ = 2 ^ lo * (v % 2 ^ (hi - lo + 1) + 1) := by ring
      _ ≤ 2 ^ lo * 2 ^ (hi - lo + 1) := Nat.mul_le_mul_left _ hv
      _ = _ := e.symm
  have top : w.toNat / 2 ^ (hi + 1) < 2 ^ (31 - hi) := by
    rw [Nat.div_lt_iff_lt_mul (Nat.two_pow_pos _), Nat.mul_comm, ← d]; exact w.isLt
  have all : 2 ^ (hi + 1) * (w.toNat / 2 ^ (hi + 1)) + 2 ^ (hi + 1) ≤ 2 ^ 32 := by
    rw [d, ← Nat.mul_succ]; exact Nat.mul_le_mul_left _ top
  unfold putBits
  rw [BitVec.toNat_ofNat, Nat.mod_eq_of_lt]
  · ring
  · rw [Nat.mul_comm (v % _), Nat.mul_comm (w.toNat / _)]; omega

/-- A bit of a word with a field put into it. -/
theorem testBit_putBits (w : Word) (hi lo v i : Nat) (h : lo ≤ hi) (k : hi < 32) :
    (putBits w hi lo v).toNat.testBit i =
      if i < lo then w.toNat.testBit i else if i ≤ hi then v.testBit (i - lo) else w.toNat.testBit i := by
  have e : 2 ^ (hi + 1) = 2 ^ lo * 2 ^ (hi - lo + 1) := by rw [← Nat.pow_add]; congr 1; omega
  have hv : v % 2 ^ (hi - lo + 1) < 2 ^ (hi - lo + 1) := Nat.mod_lt _ (Nat.two_pow_pos _)
  have hw : w.toNat % 2 ^ lo < 2 ^ lo := Nat.mod_lt _ (Nat.two_pow_pos _)
  have low : 2 ^ lo * (v % 2 ^ (hi - lo + 1)) + w.toNat % 2 ^ lo < 2 ^ (hi + 1) := by
    calc _ < 2 ^ lo * (v % 2 ^ (hi - lo + 1)) + 2 ^ lo := by omega
      _ = 2 ^ lo * (v % 2 ^ (hi - lo + 1) + 1) := by ring
      _ ≤ 2 ^ lo * 2 ^ (hi - lo + 1) := Nat.mul_le_mul_left _ hv
      _ = _ := e.symm
  rw [putBits_toNat w hi lo v h k, Nat.testBit_two_pow_mul_add _ low, Nat.testBit_two_pow_mul_add _ hw]
  by_cases h1 : i < lo
  · simp [h1, Nat.testBit_mod_two_pow, show i < hi + 1 by omega]
  · by_cases h2 : i ≤ hi
    · simp [h1, h2, Nat.testBit_mod_two_pow, show i < hi + 1 by omega, show i - lo < hi - lo + 1 by omega]
    · have h3 : ¬ i < hi + 1 := by omega
      simp [h1, h2, h3, Nat.testBit_div_two_pow, show i - (hi + 1) + (hi + 1) = i by omega]

/-- A bit of a field. -/
theorem testBit_bits (n hi lo i : Nat) : (bits n hi lo).testBit i = (decide (i < hi - lo + 1) && n.testBit (i + lo)) := by
  unfold bits; rw [Nat.testBit_mod_two_pow, Nat.testBit_div_two_pow]

/-- A field reads as it was put, within its width. -/
theorem bits_putBits_same (w : Word) (hi lo v : Nat) (h : lo ≤ hi) (k : hi < 32) :
    bits (putBits w hi lo v).toNat hi lo = v % 2 ^ (hi - lo + 1) := by
  apply Nat.eq_of_testBit_eq; intro i
  rw [testBit_bits, testBit_putBits _ _ _ _ _ h k, Nat.testBit_mod_two_pow]
  by_cases c : i < hi - lo + 1
  · simp [c, show ¬ i + lo < lo by omega, show i + lo ≤ hi by omega]
  · simp [c]

/-- A field beside the one that is put keeps its value. -/
theorem bits_putBits_other (w : Word) (hi lo v hi' lo' : Nat) (h : lo ≤ hi) (k : hi < 32) (h' : lo' ≤ hi')
    (d : hi' < lo ∨ hi < lo') : bits (putBits w hi lo v).toNat hi' lo' = bits w.toNat hi' lo' := by
  apply Nat.eq_of_testBit_eq; intro i
  rw [testBit_bits, testBit_bits, testBit_putBits _ _ _ _ _ h k]
  by_cases c : i < hi' - lo' + 1
  · rcases d with d | d
    · simp [c, show i + lo' < lo by omega]
    · simp [c, show ¬ i + lo' < lo by omega, show ¬ i + lo' ≤ hi by omega]
  · simp [c]

end Sys2Proof.Machine
end

