-- ==== Sys2Proof/Laws/Tab.lean ====
section
/-! SUPPORT. What reading a table after a write gives, and that a write keeps the canonical form. -/

namespace Sys2Proof
namespace Tab

variable {α : Type}

@[simp] theorem get_nil (d : Nat → α) (k : Nat) : get d [] k = d k := rfl

@[simp] theorem get_drop_same (d : Nat → α) (t : Tab α) (k : Nat) : get d (drop k t) k = d k := by
  induction t with
  | nil => rfl
  | cons p t ih =>
    obtain ⟨i, w⟩ := p
    by_cases h : i = k <;> simp [drop, get, h, ih]

theorem get_drop_other (d : Nat → α) (t : Tab α) (k j : Nat) (h : j ≠ k) :
    get d (drop k t) j = get d t j := by
  induction t with
  | nil => rfl
  | cons p t ih =>
    obtain ⟨i, w⟩ := p
    by_cases hi : i = k
    · subst hi; simp [drop, get, ih, Ne.symm h]
    · simp [drop, get, hi, ih]

/-- No entry of the table has number `k`. -/
def Fresh (k : Nat) (t : Tab α) : Prop := ∀ p ∈ t, p.1 ≠ k

theorem fresh_drop (t : Tab α) (k : Nat) : Fresh k (drop k t) := by
  induction t with
  | nil => simp [Fresh, drop]
  | cons p t ih =>
    obtain ⟨i, w⟩ := p
    by_cases h : i = k
    · simpa [drop, h] using ih
    · simp only [drop, h, if_false, Fresh, List.mem_cons, forall_eq_or_imp]
      exact ⟨h, ih⟩

theorem get_insertSorted_same (d : Nat → α) (t : Tab α) (k : Nat) (v : α) (h : Fresh k t) :
    get d (insertSorted k v t) k = v := by
  induction t with
  | nil => simp [insertSorted, get]
  | cons p t ih =>
    obtain ⟨i, w⟩ := p
    simp only [Fresh, List.mem_cons, forall_eq_or_imp] at h
    by_cases hk : k < i
    · simp [insertSorted, hk, get]
    · simp [insertSorted, hk, get, h.1, ih h.2]

theorem get_insertSorted_other (d : Nat → α) (t : Tab α) (k j : Nat) (v : α) (h : j ≠ k) :
    get d (insertSorted k v t) j = get d t j := by
  induction t with
  | nil => simp [insertSorted, get, Ne.symm h]
  | cons p t ih =>
    obtain ⟨i, w⟩ := p
    by_cases hk : k < i
    · simp [insertSorted, hk, get, Ne.symm h]
    · simp [insertSorted, hk, get, ih]

section
variable [DecidableEq α]

/-- A read of the number just written gives the value written. -/
@[simp] theorem get_set_same (d : Nat → α) (t : Tab α) (k : Nat) (v : α) : get d (set d t k v) k = v := by
  unfold set
  split
  · next h => rw [get_drop_same, h]
  · exact get_insertSorted_same d _ k v (fresh_drop t k)

/-- A write leaves every other number alone. -/
theorem get_set_other (d : Nat → α) (t : Tab α) (k j : Nat) (v : α) (h : j ≠ k) :
    get d (set d t k v) j = get d t j := by
  unfold set
  split
  · exact get_drop_other d t k j h
  · rw [get_insertSorted_other d _ k j v h, get_drop_other d t k j h]

/-- A read after a write, as one equation. -/
theorem get_set (d : Nat → α) (t : Tab α) (k j : Nat) (v : α) :
    get d (set d t k v) j = if j = k then v else get d t j := by
  split
  · next h => subst h; simp
  · next h => exact get_set_other d t k j v h

/-- The canonical form, said without the pattern match: rising numbers, and no entry equal to its default. -/
theorem wf_iff (d : Nat → α) (t : Tab α) :
    wf d t = true ↔ t.Pairwise (fun p q => p.1 < q.1) ∧ ∀ p ∈ t, p.2 ≠ d p.1 := by
  induction t with
  | nil => exact ⟨fun _ => ⟨List.Pairwise.nil, fun p m => absurd m List.not_mem_nil⟩, fun _ => rfl⟩
  | cons p t ih =>
    rcases t with _ | ⟨q, t⟩
    · simp [wf]
    have here : wf d (p :: q :: t) = (decide (p.2 ≠ d p.1) && decide (p.1 < q.1) && wf d (q :: t)) := rfl
    rw [here, Bool.and_eq_true, Bool.and_eq_true, ih]
    refine ⟨fun w => ⟨List.pairwise_cons.2 ⟨fun a m => ?_, w.2.1⟩,
        List.forall_mem_cons.2 ⟨of_decide_eq_true w.1.1, w.2.2⟩⟩,
      fun w => ⟨⟨decide_eq_true (w.2 p List.mem_cons_self),
        decide_eq_true (List.rel_of_pairwise_cons w.1 List.mem_cons_self)⟩, w.1.of_cons,
        fun a m => w.2 a (List.mem_cons_of_mem p m)⟩⟩
    have step := of_decide_eq_true w.1.2
    rcases List.mem_cons.1 m with same | later
    · rw [same]
      exact step
    · exact step.trans (List.rel_of_pairwise_cons w.2.1 later)

omit [DecidableEq α] in
theorem mem_insertSorted (k : Nat) (v : α) (t : Tab α) (p : Nat × α) :
    p ∈ insertSorted k v t ↔ p = (k, v) ∨ p ∈ t := by
  induction t with
  | nil => simp [insertSorted]
  | cons q t ih =>
    obtain ⟨i, w⟩ := q
    by_cases h : k < i <;> simp [insertSorted, h, ih, or_left_comm]

omit [DecidableEq α] in
theorem mem_drop (k : Nat) (t : Tab α) (p : Nat × α) : p ∈ drop k t ↔ p ∈ t ∧ p.1 ≠ k := by
  induction t with
  | nil => simp [drop]
  | cons q t ih =>
    unfold drop
    by_cases out : q.1 = k
    · rw [if_pos out, ih]
      refine and_congr_left fun away => ⟨List.mem_cons_of_mem q, fun m => ?_⟩
      exact (List.mem_cons.1 m).resolve_left fun same => away (same ▸ out)
    · have stays : p = q → p.1 ≠ k := fun same => same ▸ out
      rw [if_neg out, List.mem_cons, List.mem_cons, ih, or_and_right, and_iff_left_of_imp stays]

omit [DecidableEq α] in
theorem sorted_drop (k : Nat) (t : Tab α) (h : t.Pairwise (fun p q => p.1 < q.1)) :
    (drop k t).Pairwise (fun p q => p.1 < q.1) := by
  induction t with
  | nil => simp [drop]
  | cons q t ih =>
    obtain ⟨i, w⟩ := q
    rw [List.pairwise_cons] at h
    by_cases hi : i = k
    · simpa [drop, hi] using ih h.2
    · simp only [drop, hi, if_false, List.pairwise_cons]
      exact ⟨fun a ha => h.1 a ((mem_drop k t a).1 ha).1, ih h.2⟩

omit [DecidableEq α] in
theorem sorted_insertSorted (k : Nat) (v : α) (t : Tab α) (h : t.Pairwise (fun p q => p.1 < q.1))
    (hf : Fresh k t) : (insertSorted k v t).Pairwise (fun p q => p.1 < q.1) := by
  induction t with
  | nil => simp [insertSorted]
  | cons q t ih =>
    obtain ⟨i, w⟩ := q
    rw [List.pairwise_cons] at h
    simp only [Fresh, List.mem_cons, forall_eq_or_imp] at hf
    by_cases hk : k < i
    · rw [insertSorted, if_pos hk]
      simp only [List.pairwise_cons, List.mem_cons, forall_eq_or_imp]
      exact ⟨⟨hk, fun a ha => Nat.lt_trans hk (h.1 a ha)⟩, h.1, h.2⟩
    · simp only [insertSorted, hk, if_false, List.pairwise_cons]
      refine ⟨fun a ha => ?_, ih h.2 hf.2⟩
      rcases (mem_insertSorted k v t a).1 ha with rfl | ha
      · exact Nat.lt_of_le_of_ne (Nat.le_of_not_lt hk) hf.1
      · exact h.1 a ha

/-- A write keeps the canonical form. -/
theorem wf_set (d : Nat → α) (t : Tab α) (k : Nat) (v : α) (h : wf d t = true) :
    wf d (set d t k v) = true := by
  rw [wf_iff] at h ⊢
  unfold set
  split
  · exact ⟨sorted_drop k t h.1, fun p hp => h.2 p ((mem_drop k t p).1 hp).1⟩
  · next hv =>
    refine ⟨sorted_insertSorted k v _ (sorted_drop k t h.1) (fresh_drop t k), fun p hp => ?_⟩
    rcases (mem_insertSorted k v _ p).1 hp with rfl | hp
    · exact hv
    · exact h.2 p ((mem_drop k t p).1 hp).1

end
end Tab
end Sys2Proof
end

