-- ==== Sys2Proof/Laws/Memory.lean ====
section
/-! SUPPORT. Every operation that writes stage memory or GDDR7 keeps the canonical form of `State.memOk`. -/

namespace Sys2Proof.Tab
variable {α : Type} [DecidableEq α]

/-- What a filter leaves is canonical. -/
theorem wf_filter (d : Nat → α) (t : Tab α) (f : Nat × α → Bool) (h : wf d t = true) : wf d (t.filter f) = true := by
  rw [wf_iff] at h ⊢
  exact ⟨h.1.filter _, fun p m => h.2 p (List.mem_of_mem_filter m)⟩

/-- A fold of writes keeps the canonical form. -/
theorem wf_foldl {β : Type} (d : Nat → α) (f : Tab α → β → Tab α) (step : ∀ t x, wf d t = true → wf d (f t x) = true)
    (l : List β) (t : Tab α) (h : wf d t = true) : wf d (l.foldl f t) = true := by
  induction l generalizing t with
  | nil => exact h
  | cons x l ih => exact ih _ (step t x h)

/-- Canonical parts that lie one above the other are canonical together. -/
theorem wf_append (d : Nat → α) (t u : Tab α) (a : Nat) (h : wf d t = true) (k : wf d u = true) (lo : ∀ p ∈ t, p.1 < a)
    (hi : ∀ p ∈ u, a ≤ p.1) : wf d (t ++ u) = true := by
  rw [wf_iff] at h k ⊢
  refine ⟨List.pairwise_append.2 ⟨h.1, k.1, fun p m q n => Nat.lt_of_lt_of_le (lo p m) (hi q n)⟩, fun p m => ?_⟩
  rcases List.mem_append.1 m with m | m
  · exact h.2 p m
  · exact k.2 p m

end Sys2Proof.Tab

namespace Sys2Proof.Machine

/-- Stage memory in canonical form. -/
def Stage.ok (g : Stage) : Prop :=
  Tab.wf dZero g.bytes = true ∧ Tab.wf dZero g.flips = true ∧ Tab.wf dMark g.marks = true ∧ Tab.wf dOwner g.owner = true ∧
    Tab.wf dZero g.chk = true

/-- GDDR7 in canonical form. -/
def Gddr.ok (g : Gddr) : Prop := Tab.wf dZero g.bytes = true ∧ Tab.wf dMark g.list = true

theorem State.memOk_iff (s : State) : s.memOk = true ↔ s.stage.ok ∧ s.gddr.ok := by
  simp only [State.memOk, Bool.and_eq_true, Stage.ok, Gddr.ok]
  tauto

theorem reset_memOk : State.reset.memOk = true := rfl

/-! ### Stage memory -/

theorem State.writeBytes_ok (s : State) (a : Nat) (l : List Byte) (h : s.stage.ok) : (s.writeBytes a l).stage.ok := by
  induction l generalizing s a with
  | nil => exact h
  | cons x r ih =>
    exact ih _ _ ⟨Tab.wf_set dZero _ a x h.1, Tab.wf_set dZero _ a 0 h.2.1, h.2.2.1, h.2.2.2.1, Tab.wf_set dZero _ (a / 8) 0 h.2.2.2.2⟩

@[simp] theorem State.writeBytes_gddr (s : State) (a : Nat) (l : List Byte) : (s.writeBytes a l).gddr = s.gddr := by
  induction l generalizing s a with
  | nil => rfl
  | cons x r ih => exact ih _ _

theorem State.writeBlock_ok (s : State) (a : Nat) (x : Block) (h : s.stage.ok) : (s.writeBlock a x).stage.ok := by
  have w := s.writeBytes_ok a x.data h
  exact ⟨w.1, w.2.1, Tab.wf_set _ _ _ _ w.2.2.1, w.2.2.2⟩

theorem State.upset_ok (s : State) (a : Nat) (u : Upset) (h : s.stage.ok) : (s.upset a u).stage.ok := by
  unfold State.upset
  induction u generalizing s with
  | nil => exact h
  | cons p u ih =>
    refine ih _ ?_
    dsimp only
    split
    · exact ⟨h.1, Tab.wf_set _ _ _ _ h.2.1, h.2.2⟩
    · exact ⟨h.1, h.2.1, h.2.2.1, h.2.2.2.1, Tab.wf_set _ _ _ _ h.2.2.2.2⟩

theorem State.refreshBlock_ok (s : State) (a : Nat) (h : s.stage.ok) : (s.refreshBlock a).stage.ok := by
  unfold State.refreshBlock
  split
  · exact s.writeBlock_ok a _ h
  · exact h

theorem State.storeBytes_ok (s : State) (a : Nat) (l : List Byte) (h : s.stage.ok) : (s.storeBytes a l).stage.ok := by
  unfold State.storeBytes
  refine State.writeBytes_ok _ a l ?_
  generalize List.range ((a % 64 + l.length + 63) / 64) = ks
  induction ks generalizing s with
  | nil => exact h
  | cons k ks ih => exact ih _ (s.refreshBlock_ok _ h)

/-- Stage memory cut down to some addresses. -/
theorem Stage.keep_ok (g : Stage) (f : Nat → Bool) (h : g.ok) : (g.keep f).ok :=
  ⟨Tab.wf_filter _ _ _ h.1, Tab.wf_filter _ _ _ h.2.1, Tab.wf_filter _ _ _ h.2.2.1, h.2.2.2.1, Tab.wf_filter _ _ _ h.2.2.2.2⟩

theorem State.clearStage_ok (s : State) (n : Nat) (h : s.stage.ok) : (s.clearStage n).stage.ok := Stage.keep_ok _ _ h

theorem State.clearMap_ok (s : State) (w : Nat) (h : s.stage.ok) : (s.clearMap w).stage.ok := Stage.keep_ok _ _ h

theorem Stage.retained_ok (g : Stage) (h : g.ok) : g.retained.ok :=
  have k := g.keep_ok (fun a => 0x17000000 ≤ a) h
  ⟨k.1, k.2.1, k.2.2.1, rfl, k.2.2.2.2⟩

theorem State.freeGran_ok (s : State) (n : Nat) (h : s.stage.ok) : (s.freeGran n).stage.ok := by
  unfold State.freeGran
  refine ⟨h.1, h.2.1, h.2.2.1, ?_, h.2.2.2.2⟩
  dsimp only
  generalize Tab.get dZero s.scores.sgran (if n % 2 = 0 then n + 1 else n - 1) = other
  refine Tab.wf_foldl dOwner _ (fun t k w => ?_) _ _ h.2.2.2.1
  split
  · exact Tab.wf_set dOwner t _ 0 w
  · exact w

/-- Slots given to their owners keep the owners canonical. -/
theorem giveSlots_wf (l : List (Nat × BitVec 4)) (owner : Tab (BitVec 4)) (h : Tab.wf dOwner owner = true) :
    Tab.wf dOwner (giveSlots l owner) = true := by
  induction l generalizing owner with
  | nil => exact h
  | cons x l ih => exact ih _ (Tab.wf_set dOwner owner x.1 x.2 h)

/-! ### GDDR7 -/

theorem Gddr.openSpan_ok (g : Gddr) (k : Nat) (h : g.ok) : (g.openSpan k).ok := ⟨Tab.wf_filter _ _ _ h.1, h.2⟩

theorem Gddr.listMark_ok (g : Gddr) (a : Nat) (m : Mark) (h : g.ok) : (g.listMark a m).ok := by
  unfold Gddr.listMark
  dsimp only
  split
  · exact ⟨h.1, Tab.wf_set dMark g.list (a / 64) none h.2⟩
  · rename_i r
    split
    · exact h
    · exact ⟨h.1, Tab.wf_set dMark g.list (a / 64) (some r) h.2⟩

theorem State.gddrWrite_ok (s : State) (a : Nat) (x : Block) (h : s.gddr.ok) : (s.gddrWrite a x).gddr.ok := by
  unfold State.gddrWrite
  refine Gddr.listMark_ok _ a x.mark ?_
  have g : (if s.gSpanZero a then s.gddr.openSpan (spanOf a) else s.gddr).ok := by
    split
    · exact Gddr.openSpan_ok _ _ h
    · exact h
  exact ⟨Tab.wf_foldl _ _ (fun t p w => Tab.wf_set _ _ _ _ w) _ _ g.1, g.2⟩

theorem State.clearGddr_ok (s : State) (n : Nat) (h : s.gddr.ok) : (s.clearGddr n).gddr.ok := ⟨h.1, Tab.wf_filter _ _ _ h.2⟩

/-! ### Temperature tables -/

theorem leBytes_length (n v : Nat) : (leBytes n v).length = n := by
  induction n generalizing v with
  | zero => rfl
  | succ n ih => exact congrArg Nat.succ (ih _)

/-- Lists of one length joined. -/
theorem length_flatMap_const {α β : Type} (l : List α) (f : α → List β) (n : Nat) (h : ∀ x ∈ l, (f x).length = n) :
    (l.flatMap f).length = l.length * n := by
  induction l with
  | nil => simp
  | cons x l ih =>
    rw [List.flatMap_cons, List.length_append, h x List.mem_cons_self, ih fun y m => h y (List.mem_cons_of_mem _ m),
      List.length_cons]
    ring

/-- A table built by measurement has the length of a table. -/
theorem State.builtTable_length (s : State) (t : Nat) : (s.builtTable t).length = tableSize := by
  have c : ∀ c w, (curveEntry c w).length = 4 := fun c w => by
    unfold curveEntry
    split
    · simp [leBytes_length]
    · split <;> simp [leBytes_length]
  have r : ∀ m, (rowBytes m).length = 12 := fun m => by simp [rowBytes, leBytes_length]
  unfold State.builtTable
  dsimp only
  simp only [List.length_append, List.length_replicate, leBytes_length]
  rw [length_flatMap_const _ _ 8 fun _ _ => by simp [leBytes_length], length_flatMap_const _ _ 4 fun _ _ => c _ _,
    length_flatMap_const _ _ 32 fun _ _ => by simp [leBytes_length], length_flatMap_const _ _ 16 fun _ _ => by simp [leBytes_length],
    length_flatMap_const _ _ 32 fun _ _ => by simp [r], length_flatMap_const _ _ 6 fun _ _ => by simp [ringBytes, leBytes_length]]
  simp [tableSize]

/-- The listed bytes of a written range. -/
theorem wf_written (a : Nat) (l : List Byte) :
    Tab.wf dZero (l.zipIdx.filterMap fun p => if p.1 = 0 then none else some (a + p.2, p.1)) = true ∧
      ∀ q ∈ l.zipIdx.filterMap fun p => if p.1 = 0 then none else some (a + p.2, p.1), a ≤ q.1 ∧ q.1 < a + l.length := by
  have at_ : ∀ q ∈ l.zipIdx.filterMap fun p => if p.1 = 0 then none else some (a + p.2, p.1),
      ∃ i x, (x, i) ∈ l.zipIdx ∧ x ≠ 0 ∧ q = (a + i, x) := by
    intro q m
    obtain ⟨⟨x, i⟩, k, e⟩ := List.mem_filterMap.1 m
    by_cases n : x = 0
    · simp [n] at e
    · exact ⟨i, x, k, n, (Option.some.inj ((if_neg n).symm.trans e)).symm⟩
  constructor
  · rw [Tab.wf_iff]
    constructor
    · rw [List.pairwise_filterMap]
      have z : l.zipIdx.Pairwise fun p q => p.2 < q.2 := by
        have : (l.zipIdx.map Prod.snd).Pairwise (· < ·) := by
          rw [List.zipIdx_map_snd]
          exact List.pairwise_lt_range'
        exact List.pairwise_map.1 this
      refine z.imp fun {p q} lt b e b' e' => ?_
      by_cases u : p.1 = 0
      · simp [u] at e
      · by_cases v : q.1 = 0
        · simp [v] at e'
        · simp only [u, v, if_false, Option.some.injEq] at e e'
          rw [← e, ← e']
          exact Nat.add_lt_add_left lt a
    · intro q m
      obtain ⟨i, x, _, n, rfl⟩ := at_ q m
      exact n
  · intro q m
    obtain ⟨i, x, k, _, rfl⟩ := at_ q m
    have := List.snd_lt_of_mem_zipIdx k
    exact ⟨Nat.le_add_right _ _, by simpa using Nat.add_lt_add_left this a⟩

/-- A table built by measurement keeps stage memory canonical. -/
theorem State.buildTable_bytes_ok (s : State) (t : Nat) (h : Tab.wf dZero s.stage.bytes = true) :
    Tab.wf dZero (s.stage.bytes.filter (fun p => p.1 < tableBase t) ++
      ((s.builtTable t).zipIdx.filterMap fun p => if p.1 = 0 then none else some (tableBase t + p.2, p.1)) ++
      s.stage.bytes.filter (fun p => tableBase t + tableSize ≤ p.1)) = true := by
  have w := wf_written (tableBase t) (s.builtTable t)
  rw [State.builtTable_length] at w
  have lo : ∀ p ∈ s.stage.bytes.filter (fun p => p.1 < tableBase t), p.1 < tableBase t :=
    fun p m => by simpa using (List.mem_filter.1 m).2
  refine Tab.wf_append dZero _ _ (tableBase t + tableSize) ?_ (Tab.wf_filter _ _ _ h) ?_
    fun p m => by simpa using (List.mem_filter.1 m).2
  · exact Tab.wf_append dZero _ _ (tableBase t) (Tab.wf_filter _ _ _ h) w.1 lo fun p m => (w.2 p m).1
  · intro p m
    rcases List.mem_append.1 m with m | m
    · exact Nat.lt_of_lt_of_le (lo p m) (Nat.le_add_right _ _)
    · exact (w.2 p m).2

end Sys2Proof.Machine
end

