-- ==== Sys2Proof/Laws/State.lean ====
section
/-! SUPPORT. What each update of the state leaves alone, field by field, and what a unit or register reads as after a write. -/

namespace Sys2Proof.Machine

/-! ### Fields that an update leaves alone -/

@[simp] theorem State.setBay_pending (s : State) (b : Nat) (v : Bay) : (s.setBay b v).pending = s.pending := rfl
@[simp] theorem State.setBay_tick (s : State) (b : Nat) (v : Bay) : (s.setBay b v).tick = s.tick := rfl
@[simp] theorem State.setBay_core (s : State) (b : Nat) (v : Bay) : (s.setBay b v).core = s.core := rfl
@[simp] theorem State.setBay_free (s : State) (b : Nat) (v : Bay) : (s.setBay b v).free = s.free := rfl
@[simp] theorem State.setBay_regs (s : State) (b : Nat) (v : Bay) : (s.setBay b v).regs = s.regs := rfl
@[simp] theorem State.setBay_armed (s : State) (b : Nat) (v : Bay) : (s.setBay b v).armed = s.armed := rfl
@[simp] theorem State.setBay_arb (s : State) (b : Nat) (v : Bay) : (s.setBay b v).arb = s.arb := rfl
@[simp] theorem State.setBay_pins (s : State) (b : Nat) (v : Bay) : (s.setBay b v).pins = s.pins := rfl
@[simp] theorem State.setBay_tiles (s : State) (b : Nat) (v : Bay) : (s.setBay b v).tiles = s.tiles := rfl
@[simp] theorem State.setBay_stage (s : State) (b : Nat) (v : Bay) : (s.setBay b v).stage = s.stage := rfl
@[simp] theorem State.setBay_gddr (s : State) (b : Nat) (v : Bay) : (s.setBay b v).gddr = s.gddr := rfl
@[simp] theorem State.setBay_strm (s : State) (b : Nat) (v : Bay) : (s.setBay b v).strm = s.strm := rfl
@[simp] theorem State.setBay_scores (s : State) (b : Nat) (v : Bay) : (s.setBay b v).scores = s.scores := rfl
@[simp] theorem State.setBay_engines (s : State) (b : Nat) (v : Bay) : (s.setBay b v).engines = s.engines := rfl
@[simp] theorem State.setBay_light (s : State) (b : Nat) (v : Bay) : (s.setBay b v).light = s.light := rfl
@[simp] theorem State.setBay_trims (s : State) (b : Nat) (v : Bay) : (s.setBay b v).trims = s.trims := rfl
@[simp] theorem State.setBay_scan (s : State) (b : Nat) (v : Bay) : (s.setBay b v).scan = s.scan := rfl
@[simp] theorem State.setBay_sensors (s : State) (b : Nat) (v : Bay) : (s.setBay b v).sensors = s.sensors := rfl
@[simp] theorem State.setBay_sec (s : State) (b : Nat) (v : Bay) : (s.setBay b v).sec = s.sec := rfl
@[simp] theorem State.setBay_fab (s : State) (b : Nat) (v : Bay) : (s.setBay b v).fab = s.fab := rfl
@[simp] theorem State.setBay_cmd (s : State) (b : Nat) (v : Bay) : (s.setBay b v).cmd = s.cmd := rfl
@[simp] theorem State.setBay_clk (s : State) (b : Nat) (v : Bay) : (s.setBay b v).clk = s.clk := rfl
@[simp] theorem State.setBay_pwr (s : State) (b : Nat) (v : Bay) : (s.setBay b v).pwr = s.pwr := rfl
@[simp] theorem State.setBay_faults (s : State) (b : Nat) (v : Bay) : (s.setBay b v).faults = s.faults := rfl
@[simp] theorem State.setBay_link (s : State) (b : Nat) (v : Bay) : (s.setBay b v).link = s.link := rfl

@[simp] theorem State.modBay_pending (s : State) (b : Nat) (f : Bay → Bay) : (s.modBay b f).pending = s.pending := rfl
@[simp] theorem State.modBay_tick (s : State) (b : Nat) (f : Bay → Bay) : (s.modBay b f).tick = s.tick := rfl
@[simp] theorem State.modBay_core (s : State) (b : Nat) (f : Bay → Bay) : (s.modBay b f).core = s.core := rfl
@[simp] theorem State.modBay_free (s : State) (b : Nat) (f : Bay → Bay) : (s.modBay b f).free = s.free := rfl
@[simp] theorem State.modBay_regs (s : State) (b : Nat) (f : Bay → Bay) : (s.modBay b f).regs = s.regs := rfl
@[simp] theorem State.modBay_armed (s : State) (b : Nat) (f : Bay → Bay) : (s.modBay b f).armed = s.armed := rfl
@[simp] theorem State.modBay_arb (s : State) (b : Nat) (f : Bay → Bay) : (s.modBay b f).arb = s.arb := rfl
@[simp] theorem State.modBay_pins (s : State) (b : Nat) (f : Bay → Bay) : (s.modBay b f).pins = s.pins := rfl
@[simp] theorem State.modBay_tiles (s : State) (b : Nat) (f : Bay → Bay) : (s.modBay b f).tiles = s.tiles := rfl
@[simp] theorem State.modBay_stage (s : State) (b : Nat) (f : Bay → Bay) : (s.modBay b f).stage = s.stage := rfl
@[simp] theorem State.modBay_gddr (s : State) (b : Nat) (f : Bay → Bay) : (s.modBay b f).gddr = s.gddr := rfl
@[simp] theorem State.modBay_strm (s : State) (b : Nat) (f : Bay → Bay) : (s.modBay b f).strm = s.strm := rfl
@[simp] theorem State.modBay_scores (s : State) (b : Nat) (f : Bay → Bay) : (s.modBay b f).scores = s.scores := rfl
@[simp] theorem State.modBay_engines (s : State) (b : Nat) (f : Bay → Bay) : (s.modBay b f).engines = s.engines := rfl
@[simp] theorem State.modBay_light (s : State) (b : Nat) (f : Bay → Bay) : (s.modBay b f).light = s.light := rfl
@[simp] theorem State.modBay_trims (s : State) (b : Nat) (f : Bay → Bay) : (s.modBay b f).trims = s.trims := rfl
@[simp] theorem State.modBay_scan (s : State) (b : Nat) (f : Bay → Bay) : (s.modBay b f).scan = s.scan := rfl
@[simp] theorem State.modBay_sensors (s : State) (b : Nat) (f : Bay → Bay) : (s.modBay b f).sensors = s.sensors := rfl
@[simp] theorem State.modBay_sec (s : State) (b : Nat) (f : Bay → Bay) : (s.modBay b f).sec = s.sec := rfl
@[simp] theorem State.modBay_fab (s : State) (b : Nat) (f : Bay → Bay) : (s.modBay b f).fab = s.fab := rfl
@[simp] theorem State.modBay_cmd (s : State) (b : Nat) (f : Bay → Bay) : (s.modBay b f).cmd = s.cmd := rfl
@[simp] theorem State.modBay_clk (s : State) (b : Nat) (f : Bay → Bay) : (s.modBay b f).clk = s.clk := rfl
@[simp] theorem State.modBay_pwr (s : State) (b : Nat) (f : Bay → Bay) : (s.modBay b f).pwr = s.pwr := rfl
@[simp] theorem State.modBay_faults (s : State) (b : Nat) (f : Bay → Bay) : (s.modBay b f).faults = s.faults := rfl
@[simp] theorem State.modBay_link (s : State) (b : Nat) (f : Bay → Bay) : (s.modBay b f).link = s.link := rfl

@[simp] theorem State.setStrand_pending (s : State) (b j : Nat) (v : Strand) : (s.setStrand b j v).pending = s.pending := rfl
@[simp] theorem State.setStrand_tick (s : State) (b j : Nat) (v : Strand) : (s.setStrand b j v).tick = s.tick := rfl
@[simp] theorem State.setStrand_core (s : State) (b j : Nat) (v : Strand) : (s.setStrand b j v).core = s.core := rfl
@[simp] theorem State.setStrand_free (s : State) (b j : Nat) (v : Strand) : (s.setStrand b j v).free = s.free := rfl
@[simp] theorem State.setStrand_regs (s : State) (b j : Nat) (v : Strand) : (s.setStrand b j v).regs = s.regs := rfl
@[simp] theorem State.setStrand_armed (s : State) (b j : Nat) (v : Strand) : (s.setStrand b j v).armed = s.armed := rfl
@[simp] theorem State.setStrand_arb (s : State) (b j : Nat) (v : Strand) : (s.setStrand b j v).arb = s.arb := rfl
@[simp] theorem State.setStrand_pins (s : State) (b j : Nat) (v : Strand) : (s.setStrand b j v).pins = s.pins := rfl
@[simp] theorem State.setStrand_tiles (s : State) (b j : Nat) (v : Strand) : (s.setStrand b j v).tiles = s.tiles := rfl
@[simp] theorem State.setStrand_stage (s : State) (b j : Nat) (v : Strand) : (s.setStrand b j v).stage = s.stage := rfl
@[simp] theorem State.setStrand_gddr (s : State) (b j : Nat) (v : Strand) : (s.setStrand b j v).gddr = s.gddr := rfl
@[simp] theorem State.setStrand_strm (s : State) (b j : Nat) (v : Strand) : (s.setStrand b j v).strm = s.strm := rfl
@[simp] theorem State.setStrand_scores (s : State) (b j : Nat) (v : Strand) : (s.setStrand b j v).scores = s.scores := rfl
@[simp] theorem State.setStrand_engines (s : State) (b j : Nat) (v : Strand) : (s.setStrand b j v).engines = s.engines := rfl
@[simp] theorem State.setStrand_light (s : State) (b j : Nat) (v : Strand) : (s.setStrand b j v).light = s.light := rfl
@[simp] theorem State.setStrand_trims (s : State) (b j : Nat) (v : Strand) : (s.setStrand b j v).trims = s.trims := rfl
@[simp] theorem State.setStrand_scan (s : State) (b j : Nat) (v : Strand) : (s.setStrand b j v).scan = s.scan := rfl
@[simp] theorem State.setStrand_sensors (s : State) (b j : Nat) (v : Strand) : (s.setStrand b j v).sensors = s.sensors := rfl
@[simp] theorem State.setStrand_sec (s : State) (b j : Nat) (v : Strand) : (s.setStrand b j v).sec = s.sec := rfl
@[simp] theorem State.setStrand_fab (s : State) (b j : Nat) (v : Strand) : (s.setStrand b j v).fab = s.fab := rfl
@[simp] theorem State.setStrand_cmd (s : State) (b j : Nat) (v : Strand) : (s.setStrand b j v).cmd = s.cmd := rfl
@[simp] theorem State.setStrand_clk (s : State) (b j : Nat) (v : Strand) : (s.setStrand b j v).clk = s.clk := rfl
@[simp] theorem State.setStrand_pwr (s : State) (b j : Nat) (v : Strand) : (s.setStrand b j v).pwr = s.pwr := rfl
@[simp] theorem State.setStrand_faults (s : State) (b j : Nat) (v : Strand) : (s.setStrand b j v).faults = s.faults := rfl
@[simp] theorem State.setStrand_link (s : State) (b j : Nat) (v : Strand) : (s.setStrand b j v).link = s.link := rfl

@[simp] theorem State.setTile_pending (s : State) (t : Nat) (v : Tile) : (s.setTile t v).pending = s.pending := rfl
@[simp] theorem State.setTile_tick (s : State) (t : Nat) (v : Tile) : (s.setTile t v).tick = s.tick := rfl
@[simp] theorem State.setTile_core (s : State) (t : Nat) (v : Tile) : (s.setTile t v).core = s.core := rfl
@[simp] theorem State.setTile_free (s : State) (t : Nat) (v : Tile) : (s.setTile t v).free = s.free := rfl
@[simp] theorem State.setTile_regs (s : State) (t : Nat) (v : Tile) : (s.setTile t v).regs = s.regs := rfl
@[simp] theorem State.setTile_armed (s : State) (t : Nat) (v : Tile) : (s.setTile t v).armed = s.armed := rfl
@[simp] theorem State.setTile_arb (s : State) (t : Nat) (v : Tile) : (s.setTile t v).arb = s.arb := rfl
@[simp] theorem State.setTile_pins (s : State) (t : Nat) (v : Tile) : (s.setTile t v).pins = s.pins := rfl
@[simp] theorem State.setTile_bays (s : State) (t : Nat) (v : Tile) : (s.setTile t v).bays = s.bays := rfl
@[simp] theorem State.setTile_stage (s : State) (t : Nat) (v : Tile) : (s.setTile t v).stage = s.stage := rfl
@[simp] theorem State.setTile_gddr (s : State) (t : Nat) (v : Tile) : (s.setTile t v).gddr = s.gddr := rfl
@[simp] theorem State.setTile_strm (s : State) (t : Nat) (v : Tile) : (s.setTile t v).strm = s.strm := rfl
@[simp] theorem State.setTile_scores (s : State) (t : Nat) (v : Tile) : (s.setTile t v).scores = s.scores := rfl
@[simp] theorem State.setTile_engines (s : State) (t : Nat) (v : Tile) : (s.setTile t v).engines = s.engines := rfl
@[simp] theorem State.setTile_light (s : State) (t : Nat) (v : Tile) : (s.setTile t v).light = s.light := rfl
@[simp] theorem State.setTile_trims (s : State) (t : Nat) (v : Tile) : (s.setTile t v).trims = s.trims := rfl
@[simp] theorem State.setTile_scan (s : State) (t : Nat) (v : Tile) : (s.setTile t v).scan = s.scan := rfl
@[simp] theorem State.setTile_sensors (s : State) (t : Nat) (v : Tile) : (s.setTile t v).sensors = s.sensors := rfl
@[simp] theorem State.setTile_sec (s : State) (t : Nat) (v : Tile) : (s.setTile t v).sec = s.sec := rfl
@[simp] theorem State.setTile_fab (s : State) (t : Nat) (v : Tile) : (s.setTile t v).fab = s.fab := rfl
@[simp] theorem State.setTile_cmd (s : State) (t : Nat) (v : Tile) : (s.setTile t v).cmd = s.cmd := rfl
@[simp] theorem State.setTile_clk (s : State) (t : Nat) (v : Tile) : (s.setTile t v).clk = s.clk := rfl
@[simp] theorem State.setTile_pwr (s : State) (t : Nat) (v : Tile) : (s.setTile t v).pwr = s.pwr := rfl
@[simp] theorem State.setTile_faults (s : State) (t : Nat) (v : Tile) : (s.setTile t v).faults = s.faults := rfl
@[simp] theorem State.setTile_link (s : State) (t : Nat) (v : Tile) : (s.setTile t v).link = s.link := rfl

@[simp] theorem State.modTile_pending (s : State) (t : Nat) (f : Tile → Tile) : (s.modTile t f).pending = s.pending := rfl
@[simp] theorem State.modTile_tick (s : State) (t : Nat) (f : Tile → Tile) : (s.modTile t f).tick = s.tick := rfl
@[simp] theorem State.modTile_core (s : State) (t : Nat) (f : Tile → Tile) : (s.modTile t f).core = s.core := rfl
@[simp] theorem State.modTile_free (s : State) (t : Nat) (f : Tile → Tile) : (s.modTile t f).free = s.free := rfl
@[simp] theorem State.modTile_regs (s : State) (t : Nat) (f : Tile → Tile) : (s.modTile t f).regs = s.regs := rfl
@[simp] theorem State.modTile_armed (s : State) (t : Nat) (f : Tile → Tile) : (s.modTile t f).armed = s.armed := rfl
@[simp] theorem State.modTile_arb (s : State) (t : Nat) (f : Tile → Tile) : (s.modTile t f).arb = s.arb := rfl
@[simp] theorem State.modTile_pins (s : State) (t : Nat) (f : Tile → Tile) : (s.modTile t f).pins = s.pins := rfl
@[simp] theorem State.modTile_bays (s : State) (t : Nat) (f : Tile → Tile) : (s.modTile t f).bays = s.bays := rfl
@[simp] theorem State.modTile_stage (s : State) (t : Nat) (f : Tile → Tile) : (s.modTile t f).stage = s.stage := rfl
@[simp] theorem State.modTile_gddr (s : State) (t : Nat) (f : Tile → Tile) : (s.modTile t f).gddr = s.gddr := rfl
@[simp] theorem State.modTile_strm (s : State) (t : Nat) (f : Tile → Tile) : (s.modTile t f).strm = s.strm := rfl
@[simp] theorem State.modTile_scores (s : State) (t : Nat) (f : Tile → Tile) : (s.modTile t f).scores = s.scores := rfl
@[simp] theorem State.modTile_engines (s : State) (t : Nat) (f : Tile → Tile) : (s.modTile t f).engines = s.engines := rfl
@[simp] theorem State.modTile_light (s : State) (t : Nat) (f : Tile → Tile) : (s.modTile t f).light = s.light := rfl
@[simp] theorem State.modTile_trims (s : State) (t : Nat) (f : Tile → Tile) : (s.modTile t f).trims = s.trims := rfl
@[simp] theorem State.modTile_scan (s : State) (t : Nat) (f : Tile → Tile) : (s.modTile t f).scan = s.scan := rfl
@[simp] theorem State.modTile_sensors (s : State) (t : Nat) (f : Tile → Tile) : (s.modTile t f).sensors = s.sensors := rfl
@[simp] theorem State.modTile_sec (s : State) (t : Nat) (f : Tile → Tile) : (s.modTile t f).sec = s.sec := rfl
@[simp] theorem State.modTile_fab (s : State) (t : Nat) (f : Tile → Tile) : (s.modTile t f).fab = s.fab := rfl
@[simp] theorem State.modTile_cmd (s : State) (t : Nat) (f : Tile → Tile) : (s.modTile t f).cmd = s.cmd := rfl
@[simp] theorem State.modTile_clk (s : State) (t : Nat) (f : Tile → Tile) : (s.modTile t f).clk = s.clk := rfl
@[simp] theorem State.modTile_pwr (s : State) (t : Nat) (f : Tile → Tile) : (s.modTile t f).pwr = s.pwr := rfl
@[simp] theorem State.modTile_faults (s : State) (t : Nat) (f : Tile → Tile) : (s.modTile t f).faults = s.faults := rfl
@[simp] theorem State.modTile_link (s : State) (t : Nat) (f : Tile → Tile) : (s.modTile t f).link = s.link := rfl

@[simp] theorem State.setEngine_pending (s : State) (e : Nat) (v : Engine) : (s.setEngine e v).pending = s.pending := rfl
@[simp] theorem State.setEngine_tick (s : State) (e : Nat) (v : Engine) : (s.setEngine e v).tick = s.tick := rfl
@[simp] theorem State.setEngine_core (s : State) (e : Nat) (v : Engine) : (s.setEngine e v).core = s.core := rfl
@[simp] theorem State.setEngine_free (s : State) (e : Nat) (v : Engine) : (s.setEngine e v).free = s.free := rfl
@[simp] theorem State.setEngine_regs (s : State) (e : Nat) (v : Engine) : (s.setEngine e v).regs = s.regs := rfl
@[simp] theorem State.setEngine_armed (s : State) (e : Nat) (v : Engine) : (s.setEngine e v).armed = s.armed := rfl
@[simp] theorem State.setEngine_arb (s : State) (e : Nat) (v : Engine) : (s.setEngine e v).arb = s.arb := rfl
@[simp] theorem State.setEngine_pins (s : State) (e : Nat) (v : Engine) : (s.setEngine e v).pins = s.pins := rfl
@[simp] theorem State.setEngine_bays (s : State) (e : Nat) (v : Engine) : (s.setEngine e v).bays = s.bays := rfl
@[simp] theorem State.setEngine_tiles (s : State) (e : Nat) (v : Engine) : (s.setEngine e v).tiles = s.tiles := rfl
@[simp] theorem State.setEngine_stage (s : State) (e : Nat) (v : Engine) : (s.setEngine e v).stage = s.stage := rfl
@[simp] theorem State.setEngine_gddr (s : State) (e : Nat) (v : Engine) : (s.setEngine e v).gddr = s.gddr := rfl
@[simp] theorem State.setEngine_strm (s : State) (e : Nat) (v : Engine) : (s.setEngine e v).strm = s.strm := rfl
@[simp] theorem State.setEngine_scores (s : State) (e : Nat) (v : Engine) : (s.setEngine e v).scores = s.scores := rfl
@[simp] theorem State.setEngine_light (s : State) (e : Nat) (v : Engine) : (s.setEngine e v).light = s.light := rfl
@[simp] theorem State.setEngine_trims (s : State) (e : Nat) (v : Engine) : (s.setEngine e v).trims = s.trims := rfl
@[simp] theorem State.setEngine_scan (s : State) (e : Nat) (v : Engine) : (s.setEngine e v).scan = s.scan := rfl
@[simp] theorem State.setEngine_sensors (s : State) (e : Nat) (v : Engine) : (s.setEngine e v).sensors = s.sensors := rfl
@[simp] theorem State.setEngine_sec (s : State) (e : Nat) (v : Engine) : (s.setEngine e v).sec = s.sec := rfl
@[simp] theorem State.setEngine_fab (s : State) (e : Nat) (v : Engine) : (s.setEngine e v).fab = s.fab := rfl
@[simp] theorem State.setEngine_cmd (s : State) (e : Nat) (v : Engine) : (s.setEngine e v).cmd = s.cmd := rfl
@[simp] theorem State.setEngine_clk (s : State) (e : Nat) (v : Engine) : (s.setEngine e v).clk = s.clk := rfl
@[simp] theorem State.setEngine_pwr (s : State) (e : Nat) (v : Engine) : (s.setEngine e v).pwr = s.pwr := rfl
@[simp] theorem State.setEngine_faults (s : State) (e : Nat) (v : Engine) : (s.setEngine e v).faults = s.faults := rfl
@[simp] theorem State.setEngine_link (s : State) (e : Nat) (v : Engine) : (s.setEngine e v).link = s.link := rfl

@[simp] theorem State.setLoop_pending (s : State) (e l : Nat) (v : Loop) : (s.setLoop e l v).pending = s.pending := rfl
@[simp] theorem State.setLoop_tick (s : State) (e l : Nat) (v : Loop) : (s.setLoop e l v).tick = s.tick := rfl
@[simp] theorem State.setLoop_core (s : State) (e l : Nat) (v : Loop) : (s.setLoop e l v).core = s.core := rfl
@[simp] theorem State.setLoop_free (s : State) (e l : Nat) (v : Loop) : (s.setLoop e l v).free = s.free := rfl
@[simp] theorem State.setLoop_regs (s : State) (e l : Nat) (v : Loop) : (s.setLoop e l v).regs = s.regs := rfl
@[simp] theorem State.setLoop_armed (s : State) (e l : Nat) (v : Loop) : (s.setLoop e l v).armed = s.armed := rfl
@[simp] theorem State.setLoop_arb (s : State) (e l : Nat) (v : Loop) : (s.setLoop e l v).arb = s.arb := rfl
@[simp] theorem State.setLoop_pins (s : State) (e l : Nat) (v : Loop) : (s.setLoop e l v).pins = s.pins := rfl
@[simp] theorem State.setLoop_bays (s : State) (e l : Nat) (v : Loop) : (s.setLoop e l v).bays = s.bays := rfl
@[simp] theorem State.setLoop_tiles (s : State) (e l : Nat) (v : Loop) : (s.setLoop e l v).tiles = s.tiles := rfl
@[simp] theorem State.setLoop_stage (s : State) (e l : Nat) (v : Loop) : (s.setLoop e l v).stage = s.stage := rfl
@[simp] theorem State.setLoop_gddr (s : State) (e l : Nat) (v : Loop) : (s.setLoop e l v).gddr = s.gddr := rfl
@[simp] theorem State.setLoop_strm (s : State) (e l : Nat) (v : Loop) : (s.setLoop e l v).strm = s.strm := rfl
@[simp] theorem State.setLoop_scores (s : State) (e l : Nat) (v : Loop) : (s.setLoop e l v).scores = s.scores := rfl
@[simp] theorem State.setLoop_light (s : State) (e l : Nat) (v : Loop) : (s.setLoop e l v).light = s.light := rfl
@[simp] theorem State.setLoop_trims (s : State) (e l : Nat) (v : Loop) : (s.setLoop e l v).trims = s.trims := rfl
@[simp] theorem State.setLoop_scan (s : State) (e l : Nat) (v : Loop) : (s.setLoop e l v).scan = s.scan := rfl
@[simp] theorem State.setLoop_sensors (s : State) (e l : Nat) (v : Loop) : (s.setLoop e l v).sensors = s.sensors := rfl
@[simp] theorem State.setLoop_sec (s : State) (e l : Nat) (v : Loop) : (s.setLoop e l v).sec = s.sec := rfl
@[simp] theorem State.setLoop_fab (s : State) (e l : Nat) (v : Loop) : (s.setLoop e l v).fab = s.fab := rfl
@[simp] theorem State.setLoop_cmd (s : State) (e l : Nat) (v : Loop) : (s.setLoop e l v).cmd = s.cmd := rfl
@[simp] theorem State.setLoop_clk (s : State) (e l : Nat) (v : Loop) : (s.setLoop e l v).clk = s.clk := rfl
@[simp] theorem State.setLoop_pwr (s : State) (e l : Nat) (v : Loop) : (s.setLoop e l v).pwr = s.pwr := rfl
@[simp] theorem State.setLoop_faults (s : State) (e l : Nat) (v : Loop) : (s.setLoop e l v).faults = s.faults := rfl
@[simp] theorem State.setLoop_link (s : State) (e l : Nat) (v : Loop) : (s.setLoop e l v).link = s.link := rfl

@[simp] theorem State.setSource_pending (s : State) (i : Nat) (v : Source) : (s.setSource i v).pending = s.pending := rfl
@[simp] theorem State.setSource_tick (s : State) (i : Nat) (v : Source) : (s.setSource i v).tick = s.tick := rfl
@[simp] theorem State.setSource_core (s : State) (i : Nat) (v : Source) : (s.setSource i v).core = s.core := rfl
@[simp] theorem State.setSource_free (s : State) (i : Nat) (v : Source) : (s.setSource i v).free = s.free := rfl
@[simp] theorem State.setSource_regs (s : State) (i : Nat) (v : Source) : (s.setSource i v).regs = s.regs := rfl
@[simp] theorem State.setSource_armed (s : State) (i : Nat) (v : Source) : (s.setSource i v).armed = s.armed := rfl
@[simp] theorem State.setSource_arb (s : State) (i : Nat) (v : Source) : (s.setSource i v).arb = s.arb := rfl
@[simp] theorem State.setSource_pins (s : State) (i : Nat) (v : Source) : (s.setSource i v).pins = s.pins := rfl
@[simp] theorem State.setSource_bays (s : State) (i : Nat) (v : Source) : (s.setSource i v).bays = s.bays := rfl
@[simp] theorem State.setSource_tiles (s : State) (i : Nat) (v : Source) : (s.setSource i v).tiles = s.tiles := rfl
@[simp] theorem State.setSource_stage (s : State) (i : Nat) (v : Source) : (s.setSource i v).stage = s.stage := rfl
@[simp] theorem State.setSource_gddr (s : State) (i : Nat) (v : Source) : (s.setSource i v).gddr = s.gddr := rfl
@[simp] theorem State.setSource_strm (s : State) (i : Nat) (v : Source) : (s.setSource i v).strm = s.strm := rfl
@[simp] theorem State.setSource_scores (s : State) (i : Nat) (v : Source) : (s.setSource i v).scores = s.scores := rfl
@[simp] theorem State.setSource_engines (s : State) (i : Nat) (v : Source) : (s.setSource i v).engines = s.engines := rfl
@[simp] theorem State.setSource_trims (s : State) (i : Nat) (v : Source) : (s.setSource i v).trims = s.trims := rfl
@[simp] theorem State.setSource_scan (s : State) (i : Nat) (v : Source) : (s.setSource i v).scan = s.scan := rfl
@[simp] theorem State.setSource_sensors (s : State) (i : Nat) (v : Source) : (s.setSource i v).sensors = s.sensors := rfl
@[simp] theorem State.setSource_sec (s : State) (i : Nat) (v : Source) : (s.setSource i v).sec = s.sec := rfl
@[simp] theorem State.setSource_fab (s : State) (i : Nat) (v : Source) : (s.setSource i v).fab = s.fab := rfl
@[simp] theorem State.setSource_cmd (s : State) (i : Nat) (v : Source) : (s.setSource i v).cmd = s.cmd := rfl
@[simp] theorem State.setSource_clk (s : State) (i : Nat) (v : Source) : (s.setSource i v).clk = s.clk := rfl
@[simp] theorem State.setSource_pwr (s : State) (i : Nat) (v : Source) : (s.setSource i v).pwr = s.pwr := rfl
@[simp] theorem State.setSource_faults (s : State) (i : Nat) (v : Source) : (s.setSource i v).faults = s.faults := rfl
@[simp] theorem State.setSource_link (s : State) (i : Nat) (v : Source) : (s.setSource i v).link = s.link := rfl

@[simp] theorem State.setComb_pending (s : State) (i c : Nat) (v : Comb) : (s.setComb i c v).pending = s.pending := rfl
@[simp] theorem State.setComb_tick (s : State) (i c : Nat) (v : Comb) : (s.setComb i c v).tick = s.tick := rfl
@[simp] theorem State.setComb_core (s : State) (i c : Nat) (v : Comb) : (s.setComb i c v).core = s.core := rfl
@[simp] theorem State.setComb_free (s : State) (i c : Nat) (v : Comb) : (s.setComb i c v).free = s.free := rfl
@[simp] theorem State.setComb_regs (s : State) (i c : Nat) (v : Comb) : (s.setComb i c v).regs = s.regs := rfl
@[simp] theorem State.setComb_armed (s : State) (i c : Nat) (v : Comb) : (s.setComb i c v).armed = s.armed := rfl
@[simp] theorem State.setComb_arb (s : State) (i c : Nat) (v : Comb) : (s.setComb i c v).arb = s.arb := rfl
@[simp] theorem State.setComb_pins (s : State) (i c : Nat) (v : Comb) : (s.setComb i c v).pins = s.pins := rfl
@[simp] theorem State.setComb_bays (s : State) (i c : Nat) (v : Comb) : (s.setComb i c v).bays = s.bays := rfl
@[simp] theorem State.setComb_tiles (s : State) (i c : Nat) (v : Comb) : (s.setComb i c v).tiles = s.tiles := rfl
@[simp] theorem State.setComb_stage (s : State) (i c : Nat) (v : Comb) : (s.setComb i c v).stage = s.stage := rfl
@[simp] theorem State.setComb_gddr (s : State) (i c : Nat) (v : Comb) : (s.setComb i c v).gddr = s.gddr := rfl
@[simp] theorem State.setComb_strm (s : State) (i c : Nat) (v : Comb) : (s.setComb i c v).strm = s.strm := rfl
@[simp] theorem State.setComb_scores (s : State) (i c : Nat) (v : Comb) : (s.setComb i c v).scores = s.scores := rfl
@[simp] theorem State.setComb_engines (s : State) (i c : Nat) (v : Comb) : (s.setComb i c v).engines = s.engines := rfl
@[simp] theorem State.setComb_trims (s : State) (i c : Nat) (v : Comb) : (s.setComb i c v).trims = s.trims := rfl
@[simp] theorem State.setComb_scan (s : State) (i c : Nat) (v : Comb) : (s.setComb i c v).scan = s.scan := rfl
@[simp] theorem State.setComb_sensors (s : State) (i c : Nat) (v : Comb) : (s.setComb i c v).sensors = s.sensors := rfl
@[simp] theorem State.setComb_sec (s : State) (i c : Nat) (v : Comb) : (s.setComb i c v).sec = s.sec := rfl
@[simp] theorem State.setComb_fab (s : State) (i c : Nat) (v : Comb) : (s.setComb i c v).fab = s.fab := rfl
@[simp] theorem State.setComb_cmd (s : State) (i c : Nat) (v : Comb) : (s.setComb i c v).cmd = s.cmd := rfl
@[simp] theorem State.setComb_clk (s : State) (i c : Nat) (v : Comb) : (s.setComb i c v).clk = s.clk := rfl
@[simp] theorem State.setComb_pwr (s : State) (i c : Nat) (v : Comb) : (s.setComb i c v).pwr = s.pwr := rfl
@[simp] theorem State.setComb_faults (s : State) (i c : Nat) (v : Comb) : (s.setComb i c v).faults = s.faults := rfl
@[simp] theorem State.setComb_link (s : State) (i c : Nat) (v : Comb) : (s.setComb i c v).link = s.link := rfl

@[simp] theorem State.setLine_pending (s : State) (i c n : Nat) (v : Line) : (s.setLine i c n v).pending = s.pending := rfl
@[simp] theorem State.setLine_tick (s : State) (i c n : Nat) (v : Line) : (s.setLine i c n v).tick = s.tick := rfl
@[simp] theorem State.setLine_core (s : State) (i c n : Nat) (v : Line) : (s.setLine i c n v).core = s.core := rfl
@[simp] theorem State.setLine_free (s : State) (i c n : Nat) (v : Line) : (s.setLine i c n v).free = s.free := rfl
@[simp] theorem State.setLine_regs (s : State) (i c n : Nat) (v : Line) : (s.setLine i c n v).regs = s.regs := rfl
@[simp] theorem State.setLine_armed (s : State) (i c n : Nat) (v : Line) : (s.setLine i c n v).armed = s.armed := rfl
@[simp] theorem State.setLine_arb (s : State) (i c n : Nat) (v : Line) : (s.setLine i c n v).arb = s.arb := rfl
@[simp] theorem State.setLine_pins (s : State) (i c n : Nat) (v : Line) : (s.setLine i c n v).pins = s.pins := rfl
@[simp] theorem State.setLine_bays (s : State) (i c n : Nat) (v : Line) : (s.setLine i c n v).bays = s.bays := rfl
@[simp] theorem State.setLine_tiles (s : State) (i c n : Nat) (v : Line) : (s.setLine i c n v).tiles = s.tiles := rfl
@[simp] theorem State.setLine_stage (s : State) (i c n : Nat) (v : Line) : (s.setLine i c n v).stage = s.stage := rfl
@[simp] theorem State.setLine_gddr (s : State) (i c n : Nat) (v : Line) : (s.setLine i c n v).gddr = s.gddr := rfl
@[simp] theorem State.setLine_strm (s : State) (i c n : Nat) (v : Line) : (s.setLine i c n v).strm = s.strm := rfl
@[simp] theorem State.setLine_scores (s : State) (i c n : Nat) (v : Line) : (s.setLine i c n v).scores = s.scores := rfl
@[simp] theorem State.setLine_engines (s : State) (i c n : Nat) (v : Line) : (s.setLine i c n v).engines = s.engines := rfl
@[simp] theorem State.setLine_trims (s : State) (i c n : Nat) (v : Line) : (s.setLine i c n v).trims = s.trims := rfl
@[simp] theorem State.setLine_scan (s : State) (i c n : Nat) (v : Line) : (s.setLine i c n v).scan = s.scan := rfl
@[simp] theorem State.setLine_sensors (s : State) (i c n : Nat) (v : Line) : (s.setLine i c n v).sensors = s.sensors := rfl
@[simp] theorem State.setLine_sec (s : State) (i c n : Nat) (v : Line) : (s.setLine i c n v).sec = s.sec := rfl
@[simp] theorem State.setLine_fab (s : State) (i c n : Nat) (v : Line) : (s.setLine i c n v).fab = s.fab := rfl
@[simp] theorem State.setLine_cmd (s : State) (i c n : Nat) (v : Line) : (s.setLine i c n v).cmd = s.cmd := rfl
@[simp] theorem State.setLine_clk (s : State) (i c n : Nat) (v : Line) : (s.setLine i c n v).clk = s.clk := rfl
@[simp] theorem State.setLine_pwr (s : State) (i c n : Nat) (v : Line) : (s.setLine i c n v).pwr = s.pwr := rfl
@[simp] theorem State.setLine_faults (s : State) (i c n : Nat) (v : Line) : (s.setLine i c n v).faults = s.faults := rfl
@[simp] theorem State.setLine_link (s : State) (i c n : Nat) (v : Line) : (s.setLine i c n v).link = s.link := rfl

@[simp] theorem State.setTrimOut_pending (s : State) (o : Nat) (v : TrimOut) : (s.setTrimOut o v).pending = s.pending := rfl
@[simp] theorem State.setTrimOut_tick (s : State) (o : Nat) (v : TrimOut) : (s.setTrimOut o v).tick = s.tick := rfl
@[simp] theorem State.setTrimOut_core (s : State) (o : Nat) (v : TrimOut) : (s.setTrimOut o v).core = s.core := rfl
@[simp] theorem State.setTrimOut_free (s : State) (o : Nat) (v : TrimOut) : (s.setTrimOut o v).free = s.free := rfl
@[simp] theorem State.setTrimOut_regs (s : State) (o : Nat) (v : TrimOut) : (s.setTrimOut o v).regs = s.regs := rfl
@[simp] theorem State.setTrimOut_armed (s : State) (o : Nat) (v : TrimOut) : (s.setTrimOut o v).armed = s.armed := rfl
@[simp] theorem State.setTrimOut_arb (s : State) (o : Nat) (v : TrimOut) : (s.setTrimOut o v).arb = s.arb := rfl
@[simp] theorem State.setTrimOut_pins (s : State) (o : Nat) (v : TrimOut) : (s.setTrimOut o v).pins = s.pins := rfl
@[simp] theorem State.setTrimOut_bays (s : State) (o : Nat) (v : TrimOut) : (s.setTrimOut o v).bays = s.bays := rfl
@[simp] theorem State.setTrimOut_tiles (s : State) (o : Nat) (v : TrimOut) : (s.setTrimOut o v).tiles = s.tiles := rfl
@[simp] theorem State.setTrimOut_stage (s : State) (o : Nat) (v : TrimOut) : (s.setTrimOut o v).stage = s.stage := rfl
@[simp] theorem State.setTrimOut_gddr (s : State) (o : Nat) (v : TrimOut) : (s.setTrimOut o v).gddr = s.gddr := rfl
@[simp] theorem State.setTrimOut_strm (s : State) (o : Nat) (v : TrimOut) : (s.setTrimOut o v).strm = s.strm := rfl
@[simp] theorem State.setTrimOut_scores (s : State) (o : Nat) (v : TrimOut) : (s.setTrimOut o v).scores = s.scores := rfl
@[simp] theorem State.setTrimOut_engines (s : State) (o : Nat) (v : TrimOut) : (s.setTrimOut o v).engines = s.engines := rfl
@[simp] theorem State.setTrimOut_light (s : State) (o : Nat) (v : TrimOut) : (s.setTrimOut o v).light = s.light := rfl
@[simp] theorem State.setTrimOut_sensors (s : State) (o : Nat) (v : TrimOut) : (s.setTrimOut o v).sensors = s.sensors := rfl
@[simp] theorem State.setTrimOut_sec (s : State) (o : Nat) (v : TrimOut) : (s.setTrimOut o v).sec = s.sec := rfl
@[simp] theorem State.setTrimOut_fab (s : State) (o : Nat) (v : TrimOut) : (s.setTrimOut o v).fab = s.fab := rfl
@[simp] theorem State.setTrimOut_cmd (s : State) (o : Nat) (v : TrimOut) : (s.setTrimOut o v).cmd = s.cmd := rfl
@[simp] theorem State.setTrimOut_clk (s : State) (o : Nat) (v : TrimOut) : (s.setTrimOut o v).clk = s.clk := rfl
@[simp] theorem State.setTrimOut_pwr (s : State) (o : Nat) (v : TrimOut) : (s.setTrimOut o v).pwr = s.pwr := rfl
@[simp] theorem State.setTrimOut_faults (s : State) (o : Nat) (v : TrimOut) : (s.setTrimOut o v).faults = s.faults := rfl
@[simp] theorem State.setTrimOut_link (s : State) (o : Nat) (v : TrimOut) : (s.setTrimOut o v).link = s.link := rfl

@[simp] theorem State.setSensor_pending (s : State) (n : Nat) (v : Sensor) : (s.setSensor n v).pending = s.pending := rfl
@[simp] theorem State.setSensor_tick (s : State) (n : Nat) (v : Sensor) : (s.setSensor n v).tick = s.tick := rfl
@[simp] theorem State.setSensor_core (s : State) (n : Nat) (v : Sensor) : (s.setSensor n v).core = s.core := rfl
@[simp] theorem State.setSensor_free (s : State) (n : Nat) (v : Sensor) : (s.setSensor n v).free = s.free := rfl
@[simp] theorem State.setSensor_regs (s : State) (n : Nat) (v : Sensor) : (s.setSensor n v).regs = s.regs := rfl
@[simp] theorem State.setSensor_armed (s : State) (n : Nat) (v : Sensor) : (s.setSensor n v).armed = s.armed := rfl
@[simp] theorem State.setSensor_arb (s : State) (n : Nat) (v : Sensor) : (s.setSensor n v).arb = s.arb := rfl
@[simp] theorem State.setSensor_pins (s : State) (n : Nat) (v : Sensor) : (s.setSensor n v).pins = s.pins := rfl
@[simp] theorem State.setSensor_bays (s : State) (n : Nat) (v : Sensor) : (s.setSensor n v).bays = s.bays := rfl
@[simp] theorem State.setSensor_tiles (s : State) (n : Nat) (v : Sensor) : (s.setSensor n v).tiles = s.tiles := rfl
@[simp] theorem State.setSensor_stage (s : State) (n : Nat) (v : Sensor) : (s.setSensor n v).stage = s.stage := rfl
@[simp] theorem State.setSensor_gddr (s : State) (n : Nat) (v : Sensor) : (s.setSensor n v).gddr = s.gddr := rfl
@[simp] theorem State.setSensor_strm (s : State) (n : Nat) (v : Sensor) : (s.setSensor n v).strm = s.strm := rfl
@[simp] theorem State.setSensor_scores (s : State) (n : Nat) (v : Sensor) : (s.setSensor n v).scores = s.scores := rfl
@[simp] theorem State.setSensor_engines (s : State) (n : Nat) (v : Sensor) : (s.setSensor n v).engines = s.engines := rfl
@[simp] theorem State.setSensor_light (s : State) (n : Nat) (v : Sensor) : (s.setSensor n v).light = s.light := rfl
@[simp] theorem State.setSensor_trims (s : State) (n : Nat) (v : Sensor) : (s.setSensor n v).trims = s.trims := rfl
@[simp] theorem State.setSensor_scan (s : State) (n : Nat) (v : Sensor) : (s.setSensor n v).scan = s.scan := rfl
@[simp] theorem State.setSensor_sec (s : State) (n : Nat) (v : Sensor) : (s.setSensor n v).sec = s.sec := rfl
@[simp] theorem State.setSensor_fab (s : State) (n : Nat) (v : Sensor) : (s.setSensor n v).fab = s.fab := rfl
@[simp] theorem State.setSensor_cmd (s : State) (n : Nat) (v : Sensor) : (s.setSensor n v).cmd = s.cmd := rfl
@[simp] theorem State.setSensor_clk (s : State) (n : Nat) (v : Sensor) : (s.setSensor n v).clk = s.clk := rfl
@[simp] theorem State.setSensor_pwr (s : State) (n : Nat) (v : Sensor) : (s.setSensor n v).pwr = s.pwr := rfl
@[simp] theorem State.setSensor_faults (s : State) (n : Nat) (v : Sensor) : (s.setSensor n v).faults = s.faults := rfl
@[simp] theorem State.setSensor_link (s : State) (n : Nat) (v : Sensor) : (s.setSensor n v).link = s.link := rfl

@[simp] theorem State.setScore_pending (s : State) (i : ScoreId) (v : Score) : (s.setScore i v).pending = s.pending := rfl
@[simp] theorem State.setScore_tick (s : State) (i : ScoreId) (v : Score) : (s.setScore i v).tick = s.tick := rfl
@[simp] theorem State.setScore_core (s : State) (i : ScoreId) (v : Score) : (s.setScore i v).core = s.core := rfl
@[simp] theorem State.setScore_free (s : State) (i : ScoreId) (v : Score) : (s.setScore i v).free = s.free := rfl
@[simp] theorem State.setScore_regs (s : State) (i : ScoreId) (v : Score) : (s.setScore i v).regs = s.regs := rfl
@[simp] theorem State.setScore_armed (s : State) (i : ScoreId) (v : Score) : (s.setScore i v).armed = s.armed := rfl
@[simp] theorem State.setScore_arb (s : State) (i : ScoreId) (v : Score) : (s.setScore i v).arb = s.arb := rfl
@[simp] theorem State.setScore_pins (s : State) (i : ScoreId) (v : Score) : (s.setScore i v).pins = s.pins := rfl
@[simp] theorem State.setScore_bays (s : State) (i : ScoreId) (v : Score) : (s.setScore i v).bays = s.bays := rfl
@[simp] theorem State.setScore_tiles (s : State) (i : ScoreId) (v : Score) : (s.setScore i v).tiles = s.tiles := rfl
@[simp] theorem State.setScore_stage (s : State) (i : ScoreId) (v : Score) : (s.setScore i v).stage = s.stage := rfl
@[simp] theorem State.setScore_gddr (s : State) (i : ScoreId) (v : Score) : (s.setScore i v).gddr = s.gddr := rfl
@[simp] theorem State.setScore_strm (s : State) (i : ScoreId) (v : Score) : (s.setScore i v).strm = s.strm := rfl
@[simp] theorem State.setScore_engines (s : State) (i : ScoreId) (v : Score) : (s.setScore i v).engines = s.engines := rfl
@[simp] theorem State.setScore_light (s : State) (i : ScoreId) (v : Score) : (s.setScore i v).light = s.light := rfl
@[simp] theorem State.setScore_trims (s : State) (i : ScoreId) (v : Score) : (s.setScore i v).trims = s.trims := rfl
@[simp] theorem State.setScore_scan (s : State) (i : ScoreId) (v : Score) : (s.setScore i v).scan = s.scan := rfl
@[simp] theorem State.setScore_sensors (s : State) (i : ScoreId) (v : Score) : (s.setScore i v).sensors = s.sensors := rfl
@[simp] theorem State.setScore_sec (s : State) (i : ScoreId) (v : Score) : (s.setScore i v).sec = s.sec := rfl
@[simp] theorem State.setScore_fab (s : State) (i : ScoreId) (v : Score) : (s.setScore i v).fab = s.fab := rfl
@[simp] theorem State.setScore_cmd (s : State) (i : ScoreId) (v : Score) : (s.setScore i v).cmd = s.cmd := rfl
@[simp] theorem State.setScore_clk (s : State) (i : ScoreId) (v : Score) : (s.setScore i v).clk = s.clk := rfl
@[simp] theorem State.setScore_pwr (s : State) (i : ScoreId) (v : Score) : (s.setScore i v).pwr = s.pwr := rfl
@[simp] theorem State.setScore_faults (s : State) (i : ScoreId) (v : Score) : (s.setScore i v).faults = s.faults := rfl
@[simp] theorem State.setScore_link (s : State) (i : ScoreId) (v : Score) : (s.setScore i v).link = s.link := rfl

@[simp] theorem State.setQueue_pending (s : State) (q : Nat) (v : Queue) : (s.setQueue q v).pending = s.pending := rfl
@[simp] theorem State.setQueue_tick (s : State) (q : Nat) (v : Queue) : (s.setQueue q v).tick = s.tick := rfl
@[simp] theorem State.setQueue_core (s : State) (q : Nat) (v : Queue) : (s.setQueue q v).core = s.core := rfl
@[simp] theorem State.setQueue_free (s : State) (q : Nat) (v : Queue) : (s.setQueue q v).free = s.free := rfl
@[simp] theorem State.setQueue_regs (s : State) (q : Nat) (v : Queue) : (s.setQueue q v).regs = s.regs := rfl
@[simp] theorem State.setQueue_armed (s : State) (q : Nat) (v : Queue) : (s.setQueue q v).armed = s.armed := rfl
@[simp] theorem State.setQueue_arb (s : State) (q : Nat) (v : Queue) : (s.setQueue q v).arb = s.arb := rfl
@[simp] theorem State.setQueue_pins (s : State) (q : Nat) (v : Queue) : (s.setQueue q v).pins = s.pins := rfl
@[simp] theorem State.setQueue_bays (s : State) (q : Nat) (v : Queue) : (s.setQueue q v).bays = s.bays := rfl
@[simp] theorem State.setQueue_tiles (s : State) (q : Nat) (v : Queue) : (s.setQueue q v).tiles = s.tiles := rfl
@[simp] theorem State.setQueue_stage (s : State) (q : Nat) (v : Queue) : (s.setQueue q v).stage = s.stage := rfl
@[simp] theorem State.setQueue_gddr (s : State) (q : Nat) (v : Queue) : (s.setQueue q v).gddr = s.gddr := rfl
@[simp] theorem State.setQueue_scores (s : State) (q : Nat) (v : Queue) : (s.setQueue q v).scores = s.scores := rfl
@[simp] theorem State.setQueue_engines (s : State) (q : Nat) (v : Queue) : (s.setQueue q v).engines = s.engines := rfl
@[simp] theorem State.setQueue_light (s : State) (q : Nat) (v : Queue) : (s.setQueue q v).light = s.light := rfl
@[simp] theorem State.setQueue_trims (s : State) (q : Nat) (v : Queue) : (s.setQueue q v).trims = s.trims := rfl
@[simp] theorem State.setQueue_scan (s : State) (q : Nat) (v : Queue) : (s.setQueue q v).scan = s.scan := rfl
@[simp] theorem State.setQueue_sensors (s : State) (q : Nat) (v : Queue) : (s.setQueue q v).sensors = s.sensors := rfl
@[simp] theorem State.setQueue_sec (s : State) (q : Nat) (v : Queue) : (s.setQueue q v).sec = s.sec := rfl
@[simp] theorem State.setQueue_fab (s : State) (q : Nat) (v : Queue) : (s.setQueue q v).fab = s.fab := rfl
@[simp] theorem State.setQueue_cmd (s : State) (q : Nat) (v : Queue) : (s.setQueue q v).cmd = s.cmd := rfl
@[simp] theorem State.setQueue_clk (s : State) (q : Nat) (v : Queue) : (s.setQueue q v).clk = s.clk := rfl
@[simp] theorem State.setQueue_pwr (s : State) (q : Nat) (v : Queue) : (s.setQueue q v).pwr = s.pwr := rfl
@[simp] theorem State.setQueue_faults (s : State) (q : Nat) (v : Queue) : (s.setQueue q v).faults = s.faults := rfl
@[simp] theorem State.setQueue_link (s : State) (q : Nat) (v : Queue) : (s.setQueue q v).link = s.link := rfl

@[simp] theorem State.setSbuf_pending (s : State) (n : Nat) (v : SBuf) : (s.setSbuf n v).pending = s.pending := rfl
@[simp] theorem State.setSbuf_tick (s : State) (n : Nat) (v : SBuf) : (s.setSbuf n v).tick = s.tick := rfl
@[simp] theorem State.setSbuf_core (s : State) (n : Nat) (v : SBuf) : (s.setSbuf n v).core = s.core := rfl
@[simp] theorem State.setSbuf_free (s : State) (n : Nat) (v : SBuf) : (s.setSbuf n v).free = s.free := rfl
@[simp] theorem State.setSbuf_regs (s : State) (n : Nat) (v : SBuf) : (s.setSbuf n v).regs = s.regs := rfl
@[simp] theorem State.setSbuf_armed (s : State) (n : Nat) (v : SBuf) : (s.setSbuf n v).armed = s.armed := rfl
@[simp] theorem State.setSbuf_arb (s : State) (n : Nat) (v : SBuf) : (s.setSbuf n v).arb = s.arb := rfl
@[simp] theorem State.setSbuf_pins (s : State) (n : Nat) (v : SBuf) : (s.setSbuf n v).pins = s.pins := rfl
@[simp] theorem State.setSbuf_bays (s : State) (n : Nat) (v : SBuf) : (s.setSbuf n v).bays = s.bays := rfl
@[simp] theorem State.setSbuf_tiles (s : State) (n : Nat) (v : SBuf) : (s.setSbuf n v).tiles = s.tiles := rfl
@[simp] theorem State.setSbuf_stage (s : State) (n : Nat) (v : SBuf) : (s.setSbuf n v).stage = s.stage := rfl
@[simp] theorem State.setSbuf_gddr (s : State) (n : Nat) (v : SBuf) : (s.setSbuf n v).gddr = s.gddr := rfl
@[simp] theorem State.setSbuf_scores (s : State) (n : Nat) (v : SBuf) : (s.setSbuf n v).scores = s.scores := rfl
@[simp] theorem State.setSbuf_engines (s : State) (n : Nat) (v : SBuf) : (s.setSbuf n v).engines = s.engines := rfl
@[simp] theorem State.setSbuf_light (s : State) (n : Nat) (v : SBuf) : (s.setSbuf n v).light = s.light := rfl
@[simp] theorem State.setSbuf_trims (s : State) (n : Nat) (v : SBuf) : (s.setSbuf n v).trims = s.trims := rfl
@[simp] theorem State.setSbuf_scan (s : State) (n : Nat) (v : SBuf) : (s.setSbuf n v).scan = s.scan := rfl
@[simp] theorem State.setSbuf_sensors (s : State) (n : Nat) (v : SBuf) : (s.setSbuf n v).sensors = s.sensors := rfl
@[simp] theorem State.setSbuf_sec (s : State) (n : Nat) (v : SBuf) : (s.setSbuf n v).sec = s.sec := rfl
@[simp] theorem State.setSbuf_fab (s : State) (n : Nat) (v : SBuf) : (s.setSbuf n v).fab = s.fab := rfl
@[simp] theorem State.setSbuf_cmd (s : State) (n : Nat) (v : SBuf) : (s.setSbuf n v).cmd = s.cmd := rfl
@[simp] theorem State.setSbuf_clk (s : State) (n : Nat) (v : SBuf) : (s.setSbuf n v).clk = s.clk := rfl
@[simp] theorem State.setSbuf_pwr (s : State) (n : Nat) (v : SBuf) : (s.setSbuf n v).pwr = s.pwr := rfl
@[simp] theorem State.setSbuf_faults (s : State) (n : Nat) (v : SBuf) : (s.setSbuf n v).faults = s.faults := rfl
@[simp] theorem State.setSbuf_link (s : State) (n : Nat) (v : SBuf) : (s.setSbuf n v).link = s.link := rfl

@[simp] theorem State.setRwin_pending (s : State) (w : Nat) (v : RWin) : (s.setRwin w v).pending = s.pending := rfl
@[simp] theorem State.setRwin_tick (s : State) (w : Nat) (v : RWin) : (s.setRwin w v).tick = s.tick := rfl
@[simp] theorem State.setRwin_core (s : State) (w : Nat) (v : RWin) : (s.setRwin w v).core = s.core := rfl
@[simp] theorem State.setRwin_free (s : State) (w : Nat) (v : RWin) : (s.setRwin w v).free = s.free := rfl
@[simp] theorem State.setRwin_regs (s : State) (w : Nat) (v : RWin) : (s.setRwin w v).regs = s.regs := rfl
@[simp] theorem State.setRwin_armed (s : State) (w : Nat) (v : RWin) : (s.setRwin w v).armed = s.armed := rfl
@[simp] theorem State.setRwin_arb (s : State) (w : Nat) (v : RWin) : (s.setRwin w v).arb = s.arb := rfl
@[simp] theorem State.setRwin_pins (s : State) (w : Nat) (v : RWin) : (s.setRwin w v).pins = s.pins := rfl
@[simp] theorem State.setRwin_bays (s : State) (w : Nat) (v : RWin) : (s.setRwin w v).bays = s.bays := rfl
@[simp] theorem State.setRwin_tiles (s : State) (w : Nat) (v : RWin) : (s.setRwin w v).tiles = s.tiles := rfl
@[simp] theorem State.setRwin_stage (s : State) (w : Nat) (v : RWin) : (s.setRwin w v).stage = s.stage := rfl
@[simp] theorem State.setRwin_gddr (s : State) (w : Nat) (v : RWin) : (s.setRwin w v).gddr = s.gddr := rfl
@[simp] theorem State.setRwin_scores (s : State) (w : Nat) (v : RWin) : (s.setRwin w v).scores = s.scores := rfl
@[simp] theorem State.setRwin_engines (s : State) (w : Nat) (v : RWin) : (s.setRwin w v).engines = s.engines := rfl
@[simp] theorem State.setRwin_light (s : State) (w : Nat) (v : RWin) : (s.setRwin w v).light = s.light := rfl
@[simp] theorem State.setRwin_trims (s : State) (w : Nat) (v : RWin) : (s.setRwin w v).trims = s.trims := rfl
@[simp] theorem State.setRwin_scan (s : State) (w : Nat) (v : RWin) : (s.setRwin w v).scan = s.scan := rfl
@[simp] theorem State.setRwin_sensors (s : State) (w : Nat) (v : RWin) : (s.setRwin w v).sensors = s.sensors := rfl
@[simp] theorem State.setRwin_sec (s : State) (w : Nat) (v : RWin) : (s.setRwin w v).sec = s.sec := rfl
@[simp] theorem State.setRwin_fab (s : State) (w : Nat) (v : RWin) : (s.setRwin w v).fab = s.fab := rfl
@[simp] theorem State.setRwin_cmd (s : State) (w : Nat) (v : RWin) : (s.setRwin w v).cmd = s.cmd := rfl
@[simp] theorem State.setRwin_clk (s : State) (w : Nat) (v : RWin) : (s.setRwin w v).clk = s.clk := rfl
@[simp] theorem State.setRwin_pwr (s : State) (w : Nat) (v : RWin) : (s.setRwin w v).pwr = s.pwr := rfl
@[simp] theorem State.setRwin_faults (s : State) (w : Nat) (v : RWin) : (s.setRwin w v).faults = s.faults := rfl
@[simp] theorem State.setRwin_link (s : State) (w : Nat) (v : RWin) : (s.setRwin w v).link = s.link := rfl

@[simp] theorem State.setDom_pending (s : State) (d : Nat) (v : Dom) : (s.setDom d v).pending = s.pending := rfl
@[simp] theorem State.setDom_tick (s : State) (d : Nat) (v : Dom) : (s.setDom d v).tick = s.tick := rfl
@[simp] theorem State.setDom_core (s : State) (d : Nat) (v : Dom) : (s.setDom d v).core = s.core := rfl
@[simp] theorem State.setDom_free (s : State) (d : Nat) (v : Dom) : (s.setDom d v).free = s.free := rfl
@[simp] theorem State.setDom_regs (s : State) (d : Nat) (v : Dom) : (s.setDom d v).regs = s.regs := rfl
@[simp] theorem State.setDom_armed (s : State) (d : Nat) (v : Dom) : (s.setDom d v).armed = s.armed := rfl
@[simp] theorem State.setDom_arb (s : State) (d : Nat) (v : Dom) : (s.setDom d v).arb = s.arb := rfl
@[simp] theorem State.setDom_pins (s : State) (d : Nat) (v : Dom) : (s.setDom d v).pins = s.pins := rfl
@[simp] theorem State.setDom_bays (s : State) (d : Nat) (v : Dom) : (s.setDom d v).bays = s.bays := rfl
@[simp] theorem State.setDom_tiles (s : State) (d : Nat) (v : Dom) : (s.setDom d v).tiles = s.tiles := rfl
@[simp] theorem State.setDom_stage (s : State) (d : Nat) (v : Dom) : (s.setDom d v).stage = s.stage := rfl
@[simp] theorem State.setDom_gddr (s : State) (d : Nat) (v : Dom) : (s.setDom d v).gddr = s.gddr := rfl
@[simp] theorem State.setDom_strm (s : State) (d : Nat) (v : Dom) : (s.setDom d v).strm = s.strm := rfl
@[simp] theorem State.setDom_scores (s : State) (d : Nat) (v : Dom) : (s.setDom d v).scores = s.scores := rfl
@[simp] theorem State.setDom_engines (s : State) (d : Nat) (v : Dom) : (s.setDom d v).engines = s.engines := rfl
@[simp] theorem State.setDom_light (s : State) (d : Nat) (v : Dom) : (s.setDom d v).light = s.light := rfl
@[simp] theorem State.setDom_trims (s : State) (d : Nat) (v : Dom) : (s.setDom d v).trims = s.trims := rfl
@[simp] theorem State.setDom_scan (s : State) (d : Nat) (v : Dom) : (s.setDom d v).scan = s.scan := rfl
@[simp] theorem State.setDom_sensors (s : State) (d : Nat) (v : Dom) : (s.setDom d v).sensors = s.sensors := rfl
@[simp] theorem State.setDom_sec (s : State) (d : Nat) (v : Dom) : (s.setDom d v).sec = s.sec := rfl
@[simp] theorem State.setDom_fab (s : State) (d : Nat) (v : Dom) : (s.setDom d v).fab = s.fab := rfl
@[simp] theorem State.setDom_cmd (s : State) (d : Nat) (v : Dom) : (s.setDom d v).cmd = s.cmd := rfl
@[simp] theorem State.setDom_pwr (s : State) (d : Nat) (v : Dom) : (s.setDom d v).pwr = s.pwr := rfl
@[simp] theorem State.setDom_faults (s : State) (d : Nat) (v : Dom) : (s.setDom d v).faults = s.faults := rfl
@[simp] theorem State.setDom_link (s : State) (d : Nat) (v : Dom) : (s.setDom d v).link = s.link := rfl

@[simp] theorem State.setRail_pending (s : State) (r : Nat) (v : Rail) : (s.setRail r v).pending = s.pending := rfl
@[simp] theorem State.setRail_tick (s : State) (r : Nat) (v : Rail) : (s.setRail r v).tick = s.tick := rfl
@[simp] theorem State.setRail_core (s : State) (r : Nat) (v : Rail) : (s.setRail r v).core = s.core := rfl
@[simp] theorem State.setRail_free (s : State) (r : Nat) (v : Rail) : (s.setRail r v).free = s.free := rfl
@[simp] theorem State.setRail_regs (s : State) (r : Nat) (v : Rail) : (s.setRail r v).regs = s.regs := rfl
@[simp] theorem State.setRail_armed (s : State) (r : Nat) (v : Rail) : (s.setRail r v).armed = s.armed := rfl
@[simp] theorem State.setRail_arb (s : State) (r : Nat) (v : Rail) : (s.setRail r v).arb = s.arb := rfl
@[simp] theorem State.setRail_pins (s : State) (r : Nat) (v : Rail) : (s.setRail r v).pins = s.pins := rfl
@[simp] theorem State.setRail_bays (s : State) (r : Nat) (v : Rail) : (s.setRail r v).bays = s.bays := rfl
@[simp] theorem State.setRail_tiles (s : State) (r : Nat) (v : Rail) : (s.setRail r v).tiles = s.tiles := rfl
@[simp] theorem State.setRail_stage (s : State) (r : Nat) (v : Rail) : (s.setRail r v).stage = s.stage := rfl
@[simp] theorem State.setRail_gddr (s : State) (r : Nat) (v : Rail) : (s.setRail r v).gddr = s.gddr := rfl
@[simp] theorem State.setRail_strm (s : State) (r : Nat) (v : Rail) : (s.setRail r v).strm = s.strm := rfl
@[simp] theorem State.setRail_scores (s : State) (r : Nat) (v : Rail) : (s.setRail r v).scores = s.scores := rfl
@[simp] theorem State.setRail_engines (s : State) (r : Nat) (v : Rail) : (s.setRail r v).engines = s.engines := rfl
@[simp] theorem State.setRail_light (s : State) (r : Nat) (v : Rail) : (s.setRail r v).light = s.light := rfl
@[simp] theorem State.setRail_trims (s : State) (r : Nat) (v : Rail) : (s.setRail r v).trims = s.trims := rfl
@[simp] theorem State.setRail_scan (s : State) (r : Nat) (v : Rail) : (s.setRail r v).scan = s.scan := rfl
@[simp] theorem State.setRail_sensors (s : State) (r : Nat) (v : Rail) : (s.setRail r v).sensors = s.sensors := rfl
@[simp] theorem State.setRail_sec (s : State) (r : Nat) (v : Rail) : (s.setRail r v).sec = s.sec := rfl
@[simp] theorem State.setRail_fab (s : State) (r : Nat) (v : Rail) : (s.setRail r v).fab = s.fab := rfl
@[simp] theorem State.setRail_cmd (s : State) (r : Nat) (v : Rail) : (s.setRail r v).cmd = s.cmd := rfl
@[simp] theorem State.setRail_clk (s : State) (r : Nat) (v : Rail) : (s.setRail r v).clk = s.clk := rfl
@[simp] theorem State.setRail_faults (s : State) (r : Nat) (v : Rail) : (s.setRail r v).faults = s.faults := rfl
@[simp] theorem State.setRail_link (s : State) (r : Nat) (v : Rail) : (s.setRail r v).link = s.link := rfl

@[simp] theorem State.setPort_pending (s : State) (p : Nat) (v : Port) : (s.setPort p v).pending = s.pending := rfl
@[simp] theorem State.setPort_tick (s : State) (p : Nat) (v : Port) : (s.setPort p v).tick = s.tick := rfl
@[simp] theorem State.setPort_core (s : State) (p : Nat) (v : Port) : (s.setPort p v).core = s.core := rfl
@[simp] theorem State.setPort_free (s : State) (p : Nat) (v : Port) : (s.setPort p v).free = s.free := rfl
@[simp] theorem State.setPort_regs (s : State) (p : Nat) (v : Port) : (s.setPort p v).regs = s.regs := rfl
@[simp] theorem State.setPort_armed (s : State) (p : Nat) (v : Port) : (s.setPort p v).armed = s.armed := rfl
@[simp] theorem State.setPort_arb (s : State) (p : Nat) (v : Port) : (s.setPort p v).arb = s.arb := rfl
@[simp] theorem State.setPort_pins (s : State) (p : Nat) (v : Port) : (s.setPort p v).pins = s.pins := rfl
@[simp] theorem State.setPort_bays (s : State) (p : Nat) (v : Port) : (s.setPort p v).bays = s.bays := rfl
@[simp] theorem State.setPort_tiles (s : State) (p : Nat) (v : Port) : (s.setPort p v).tiles = s.tiles := rfl
@[simp] theorem State.setPort_stage (s : State) (p : Nat) (v : Port) : (s.setPort p v).stage = s.stage := rfl
@[simp] theorem State.setPort_gddr (s : State) (p : Nat) (v : Port) : (s.setPort p v).gddr = s.gddr := rfl
@[simp] theorem State.setPort_strm (s : State) (p : Nat) (v : Port) : (s.setPort p v).strm = s.strm := rfl
@[simp] theorem State.setPort_scores (s : State) (p : Nat) (v : Port) : (s.setPort p v).scores = s.scores := rfl
@[simp] theorem State.setPort_engines (s : State) (p : Nat) (v : Port) : (s.setPort p v).engines = s.engines := rfl
@[simp] theorem State.setPort_light (s : State) (p : Nat) (v : Port) : (s.setPort p v).light = s.light := rfl
@[simp] theorem State.setPort_trims (s : State) (p : Nat) (v : Port) : (s.setPort p v).trims = s.trims := rfl
@[simp] theorem State.setPort_scan (s : State) (p : Nat) (v : Port) : (s.setPort p v).scan = s.scan := rfl
@[simp] theorem State.setPort_sensors (s : State) (p : Nat) (v : Port) : (s.setPort p v).sensors = s.sensors := rfl
@[simp] theorem State.setPort_sec (s : State) (p : Nat) (v : Port) : (s.setPort p v).sec = s.sec := rfl
@[simp] theorem State.setPort_cmd (s : State) (p : Nat) (v : Port) : (s.setPort p v).cmd = s.cmd := rfl
@[simp] theorem State.setPort_clk (s : State) (p : Nat) (v : Port) : (s.setPort p v).clk = s.clk := rfl
@[simp] theorem State.setPort_pwr (s : State) (p : Nat) (v : Port) : (s.setPort p v).pwr = s.pwr := rfl
@[simp] theorem State.setPort_faults (s : State) (p : Nat) (v : Port) : (s.setPort p v).faults = s.faults := rfl
@[simp] theorem State.setPort_link (s : State) (p : Nat) (v : Port) : (s.setPort p v).link = s.link := rfl

@[simp] theorem State.setGroup_pending (s : State) (p g : Nat) (v : FabGroup) : (s.setGroup p g v).pending = s.pending := rfl
@[simp] theorem State.setGroup_tick (s : State) (p g : Nat) (v : FabGroup) : (s.setGroup p g v).tick = s.tick := rfl
@[simp] theorem State.setGroup_core (s : State) (p g : Nat) (v : FabGroup) : (s.setGroup p g v).core = s.core := rfl
@[simp] theorem State.setGroup_free (s : State) (p g : Nat) (v : FabGroup) : (s.setGroup p g v).free = s.free := rfl
@[simp] theorem State.setGroup_regs (s : State) (p g : Nat) (v : FabGroup) : (s.setGroup p g v).regs = s.regs := rfl
@[simp] theorem State.setGroup_armed (s : State) (p g : Nat) (v : FabGroup) : (s.setGroup p g v).armed = s.armed := rfl
@[simp] theorem State.setGroup_arb (s : State) (p g : Nat) (v : FabGroup) : (s.setGroup p g v).arb = s.arb := rfl
@[simp] theorem State.setGroup_pins (s : State) (p g : Nat) (v : FabGroup) : (s.setGroup p g v).pins = s.pins := rfl
@[simp] theorem State.setGroup_bays (s : State) (p g : Nat) (v : FabGroup) : (s.setGroup p g v).bays = s.bays := rfl
@[simp] theorem State.setGroup_tiles (s : State) (p g : Nat) (v : FabGroup) : (s.setGroup p g v).tiles = s.tiles := rfl
@[simp] theorem State.setGroup_stage (s : State) (p g : Nat) (v : FabGroup) : (s.setGroup p g v).stage = s.stage := rfl
@[simp] theorem State.setGroup_gddr (s : State) (p g : Nat) (v : FabGroup) : (s.setGroup p g v).gddr = s.gddr := rfl
@[simp] theorem State.setGroup_strm (s : State) (p g : Nat) (v : FabGroup) : (s.setGroup p g v).strm = s.strm := rfl
@[simp] theorem State.setGroup_scores (s : State) (p g : Nat) (v : FabGroup) : (s.setGroup p g v).scores = s.scores := rfl
@[simp] theorem State.setGroup_engines (s : State) (p g : Nat) (v : FabGroup) : (s.setGroup p g v).engines = s.engines := rfl
@[simp] theorem State.setGroup_light (s : State) (p g : Nat) (v : FabGroup) : (s.setGroup p g v).light = s.light := rfl
@[simp] theorem State.setGroup_trims (s : State) (p g : Nat) (v : FabGroup) : (s.setGroup p g v).trims = s.trims := rfl
@[simp] theorem State.setGroup_scan (s : State) (p g : Nat) (v : FabGroup) : (s.setGroup p g v).scan = s.scan := rfl
@[simp] theorem State.setGroup_sensors (s : State) (p g : Nat) (v : FabGroup) : (s.setGroup p g v).sensors = s.sensors := rfl
@[simp] theorem State.setGroup_sec (s : State) (p g : Nat) (v : FabGroup) : (s.setGroup p g v).sec = s.sec := rfl
@[simp] theorem State.setGroup_cmd (s : State) (p g : Nat) (v : FabGroup) : (s.setGroup p g v).cmd = s.cmd := rfl
@[simp] theorem State.setGroup_clk (s : State) (p g : Nat) (v : FabGroup) : (s.setGroup p g v).clk = s.clk := rfl
@[simp] theorem State.setGroup_pwr (s : State) (p g : Nat) (v : FabGroup) : (s.setGroup p g v).pwr = s.pwr := rfl
@[simp] theorem State.setGroup_faults (s : State) (p g : Nat) (v : FabGroup) : (s.setGroup p g v).faults = s.faults := rfl
@[simp] theorem State.setGroup_link (s : State) (p g : Nat) (v : FabGroup) : (s.setGroup p g v).link = s.link := rfl

@[simp] theorem State.setPartner_pending (s : State) (n : Nat) (v : Partner) : (s.setPartner n v).pending = s.pending := rfl
@[simp] theorem State.setPartner_tick (s : State) (n : Nat) (v : Partner) : (s.setPartner n v).tick = s.tick := rfl
@[simp] theorem State.setPartner_core (s : State) (n : Nat) (v : Partner) : (s.setPartner n v).core = s.core := rfl
@[simp] theorem State.setPartner_free (s : State) (n : Nat) (v : Partner) : (s.setPartner n v).free = s.free := rfl
@[simp] theorem State.setPartner_regs (s : State) (n : Nat) (v : Partner) : (s.setPartner n v).regs = s.regs := rfl
@[simp] theorem State.setPartner_armed (s : State) (n : Nat) (v : Partner) : (s.setPartner n v).armed = s.armed := rfl
@[simp] theorem State.setPartner_arb (s : State) (n : Nat) (v : Partner) : (s.setPartner n v).arb = s.arb := rfl
@[simp] theorem State.setPartner_pins (s : State) (n : Nat) (v : Partner) : (s.setPartner n v).pins = s.pins := rfl
@[simp] theorem State.setPartner_bays (s : State) (n : Nat) (v : Partner) : (s.setPartner n v).bays = s.bays := rfl
@[simp] theorem State.setPartner_tiles (s : State) (n : Nat) (v : Partner) : (s.setPartner n v).tiles = s.tiles := rfl
@[simp] theorem State.setPartner_stage (s : State) (n : Nat) (v : Partner) : (s.setPartner n v).stage = s.stage := rfl
@[simp] theorem State.setPartner_gddr (s : State) (n : Nat) (v : Partner) : (s.setPartner n v).gddr = s.gddr := rfl
@[simp] theorem State.setPartner_strm (s : State) (n : Nat) (v : Partner) : (s.setPartner n v).strm = s.strm := rfl
@[simp] theorem State.setPartner_scores (s : State) (n : Nat) (v : Partner) : (s.setPartner n v).scores = s.scores := rfl
@[simp] theorem State.setPartner_engines (s : State) (n : Nat) (v : Partner) : (s.setPartner n v).engines = s.engines := rfl
@[simp] theorem State.setPartner_light (s : State) (n : Nat) (v : Partner) : (s.setPartner n v).light = s.light := rfl
@[simp] theorem State.setPartner_trims (s : State) (n : Nat) (v : Partner) : (s.setPartner n v).trims = s.trims := rfl
@[simp] theorem State.setPartner_scan (s : State) (n : Nat) (v : Partner) : (s.setPartner n v).scan = s.scan := rfl
@[simp] theorem State.setPartner_sensors (s : State) (n : Nat) (v : Partner) : (s.setPartner n v).sensors = s.sensors := rfl
@[simp] theorem State.setPartner_sec (s : State) (n : Nat) (v : Partner) : (s.setPartner n v).sec = s.sec := rfl
@[simp] theorem State.setPartner_cmd (s : State) (n : Nat) (v : Partner) : (s.setPartner n v).cmd = s.cmd := rfl
@[simp] theorem State.setPartner_clk (s : State) (n : Nat) (v : Partner) : (s.setPartner n v).clk = s.clk := rfl
@[simp] theorem State.setPartner_pwr (s : State) (n : Nat) (v : Partner) : (s.setPartner n v).pwr = s.pwr := rfl
@[simp] theorem State.setPartner_faults (s : State) (n : Nat) (v : Partner) : (s.setPartner n v).faults = s.faults := rfl
@[simp] theorem State.setPartner_link (s : State) (n : Nat) (v : Partner) : (s.setPartner n v).link = s.link := rfl

@[simp] theorem State.setReg_pending (s : State) (off : Nat) (v : Word) : (s.setReg off v).pending = s.pending := rfl
@[simp] theorem State.setReg_tick (s : State) (off : Nat) (v : Word) : (s.setReg off v).tick = s.tick := rfl
@[simp] theorem State.setReg_core (s : State) (off : Nat) (v : Word) : (s.setReg off v).core = s.core := rfl
@[simp] theorem State.setReg_free (s : State) (off : Nat) (v : Word) : (s.setReg off v).free = s.free := rfl
@[simp] theorem State.setReg_armed (s : State) (off : Nat) (v : Word) : (s.setReg off v).armed = s.armed := rfl
@[simp] theorem State.setReg_arb (s : State) (off : Nat) (v : Word) : (s.setReg off v).arb = s.arb := rfl
@[simp] theorem State.setReg_pins (s : State) (off : Nat) (v : Word) : (s.setReg off v).pins = s.pins := rfl
@[simp] theorem State.setReg_bays (s : State) (off : Nat) (v : Word) : (s.setReg off v).bays = s.bays := rfl
@[simp] theorem State.setReg_tiles (s : State) (off : Nat) (v : Word) : (s.setReg off v).tiles = s.tiles := rfl
@[simp] theorem State.setReg_stage (s : State) (off : Nat) (v : Word) : (s.setReg off v).stage = s.stage := rfl
@[simp] theorem State.setReg_gddr (s : State) (off : Nat) (v : Word) : (s.setReg off v).gddr = s.gddr := rfl
@[simp] theorem State.setReg_strm (s : State) (off : Nat) (v : Word) : (s.setReg off v).strm = s.strm := rfl
@[simp] theorem State.setReg_scores (s : State) (off : Nat) (v : Word) : (s.setReg off v).scores = s.scores := rfl
@[simp] theorem State.setReg_engines (s : State) (off : Nat) (v : Word) : (s.setReg off v).engines = s.engines := rfl
@[simp] theorem State.setReg_light (s : State) (off : Nat) (v : Word) : (s.setReg off v).light = s.light := rfl
@[simp] theorem State.setReg_trims (s : State) (off : Nat) (v : Word) : (s.setReg off v).trims = s.trims := rfl
@[simp] theorem State.setReg_scan (s : State) (off : Nat) (v : Word) : (s.setReg off v).scan = s.scan := rfl
@[simp] theorem State.setReg_sensors (s : State) (off : Nat) (v : Word) : (s.setReg off v).sensors = s.sensors := rfl
@[simp] theorem State.setReg_sec (s : State) (off : Nat) (v : Word) : (s.setReg off v).sec = s.sec := rfl
@[simp] theorem State.setReg_fab (s : State) (off : Nat) (v : Word) : (s.setReg off v).fab = s.fab := rfl
@[simp] theorem State.setReg_cmd (s : State) (off : Nat) (v : Word) : (s.setReg off v).cmd = s.cmd := rfl
@[simp] theorem State.setReg_clk (s : State) (off : Nat) (v : Word) : (s.setReg off v).clk = s.clk := rfl
@[simp] theorem State.setReg_pwr (s : State) (off : Nat) (v : Word) : (s.setReg off v).pwr = s.pwr := rfl
@[simp] theorem State.setReg_faults (s : State) (off : Nat) (v : Word) : (s.setReg off v).faults = s.faults := rfl
@[simp] theorem State.setReg_link (s : State) (off : Nat) (v : Word) : (s.setReg off v).link = s.link := rfl

@[simp] theorem State.setFld_pending (s : State) (f : Fld) (v : Nat) : (s.setFld f v).pending = s.pending := rfl
@[simp] theorem State.setFld_tick (s : State) (f : Fld) (v : Nat) : (s.setFld f v).tick = s.tick := rfl
@[simp] theorem State.setFld_core (s : State) (f : Fld) (v : Nat) : (s.setFld f v).core = s.core := rfl
@[simp] theorem State.setFld_free (s : State) (f : Fld) (v : Nat) : (s.setFld f v).free = s.free := rfl
@[simp] theorem State.setFld_armed (s : State) (f : Fld) (v : Nat) : (s.setFld f v).armed = s.armed := rfl
@[simp] theorem State.setFld_arb (s : State) (f : Fld) (v : Nat) : (s.setFld f v).arb = s.arb := rfl
@[simp] theorem State.setFld_pins (s : State) (f : Fld) (v : Nat) : (s.setFld f v).pins = s.pins := rfl
@[simp] theorem State.setFld_bays (s : State) (f : Fld) (v : Nat) : (s.setFld f v).bays = s.bays := rfl
@[simp] theorem State.setFld_tiles (s : State) (f : Fld) (v : Nat) : (s.setFld f v).tiles = s.tiles := rfl
@[simp] theorem State.setFld_stage (s : State) (f : Fld) (v : Nat) : (s.setFld f v).stage = s.stage := rfl
@[simp] theorem State.setFld_gddr (s : State) (f : Fld) (v : Nat) : (s.setFld f v).gddr = s.gddr := rfl
@[simp] theorem State.setFld_strm (s : State) (f : Fld) (v : Nat) : (s.setFld f v).strm = s.strm := rfl
@[simp] theorem State.setFld_scores (s : State) (f : Fld) (v : Nat) : (s.setFld f v).scores = s.scores := rfl
@[simp] theorem State.setFld_engines (s : State) (f : Fld) (v : Nat) : (s.setFld f v).engines = s.engines := rfl
@[simp] theorem State.setFld_light (s : State) (f : Fld) (v : Nat) : (s.setFld f v).light = s.light := rfl
@[simp] theorem State.setFld_trims (s : State) (f : Fld) (v : Nat) : (s.setFld f v).trims = s.trims := rfl
@[simp] theorem State.setFld_scan (s : State) (f : Fld) (v : Nat) : (s.setFld f v).scan = s.scan := rfl
@[simp] theorem State.setFld_sensors (s : State) (f : Fld) (v : Nat) : (s.setFld f v).sensors = s.sensors := rfl
@[simp] theorem State.setFld_sec (s : State) (f : Fld) (v : Nat) : (s.setFld f v).sec = s.sec := rfl
@[simp] theorem State.setFld_fab (s : State) (f : Fld) (v : Nat) : (s.setFld f v).fab = s.fab := rfl
@[simp] theorem State.setFld_cmd (s : State) (f : Fld) (v : Nat) : (s.setFld f v).cmd = s.cmd := rfl
@[simp] theorem State.setFld_clk (s : State) (f : Fld) (v : Nat) : (s.setFld f v).clk = s.clk := rfl
@[simp] theorem State.setFld_pwr (s : State) (f : Fld) (v : Nat) : (s.setFld f v).pwr = s.pwr := rfl
@[simp] theorem State.setFld_faults (s : State) (f : Fld) (v : Nat) : (s.setFld f v).faults = s.faults := rfl
@[simp] theorem State.setFld_link (s : State) (f : Fld) (v : Nat) : (s.setFld f v).link = s.link := rfl

@[simp] theorem State.setFlag_pending (s : State) (f : Fld) (b : Bool) : (s.setFlag f b).pending = s.pending := rfl
@[simp] theorem State.setFlag_tick (s : State) (f : Fld) (b : Bool) : (s.setFlag f b).tick = s.tick := rfl
@[simp] theorem State.setFlag_core (s : State) (f : Fld) (b : Bool) : (s.setFlag f b).core = s.core := rfl
@[simp] theorem State.setFlag_free (s : State) (f : Fld) (b : Bool) : (s.setFlag f b).free = s.free := rfl
@[simp] theorem State.setFlag_armed (s : State) (f : Fld) (b : Bool) : (s.setFlag f b).armed = s.armed := rfl
@[simp] theorem State.setFlag_arb (s : State) (f : Fld) (b : Bool) : (s.setFlag f b).arb = s.arb := rfl
@[simp] theorem State.setFlag_pins (s : State) (f : Fld) (b : Bool) : (s.setFlag f b).pins = s.pins := rfl
@[simp] theorem State.setFlag_bays (s : State) (f : Fld) (b : Bool) : (s.setFlag f b).bays = s.bays := rfl
@[simp] theorem State.setFlag_tiles (s : State) (f : Fld) (b : Bool) : (s.setFlag f b).tiles = s.tiles := rfl
@[simp] theorem State.setFlag_stage (s : State) (f : Fld) (b : Bool) : (s.setFlag f b).stage = s.stage := rfl
@[simp] theorem State.setFlag_gddr (s : State) (f : Fld) (b : Bool) : (s.setFlag f b).gddr = s.gddr := rfl
@[simp] theorem State.setFlag_strm (s : State) (f : Fld) (b : Bool) : (s.setFlag f b).strm = s.strm := rfl
@[simp] theorem State.setFlag_scores (s : State) (f : Fld) (b : Bool) : (s.setFlag f b).scores = s.scores := rfl
@[simp] theorem State.setFlag_engines (s : State) (f : Fld) (b : Bool) : (s.setFlag f b).engines = s.engines := rfl
@[simp] theorem State.setFlag_light (s : State) (f : Fld) (b : Bool) : (s.setFlag f b).light = s.light := rfl
@[simp] theorem State.setFlag_trims (s : State) (f : Fld) (b : Bool) : (s.setFlag f b).trims = s.trims := rfl
@[simp] theorem State.setFlag_scan (s : State) (f : Fld) (b : Bool) : (s.setFlag f b).scan = s.scan := rfl
@[simp] theorem State.setFlag_sensors (s : State) (f : Fld) (b : Bool) : (s.setFlag f b).sensors = s.sensors := rfl
@[simp] theorem State.setFlag_sec (s : State) (f : Fld) (b : Bool) : (s.setFlag f b).sec = s.sec := rfl
@[simp] theorem State.setFlag_fab (s : State) (f : Fld) (b : Bool) : (s.setFlag f b).fab = s.fab := rfl
@[simp] theorem State.setFlag_cmd (s : State) (f : Fld) (b : Bool) : (s.setFlag f b).cmd = s.cmd := rfl
@[simp] theorem State.setFlag_clk (s : State) (f : Fld) (b : Bool) : (s.setFlag f b).clk = s.clk := rfl
@[simp] theorem State.setFlag_pwr (s : State) (f : Fld) (b : Bool) : (s.setFlag f b).pwr = s.pwr := rfl
@[simp] theorem State.setFlag_faults (s : State) (f : Fld) (b : Bool) : (s.setFlag f b).faults = s.faults := rfl
@[simp] theorem State.setFlag_link (s : State) (f : Fld) (b : Bool) : (s.setFlag f b).link = s.link := rfl

@[simp] theorem State.setBitOf_pending (s : State) (f : Fld) (i : Nat) (b : Bool) : (s.setBitOf f i b).pending = s.pending := rfl
@[simp] theorem State.setBitOf_tick (s : State) (f : Fld) (i : Nat) (b : Bool) : (s.setBitOf f i b).tick = s.tick := rfl
@[simp] theorem State.setBitOf_core (s : State) (f : Fld) (i : Nat) (b : Bool) : (s.setBitOf f i b).core = s.core := rfl
@[simp] theorem State.setBitOf_free (s : State) (f : Fld) (i : Nat) (b : Bool) : (s.setBitOf f i b).free = s.free := rfl
@[simp] theorem State.setBitOf_armed (s : State) (f : Fld) (i : Nat) (b : Bool) : (s.setBitOf f i b).armed = s.armed := rfl
@[simp] theorem State.setBitOf_arb (s : State) (f : Fld) (i : Nat) (b : Bool) : (s.setBitOf f i b).arb = s.arb := rfl
@[simp] theorem State.setBitOf_pins (s : State) (f : Fld) (i : Nat) (b : Bool) : (s.setBitOf f i b).pins = s.pins := rfl
@[simp] theorem State.setBitOf_bays (s : State) (f : Fld) (i : Nat) (b : Bool) : (s.setBitOf f i b).bays = s.bays := rfl
@[simp] theorem State.setBitOf_tiles (s : State) (f : Fld) (i : Nat) (b : Bool) : (s.setBitOf f i b).tiles = s.tiles := rfl
@[simp] theorem State.setBitOf_stage (s : State) (f : Fld) (i : Nat) (b : Bool) : (s.setBitOf f i b).stage = s.stage := rfl
@[simp] theorem State.setBitOf_gddr (s : State) (f : Fld) (i : Nat) (b : Bool) : (s.setBitOf f i b).gddr = s.gddr := rfl
@[simp] theorem State.setBitOf_strm (s : State) (f : Fld) (i : Nat) (b : Bool) : (s.setBitOf f i b).strm = s.strm := rfl
@[simp] theorem State.setBitOf_scores (s : State) (f : Fld) (i : Nat) (b : Bool) : (s.setBitOf f i b).scores = s.scores := rfl
@[simp] theorem State.setBitOf_engines (s : State) (f : Fld) (i : Nat) (b : Bool) : (s.setBitOf f i b).engines = s.engines := rfl
@[simp] theorem State.setBitOf_light (s : State) (f : Fld) (i : Nat) (b : Bool) : (s.setBitOf f i b).light = s.light := rfl
@[simp] theorem State.setBitOf_trims (s : State) (f : Fld) (i : Nat) (b : Bool) : (s.setBitOf f i b).trims = s.trims := rfl
@[simp] theorem State.setBitOf_scan (s : State) (f : Fld) (i : Nat) (b : Bool) : (s.setBitOf f i b).scan = s.scan := rfl
@[simp] theorem State.setBitOf_sensors (s : State) (f : Fld) (i : Nat) (b : Bool) : (s.setBitOf f i b).sensors = s.sensors := rfl
@[simp] theorem State.setBitOf_sec (s : State) (f : Fld) (i : Nat) (b : Bool) : (s.setBitOf f i b).sec = s.sec := rfl
@[simp] theorem State.setBitOf_fab (s : State) (f : Fld) (i : Nat) (b : Bool) : (s.setBitOf f i b).fab = s.fab := rfl
@[simp] theorem State.setBitOf_cmd (s : State) (f : Fld) (i : Nat) (b : Bool) : (s.setBitOf f i b).cmd = s.cmd := rfl
@[simp] theorem State.setBitOf_clk (s : State) (f : Fld) (i : Nat) (b : Bool) : (s.setBitOf f i b).clk = s.clk := rfl
@[simp] theorem State.setBitOf_pwr (s : State) (f : Fld) (i : Nat) (b : Bool) : (s.setBitOf f i b).pwr = s.pwr := rfl
@[simp] theorem State.setBitOf_faults (s : State) (f : Fld) (i : Nat) (b : Bool) : (s.setBitOf f i b).faults = s.faults := rfl
@[simp] theorem State.setBitOf_link (s : State) (f : Fld) (i : Nat) (b : Bool) : (s.setBitOf f i b).link = s.link := rfl

@[simp] theorem State.bump_pending (s : State) (f : Fld) (n : Nat) : (s.bump f n).pending = s.pending := rfl
@[simp] theorem State.bump_tick (s : State) (f : Fld) (n : Nat) : (s.bump f n).tick = s.tick := rfl
@[simp] theorem State.bump_core (s : State) (f : Fld) (n : Nat) : (s.bump f n).core = s.core := rfl
@[simp] theorem State.bump_free (s : State) (f : Fld) (n : Nat) : (s.bump f n).free = s.free := rfl
@[simp] theorem State.bump_armed (s : State) (f : Fld) (n : Nat) : (s.bump f n).armed = s.armed := rfl
@[simp] theorem State.bump_arb (s : State) (f : Fld) (n : Nat) : (s.bump f n).arb = s.arb := rfl
@[simp] theorem State.bump_pins (s : State) (f : Fld) (n : Nat) : (s.bump f n).pins = s.pins := rfl
@[simp] theorem State.bump_bays (s : State) (f : Fld) (n : Nat) : (s.bump f n).bays = s.bays := rfl
@[simp] theorem State.bump_tiles (s : State) (f : Fld) (n : Nat) : (s.bump f n).tiles = s.tiles := rfl
@[simp] theorem State.bump_stage (s : State) (f : Fld) (n : Nat) : (s.bump f n).stage = s.stage := rfl
@[simp] theorem State.bump_gddr (s : State) (f : Fld) (n : Nat) : (s.bump f n).gddr = s.gddr := rfl
@[simp] theorem State.bump_strm (s : State) (f : Fld) (n : Nat) : (s.bump f n).strm = s.strm := rfl
@[simp] theorem State.bump_scores (s : State) (f : Fld) (n : Nat) : (s.bump f n).scores = s.scores := rfl
@[simp] theorem State.bump_engines (s : State) (f : Fld) (n : Nat) : (s.bump f n).engines = s.engines := rfl
@[simp] theorem State.bump_light (s : State) (f : Fld) (n : Nat) : (s.bump f n).light = s.light := rfl
@[simp] theorem State.bump_trims (s : State) (f : Fld) (n : Nat) : (s.bump f n).trims = s.trims := rfl
@[simp] theorem State.bump_scan (s : State) (f : Fld) (n : Nat) : (s.bump f n).scan = s.scan := rfl
@[simp] theorem State.bump_sensors (s : State) (f : Fld) (n : Nat) : (s.bump f n).sensors = s.sensors := rfl
@[simp] theorem State.bump_sec (s : State) (f : Fld) (n : Nat) : (s.bump f n).sec = s.sec := rfl
@[simp] theorem State.bump_fab (s : State) (f : Fld) (n : Nat) : (s.bump f n).fab = s.fab := rfl
@[simp] theorem State.bump_cmd (s : State) (f : Fld) (n : Nat) : (s.bump f n).cmd = s.cmd := rfl
@[simp] theorem State.bump_clk (s : State) (f : Fld) (n : Nat) : (s.bump f n).clk = s.clk := rfl
@[simp] theorem State.bump_pwr (s : State) (f : Fld) (n : Nat) : (s.bump f n).pwr = s.pwr := rfl
@[simp] theorem State.bump_faults (s : State) (f : Fld) (n : Nat) : (s.bump f n).faults = s.faults := rfl
@[simp] theorem State.bump_link (s : State) (f : Fld) (n : Nat) : (s.bump f n).link = s.link := rfl

@[simp] theorem State.wrapInc_pending (s : State) (f : Fld) (n : Nat) : (s.wrapInc f n).pending = s.pending := rfl
@[simp] theorem State.wrapInc_tick (s : State) (f : Fld) (n : Nat) : (s.wrapInc f n).tick = s.tick := rfl
@[simp] theorem State.wrapInc_core (s : State) (f : Fld) (n : Nat) : (s.wrapInc f n).core = s.core := rfl
@[simp] theorem State.wrapInc_free (s : State) (f : Fld) (n : Nat) : (s.wrapInc f n).free = s.free := rfl
@[simp] theorem State.wrapInc_armed (s : State) (f : Fld) (n : Nat) : (s.wrapInc f n).armed = s.armed := rfl
@[simp] theorem State.wrapInc_arb (s : State) (f : Fld) (n : Nat) : (s.wrapInc f n).arb = s.arb := rfl
@[simp] theorem State.wrapInc_pins (s : State) (f : Fld) (n : Nat) : (s.wrapInc f n).pins = s.pins := rfl
@[simp] theorem State.wrapInc_bays (s : State) (f : Fld) (n : Nat) : (s.wrapInc f n).bays = s.bays := rfl
@[simp] theorem State.wrapInc_tiles (s : State) (f : Fld) (n : Nat) : (s.wrapInc f n).tiles = s.tiles := rfl
@[simp] theorem State.wrapInc_stage (s : State) (f : Fld) (n : Nat) : (s.wrapInc f n).stage = s.stage := rfl
@[simp] theorem State.wrapInc_gddr (s : State) (f : Fld) (n : Nat) : (s.wrapInc f n).gddr = s.gddr := rfl
@[simp] theorem State.wrapInc_strm (s : State) (f : Fld) (n : Nat) : (s.wrapInc f n).strm = s.strm := rfl
@[simp] theorem State.wrapInc_scores (s : State) (f : Fld) (n : Nat) : (s.wrapInc f n).scores = s.scores := rfl
@[simp] theorem State.wrapInc_engines (s : State) (f : Fld) (n : Nat) : (s.wrapInc f n).engines = s.engines := rfl
@[simp] theorem State.wrapInc_light (s : State) (f : Fld) (n : Nat) : (s.wrapInc f n).light = s.light := rfl
@[simp] theorem State.wrapInc_trims (s : State) (f : Fld) (n : Nat) : (s.wrapInc f n).trims = s.trims := rfl
@[simp] theorem State.wrapInc_scan (s : State) (f : Fld) (n : Nat) : (s.wrapInc f n).scan = s.scan := rfl
@[simp] theorem State.wrapInc_sensors (s : State) (f : Fld) (n : Nat) : (s.wrapInc f n).sensors = s.sensors := rfl
@[simp] theorem State.wrapInc_sec (s : State) (f : Fld) (n : Nat) : (s.wrapInc f n).sec = s.sec := rfl
@[simp] theorem State.wrapInc_fab (s : State) (f : Fld) (n : Nat) : (s.wrapInc f n).fab = s.fab := rfl
@[simp] theorem State.wrapInc_cmd (s : State) (f : Fld) (n : Nat) : (s.wrapInc f n).cmd = s.cmd := rfl
@[simp] theorem State.wrapInc_clk (s : State) (f : Fld) (n : Nat) : (s.wrapInc f n).clk = s.clk := rfl
@[simp] theorem State.wrapInc_pwr (s : State) (f : Fld) (n : Nat) : (s.wrapInc f n).pwr = s.pwr := rfl
@[simp] theorem State.wrapInc_faults (s : State) (f : Fld) (n : Nat) : (s.wrapInc f n).faults = s.faults := rfl
@[simp] theorem State.wrapInc_link (s : State) (f : Fld) (n : Nat) : (s.wrapInc f n).link = s.link := rfl

@[simp] theorem State.setSat_pending (s : State) (f : Fld) (v : Nat) : (s.setSat f v).pending = s.pending := rfl
@[simp] theorem State.setSat_tick (s : State) (f : Fld) (v : Nat) : (s.setSat f v).tick = s.tick := rfl
@[simp] theorem State.setSat_core (s : State) (f : Fld) (v : Nat) : (s.setSat f v).core = s.core := rfl
@[simp] theorem State.setSat_free (s : State) (f : Fld) (v : Nat) : (s.setSat f v).free = s.free := rfl
@[simp] theorem State.setSat_armed (s : State) (f : Fld) (v : Nat) : (s.setSat f v).armed = s.armed := rfl
@[simp] theorem State.setSat_arb (s : State) (f : Fld) (v : Nat) : (s.setSat f v).arb = s.arb := rfl
@[simp] theorem State.setSat_pins (s : State) (f : Fld) (v : Nat) : (s.setSat f v).pins = s.pins := rfl
@[simp] theorem State.setSat_bays (s : State) (f : Fld) (v : Nat) : (s.setSat f v).bays = s.bays := rfl
@[simp] theorem State.setSat_tiles (s : State) (f : Fld) (v : Nat) : (s.setSat f v).tiles = s.tiles := rfl
@[simp] theorem State.setSat_stage (s : State) (f : Fld) (v : Nat) : (s.setSat f v).stage = s.stage := rfl
@[simp] theorem State.setSat_gddr (s : State) (f : Fld) (v : Nat) : (s.setSat f v).gddr = s.gddr := rfl
@[simp] theorem State.setSat_strm (s : State) (f : Fld) (v : Nat) : (s.setSat f v).strm = s.strm := rfl
@[simp] theorem State.setSat_scores (s : State) (f : Fld) (v : Nat) : (s.setSat f v).scores = s.scores := rfl
@[simp] theorem State.setSat_engines (s : State) (f : Fld) (v : Nat) : (s.setSat f v).engines = s.engines := rfl
@[simp] theorem State.setSat_light (s : State) (f : Fld) (v : Nat) : (s.setSat f v).light = s.light := rfl
@[simp] theorem State.setSat_trims (s : State) (f : Fld) (v : Nat) : (s.setSat f v).trims = s.trims := rfl
@[simp] theorem State.setSat_scan (s : State) (f : Fld) (v : Nat) : (s.setSat f v).scan = s.scan := rfl
@[simp] theorem State.setSat_sensors (s : State) (f : Fld) (v : Nat) : (s.setSat f v).sensors = s.sensors := rfl
@[simp] theorem State.setSat_sec (s : State) (f : Fld) (v : Nat) : (s.setSat f v).sec = s.sec := rfl
@[simp] theorem State.setSat_fab (s : State) (f : Fld) (v : Nat) : (s.setSat f v).fab = s.fab := rfl
@[simp] theorem State.setSat_cmd (s : State) (f : Fld) (v : Nat) : (s.setSat f v).cmd = s.cmd := rfl
@[simp] theorem State.setSat_clk (s : State) (f : Fld) (v : Nat) : (s.setSat f v).clk = s.clk := rfl
@[simp] theorem State.setSat_pwr (s : State) (f : Fld) (v : Nat) : (s.setSat f v).pwr = s.pwr := rfl
@[simp] theorem State.setSat_faults (s : State) (f : Fld) (v : Nat) : (s.setSat f v).faults = s.faults := rfl
@[simp] theorem State.setSat_link (s : State) (f : Fld) (v : Nat) : (s.setSat f v).link = s.link := rfl

@[simp] theorem State.draw_pending (s : State) (n : Nat) : (s.draw n).pending = s.pending := rfl
@[simp] theorem State.draw_tick (s : State) (n : Nat) : (s.draw n).tick = s.tick := rfl
@[simp] theorem State.draw_core (s : State) (n : Nat) : (s.draw n).core = s.core := rfl
@[simp] theorem State.draw_regs (s : State) (n : Nat) : (s.draw n).regs = s.regs := rfl
@[simp] theorem State.draw_armed (s : State) (n : Nat) : (s.draw n).armed = s.armed := rfl
@[simp] theorem State.draw_arb (s : State) (n : Nat) : (s.draw n).arb = s.arb := rfl
@[simp] theorem State.draw_pins (s : State) (n : Nat) : (s.draw n).pins = s.pins := rfl
@[simp] theorem State.draw_bays (s : State) (n : Nat) : (s.draw n).bays = s.bays := rfl
@[simp] theorem State.draw_tiles (s : State) (n : Nat) : (s.draw n).tiles = s.tiles := rfl
@[simp] theorem State.draw_stage (s : State) (n : Nat) : (s.draw n).stage = s.stage := rfl
@[simp] theorem State.draw_gddr (s : State) (n : Nat) : (s.draw n).gddr = s.gddr := rfl
@[simp] theorem State.draw_strm (s : State) (n : Nat) : (s.draw n).strm = s.strm := rfl
@[simp] theorem State.draw_scores (s : State) (n : Nat) : (s.draw n).scores = s.scores := rfl
@[simp] theorem State.draw_engines (s : State) (n : Nat) : (s.draw n).engines = s.engines := rfl
@[simp] theorem State.draw_light (s : State) (n : Nat) : (s.draw n).light = s.light := rfl
@[simp] theorem State.draw_trims (s : State) (n : Nat) : (s.draw n).trims = s.trims := rfl
@[simp] theorem State.draw_scan (s : State) (n : Nat) : (s.draw n).scan = s.scan := rfl
@[simp] theorem State.draw_sensors (s : State) (n : Nat) : (s.draw n).sensors = s.sensors := rfl
@[simp] theorem State.draw_sec (s : State) (n : Nat) : (s.draw n).sec = s.sec := rfl
@[simp] theorem State.draw_fab (s : State) (n : Nat) : (s.draw n).fab = s.fab := rfl
@[simp] theorem State.draw_cmd (s : State) (n : Nat) : (s.draw n).cmd = s.cmd := rfl
@[simp] theorem State.draw_clk (s : State) (n : Nat) : (s.draw n).clk = s.clk := rfl
@[simp] theorem State.draw_pwr (s : State) (n : Nat) : (s.draw n).pwr = s.pwr := rfl
@[simp] theorem State.draw_faults (s : State) (n : Nat) : (s.draw n).faults = s.faults := rfl
@[simp] theorem State.draw_link (s : State) (n : Nat) : (s.draw n).link = s.link := rfl

@[simp] theorem State.countMark_pending (s : State) (r n : Nat) : (s.countMark r n).pending = s.pending := rfl
@[simp] theorem State.countMark_tick (s : State) (r n : Nat) : (s.countMark r n).tick = s.tick := rfl
@[simp] theorem State.countMark_core (s : State) (r n : Nat) : (s.countMark r n).core = s.core := rfl
@[simp] theorem State.countMark_free (s : State) (r n : Nat) : (s.countMark r n).free = s.free := rfl
@[simp] theorem State.countMark_regs (s : State) (r n : Nat) : (s.countMark r n).regs = s.regs := rfl
@[simp] theorem State.countMark_armed (s : State) (r n : Nat) : (s.countMark r n).armed = s.armed := rfl
@[simp] theorem State.countMark_arb (s : State) (r n : Nat) : (s.countMark r n).arb = s.arb := rfl
@[simp] theorem State.countMark_pins (s : State) (r n : Nat) : (s.countMark r n).pins = s.pins := rfl
@[simp] theorem State.countMark_bays (s : State) (r n : Nat) : (s.countMark r n).bays = s.bays := rfl
@[simp] theorem State.countMark_tiles (s : State) (r n : Nat) : (s.countMark r n).tiles = s.tiles := rfl
@[simp] theorem State.countMark_stage (s : State) (r n : Nat) : (s.countMark r n).stage = s.stage := rfl
@[simp] theorem State.countMark_gddr (s : State) (r n : Nat) : (s.countMark r n).gddr = s.gddr := rfl
@[simp] theorem State.countMark_strm (s : State) (r n : Nat) : (s.countMark r n).strm = s.strm := rfl
@[simp] theorem State.countMark_scores (s : State) (r n : Nat) : (s.countMark r n).scores = s.scores := rfl
@[simp] theorem State.countMark_engines (s : State) (r n : Nat) : (s.countMark r n).engines = s.engines := rfl
@[simp] theorem State.countMark_light (s : State) (r n : Nat) : (s.countMark r n).light = s.light := rfl
@[simp] theorem State.countMark_trims (s : State) (r n : Nat) : (s.countMark r n).trims = s.trims := rfl
@[simp] theorem State.countMark_scan (s : State) (r n : Nat) : (s.countMark r n).scan = s.scan := rfl
@[simp] theorem State.countMark_sensors (s : State) (r n : Nat) : (s.countMark r n).sensors = s.sensors := rfl
@[simp] theorem State.countMark_sec (s : State) (r n : Nat) : (s.countMark r n).sec = s.sec := rfl
@[simp] theorem State.countMark_fab (s : State) (r n : Nat) : (s.countMark r n).fab = s.fab := rfl
@[simp] theorem State.countMark_cmd (s : State) (r n : Nat) : (s.countMark r n).cmd = s.cmd := rfl
@[simp] theorem State.countMark_clk (s : State) (r n : Nat) : (s.countMark r n).clk = s.clk := rfl
@[simp] theorem State.countMark_pwr (s : State) (r n : Nat) : (s.countMark r n).pwr = s.pwr := rfl
@[simp] theorem State.countMark_link (s : State) (r n : Nat) : (s.countMark r n).link = s.link := rfl

/-! ### Units after a write -/

theorem State.bay_setBay (s : State) (b k : Nat) (x : Bay) : (s.setBay b x).bay k = if k = b then x else s.bay k :=
  Tab.get_set _ _ b k x
@[simp] theorem State.bay_setBay_same (s : State) (b : Nat) (x : Bay) : (s.setBay b x).bay b = x := Tab.get_set_same _ _ b x
theorem State.tile_setTile (s : State) (t k : Nat) (x : Tile) : (s.setTile t x).tile k = if k = t then x else s.tile k :=
  Tab.get_set _ _ t k x
@[simp] theorem State.tile_setTile_same (s : State) (t : Nat) (x : Tile) : (s.setTile t x).tile t = x := Tab.get_set_same _ _ t x
theorem State.engine_setEngine (s : State) (e k : Nat) (x : Engine) : (s.setEngine e x).engine k = if k = e then x else s.engine k :=
  Tab.get_set _ _ e k x
@[simp] theorem State.engine_setEngine_same (s : State) (e : Nat) (x : Engine) : (s.setEngine e x).engine e = x := Tab.get_set_same _ _ e x
theorem State.source_setSource (s : State) (i k : Nat) (x : Source) : (s.setSource i x).source k = if k = i then x else s.source k :=
  Tab.get_set _ _ i k x
@[simp] theorem State.source_setSource_same (s : State) (i : Nat) (x : Source) : (s.setSource i x).source i = x := Tab.get_set_same _ _ i x
theorem State.trimOut_setTrimOut (s : State) (o k : Nat) (x : TrimOut) : (s.setTrimOut o x).trimOut k = if k = o then x else s.trimOut k :=
  Tab.get_set _ _ o k x
@[simp] theorem State.trimOut_setTrimOut_same (s : State) (o : Nat) (x : TrimOut) : (s.setTrimOut o x).trimOut o = x := Tab.get_set_same _ _ o x
theorem State.sensor_setSensor (s : State) (n k : Nat) (x : Sensor) : (s.setSensor n x).sensor k = if k = n then x else s.sensor k :=
  Tab.get_set _ _ n k x
@[simp] theorem State.sensor_setSensor_same (s : State) (n : Nat) (x : Sensor) : (s.setSensor n x).sensor n = x := Tab.get_set_same _ _ n x
theorem State.queue_setQueue (s : State) (q k : Nat) (x : Queue) : (s.setQueue q x).queue k = if k = q then x else s.queue k :=
  Tab.get_set _ _ q k x
@[simp] theorem State.queue_setQueue_same (s : State) (q : Nat) (x : Queue) : (s.setQueue q x).queue q = x := Tab.get_set_same _ _ q x
theorem State.sbuf_setSbuf (s : State) (n k : Nat) (x : SBuf) : (s.setSbuf n x).sbuf k = if k = n then x else s.sbuf k :=
  Tab.get_set _ _ n k x
@[simp] theorem State.sbuf_setSbuf_same (s : State) (n : Nat) (x : SBuf) : (s.setSbuf n x).sbuf n = x := Tab.get_set_same _ _ n x
theorem State.rwin_setRwin (s : State) (w k : Nat) (x : RWin) : (s.setRwin w x).rwin k = if k = w then x else s.rwin k :=
  Tab.get_set _ _ w k x
@[simp] theorem State.rwin_setRwin_same (s : State) (w : Nat) (x : RWin) : (s.setRwin w x).rwin w = x := Tab.get_set_same _ _ w x
theorem State.dom_setDom (s : State) (d k : Nat) (x : Dom) : (s.setDom d x).dom k = if k = d then x else s.dom k :=
  Tab.get_set _ _ d k x
@[simp] theorem State.dom_setDom_same (s : State) (d : Nat) (x : Dom) : (s.setDom d x).dom d = x := Tab.get_set_same _ _ d x
theorem State.rail_setRail (s : State) (r k : Nat) (x : Rail) : (s.setRail r x).rail k = if k = r then x else s.rail k :=
  Tab.get_set _ _ r k x
@[simp] theorem State.rail_setRail_same (s : State) (r : Nat) (x : Rail) : (s.setRail r x).rail r = x := Tab.get_set_same _ _ r x
theorem State.port_setPort (s : State) (p k : Nat) (x : Port) : (s.setPort p x).port k = if k = p then x else s.port k :=
  Tab.get_set _ _ p k x
@[simp] theorem State.port_setPort_same (s : State) (p : Nat) (x : Port) : (s.setPort p x).port p = x := Tab.get_set_same _ _ p x
theorem State.partner_setPartner (s : State) (n k : Nat) (x : Partner) : (s.setPartner n x).partner k = if k = n then x else s.partner k :=
  Tab.get_set _ _ n k x
@[simp] theorem State.partner_setPartner_same (s : State) (n : Nat) (x : Partner) : (s.setPartner n x).partner n = x := Tab.get_set_same _ _ n x
@[simp] theorem State.tile_modTile_same (s : State) (t : Nat) (f : Tile → Tile) : (s.modTile t f).tile t = f (s.tile t) :=
  Tab.get_set_same _ _ t _
@[simp] theorem State.bay_modBay_same (s : State) (b : Nat) (f : Bay → Bay) : (s.modBay b f).bay b = f (s.bay b) :=
  Tab.get_set_same _ _ b _
@[simp] theorem State.score_setScore_same (s : State) (i : ScoreId) (x : Score) : (s.setScore i x).score i = x :=
  Tab.get_set_same _ _ i.toNat x
@[simp] theorem State.strand_setStrand_same (s : State) (b j : Nat) (x : Strand) : (s.setStrand b j x).strand b j = x := by
  simp [State.setStrand, State.strand, Bay.strand, Bay.setStrand]
@[simp] theorem State.loopOf_setLoop_same (s : State) (e l : Nat) (x : Loop) : (s.setLoop e l x).loopOf e l = x := by
  simp [State.setLoop, State.loopOf]
@[simp] theorem State.comb_setComb_same (s : State) (i c : Nat) (x : Comb) : (s.setComb i c x).comb i c = x := by
  simp [State.setComb, State.comb]
@[simp] theorem State.group_setGroup_same (s : State) (p g : Nat) (x : FabGroup) : (s.setGroup p g x).group p g = x := by
  simp [State.setGroup, State.group]

/-! ### Registers after a write -/

@[simp] theorem State.reg_setReg_same (s : State) (off : Nat) (v : Word) : (s.setReg off v).reg off = v :=
  Tab.get_set_same _ _ off v
theorem State.reg_setReg (s : State) (off o : Nat) (v : Word) : (s.setReg off v).reg o = if o = off then v else s.reg o :=
  Tab.get_set _ _ off o v
theorem State.reg_setFld_other (s : State) (f : Fld) (v o : Nat) (h : o ≠ f.off) : (s.setFld f v).reg o = s.reg o :=
  Tab.get_set_other _ _ f.off o _ h
/-- A field of another register keeps its value. -/
theorem State.fld_setFld_other (s : State) (f g : Fld) (v : Nat) (h : g.off ≠ f.off) : (s.setFld f v).fld g = s.fld g := by
  unfold State.fld; rw [State.reg_setFld_other _ _ _ _ h]
/-- A field reads as it was set, within its width. -/
theorem State.fld_setFld_same (s : State) (f : Fld) (v : Nat) (h : f.lo ≤ f.hi) (w : f.hi < 32) :
    (s.setFld f v).fld f = v % 2 ^ (f.hi - f.lo + 1) := by
  unfold State.fld State.setFld
  rw [State.reg_setReg_same]
  exact bits_putBits_same _ _ _ _ h w
/-- A field of the same register beside the one that is set keeps its value. -/
theorem State.fld_setFld_beside (s : State) (f g : Fld) (v : Nat) (o : g.off = f.off) (h : f.lo ≤ f.hi) (w : f.hi < 32)
    (h' : g.lo ≤ g.hi) (d : g.hi < f.lo ∨ f.hi < g.lo) : (s.setFld f v).fld g = s.fld g := by
  unfold State.fld State.setFld
  rw [o, State.reg_setReg_same]
  exact bits_putBits_other _ _ _ _ _ _ h w h' d

end Sys2Proof.Machine
end

