-- ==== Sys2Proof/Laws/Ops.lean ====
section
/-! SUPPORT. What the shared operations can do, each said once: the result as an update of the parts that the operation may write. -/

namespace Sys2Proof.Machine

/-! ### Folds -/

/-- What every step of a fold does, the fold does, if doing nothing and doing two such things in turn are of the kind. -/
theorem foldl_does {α : Type} (P : State → State → Prop) (refl : ∀ s, P s s) (trans : ∀ s t u, P s t → P t u → P s u)
    (f : State → α → State) (step : ∀ s x, P s (f s x)) (l : List α) (s : State) : P s (l.foldl f s) := by
  induction l generalizing s with
  | nil => exact refl s
  | cons x l ih => exact trans _ _ _ (step s x) (ih _)

/-! ### Fields of registers -/

/-- A field that is set, whole, as a flag or as a saturating count, changes its register and nothing else. -/
theorem State.setFld_spec (s : State) (f : Fld) (v : Nat) :
    ∃ g, s.setFld f v = { s with regs := g } ∧ ∀ off, off ≠ f.off → (s.setFld f v).reg off = s.reg off :=
  ⟨_, rfl, fun _ o => Tab.get_set_other _ _ _ _ _ o⟩
theorem State.setFlag_spec (s : State) (f : Fld) (b : Bool) :
    ∃ g, s.setFlag f b = { s with regs := g } ∧ ∀ off, off ≠ f.off → (s.setFlag f b).reg off = s.reg off :=
  ⟨_, rfl, fun _ o => Tab.get_set_other _ _ _ _ _ o⟩
theorem State.bump_spec (s : State) (f : Fld) (n : Nat) :
    ∃ g, s.bump f n = { s with regs := g } ∧ ∀ off, off ≠ f.off → (s.bump f n).reg off = s.reg off :=
  ⟨_, rfl, fun _ o => Tab.get_set_other _ _ _ _ _ o⟩

/-! ### Vectors, marks and fault records (R347, R451, R453 to R455) -/

/-- A vector sets its pending bit or is sent; nothing else happens. -/
theorem State.sendMsix_spec (s : State) (v : Nat) :
    ∃ m n, s.sendMsix v = { s with cmd := { s.cmd with msix := m, sent := n } } := by
  unfold State.sendMsix
  split
  · exact ⟨_, s.cmd.sent, rfl⟩
  · exact ⟨s.cmd.msix, _, rfl⟩

/-- What a record stored in the ring, or lost for want of room, does before its vector. -/
theorem State.ring_spec (s : State) (x : FaultRing) (v : Nat) (hx : x.marks = s.faults.marks) :
    ∃ y g, State.setFld { s with faults := x } GLB_FLT_PTR.wr v = { s with faults := y, regs := g } ∧ y.marks = s.faults.marks ∧
      ∀ off, off ≠ GLB_FLT_PTR.wr.off → (State.setFld { s with faults := x } GLB_FLT_PTR.wr v).reg off = s.reg off := by
  obtain ⟨g, e, k⟩ := State.setFld_spec { s with faults := x } GLB_FLT_PTR.wr v
  exact ⟨x, g, e, hx, k⟩
theorem State.lost_spec (s : State) (x : FaultRing) (hx : x.marks = s.faults.marks) :
    ∃ y g, (State.setFlag { s with faults := x } GLB_FLT_PTR.ovf true).bump GLB_FLT_PTR.lost = { s with faults := y, regs := g } ∧
      y.marks = s.faults.marks ∧ ∀ off, off ≠ GLB_FLT_PTR.wr.off →
        ((State.setFlag { s with faults := x } GLB_FLT_PTR.ovf true).bump GLB_FLT_PTR.lost).reg off = s.reg off := by
  obtain ⟨g', e', k'⟩ := State.setFlag_spec { s with faults := x } GLB_FLT_PTR.ovf true
  obtain ⟨g, e, k⟩ := State.bump_spec (State.setFlag { s with faults := x } GLB_FLT_PTR.ovf true) GLB_FLT_PTR.lost 1
  refine ⟨x, g, ?_, hx, fun off o => (k off o).trans (k' off o)⟩
  rw [e, e']

/-- A new fault record: the store of records, GLB_FLT_PTR, and the vector of faults. -/
theorem State.newRecord_spec (s : State) (f : FaultRec) :
    ∃ x g m n, s.newRecord f = { s with faults := x, regs := g, cmd := { s.cmd with msix := m, sent := n } } ∧
      x.marks = s.faults.marks ∧ ∀ off, off ≠ GLB_FLT_PTR.wr.off → (s.newRecord f).reg off = s.reg off := by
  have fin : ∀ t : State, (∃ x g, t = { s with faults := x, regs := g } ∧ x.marks = s.faults.marks ∧
      ∀ off, off ≠ GLB_FLT_PTR.wr.off → t.reg off = s.reg off) →
      ∃ x g m n, t.sendMsix 2 = { s with faults := x, regs := g, cmd := { s.cmd with msix := m, sent := n } } ∧
        x.marks = s.faults.marks ∧ ∀ off, off ≠ GLB_FLT_PTR.wr.off → (t.sendMsix 2).reg off = s.reg off := by
    rintro t ⟨x, g, rfl, w, r⟩
    obtain ⟨m, n, h⟩ := State.sendMsix_spec { s with faults := x, regs := g } 2
    exact ⟨x, g, m, n, h, w, fun off o => by rw [h]; exact r off o⟩
  unfold State.newRecord
  apply fin
  dsimp only
  generalize f.encode s.faults.nextSeq 0 s.tick = r
  split
  · exact State.lost_spec s _ rfl
  · generalize s.fld GLB_FLT_PTR.wr = v
    exact State.ring_spec s _ _ rfl

/-- A fault: the store of records, GLB_FLT_PTR, and the vector of faults. -/
theorem State.raise_spec (s : State) (f : FaultRec) :
    ∃ x g m n, s.raise f = { s with faults := x, regs := g, cmd := { s.cmd with msix := m, sent := n } } ∧
      x.marks = s.faults.marks ∧ ∀ off, off ≠ GLB_FLT_PTR.wr.off → (s.raise f).reg off = s.reg off := by
  unfold State.raise
  split
  · split
    · exact ⟨_, s.regs, s.cmd.msix, s.cmd.sent, rfl, rfl, fun _ _ => rfl⟩
    · exact State.newRecord_spec s f
  · exact State.newRecord_spec s f

/-! ### Stage memory -/

/-- Bytes written one after another: stage memory's bytes; their flips and those of their words' codes are gone. -/
theorem State.writeBytes_spec (s : State) (a : Nat) (l : List Byte) :
    ∃ b f c, s.writeBytes a l = { s with stage := { s.stage with bytes := b, flips := f, chk := c } } := by
  induction l generalizing s a with
  | nil => exact ⟨s.stage.bytes, s.stage.flips, s.stage.chk, rfl⟩
  | cons x r ih =>
    obtain ⟨b, f, c, h⟩ := ih { s with stage := { s.stage with
      bytes := Tab.set dZero s.stage.bytes a x, flips := Tab.set dZero s.stage.flips a 0
      chk := Tab.set dZero s.stage.chk (a / 8) 0 } } (a + 1)
    exact ⟨b, f, c, h⟩

/-- A byte after a write: the written one inside, and as before outside. -/
theorem State.stageByte_writeBytes (s : State) (a : Nat) (l : List Byte) (k : Nat) :
    (s.writeBytes a l).stageByte k = if a ≤ k ∧ k < a + l.length then l.getD (k - a) 0 else s.stageByte k := by
  induction l generalizing s a with
  | nil => simp [State.writeBytes]
  | cons x r ih =>
    have w := ih { s with stage := { s.stage with
      bytes := Tab.set dZero s.stage.bytes a x, flips := Tab.set dZero s.stage.flips a 0
      chk := Tab.set dZero s.stage.chk (a / 8) 0 } } (a + 1)
    unfold State.writeBytes
    rw [w]
    by_cases e : k = a
    · subst e
      rw [if_neg (by omega), if_pos (by simp)]
      simp [State.stageByte]
    · have o : State.stageByte { s with stage := { s.stage with
        bytes := Tab.set dZero s.stage.bytes a x, flips := Tab.set dZero s.stage.flips a 0
        chk := Tab.set dZero s.stage.chk (a / 8) 0 } } k = s.stageByte k :=
        Tab.get_set_other _ _ _ _ _ e
      rw [o]
      have range : a ≤ k ∧ k < a + (x :: r).length ↔ a + 1 ≤ k ∧ k < a + 1 + r.length := by
        rw [List.length_cons]
        omega
      simp only [range]
      refine ite_congr rfl (fun i => ?_) fun _ => rfl
      rw [show k - a = k - (a + 1) + 1 by omega, List.getD_cons_succ]

/-- A block written: its bytes, and the mark of its place. -/
theorem State.writeBlock_spec (s : State) (a : Nat) (x : Block) :
    ∃ b f c, s.writeBlock a x = { s with stage := { s.stage with
      bytes := b, flips := f, chk := c, marks := Tab.set dMark s.stage.marks (a / 64) x.mark } } := by
  obtain ⟨b, f, c, h⟩ := s.writeBytes_spec a x.data
  refine ⟨b, f, c, ?_⟩
  unfold State.writeBlock
  rw [h]

theorem State.stageByte_writeBlock (s : State) (a : Nat) (x : Block) (k : Nat) :
    (s.writeBlock a x).stageByte k = if a ≤ k ∧ k < a + x.data.length then x.data.getD (k - a) 0 else s.stageByte k :=
  State.stageByte_writeBytes s a x.data k

/-! ### Registers by access code (R9) -/

/-- A field takes a write into its own register. -/
theorem State.writeField_spec (s : State) (off : Nat) (v : Word) (f : RegField) :
    ∃ g, State.writeField off v s f = { s with regs := g } ∧ ∀ o, o ≠ off → (State.writeField off v s f).reg o = s.reg o := by
  have other : ∀ (n : Nat) (o : Nat), o ≠ off → (s.setFld ⟨off, f.hi, f.lo⟩ n).reg o = s.reg o :=
    fun n o h => Tab.get_set_other _ _ _ _ _ h
  unfold State.writeField
  dsimp only
  split
  · exact ⟨_, rfl, other _⟩
  · exact ⟨_, rfl, other _⟩
  · split
    · exact ⟨_, rfl, other _⟩
    · exact ⟨s.regs, rfl, fun _ _ => rfl⟩
  all_goals exact ⟨s.regs, rfl, fun _ _ => rfl⟩

/-- A register write by the access codes reaches that register alone. -/
theorem State.rawWrite_spec (s : State) (off : Nat) (v : Word) :
    ∃ g, s.rawWrite off v = { s with regs := g } ∧ ∀ o, o ≠ off → (s.rawWrite off v).reg o = s.reg o := by
  unfold State.rawWrite
  split
  · exact ⟨s.regs, rfl, fun _ _ => rfl⟩
  · refine foldl_does (fun s t => ∃ g, t = { s with regs := g } ∧ ∀ o, o ≠ off → t.reg o = s.reg o)
      (fun s => ⟨s.regs, rfl, fun _ _ => rfl⟩) ?_ _ (fun s f => State.writeField_spec s off v f) _ s
    rintro s t u ⟨g, rfl, a⟩ ⟨g', rfl, b⟩
    exact ⟨g', rfl, fun o h => (b o h).trans (a o h)⟩

/-! ### Bays, strands and claims (R31, R135, R218, R220) -/

/-- A bay's field in GLB_BAY_STAT: that register, and the vector of bays when it changes. -/
theorem State.setBayField_spec (s : State) (b v : Nat) :
    ∃ g m n, s.setBayField b v = { s with regs := g, cmd := { s.cmd with msix := m, sent := n } } ∧
      ∀ off, off ≠ 0x10 → (s.setBayField b v).reg off = s.reg off := by
  unfold State.setBayField
  split
  · exact ⟨s.regs, s.cmd.msix, s.cmd.sent, rfl, fun _ _ => rfl⟩
  · obtain ⟨m, n, h⟩ := State.sendMsix_spec (s.setFld (bayFld b) v) 5
    refine ⟨_, m, n, h, fun off o => ?_⟩
    rw [h]
    exact Tab.get_set_other _ _ _ _ _ o

theorem State.setBayState_spec (s : State) (b v : Nat) :
    ∃ g m n, s.setBayState b v = { s with regs := g, cmd := { s.cmd with msix := m, sent := n } } ∧
      ∀ off, off ≠ 0x10 → (s.setBayState b v).reg off = s.reg off := s.setBayField_spec b _

/-- A claim's new state: the score, a fault record, and two vectors. -/
theorem State.setPromiseState_spec (s : State) (i : ScoreId) (n : Nat) (st : BitVec 2) (cause : Nat) :
    ∃ c x g m k, s.setPromiseState i n st cause =
      { s with scores := c, faults := x, regs := g, cmd := { s.cmd with msix := m, sent := k } } ∧
      x.marks = s.faults.marks ∧ ∀ off, off ≠ GLB_FLT_PTR.wr.off → (s.setPromiseState i n st cause).reg off = s.reg off := by
  unfold State.setPromiseState
  dsimp only
  split
  · exact ⟨s.scores, s.faults, s.regs, s.cmd.msix, s.cmd.sent, rfl, rfl, fun _ _ => rfl⟩
  · obtain ⟨x, g, m, k, h, w, r⟩ := State.raise_spec
      (s.setScore i ((s.score i).setPromise n { (s.score i).promise n with state := st, cause := BitVec.ofNat 8 cause }))
      { cls := 9, code := st.toNat, score := i, unit := n, arg0 := cause, arg1 := ((s.score i).promise n).worst }
    rw [h] at r
    rw [h]
    obtain ⟨m', k', h'⟩ := State.sendMsix_spec { (s.setScore i ((s.score i).setPromise n { (s.score i).promise n with
      state := st, cause := BitVec.ofNat 8 cause })) with faults := x, regs := g, cmd := { s.cmd with msix := m, sent := k } } 3
    exact ⟨_, x, g, m', k', h', w, fun off o => by rw [show ∀ t : State, t.sendMsix 3 = t.sendMsix 3 from fun _ => rfl]
                                                   exact (congrArg (fun t => State.reg t off) h').trans (r off o)⟩

/-! ### Commands and their replies (R346, R358, R362, R364) -/

/-- A command completes: it is taken no more, and its reply waits to be written unless it is mute. -/
theorem State.complete_spec (s : State) (k status detail : Nat) (vs : List Nat) :
    ∃ t d, s.complete k status detail vs = { s with cmd := { s.cmd with taken := t, done := d } } ∧
      (∀ c, s.cmd.taken[k]? = some c → t = s.cmd.taken.eraseIdx k ∧ (c.mute = true → d = s.cmd.done)) := by
  unfold State.complete
  cases at_k : s.cmd.taken[k]? with
  | none => exact ⟨s.cmd.taken, s.cmd.done, rfl, fun _ some_k => nomatch some_k⟩
  | some c =>
    refine ⟨s.cmd.taken.eraseIdx k, _, rfl, fun d same => ⟨rfl, fun mute => ?_⟩⟩
    rw [Option.some.inj same]
    exact if_pos mute

/-- A row of the command table does nothing, answers for the state the module is in, or does what it is for. -/
theorem State.command_cases (s : State) (k op : Nat) (f : State → Taken → State) :
    s.command k op f = s ∨ (∃ st, s.command k op f = s.complete k st) ∨
      ∃ c, s.cmd.taken[k]? = some c ∧ c.opcode.toNat = op ∧ s.startable k c = true ∧ s.command k op f = f s c := by
  unfold State.command
  split
  · exact .inl rfl
  · rename_i c h
    split
    · exact .inl rfl
    · rename_i a
      simp only [ne_eq, not_or, Decidable.not_not, Bool.not_eq_true', Bool.not_eq_false] at a
      split
      · exact .inl rfl
      · split
        · exact .inr (.inl ⟨_, rfl⟩)
        · exact .inr (.inr ⟨c, h, a.1, a.2, rfl⟩)

/-! ### Claims, counters and jobs (R152, R218, R220) -/

/-- Between two states only claims moved: the scores, fault records, GLB_FLT_PTR and vectors. -/
def State.ClaimsMoved (s u : State) : Prop :=
  ∃ c x g m n, u = { s with scores := c, faults := x, regs := g, cmd := { s.cmd with msix := m, sent := n } } ∧
    x.marks = s.faults.marks ∧ ∀ off, off ≠ GLB_FLT_PTR.wr.off → u.reg off = s.reg off

theorem State.ClaimsMoved.refl (s : State) : s.ClaimsMoved s :=
  ⟨s.scores, s.faults, s.regs, s.cmd.msix, s.cmd.sent, rfl, rfl, fun _ _ => rfl⟩

theorem State.ClaimsMoved.trans (s t u : State) (h : s.ClaimsMoved t) (k : t.ClaimsMoved u) : s.ClaimsMoved u := by
  obtain ⟨c, x, g, m, n, rfl, w, r⟩ := h
  obtain ⟨c', x', g', m', n', rfl, w', r'⟩ := k
  exact ⟨c', x', g', m', n', rfl, w'.trans w, fun off o => (r' off o).trans (r off o)⟩

theorem State.setScore_moves (s : State) (i : ScoreId) (x : Score) : s.ClaimsMoved (s.setScore i x) :=
  ⟨_, s.faults, s.regs, s.cmd.msix, s.cmd.sent, rfl, rfl, fun _ _ => rfl⟩

theorem State.raise_moves (s : State) (f : FaultRec) : s.ClaimsMoved (s.raise f) := by
  obtain ⟨x, g, m, n, h, w, r⟩ := s.raise_spec f
  exact ⟨s.scores, x, g, m, n, h, w, r⟩

theorem State.sendMsix_moves (s : State) (v : Nat) : s.ClaimsMoved (s.sendMsix v) := by
  obtain ⟨m, n, h⟩ := s.sendMsix_spec v
  exact ⟨s.scores, s.faults, s.regs, m, n, h, rfl, fun off _ => by rw [h]; rfl⟩

theorem State.setPromiseState_moves (s : State) (i : ScoreId) (n : Nat) (st : BitVec 2) (cause : Nat) :
    s.ClaimsMoved (s.setPromiseState i n st cause) := by
  obtain ⟨c, x, g, m, k, h, w, r⟩ := s.setPromiseState_spec i n st cause
  exact ⟨c, x, g, m, k, h, w, r⟩

theorem State.promiseBreak_moves (s : State) (i : ScoreId) (n cause : Nat) : s.ClaimsMoved (s.promiseBreak i n cause) := by
  unfold State.promiseBreak
  split
  · exact .refl s
  · exact s.setPromiseState_moves _ _ _ _

theorem State.promiseRisk_moves (s : State) (i : ScoreId) (n cause : Nat) : s.ClaimsMoved (s.promiseRisk i n cause) := by
  unfold State.promiseRisk
  split
  · exact s.setPromiseState_moves _ _ _ _
  · exact .refl s

theorem State.claimComplete_moves (s : State) (i : ScoreId) (n : Nat) : s.ClaimsMoved (s.claimComplete i n) := by
  unfold State.claimComplete
  dsimp only
  split
  · exact .refl s
  · split
    · exact .trans _ _ _ (s.setScore_moves _ _) (State.promiseBreak_moves _ _ _ _)
    · exact s.setScore_moves _ _

theorem State.claimTrigger_moves (s : State) (i : ScoreId) (n : Nat) : s.ClaimsMoved (s.claimTrigger i n) :=
  s.setScore_moves _ _

theorem State.claimsOf_moves (s : State) (b : Nat) (i : ScoreId) (ev : Nat) : s.ClaimsMoved (s.claimsOf b i ev) := by
  unfold State.claimsOf
  refine foldl_does State.ClaimsMoved .refl .trans _ (fun s x => ?_) _ s
  have first : s.ClaimsMoved (if x.2.completion = ev && (decide (256 ≤ ev) || (s.claimBays i x.2).contains b)
      then s.claimComplete i x.1 else s) := by
    split
    · exact s.claimComplete_moves _ _
    · exact .refl s
  dsimp only
  split
  · exact .trans _ _ _ first (State.claimTrigger_moves _ _ _)
  · exact first

/-- Only a bay's or a score's counter and the claims moved. -/
theorem State.signal_spec (s : State) (b : Nat) (i : ScoreId) (ev inc unit pc : Nat) :
    ∃ y : Tab Bay, State.ClaimsMoved { s with bays := y } (s.signal b i ev inc unit pc) := by
  have count : ∀ v, ∃ y : Tab Bay, State.ClaimsMoved { s with bays := y } (s.setCounter b i ev v) := fun v => by
    unfold State.setCounter
    split
    · exact ⟨_, .refl _⟩
    · exact ⟨s.bays, s.setScore_moves _ _⟩
  unfold State.signal
  dsimp only
  generalize (if ev < 256 then (Tab.get dZero (s.bay b).events ev).toNat else ((s.score i).counter ev).toNat) = old
  obtain ⟨y, h⟩ := count (min (old + inc) 65535)
  refine ⟨y, .trans _ _ _ h ?_⟩
  generalize State.setCounter _ _ _ _ _ = t
  have full : t.ClaimsMoved (if 65535 < old + inc then
      t.raise { cls := 1, code := 16, score := i, unit := unit, arg0 := pc, arg1 := ev } else t) := by
    split
    · exact t.raise_moves _
    · exact .refl t
  refine .trans _ _ _ full ?_
  generalize (if 65535 < old + inc then _ else t) = v
  split
  · exact .trans _ _ _ (v.sendMsix_moves _) (State.claimsOf_moves _ _ _ _)
  · exact v.claimsOf_moves _ _ _

/-- An instruction's work that has ended: its job, and the event that it signals. -/
theorem State.jobDone_spec (s : State) (b n : Nat) :
    ∃ y : Tab Bay, State.ClaimsMoved { s with bays := y } (s.jobDone b n) := by
  unfold State.jobDone
  dsimp only
  split
  · exact ⟨s.bays, .refl s⟩
  · split
    · split
      · obtain ⟨y, h⟩ := State.signal_spec (s.dropJob b n) b (s.bayScore b) _ 1 (64 * b + ((s.bay b).job n).strand) ((s.bay b).job n).pc
        exact ⟨y, h⟩
      · exact ⟨_, .refl _⟩
    · exact ⟨_, .refl _⟩

/-! ### Strands (R134, R135, R159) -/

/-- Between two states only bays and tiles moved. -/
def State.BaysMoved (s u : State) : Prop := ∃ y t, u = { s with bays := y, tiles := t }

theorem State.BaysMoved.refl (s : State) : s.BaysMoved s := ⟨s.bays, s.tiles, rfl⟩
theorem State.BaysMoved.trans (s t u : State) (h : s.BaysMoved t) (k : t.BaysMoved u) : s.BaysMoved u := by
  obtain ⟨y, a, rfl⟩ := h
  obtain ⟨y', a', rfl⟩ := k
  exact ⟨y', a', rfl⟩
theorem State.modBay_moves (s : State) (b : Nat) (f : Bay → Bay) : s.BaysMoved (s.modBay b f) := ⟨_, s.tiles, rfl⟩
theorem State.modTile_moves (s : State) (t : Nat) (f : Tile → Tile) : s.BaysMoved (s.modTile t f) := ⟨s.bays, _, rfl⟩
theorem State.setStrand_moves (s : State) (b j : Nat) (x : Strand) : s.BaysMoved (s.setStrand b j x) := ⟨_, s.tiles, rfl⟩

/-- The stop of a sequence: its bay's strands, and what its tiles had queued. -/
theorem State.stopSeq_moves (s : State) (b : Nat) (c : Cls) : s.BaysMoved (s.stopSeq b c) := by
  unfold State.stopSeq
  split
  · exact .refl s
  · refine .trans _ _ _ (s.modBay_moves b _) (foldl_does State.BaysMoved .refl .trans _ (fun u k => ?_) _ _)
    exact .trans _ _ _ (foldl_does State.BaysMoved .refl .trans _ (fun u n => u.modBay_moves b _) _ u) (State.modTile_moves _ _ _)

/-- Between two states only bays, tiles, registers, fault records and vectors moved. -/
def State.StrandMoved (s u : State) : Prop :=
  ∃ y t x g m n, u = { s with bays := y, tiles := t, faults := x, regs := g, cmd := { s.cmd with msix := m, sent := n } } ∧
    x.marks = s.faults.marks

theorem State.StrandMoved.refl (s : State) : s.StrandMoved s :=
  ⟨s.bays, s.tiles, s.faults, s.regs, s.cmd.msix, s.cmd.sent, rfl, rfl⟩
theorem State.StrandMoved.trans (s t u : State) (h : s.StrandMoved t) (k : t.StrandMoved u) : s.StrandMoved u := by
  obtain ⟨y, a, x, g, m, n, rfl, w⟩ := h
  obtain ⟨y', a', x', g', m', n', rfl, w'⟩ := k
  exact ⟨y', a', x', g', m', n', rfl, w'.trans w⟩
theorem State.BaysMoved.strand {s u : State} (h : s.BaysMoved u) : s.StrandMoved u := by
  obtain ⟨y, t, rfl⟩ := h
  exact ⟨y, t, s.faults, s.regs, s.cmd.msix, s.cmd.sent, rfl, rfl⟩
theorem State.StrandMoved.setFld (s : State) (f : Fld) (v : Nat) : s.StrandMoved (s.setFld f v) :=
  ⟨s.bays, s.tiles, s.faults, _, s.cmd.msix, s.cmd.sent, rfl, rfl⟩
theorem State.StrandMoved.setFlag (s : State) (f : Fld) (v : Bool) : s.StrandMoved (s.setFlag f v) :=
  ⟨s.bays, s.tiles, s.faults, _, s.cmd.msix, s.cmd.sent, rfl, rfl⟩
theorem State.StrandMoved.raise (s : State) (f : FaultRec) : s.StrandMoved (s.raise f) := by
  obtain ⟨x, g, m, n, h, w, _⟩ := s.raise_spec f
  exact ⟨s.bays, s.tiles, x, g, m, n, h, w⟩

/-- A strand's fault: bays and tiles, the bay's fault registers, a record and its vector. -/
theorem State.strandFault_moves (s : State) (b j code pc : Nat) : s.StrandMoved (s.strandFault b j code pc) := by
  unfold State.strandFault
  dsimp only
  refine .trans _ _ _ ?_ (.raise _ _)
  refine .trans _ _ _ ?_ (.setFld _ _ _)
  refine .trans _ _ _ ?_ (.setFld _ _ _)
  refine .trans _ _ _ ?_ (.setFld _ _ _)
  refine .trans _ _ _ ?_ (.setFlag _ _ _)
  refine .trans _ _ _ ?_ (.setFlag _ _ _)
  exact (State.BaysMoved.trans _ _ _ (s.stopSeq_moves b _) (State.setStrand_moves _ b j _)).strand

/-- What a row of the sequencers' instructions may come to: nothing, or something done in the state `s0` that its fetch leaves: nothing
more, a fault of the strand, a wait, or the issue of the instruction that is next. -/
inductive State.RowEnd (s s0 : State) (b j : Nat) (free : Bool) (mine : SInstr → Bool) : State → Prop where
  | other : RowEnd s s0 b j free mine s
  | idle : RowEnd s s0 b j free mine s0
  | fault (code : Nat) : RowEnd s s0 b j free mine (s0.strandFault b j code (s.strand b j).pc.toNat)
  | wait (w : StrandState) : RowEnd s s0 b j free mine (s0.standWait b j w)
  | issue (r : SeqRun) (i : SInstr) (m : mine i = true) : RowEnd s s0 b j free mine (s0.issue b j r i false free)

/-- What a row of the sequencers' instructions comes to. -/
theorem State.strandRow_cases (s : State) (b j : Nat) (ecc : Ecc) (free : Bool) (mine : SInstr → Bool) :
    ∃ e, State.RowEnd s (s.imemEcc b e) b j free mine (s.strandRow b j ecc free mine) := by
  refine ⟨if (s.strand b j).state.waiting = true then Ecc.clean else ecc, ?_⟩
  unfold State.strandRow
  dsimp only
  generalize (if (s.strand b j).state.waiting = true then Ecc.clean else ecc) = e
  rcases s.nextInstr b j with _ | ⟨r, code | i⟩
  · exact .other
  · dsimp only
    split <;> exact .fault _
  · dsimp only
    split
    · exact .fault 2
    cases m : mine i
    · exact .other
    rw [Bool.not_true, if_neg Bool.false_ne_true]
    rcases Option.map (fun x : SeqRun × Except Nat SInstr => x.1) ((s.imemEcc b e).nextInstr b j) with _ | q
    · exact .idle
    dsimp only
    split
    · exact .wait _
    split
    · exact .issue q i m
    · exact .idle

end Sys2Proof.Machine
end

