-- ==== Sys2Proof/Laws/Parts.lean ====
section
/-! SUPPORT. How parts of a state stay the same: through nothing, through two things in turn, through a fold, and through the shared
operations. -/

namespace Sys2Proof.Machine

theorem Part.kept_refl (s : State) (p : Part) : p.kept s s := by
  cases p <;> first | rfl | exact fun _ _ => rfl

theorem Part.kept_trans (s t u : State) (p : Part) (h : p.kept s t) (k : p.kept t u) : p.kept s u := by
  cases p <;> first | exact Eq.trans k h | exact fun off o => (k off o).trans (h off o)

/-- A part that every step of a fold keeps, the fold keeps. -/
theorem Part.kept_foldl {α : Type} (p : Part) (f : State → α → State) (step : ∀ s x, p.kept s (f s x)) (l : List α) (s : State) :
    p.kept s (l.foldl f s) :=
  foldl_does p.kept (fun s => p.kept_refl s) (fun s t u => p.kept_trans s t u) f step l s

/-- What a choice of two keeps. -/
theorem Part.kept_ite (p : Part) (c : Prop) [Decidable c] (s t u : State) (h : p.kept s t) (k : p.kept s u) :
    p.kept s (if c then t else u) := by
  split
  · exact h
  · exact k

/-- A register write keeps every other part and the registers of every other block. -/
theorem Part.kept_setReg (p : Part) (s : State) (off : Nat) (v : Word) (h : p ≠ .regs (regBlock off)) : p.kept s (s.setReg off v) := by
  cases p with
  | regs b => exact fun o e => Tab.get_set_other _ _ _ _ _ fun q => h (by rw [← e, q])
  | _ => rfl

theorem Part.kept_setFld (p : Part) (s : State) (f : Fld) (v : Nat) (h : p ≠ .regs (regBlock f.off)) : p.kept s (s.setFld f v) :=
  p.kept_setReg s f.off _ h

theorem Part.kept_setFlag (p : Part) (s : State) (f : Fld) (b : Bool) (h : p ≠ .regs (regBlock f.off)) : p.kept s (s.setFlag f b) :=
  p.kept_setReg s f.off _ h

/-- A fault touches the records, GLB's registers and the vectors. -/
theorem Part.kept_raise (p : Part) (s : State) (f : FaultRec) (h : p ≠ .faults) (k : p ≠ .cmd) (l : p ≠ .regs .glb) :
    p.kept s (s.raise f) := by
  obtain ⟨x, g, m, n, e, _, r⟩ := s.raise_spec f
  cases p with
  | regs b => exact fun o w => r o fun q => l (by rw [← w, q]; rfl)
  | faults => exact absurd rfl h
  | cmd => exact absurd rfl k
  | _ => rw [e]; rfl

/-- Claims that moved touch the scores besides. -/
theorem State.ClaimsMoved.kept {s u : State} (m : s.ClaimsMoved u) (p : Part) (c : p ≠ .scores) (h : p ≠ .faults) (k : p ≠ .cmd)
    (l : p ≠ .regs .glb) : p.kept s u := by
  obtain ⟨c', x, g, m, n, rfl, _, r⟩ := m
  cases p with
  | regs b => exact fun o w => r o fun q => l (by rw [← w, q]; rfl)
  | scores => exact absurd rfl c
  | faults => exact absurd rfl h
  | cmd => exact absurd rfl k
  | _ => rfl

end Sys2Proof.Machine
end

