-- ==== Sys2Proof/Laws/PerInstr.lean ====
section
/-! SUPPORT. Well-formedness shuts out no row of the command table: every constructor of `Instr` has a well-formed command. -/

namespace Sys2Proof.Laws.Formed

/-- A well-formed command of the same row. -/
def Statement (i : Instr) : Prop := ∃ j : Instr, j.wf = true ∧ j.ctorIdx = i.ctorIdx

theorem of {i : Instr} (formed : i.wf = true) : Statement i := ⟨i, formed, rfl⟩

/-- A slot's measurement of the shape that arrives. -/
def aSlot : SlotMeas := ⟨List.replicate 512 ⟨0, 0, 0, 0, 0, 0, 0, 0, 0, 0⟩, List.replicate 16 0, 0⟩

theorem aSlot_wf : Instr.wf (.recalibrationSlot 0 aSlot) = true := by decide +kernel

/-- A message without blocks. -/
def aMsg : Msg := ⟨1, 2, 1, 0, .assured, false, 0, 1, 0, 0, 0, 0, 0, false, 0, []⟩

/-- A codeword pair of idle slots. -/
def aPair : Pair := ⟨true, false, 0, [.idle, .idle, .idle, .idle, .idle]⟩

theorem nop (b : BayId) (j : StrandId) (ecc : Ecc) : Statement (.nop b j ecc) := of rfl
theorem win (b : BayId) (j : StrandId) (ecc : Ecc) : Statement (.win b j ecc) := of rfl
theorem pld (b : BayId) (j : StrandId) (ecc : Ecc) : Statement (.pld b j ecc) := of rfl
theorem psw (b : BayId) (j : StrandId) (ecc : Ecc) : Statement (.psw b j ecc) := of rfl
theorem ssc (b : BayId) (j : StrandId) (ecc : Ecc) : Statement (.ssc b j ecc) := of rfl
theorem ccf (b : BayId) (j : StrandId) (ecc : Ecc) : Statement (.ccf b j ecc) := of rfl
theorem drn (b : BayId) (j : StrandId) (ecc : Ecc) : Statement (.drn b j ecc) := of rfl
theorem smv (b : BayId) (j : StrandId) (ecc : Ecc) : Statement (.smv b j ecc) := of rfl
theorem swt (b : BayId) (j : StrandId) (ecc : Ecc) : Statement (.swt b j ecc) := of rfl
theorem evs (b : BayId) (j : StrandId) (ecc : Ecc) : Statement (.evs b j ecc) := of rfl
theorem evw (b : BayId) (j : StrandId) (ecc : Ecc) : Statement (.evw b j ecc) := of rfl
theorem loop (b : BayId) (j : StrandId) (ecc : Ecc) : Statement (.loop b j ecc) := of rfl
theorem brt (b : BayId) (j : StrandId) (ecc : Ecc) : Statement (.brt b j ecc) := of rfl
theorem mrk (b : BayId) (j : StrandId) (ecc : Ecc) (slotFree : Bool) : Statement (.mrk b j ecc slotFree) := of rfl
theorem endStrand (b : BayId) (j : StrandId) (ecc : Ecc) : Statement (.endStrand b j ecc) := of rfl
theorem sequenceEnd (b : BayId) (c : Cls) : Statement (.sequenceEnd b c) := of rfl
theorem stepBay (b : BayId) (v : Word) (ecc : Ecc) (slotFree : Bool) : Statement (.stepBay b v ecc slotFree) := of rfl
theorem windowIssue (t : TileId) : Statement (.windowIssue t) := of rfl
theorem windowEnd (t : TileId) : Statement (.windowEnd t) := of rfl
theorem overflowDecision (t : TileId) : Statement (.overflowDecision t) := of rfl
theorem replay (t : TileId) : Statement (.replay t) := of rfl
theorem pewterUpdate (t : TileId) : Statement (.pewterUpdate t) := of rfl
theorem chainStep (t : TileId) : Statement (.chainStep t) := of rfl
theorem chainConfigurationChange (t : TileId) : Statement (.chainConfigurationChange t) := of rfl
theorem remoteChainTimeout (t : TileId) (entry : EntryId) : Statement (.remoteChainTimeout t entry) := of rfl
theorem imageFetch (t : TileId) : Statement (.imageFetch t) := of rfl
theorem planeLoadStart (t : TileId) : Statement (.planeLoadStart t) := of rfl
theorem planeLoadValid (t : TileId) : Statement (.planeLoadValid t) := of rfl
theorem planeSwap (t : TileId) : Statement (.planeSwap t) := of rfl
theorem holdLimitExpiry (t : TileId) : Statement (.holdLimitExpiry t) := of rfl
theorem drainRelease (t : TileId) : Statement (.drainRelease t) := of rfl
theorem drainReadEnd (t : TileId) : Statement (.drainReadEnd t) := of rfl
theorem slotAccess (q : QueueId) (up : Upset) (find : GddrFind) : Statement (.slotAccess q up find) := ⟨.slotAccess 0 [] ⟨false, false, []⟩, rfl, rfl⟩
theorem pewterMapAccess (r : MapRequester) (t : TileId) (off : BitVec 22) (wr : Option (BitVec 64)) (mark : Mark) : Statement (.pewterMapAccess r t off wr mark) := of rfl
theorem transferStart (q : QueueId) : Statement (.transferStart q) := of rfl
theorem transferComplete (q : QueueId) : Statement (.transferComplete q) := of rfl
theorem waitGraphCut (members : List QueueId) : Statement (.waitGraphCut members) := of rfl
theorem waitTimeout (b : BayId) (j : StrandId) : Statement (.waitTimeout b j) := of rfl
theorem gddr7Retry (blk : BitVec 30) (find : GddrFind) : Statement (.gddr7Retry blk find) := ⟨.gddr7Retry 0 ⟨false, false, []⟩, rfl, rfl⟩
theorem gddr7SpanClear (span : BitVec 24) : Statement (.gddr7SpanClear span) := of rfl
theorem spareLock (i : SourceId) : Statement (.spareLock i) := of rfl
theorem darkWindowStart (b : BayId) (align : BitVec 9) : Statement (.darkWindowStart b align) := of rfl
theorem darkWindowEnd (b : BayId) : Statement (.darkWindowEnd b) := of rfl
theorem fabricSpareSwap : Statement .fabricSpareSwap := of rfl
theorem armingFault (i : SourceId) : Statement (.armingFault i) := of rfl
theorem armingRestart (i : SourceId) : Statement (.armingRestart i) := of rfl
theorem boostStep (i : SourceId) (c : CombId) : Statement (.boostStep i c) := ⟨.boostStep 0 0, rfl, rfl⟩
theorem opticalCut (i : SourceId) (c : CombId) : Statement (.opticalCut i c) := ⟨.opticalCut 0 0, rfl, rfl⟩
theorem recalibrationSlotDue (e : EngineId) : Statement (.recalibrationSlotDue e) := ⟨.recalibrationSlotDue 0, rfl, rfl⟩
theorem recalibrationSlot (t : TileId) (m : SlotMeas) : Statement (.recalibrationSlot t m) := ⟨.recalibrationSlot 0 aSlot, aSlot_wf, rfl⟩
theorem loopTick (i : TickInputs) : Statement (.loopTick i) := of rfl
theorem handOverTimeout (e : EngineId) (l : SlotId) : Statement (.handOverTimeout e l) := ⟨.handOverTimeout 0 0, rfl, rfl⟩
theorem followingFault (e : EngineId) (l : SlotId) : Statement (.followingFault e l) := ⟨.followingFault 0 0, rfl, rfl⟩
theorem bayResume (b : BayId) : Statement (.bayResume b) := of rfl
theorem telemetryRecord (e : EngineId) (slotFree : Bool) : Statement (.telemetryRecord e slotFree) := of rfl
theorem readbackDwell (o : OutId) (meas : BitVec 12) : Statement (.readbackDwell o meas) := of rfl
theorem trimOutputReturn : Statement .trimOutputReturn := of rfl
theorem heaterCurrentFault (t : Option TileId) : Statement (.heaterCurrentFault t) := of rfl
theorem guardLimitCommit (idx : BitVec 7) (v : Word) (cmpl : Word) : Statement (.guardLimitCommit idx v cmpl) := of rfl
theorem emissionLockRelease : Statement .emissionLockRelease := of rfl
theorem emissionLockSet : Statement .emissionLockSet := of rfl
theorem thermalSample (n : SensorId) (reading : Option (BitVec 16)) : Statement (.thermalSample n reading) := of rfl
theorem fastSamplingEnd (n : SensorId) : Statement (.fastSamplingEnd n) := of rfl
theorem trip (n : SensorId) : Statement (.trip n) := of rfl
theorem throttleStepUp (b : BayId) : Statement (.throttleStepUp b) := of rfl
theorem belowFloor (b : BayId) : Statement (.belowFloor b) := of rfl
theorem throttleStepDown (b : BayId) : Statement (.throttleStepDown b) := of rfl
theorem excursionClear (b : BayId) : Statement (.excursionClear b) := of rfl
theorem pmbusPowerRead (watts : List Nat) : Statement (.pmbusPowerRead watts) := of rfl
theorem storedPairCheck (p : StoredPair) (v : Word) (cmpl : Word) : Statement (.storedPairCheck p v cmpl) := of rfl
theorem sourceSwitch (d : DomainId) (src : BitVec 2) : Statement (.sourceSwitch d src) := of rfl
theorem stoppedClock (d : DomainId) (src : BitVec 2) : Statement (.stoppedClock d src) := of rfl
theorem referenceInputStopped : Statement .referenceInputStopped := of rfl
theorem pllUnlock (d : DomainId) : Statement (.pllUnlock d) := of rfl
theorem referenceLost : Statement .referenceLost := of rfl
theorem referenceReturn (recovered : Bool) (port : PortId) : Statement (.referenceReturn recovered port) := of rfl
theorem referenceReelection : Statement .referenceReelection := of rfl
theorem temperatureCorrection (i : CorrItem) (v : BitVec 16) (broken : Bool) : Statement (.temperatureCorrection i v broken) := of rfl
theorem gateClose (d : DomainId) (share : Byte) : Statement (.gateClose d share) := of rfl
theorem crossingReset (r sd : DomainId) : Statement (.crossingReset r sd) := of rfl
theorem crossingOpen (r sd : DomainId) : Statement (.crossingOpen r sd) := of rfl
theorem domainReset (d : DomainId) : Statement (.domainReset d) := of rfl
theorem watchdogReset : Statement .watchdogReset := of rfl
theorem activationConfirm : Statement .activationConfirm := of rfl
theorem powerUp (o : StepOutcome) : Statement (.powerUp o) := of rfl
theorem powerEntry : Statement .powerEntry := of rfl
theorem entryTimeout : Statement .entryTimeout := of rfl
theorem a1Exit : Statement .a1Exit := of rfl
theorem wake (headerOk : Bool) (badBays : BitVec 8) : Statement (.wake headerOk badBays) := of rfl
theorem wakeFailure (code : Byte) : Statement (.wakeFailure code) := of rfl
theorem wakeRetry : Statement .wakeRetry := of rfl
theorem portTraining (p : PortId) (failedStep : Option (Fin 5)) (ms : Byte) : Statement (.portTraining p failedStep ms) := of rfl
theorem portIdleRetry (p : PortId) (light : Bool) : Statement (.portIdleRetry p light) := of rfl
theorem hello (p : PortId) (g : GroupId) (h : Hello) : Statement (.hello p g h) := of rfl
theorem nodeAnnouncement (p : PortId) (a : Announcement) : Statement (.nodeAnnouncement p a) := of rfl
theorem announcementTimer : Statement .announcementTimer := of rfl
theorem leaveAnnouncement (id : BitVec 12) : Statement (.leaveAnnouncement id) := of rfl
theorem partnerEntryTimeout (id : BitVec 12) : Statement (.partnerEntryTimeout id) := of rfl
theorem partnerRejoin (id : BitVec 12) (accepted : Bool) : Statement (.partnerRejoin id accepted) := of rfl
theorem codewordPair (p : PortId) (g : GroupId) (w : Pair) : Statement (.codewordPair p g w) := ⟨.codewordPair 0 0 aPair, rfl, rfl⟩
theorem nakTimeout (p : PortId) (g : GroupId) : Statement (.nakTimeout p g) := of rfl
theorem lossNotice (p : PortId) (g : GroupId) (h : List Byte) : Statement (.lossNotice p g h) :=
  ⟨.lossNotice 0 0 (List.replicate 64 0), rfl, rfl⟩
theorem messageSend (p : PortId) (g : GroupId) : Statement (.messageSend p g) := of rfl
theorem write (p : PortId) (g : GroupId) (m : PartnerAccess) : Statement (.write p g m) := ⟨.write 0 0 ⟨aMsg, []⟩, rfl, rfl⟩
theorem readRequest (p : PortId) (g : GroupId) (m : PartnerAccess) : Statement (.readRequest p g m) :=
  ⟨.readRequest 0 0 ⟨aMsg, []⟩, rfl, rfl⟩
theorem readReply (p : PortId) (g : GroupId) (m : Msg) : Statement (.readReply p g m) := ⟨.readReply 0 0 aMsg, rfl, rfl⟩
theorem chainEntry (p : PortId) (g : GroupId) (m : Msg) : Statement (.chainEntry p g m) := ⟨.chainEntry 0 0 aMsg, rfl, rfl⟩
theorem serviceRequest (p : PortId) (g : GroupId) (m : Msg) : Statement (.serviceRequest p g m) := ⟨.serviceRequest 0 0 aMsg, rfl, rfl⟩
theorem batchDeadline (score : ScoreId) (svc : BitVec 4) : Statement (.batchDeadline score svc) := of rfl
theorem serviceReplySend (score : ScoreId) (svc : BitVec 4) : Statement (.serviceReplySend score svc) := of rfl
theorem serviceReply (p : PortId) (g : GroupId) (m : PartnerAccess) : Statement (.serviceReply p g m) :=
  ⟨.serviceReply 0 0 ⟨aMsg, []⟩, rfl, rfl⟩
theorem writeCompletion (p : PortId) (g : GroupId) (m : Msg) : Statement (.writeCompletion p g m) := ⟨.writeCompletion 0 0 aMsg, rfl, rfl⟩
theorem groupRetrain (p : PortId) (g : GroupId) (done : Bool) : Statement (.groupRetrain p g done) := of rfl
theorem laneStop (p : PortId) (g : GroupId) (lane : Fin 4) (transmit : Bool) : Statement (.laneStop p g lane transmit) := of rfl
theorem laneChange (p : PortId) (g : GroupId) : Statement (.laneChange p g) := of rfl
theorem groupFilterReturn (p : PortId) (g : GroupId) : Statement (.groupFilterReturn p g) := of rfl
theorem packetTake : Statement .packetTake := of rfl
theorem windowStall : Statement .windowStall := of rfl
theorem commandWindowWrite (off : BitVec 16) (dws : List (Word × BitVec 4)) (poisoned : Bool) : Statement (.commandWindowWrite off dws poisoned) := ⟨.commandWindowWrite 0 [(0, 15)] false, rfl, rfl⟩
theorem replyWrite : Statement .replyWrite := of rfl
theorem nopCommand (k : Nat) : Statement (.nopCommand k) := of rfl
theorem identify (k : Nat) : Statement (.identify k) := of rfl
theorem loadBegin (k : Nat) : Statement (.loadBegin k) := of rfl
theorem loadChunk (k : Nat) : Statement (.loadChunk k) := of rfl
theorem analysis (score : ScoreId) (pkg : Package) : Statement (.analysis score pkg) := of rfl
theorem loadEnd (k : Nat) : Statement (.loadEnd k) := of rfl
theorem start (k : Nat) : Statement (.start k) := of rfl
theorem stop (k : Nat) : Statement (.stop k) := of rfl
theorem unload (k : Nat) : Statement (.unload k) := of rfl
theorem bind (k : Nat) : Statement (.bind k) := of rfl
theorem rebindComplete (k : Nat) (b : BayId) : Statement (.rebindComplete k b) := of rfl
theorem reservationExchange (k : Nat) (accepted : Bool) : Statement (.reservationExchange k accepted) := of rfl
theorem release (k : Nat) : Statement (.release k) := of rfl
theorem windowMap (k : Nat) : Statement (.windowMap k) := of rfl
theorem eventSignal (k : Nat) : Statement (.eventSignal k) := of rfl
theorem eventRead (k : Nat) : Statement (.eventRead k) := of rfl
theorem eventNotify (k : Nat) : Statement (.eventNotify k) := of rfl
theorem debugEnter (k : Nat) : Statement (.debugEnter k) := of rfl
theorem debugExit (k : Nat) : Statement (.debugExit k) := of rfl
theorem requalify (k : Nat) (locked : List Nat) (refs : List (Nat × Nat)) : Statement (.requalify k locked refs) := of rfl
theorem powerState (k : Nat) : Statement (.powerState k) := of rfl
theorem guardClear (k : Nat) (causes : BitVec 5) : Statement (.guardClear k causes) := of rfl
theorem trimRelease (k : Nat) : Statement (.trimRelease k) := of rfl
theorem fwStage (k : Nat) (img : Image) : Statement (.fwStage k img) := of rfl
theorem fwCommit (k : Nat) : Statement (.fwCommit k) := of rfl
theorem fwActivate (k : Nat) : Statement (.fwActivate k) := of rfl
theorem doeRequest (type : Byte) (bytes : List Byte) (abort : Bool) : Statement (.doeRequest type bytes abort) := of rfl
theorem status : Statement .status := of rfl
theorem ident : Statement .ident := of rfl
theorem serial : Statement .serial := of rfl
theorem temps : Statement .temps := of rfl
theorem power : Statement .power := of rfl
theorem faultRead : Statement .faultRead := of rfl
theorem regAddr (v : Word) (pec : Option Bool) : Statement (.regAddr v pec) := of rfl
theorem regData : Statement .regData := of rfl
theorem nonceRead : Statement .nonceRead := of rfl
theorem nonceChange : Statement .nonceChange := of rfl
theorem rescueFlush (r : Rescue) : Statement (.rescueFlush r) := of rfl
theorem rescueForceA3 (r : Rescue) : Statement (.rescueForceA3 r) := of rfl
theorem rescueModuleReset (r : Rescue) : Statement (.rescueModuleReset r) := of rfl
theorem rescueRecoveryImage (r : Rescue) : Statement (.rescueRecoveryImage r) := of rfl
theorem rescueRetryWake (r : Rescue) : Statement (.rescueRetryWake r) := of rfl
theorem wakeMatch : Statement .wakeMatch := of rfl
theorem modResetNAssert : Statement .modResetNAssert := of rfl
theorem powerGood (compat : Bool) (nid : BitVec 12) : Statement (.powerGood compat nid) := of rfl
theorem powerOnReset (sba : BitVec 3) : Statement (.powerOnReset sba) := of rfl
theorem standbyLoss : Statement .standbyLoss := of rfl
theorem clrTrimNAssert : Statement .clrTrimNAssert := of rfl
theorem clrTrimNRelease : Statement .clrTrimNRelease := of rfl
theorem perstNAssert : Statement .perstNAssert := of rfl
theorem perstNRelease : Statement .perstNRelease := of rfl
theorem linkRetry (flit : Bool) (width : BitVec 3) (gen : BitVec 4) : Statement (.linkRetry flit width gen) := of rfl
theorem functionLevelReset : Statement .functionLevelReset := of rfl
theorem linkError (e : LinkErr) : Statement (.linkError e) := of rfl
theorem configurationRequest : Statement .configurationRequest := of rfl
theorem apertureRead (off : BitVec 28) (len : Nat) (slotFree : Bool) : Statement (.apertureRead off len slotFree) := of rfl
theorem apertureWrite (off : BitVec 28) (bytes : List Byte) (slotFree : Bool) : Statement (.apertureWrite off bytes slotFree) := of rfl
theorem pairedValueWrite (off : BitVec 25) (v : Word) : Statement (.pairedValueWrite off v) := ⟨.pairedValueWrite 0 0, rfl, rfl⟩
theorem pairedComplementWrite (off : BitVec 25) (v : Word) : Statement (.pairedComplementWrite off v) := ⟨.pairedComplementWrite 0 0, rfl, rfl⟩
theorem registerWrite (off : BitVec 25) (width : Nat) (v : BitVec 64) : Statement (.registerWrite off width v) := ⟨.registerWrite 0 4 0, rfl, rfl⟩
theorem zeroIdle (t : TileId) : Statement (.zeroIdle t) := of rfl
theorem swap (t : TileId) : Statement (.swap t) := of rfl
theorem capture (t : TileId) (v : Word) : Statement (.capture t v) := of rfl
theorem ditherSeedWrite (t : TileId) (v : Word) : Statement (.ditherSeedWrite t v) := of rfl
theorem pewterSeedWrite (t : TileId) (v : Word) : Statement (.pewterSeedWrite t v) := of rfl
theorem pewterStateRead (t : TileId) : Statement (.pewterStateRead t) := of rfl
theorem serialRead : Statement .serialRead := of rfl
theorem traceEnable (b : BayId) (v : Word) : Statement (.traceEnable b v) := of rfl
theorem loopSelect (e : EngineId) (v : Word) : Statement (.loopSelect e v) := of rfl
theorem handOverRequest (e : EngineId) (v : Word) : Statement (.handOverRequest e v) := of rfl
theorem recordSelect (e : EngineId) (v : Word) : Statement (.recordSelect e v) := of rfl
theorem recordCommit (e : EngineId) : Statement (.recordCommit e) := of rfl
theorem recalibrationIntervalWrite (e : EngineId) (v : Word) : Statement (.recalibrationIntervalWrite e v) := of rfl
theorem telemetryEnable (e : EngineId) (v : Word) : Statement (.telemetryEnable e v) := of rfl
theorem ncoWrite (config : Bool) (v : Word) : Statement (.ncoWrite config v) := of rfl
theorem toneInjection (v : Word) : Statement (.toneInjection v) := of rfl
theorem retrain (p : PortId) : Statement (.retrain p) := of rfl
theorem portDisable (p : PortId) (dis : Bool) : Statement (.portDisable p dis) := of rfl
theorem flush : Statement .flush := of rfl
theorem commandEnable (en : Bool) : Statement (.commandEnable en) := of rfl
theorem gateDisable (v : Word) : Statement (.gateDisable v) := of rfl
theorem tableRebuild (t : TileId) : Statement (.tableRebuild t) := of rfl
theorem mainImageHandover (slot : BitVec 2) (img : Image) (loader : List Byte) : Statement (.mainImageHandover slot img loader) := of rfl
theorem vretLoss : Statement .vretLoss := of rfl
theorem pcieRefclkStable (stable : Bool) : Statement (.pcieRefclkStable stable) := of rfl
theorem noLightReceived (p : PortId) : Statement (.noLightReceived p) := of rfl

end Sys2Proof.Laws.Formed
end

