-- ==== Sys2Proof/Tests/Slice0.lean ====
section
/-! SUPPORT. Tests of the model: ill-formed commands that the check refuses, a witness for each statement that has hypotheses, and
single steps whose results the spec gives. -/

namespace Sys2Proof.Tests

set_option Elab.async false

open Sys2Proof Sys2Proof.Machine

/-- The state after a command. -/
def run (c : Instr) (s : State) : State :=
  match exec c s with
  | .next u => u
  | _ => State.reset

/-- The state right after reset. -/
def z : State := State.reset

def noFind : GddrFind := ⟨false, false, []⟩
def aMsg : Msg where
  type := 1
  dst := 1
  src := 2
  seq := 1
  cls := .assured
  rty := false
  grp := 0
  nfl := 0
  nblk := 1
  tag := 7
  score := 5
  status := 0
  svc := 0
  gddr := false
  addr := 0x400000
  blocks := [⟨List.replicate 64 0xAB, none⟩]

/-- Granule 1 of stage memory and range 64 of Pewter, the first of tile 4, belong to score 5. -/
def withMem : State := { z with scores := { z.scores with sgran := [(1, 5)], pewter := [(64, 5)] } }

/-! ### Ill-formed commands -/

theorem wf_comb : (Instr.boostStep 8 3).wf = false ∧ (Instr.opticalCut 8 4).wf = false ∧ (Instr.boostStep 7 4).wf = true := by
  decide
theorem wf_slot : (Instr.handOverTimeout 0 96).wf = false ∧ (Instr.followingFault 8 64).wf = false ∧
    (Instr.followingFault 9 43).wf = false ∧ (Instr.handOverTimeout 9 106).wf = true := by decide
theorem wf_engine : (Instr.recalibrationSlotDue 8).wf = false ∧ (Instr.recalibrationSlotDue 7).wf = true := by decide
theorem wf_measurement : (Instr.recalibrationSlot 0 ⟨[], [], 0⟩).wf = false := by decide
theorem wf_upset : (Instr.slotAccess 0 [(72, 1)] noFind).wf = false ∧ (Instr.slotAccess 0 [(0, 0)] noFind).wf = false ∧
    (Instr.slotAccess 0 [] ⟨false, false, [(72, 1)]⟩).wf = false ∧ (Instr.slotAccess 0 [(71, 1)] noFind).wf = true := by decide
theorem wf_gddr : (Instr.gddr7Retry 0 ⟨false, false, [(72, 1)]⟩).wf = false := by decide
theorem wf_blocks : (Instr.write 0 0 ⟨{ aMsg with blocks := [⟨[0], none⟩] }, []⟩).wf = false ∧
    (Instr.readReply 0 0 { aMsg with blocks := [⟨[0], none⟩] }).wf = false ∧ (Instr.write 0 0 ⟨aMsg, []⟩).wf = true := by decide
theorem wf_finds : (Instr.write 0 0 ⟨aMsg, [(noFind, ⟨false, false, [(0, 0)]⟩)]⟩).wf = false ∧
    (Instr.readRequest 0 0 ⟨aMsg, [(⟨false, false, [(72, 1)]⟩, noFind)]⟩).wf = false ∧
    (Instr.serviceReply 0 0 ⟨aMsg, [(noFind, noFind)]⟩).wf = true := by decide
theorem wf_pair : (Instr.codewordPair 0 0 ⟨true, false, 0, List.replicate 4 .idle⟩).wf = false ∧
    (Instr.codewordPair 0 0 ⟨true, false, 0, .head [0] :: List.replicate 4 .idle⟩).wf = false ∧
    (Instr.codewordPair 0 0 ⟨true, false, 0, List.replicate 5 .idle⟩).wf = true := by decide
theorem wf_notice : (Instr.lossNotice 0 0 (List.replicate 63 0)).wf = false ∧ (Instr.lossNotice 0 0 (List.replicate 64 0)).wf = true := by
  decide
theorem wf_delay : SlotMeas.wf ⟨[⟨18, 0, 0, 0, 0, 0, 0, 0, 0, 0⟩], [], 0⟩ = false := by decide
theorem wf_window : (Instr.commandWindowWrite 2 [(0, 15)] false).wf = false ∧ (Instr.commandWindowWrite 4 [] false).wf = false ∧
    (Instr.commandWindowWrite 4 [(0, 15)] false).wf = true := by decide
theorem wf_register : (Instr.registerWrite 0 2 0).wf = false ∧ (Instr.pairedValueWrite 0x200032 0).wf = false ∧
    (Instr.pairedComplementWrite 0x200031 0).wf = false ∧ (Instr.registerWrite 0 8 0).wf = true := by decide
theorem wf_refused_units : exec (.boostStep 8 3) z = .fault .noSuchUnit ∧ exec (.handOverTimeout 0 96) z = .fault .noSuchUnit ∧
    exec (.recalibrationSlotDue 9) z = .fault .noSuchUnit := ⟨rfl, rfl, rfl⟩

/-! ### Reset, decoding and the queue -/

theorem reset_memOk : State.reset.memOk = true := by decide
theorem reset_queueOk : State.reset.queueOk = true := by decide
theorem no_word_is_a_command (n w : Nat) : decodeTableWord n w = none := rfl
theorem fetch_word_changes_nothing (n w : Nat) : State.reset.withFetchWord n w = State.reset := rfl
theorem empty_queue_idles : step z = .next { z with core := 1 } := rfl
/-- R432, R433: the limits after reset, in the units of their registers. -/
theorem reset_reads : z.reg GLB_ID.part.off = 0x3208A311 ∧ z.flag GUARD_STAT.elock = true := by decide +kernel

/-! ### Tiles -/

def blk (x : Byte) : Block := ⟨List.replicate 64 x, none⟩
/-- A state whose tile 4 is the one given, in bay 1 of score 5. -/
def tileAt (x : Tile) : State := (((withMem.setBayScore 1 5).setBayState 1 3).setTile 4 x)
def bare : Tile := { Tile.reset with tblOk := true }
def aWin : Win where
  no := 1
  gid := 0
  job := 1
  final := true
  wl := 0
  entry := 9
  plane := false
  scale := 0
  role := .none
  inputs := List.replicate 128 0x80
  outs := []
  input := none
  band := false
  aff := []
  lost := false
  cap := none
  phase := .integrating
  codes := List.replicate 512 0
  marks := List.replicate 32 none
  integ := false
  since := 0
def winIn (p : WinPhase) (c : Int) : State :=
  tileAt { bare with wins := [{ aWin with phase := p, codes := [c] }], started := 1, ended := 1 }
def queued (pl : BitVec 2) (role : Role) : WinEntry := .win 0 1 2 0 9 0 1 3 role pl 10 false
def ready : State := tileAt { bare with winQ := [queued 0 .none], inbuf := [⟨3, blk 1⟩, ⟨3, blk 2⟩] }
/-- Sixteen updates wait. -/
def crowded : State := tileAt { bare with
  winQ := [queued 0 .none], inbuf := [⟨3, blk 1⟩, ⟨3, blk 2⟩], updQ := List.replicate 16 ⟨0, 0, 9, false, [], [], [], [], [], 1, 0⟩ }
def starved : State := tileAt { bare with winQ := [queued 0 .none], inbuf := [⟨3, blk 1⟩] }
def wantsDark : State := ready.modBay 1 fun y => { y with darkDue := true }
/-- An integration is 19 symbols behind the oldest one. -/
def behind (n : Nat) : State := tileAt { bare with winQ := [queued 0 .none]
                                                   wins := List.replicate n aWin }

theorem witness_WindowIssues : ready.tileHeld 4 = false ∧ (ready.tile 4).scaleBad = false ∧ (ready.tile 4).mayLeave = true ∧
    ready.winFault 4 9 0 .none false = none ∧ takeInputs 3 (ready.tile 4).inbuf = some (blk 1, blk 2, []) ∧
    ready.windowRoom 4 0 9 0 .none = true ∧ crowded.windowRoom 4 0 9 0 .none = false ∧
    takeInputs 3 (starved.tile 4).inbuf = none ∧ wantsDark.tileHeld 4 = true ∧
    ready.winFault 4 63 3 .none false = some 6 ∧ ready.winFault 4 63 0 .head false = some 9 ∧
    ready.winFault 4 64 0 .none false = some 7 ∧ ready.winFault 4 63 0 .none false = none ∧
    ((behind 4).tile 4).mayLeave = false ∧ ((behind 3).tile 4).mayLeave = true ∧ (behind 4).tileHeld 4 = false := by decide +kernel
theorem witness_WindowsConvertAndLeave : (winIn .integrating 0).tile 4 |>.firstIn .integrating |>.isSome := by decide +kernel
theorem witness_WindowsConvertAndLeave_decides : ((winIn .converted 127).tile 4).firstIn .integrating = none ∧
    (((winIn .converted 127).tile 4).firstIn .converted).map (·.codes) = some [127] ∧ overRows [127] = [0] ∧
    (winIn .converted 127).replayable 4 aWin = true ∧ (winIn .converted 127).replayable 4 { aWin with plane := true } = false ∧
    { aWin with no := 5 }.no + 4 = 9 ∧ (tileAt { bare with ended := 9 }).replayable 4 { aWin with no := 5 } = false ∧
    overRows [0] = [] ∧ (((winIn .replaying 127).tile 4).firstIn .replaying).isSome = true ∧ (winIn .replaying 127).replayDue 4 = true ∧
    ((winIn .replaying 127).modBay 1 fun y => { y with darkOn := true }).replayDue 4 = false := by decide +kernel
def anUpdate : Update := ⟨0, 0, 9, false, 3 :: List.replicate 511 0, List.replicate 512 0, List.replicate 32 none,
  List.replicate 32 false, [], 1, 0⟩
def updating : State := tileAt { bare with updQ := [anUpdate] }
theorem witness_GroupUpdateIsExact : GroupVal.cleared.e ≤ 127 ∧ (List.replicate 16 (1 : Int)).length ≤ (List.replicate 16 (3 : Int)).length ∧
    (groupUpdate ⟨List.replicate 16 (2 ^ 39 - 1), 127, false, none⟩ (List.replicate 16 1) (List.replicate 16 127) none []).1.ovf = true := by
  decide +kernel
theorem witness_UpdateIsApplied : ((updating.tile 4).updQ.find? (updating.updReady 4)).isSome = true ∧
    (ready.tile 4).updQ.find? (ready.updReady 4) = none := by decide +kernel

def aGroup : Group := ⟨0, 0, 2, 10, 9, 0, false, 0, .head, 1, 1, true, List.replicate 512 0, List.replicate 512 0,
  List.replicate 32 none, [], 1, 0⟩
/-- Tile 4 is the head of a chain of two. -/
def chained (x : Tile) : State := (tileAt x).configureChain 4 4 2 false false false 9 0
/-- Tile 4 is the tail of a chain of two. -/
def chainTail (x : Tile) : State := (tileAt x).configureChain 4 3 2 false false false 9 0
def aWord : ChainWord := ⟨3, 2, List.replicate 512 0, List.replicate 32 0, List.replicate 32 false, List.replicate 32 none, 0⟩
def ccfQ (head len : Nat) (dis : Bool) : WinEntry := .ccf 0 head len false false dis 9 0
/-- A round of entry 9 waits for its remote entry since tick 0, with a timeout of `tmo` µs. -/
def overdue (tmo : Byte) (tick : Nat) : State := { ((tileAt bare).configureChain 4 4 2 true false false tmo 0).modTile 4 fun x =>
  { x with remote := [(9, ⟨[⟨0, 1, 0, false⟩], []⟩)] } with tick := tick }
theorem witness_ChainsMoveChangeAndTimeOut_move :
    ((chained { bare with ownQ := [aGroup] }).tile 4).chainIn = [] ∧ (chained { bare with ownQ := [aGroup] }).chainAct 4 = true ∧
    (chained { bare with ownQ := [aGroup] }).chainPos 4 = 0 ∧ (chained { bare with ownQ := [aGroup] }).chainEnd 4 = false ∧
    (chained { bare with ownQ := [aGroup] }).mayCross 4 (nextTile 4) = true ∧
    ((chained { bare with ownQ := [aGroup] }).tile (nextTile 4)).chainIn.length < 8 ∧
    (chained { bare with ownQ := [aGroup] }).remotePending 4 9 0 = false ∧
    (chainTail { bare with ownQ := [aGroup], chainIn := [aWord] }).chainEnd 4 = true ∧
    aWord.head = (chainTail { bare with ownQ := [aGroup], chainIn := [aWord] }).chainHead 4 ∧
    aWord.len = (chainTail { bare with ownQ := [aGroup], chainIn := [aWord] }).chainLen 4 ∧
    ((tileAt bare).configureChain 4 3 3 false false false 9 0).chainEnd 4 = false ∧
    aWord.head ≠ (chained { bare with chainIn := [aWord] }).chainHead 4 ∧ (tileAt { bare with chainIn := [aWord] }).chainAct 4 = false := by
  decide +kernel
theorem witness_ChainsMoveChangeAndTimeOut_change :
    (tileAt { bare with winQ := [ccfQ 4 2 false] }).chainIdle 4 = true ∧ (tileAt bare).chainAct 4 = false ∧
    ((tileAt bare).bay (4 / 4)).paused = false ∧ (chained { bare with winQ := [ccfQ 4 2 true] }).chainIdle 4 = true ∧
    (chained { bare with winQ := [ccfQ 4 2 true] }).chainHead 4 = 4 ∧ (chained { bare with winQ := [ccfQ 4 2 true] }).chainLen 4 = 2 ∧
    (chained { bare with winQ := [ccfQ 31 32 true] }).chainHead 4 ≠ 31 ∧
    (chained { bare with winQ := [ccfQ 4 2 true], ownQ := [{ aGroup with inst := 1 }] }).chainIdle 4 = false ∧
    (((tileAt bare).modBay 1 fun y => { y with pauseTrim := true }).bay (4 / 4)).paused = true := by decide +kernel
theorem witness_ChainsMoveChangeAndTimeOut_remote : (((overdue 9 9).tile 4).rounds 9).due.find? (fun x => !x.done) = some ⟨0, 1, 0, false⟩ ∧
    (overdue 9 9).flag (TILE_CHAIN_CFG.rin.on 4) = true ∧ ((overdue 9 9).tile 4).roundOpen 9 ⟨0, 1, 0, false⟩ = true ∧
    0 + (overdue 9 9).fld (TILE_CHAIN_CFG.tmo.on 4) ≤ (overdue 9 9).tick ∧
    (overdue 9 8).tick < 0 + (overdue 9 8).fld (TILE_CHAIN_CFG.tmo.on 4) := by decide +kernel

def aLoad : Load := ⟨0, 1, 2, 10, 0, false, 0x400000, 0, 0, false⟩
/-- Bank 0 has read and write slots of the assured class of granule 1. -/
def slots (s : State) : State :=
  { s with stage := { s.stage with owner := [(0, ownerCode 0x400000 .assured), (1, ownerCode 0x400000 .assured),
      (2, ownerCode 0x400000 .assured), (3, ownerCode 0x400000 .assured)] } }
def fetching : State := slots (tileAt { bare with loadQ := [aLoad] })
/-- Tile 5 wants a line of the same bank, and the pointer of the bank stands at its strand. -/
def rivalFetch : State :=
  let s := fetching.setTile 5 { bare with loadQ := [{ aLoad with strand := 1 }] }
  { s with arb := [(keyBank 0, 1)] }
def zeroLoad : State := tileAt { bare with loadQ := [{ aLoad with zero := true }] }
def loading : State := tileAt { bare with loadQ := [{ aLoad with zero := true, phase := 2 }], loading := some Plane.reset }
def swapping : State := tileAt { bare with winQ := [.psw 0 1] }
def aged (n : Nat) : State := { tileAt bare with tick := n }
/-- The image has come, and row 0's header is not right. -/
def badImage : State := tileAt { bare with
  loadQ := [{ aLoad with phase := 1 }], buf0 := { ImgBuf.reset with full := true, bytes := [(0, 7)] } }
theorem witness_PlanesLoadSwapAndAge_load : nextFetch (fetching.tile 4).loadQ = some aLoad ∧
    (fetching.tile 4).pickBuf (fetching.active 4) = some 0 ∧
    fetching.rangeSlots aLoad.addr imageSize readKinds ((fetching.bay (4 / 4)).job aLoad.job).cls = true ∧
    fetching.grantsOpt fetching.claims (fetching.fetchClaim 4) = true ∧
    nextFetch (zeroLoad.tile 4).loadQ = none ∧ (zeroLoad.bay (4 / 4)).paused = false ∧
    (zeroLoad.tile 4).mayStart { aLoad with zero := true } = true ∧ (fetching.tile 4).mayStart aLoad = false ∧
    ({ aLoad with zero := true } : Load).target (zeroLoad.active 4) ≠ zeroLoad.active 4 ∧
    ({ aLoad with zero := true, pl := 1 } : Load).target (zeroLoad.active 4) = zeroLoad.active 4 ∧
    (badImage.tile 4).mayStart { aLoad with phase := 1 } = true ∧ badHdr (((badImage.tile 4).buf 0).hdrWord 0) = true ∧
    (loading.tile 4).loadQ.find? (·.phase == 2) = some { aLoad with zero := true, phase := 2 } ∧
    (loading.tile 4).loading = some Plane.reset := by decide +kernel
theorem witness_PlanesLoadSwapAndAge_grant : rivalFetch.grantsOpt rivalFetch.claims (rivalFetch.fetchClaim 4) = false := by decide +kernel
theorem witness_PlanesLoadSwapAndAge_swap :
    (swapping.tile 4).loadQ.any (·.stamp < 0) = false ∧ (swapping.tile 4).boundary = true ∧ (swapping.bay (4 / 4)).paused = false ∧
    ((tileAt { bare with loadQ := [aLoad] }).tile 4).loadQ.any (·.stamp < 1) = true ∧
    ((winIn .replaying 0).tile 4).boundary = false ∧
    (((aged 1000).tile 4).planeOf ((aged 1000).active 4)).settled + 1000 ≤ (aged 1000).tick ∧
    (aged 999).tick < (((aged 999).tile 4).planeOf ((aged 999).active 4)).settled + 1000 := by decide +kernel
def aDrain : Drain := ⟨0, 1, 2, 9, 1, 0, false, true, 0, 0, 0x400000, false, 0, [], true, false⟩
def draining (d : Drain) : State := slots (tileAt { bare with drainQ := [d], mant := [(512 * 9, 5)] })
/-- An update of the drain's entry waits before it. -/
def behindUpdate : State := tileAt { bare with drainQ := [{ aDrain with stamp := 1 }], updQ := [anUpdate] }
theorem witness_DrainsReadTheirEntry : ((draining aDrain).bay (4 / 4)).paused = false ∧
    ((draining aDrain).tile 4).drainClear aDrain ((draining aDrain).tileFaulted 4) = true ∧ ((draining aDrain).tile 4).drainGen aDrain = true ∧
    ((draining aDrain).reserveRemote 4 9 aDrain.stamp).remotePending 4 9 aDrain.stamp = false ∧
    (behindUpdate.tile 4).drainClear { aDrain with stamp := 1 } (behindUpdate.tileFaulted 4) = false ∧
    (draining { aDrain with released := true }).drainRoom 4 { aDrain with released := true } = true ∧
    (draining { aDrain with released := true }).grantsOpt (draining { aDrain with released := true }).claims
      ((draining { aDrain with released := true }).drainClaim 4) = true ∧
    (draining { aDrain with released := true, left := 2 }).drainRoom 4 { aDrain with released := true, left := 2 } = true ∧
    (tileAt { bare with drainQ := [{ aDrain with released := true }] }).drainRoom 4 { aDrain with released := true } = false ∧
    (∀ k, k < 32 → (draining aDrain).holdsDesc (0x400000 + 64 * k) = false) := by decide +kernel

/-! Effects (R50 to R56, R90, R105, R117, R128, R161). -/

theorem window_starts : ((run (.windowIssue 4) ready).tile 4).started = 1 ∧ ((run (.windowIssue 4) ready).tile 4).inbuf = [] ∧
    ((run (.windowIssue 4) ready).tile 4).winQ = [] := by decide +kernel
theorem window_takes_its_blocks : (((run (.windowIssue 4) ready).tile 4).wins.map (·.inputs)) =
    [List.replicate 64 1 ++ List.replicate 64 2] := by decide +kernel
theorem window_ends : ((run (.windowEnd 4) (winIn .integrating 0)).tile 4).ended = 2 := by decide +kernel
theorem rail_code_replays : ((run (.overflowDecision 4) (winIn .converted 127)).tile 4).wins.map (·.phase) = [.replaying] ∧
    (run (.overflowDecision 4) (winIn .converted 127)).fld (TILE_OVF_LAST.win.on 4) = 1 := by decide +kernel
theorem chain_discards : ((run (.chainStep 4) (chained { bare with chainIn := [aWord] })).tile 4).chainIn = [] := by decide +kernel
theorem chain_ends : (((run (.chainStep 4) (chainTail { bare with ownQ := [aGroup], chainIn := [aWord] })).tile 4).updQ.map (·.entry)) = [9] := by
  decide +kernel
theorem chain_configures : (run (.chainConfigurationChange 4) (tileAt { bare with winQ := [ccfQ 4 2 false] })).chainLen 4 = 2 ∧
    (run (.chainConfigurationChange 4) (chained { bare with winQ := [ccfQ 4 2 true] })).chainAct 4 = false := by decide +kernel
theorem remote_times_out : (((run (.remoteChainTimeout 4 9) (overdue 9 9)).tile 4).groupVal 9 0).mark = some 8 := by decide +kernel
theorem zero_load_starts : ((run (.planeLoadStart 4) zeroLoad).tile 4).loading.isSome = true := by decide +kernel
theorem load_is_valid : ((run (.planeLoadValid 4) loading).tile 4).loading = none ∧ ((run (.planeLoadValid 4) loading).tile 4).loadQ = [] := by
  decide +kernel
theorem bad_header_faults : ((run (.planeLoadStart 4) badImage).strand 1 2).fault = 5 := by decide +kernel
theorem plane_swaps : (run (.planeSwap 4) swapping).active 4 = true := by decide +kernel
theorem plane_ages : (run (.holdLimitExpiry 4) (aged 1000)).flag (TILE_PLANE_STAT.stale.on 4) = true ∧
    run (.holdLimitExpiry 4) (aged 999) = aged 999 := by decide +kernel
theorem drain_is_released : (((run (.drainRelease 4) (draining aDrain)).tile 4).drainQ.map (·.released)) = [true] := by decide +kernel

/-! ### Strands -/

def desc0 : Desc := ⟨0, 0, 0, 0x400000, 0, 0, 0, 0x401000, 1, 1, 1, 1, 64, 64, 64, 64, 64, 64⟩
def seqR : SeqRun := ⟨5, 0, 15, [2], 10, 8, [(0, 1), (1, 1), (2, 1), (3, 1)], [3], [(64, desc0)], [], false, false⟩

/-- An instruction word: opcode, and fields by their lowest bit. -/
def iword (op : Nat) (fs : List (Nat × Nat)) : BitVec 128 :=
  BitVec.ofNat 128 (op * 2 ^ 122 + (fs.map fun f => f.2 * 2 ^ f.1).sum)

/-- Bay 1 of score 5 runs a sequence on strand 2, whose next instruction is the word. -/
def at_ (w : BitVec 128) : State :=
  (((((withMem.setBayScore 1 5).setBayState 1 3).modBay 1 fun y => { y with
    assured := some seqR, imem := [(10, w)], events := [(3, 7)]
    strands := [(2, { Strand.reset with state := .ready, pc := 10, tstEver := true, valid := true, zero := true })] }).setScore 5
      { Score.reset with state := .running }).setTile 4 { Tile.reset with tblOk := true }).setTile 5 { Tile.reset with tblOk := true }

def nopW := iword 0 []
def swtW := iword 9 [(116, 0)]
def loopW := iword 12 [(102, 4), (88, 15)]
def endW := iword 15 []
def brtW := iword 13 [(119, 1), (105, 12)]
def evsW := iword 10 [(113, 3), (105, 2)]
def evwW := iword 11 [(113, 3), (105, 5), (89, 20)]
def winW := iword 1 [(118, 3), (115, 5), (100, 9), (90, 1), (78, 2), (73, 0), (72, 1)]
def pswW := iword 3 [(118, 2)]
def sscW := iword 4 [(118, 1), (32, 0x00FF0001), (0, 0xFF00FFFE)]
def ccfW := iword 5 [(117, 4), (112, 1), (108, 0), (101, 9)]
def pldW := iword 2 [(118, 1), (115, 1)]
def smvW := iword 8 [(116, 1), (92, 1), (84, 9)]
def mrkW := iword 14 [(90, 0x1234)]

def drnW := iword 6 [(110, 9), (99, 1), (65, 0x10000), (64, 1)]

theorem witness_StrandControlIssues : (at_ nopW).mayIssue 1 2 seqR .nop ∧ (at_ swtW).mayIssue 1 2 seqR (.swt 0 false 0 0 0) ∧
    (at_ loopW).mayIssue 1 2 seqR (.loop 4 15) ∧ (at_ endW).mayIssue 1 2 seqR .endStrand :=
  ⟨⟨rfl, rfl, rfl, by decide +kernel⟩, ⟨rfl, rfl, rfl, by decide +kernel⟩, ⟨rfl, rfl, rfl, by decide +kernel⟩,
    ⟨rfl, rfl, rfl, by decide +kernel⟩⟩
/-- The branch is taken, and not taken; the counter holds exactly what is asked for, and stops at 65,535. -/
theorem witness_StrandControlIssues_branch : (at_ brtW).mayIssue 1 2 seqR (.brt 1 12) ∧
    (at_ (iword 13 [(119, 0), (105, 12)])).mayIssue 1 2 seqR (.brt 0 12) :=
  ⟨⟨rfl, rfl, rfl, by decide +kernel⟩, ⟨rfl, rfl, rfl, by decide +kernel⟩⟩
theorem witness_StrandControlIssues_event : (at_ evsW).mayIssue 1 2 seqR (.evs 3 2) ∧
    (at_ (iword 11 [(113, 3), (105, 7), (89, 20)])).mayIssue 1 2 seqR (.evw 3 7 20) ∧
    ((at_ evsW).modBay 1 fun y => { y with events := [(3, 65534)] }).mayIssue 1 2 seqR (.evs 3 2) :=
  ⟨⟨rfl, rfl, rfl, by decide +kernel⟩, ⟨rfl, rfl, rfl, by decide +kernel⟩, ⟨rfl, rfl, rfl, by decide +kernel⟩⟩
theorem witness_TileInstructionsQueue : (at_ winW).mayIssue 1 2 seqR (.win 3 5 0 0 9 1 2 0 true none) ∧
    (at_ pswW).mayIssue 1 2 seqR (.psw 2 none) ∧ (at_ sscW).mayIssue 1 2 seqR (.ssc 1 0x00FF0001 (~~~0x00FF0001)) ∧
    (at_ ccfW).mayIssue 1 2 seqR (.ccf 4 2 false false false 9 0) :=
  ⟨⟨rfl, rfl, rfl, by decide +kernel⟩, ⟨rfl, rfl, rfl, by decide +kernel⟩, ⟨rfl, rfl, rfl, by decide +kernel⟩,
    ⟨rfl, rfl, rfl, by decide +kernel⟩⟩
theorem witness_LoadsDrainsAndMovesQueue : (at_ pldW).mayIssue 1 2 seqR (.pld 1 0 true 0 none) ∧
    (at_ drnW).mayIssue 1 2 seqR (.drn 0 9 0 0 false true 0 0 0x10000 true 0 none) ∧
    (at_ smvW).mayIssue 1 2 seqR (.smv 1 64 9 none) ∧ seqR.descs.find? (·.1 == 64) = some (64, desc0) :=
  ⟨⟨rfl, rfl, rfl, by decide +kernel⟩, ⟨rfl, rfl, rfl, by decide +kernel⟩, ⟨rfl, rfl, rfl, by decide +kernel⟩, rfl⟩
/-- The trace ring is on, and bank 0 has an observability write slot. -/
def traced : State := { (at_ mrkW).setFlag (BAY_TRACE_CTL.en.on 1) true with
  stage := ⟨[], [], [], [(1, 5)], []⟩ }
def slotless : State := { traced with stage := ⟨[], [], [], [], []⟩ }
theorem witness_MarksAreTraced : (at_ mrkW).mayIssue 1 2 seqR (.mrk 0x1234) ∧ (at_ mrkW).flag (BAY_TRACE_CTL.en.on 1) = false ∧
    traced.mayIssue 1 2 seqR (.mrk 0x1234) ∧ traced.flag (BAY_TRACE_CTL.en.on 1) = true ∧ traced.hasSlot 0 writeKinds 5 = true ∧
    traced.holdsDesc 0 = false ∧ traced.holdsDesc 15 = false ∧ slotless.mayIssue 1 2 seqR (.mrk 0x1234) ∧
    slotless.flag (BAY_TRACE_CTL.en.on 1) = true ∧ slotless.hasSlot 0 writeKinds 5 = false :=
  ⟨⟨rfl, rfl, rfl, by decide +kernel⟩, by decide +kernel, ⟨rfl, rfl, rfl, by decide +kernel⟩, by decide +kernel,
    by decide +kernel, by decide +kernel, by decide +kernel, ⟨rfl, rfl, rfl, by decide +kernel⟩, by decide +kernel, by decide +kernel⟩
/-- Without an error in stage memory every block is good. -/
theorem blocks_are_good (s : State) (h : s.stage.flips = []) (h' : s.stage.chk = []) (a : Nat) : s.blockBad a = false := by
  have e : ∀ a, s.wordFlips a = 0 := fun a => by
    simp only [State.wordFlips, State.stageFlip, h, h', show ∀ k : Nat, Tab.get dZero ([] : Tab Byte) k = 0 from fun _ => rfl]
    decide
  simp only [State.blockBad, e]
  decide
theorem witness_MarksAreTraced_sound (k : Nat) : traced.blockBad (64 * k) = false := blocks_are_good _ rfl rfl _
/-- EVW asks for nine where the counter holds seven, and has waited `n` µs. -/
def waiting (n : Nat) : State := { (at_ (iword 11 [(113, 3), (105, 9), (89, 20)])).modBay 1 fun y =>
  y.setStrand 2 { y.strand 2 with state := .waitEvent, waitFrom := some 5 } with tick := 5 + n }
theorem witness_WaitsAndFaultsOfStrands_wait : (waiting 20).nextInstr 1 2 = some (seqR, .ok (.evw 3 9 20)) ∧
    (waiting 20).faultOf 1 2 seqR (.evw 3 9 20) = none ∧ (waiting 20).waitOf 1 2 (.evw 3 9 20) = some .waitEvent ∧
    ((waiting 20).strand 1 2).waitFrom = some 5 ∧ (SInstr.evw 3 9 20).timeout = 20 ∧ 5 + 20 ≤ (waiting 20).tick ∧
    (waiting 19).tick < 5 + 20 ∧ SInstr.nop.timeout = 0 ∧ (at_ nopW).waitOf 1 2 .nop = none ∧
    ((at_ nopW).strand 1 2).state.waiting = false := ⟨rfl, rfl, rfl, rfl, rfl, by decide, by decide, rfl, rfl, rfl⟩
/-- A reserved opcode, a scale word whose complement disagrees, a strand that is halted. -/
theorem witness_WaitsAndFaultsOfStrands_fault :
    (at_ (iword 7 [])).nextInstr 1 2 = some (seqR, .error 1) ∧ (at_ (iword 4 [(118, 1), (32, 1), (0, 1)])).faultOf 1 2 seqR
      (.ssc 1 1 1) = some 8 ∧ (at_ (iword 4 [(118, 1), (32, 1), (0, 1)])).nextInstr 1 2 = some (seqR, .ok (.ssc 1 1 1)) ∧
    (at_ (iword 4 [(118, 1), (32, 1), (0, 1)])).wins 1 2 (.ssc 1 1 1) = true ∧
    ((at_ nopW).modBay 1 fun y => y.setStrand 2 { y.strand 2 with state := .halted }).nextInstr 1 2 = none :=
  ⟨rfl, rfl, rfl, by decide +kernel, rfl⟩
/-- Bay 1 in debug state with strand 2 halted and selected. -/
def haltedAt (w : BitVec 128) : State := (((at_ w).setBayState 1 5).modBay 1 fun y =>
  y.setStrand 2 { y.strand 2 with state := .halted }).setFld (BAY_STRAND_SEL.strand.on 1) 2
def halted : State := haltedAt nopW
/-- The sequence's one strand is idle. -/
def ended : State := (at_ endW).modBay 1 fun y => y.setStrand 2 { y.strand 2 with state := .idle }
theorem witness_StepsIssueAndSequencesEnd : halted.fld (BAY_STRAND_SEL.strand.on 1) = 2 ∧ halted.bayState 1 = 5 ∧
    (halted.strand 1 2).state = .halted ∧ (halted.bay 1).seqOf 2 = some seqR ∧ halted.fetch 1 2 seqR = .ok .nop ∧
    halted.faultOf 1 2 seqR .nop = none ∧ halted.waitOf 1 2 .nop = none ∧
    (haltedAt (iword 11 [(113, 3), (105, 9), (89, 20)])).waitOf 1 2 (.evw 3 9 20) = some .waitEvent ∧
    (haltedAt (iword 4 [(118, 1), (32, 1), (0, 1)])).faultOf 1 2 seqR (.ssc 1 1 1) = some 8 ∧
    (haltedAt (iword 7 [])).fetch 1 2 seqR = .error 1 ∧ (at_ nopW).bayState 1 ≠ 5 ∧
    (ended.bay 1).run .assured = some seqR ∧ ended.seqEnded 1 .assured seqR = true ∧ (at_ endW).seqEnded 1 .assured seqR = false :=
  ⟨by decide +kernel, by decide +kernel, rfl, rfl, rfl, rfl, rfl, rfl, rfl, rfl, by decide +kernel, rfl, by decide +kernel,
    by decide +kernel⟩

/-! Effects of instructions (R134, R139, R144 to R158). -/

def after (c : Instr) (w : BitVec 128) : State := run c (at_ w)
theorem nop_advances : (after (.nop 1 2 .clean) nopW).strand 1 2 = { (at_ nopW).strand 1 2 with pc := 11, waitFrom := some 0 } := by decide +kernel
theorem nop_counts : (after (.nop 1 2 .clean) nopW).fld (BAY_ISSUE_CNT.count.on 1) = 1 := by decide +kernel
theorem swt_advances : ((after (.swt 1 2 .clean) swtW).strand 1 2).pc = 11 := by decide +kernel
theorem loop_enters : ((after (.loop 1 2 .clean) loopW).strand 1 2).loops = [⟨11, 15, 4⟩] := by decide +kernel
theorem loop_comes_back : (Strand.advance { Strand.reset with pc := 15, loops := [⟨11, 15, 4⟩] } false).pc = 11 ∧
    (Strand.advance { Strand.reset with pc := 15, loops := [⟨11, 15, 0⟩] } false).pc = 16 := by decide
theorem end_is_idle : ((after (.endStrand 1 2 .clean) endW).strand 1 2).state = .idle := by decide +kernel
theorem brt_branches : ((after (.brt 1 2 .clean) brtW).strand 1 2).pc = 12 := by decide +kernel
theorem evs_adds : (after (.evs 1 2 .clean) evsW).counter 1 3 = 9 := by decide +kernel
theorem evw_takes : (after (.evw 1 2 .clean) evwW).counter 1 3 = 2 := by decide +kernel
theorem evw_waits : ((run (.evw 1 2 .clean) (waiting 19)).strand 1 2).state = .waitEvent := by decide +kernel
theorem evw_times_out : ((run (.waitTimeout 1 2) (waiting 20)).strand 1 2).fault = 11 := by decide +kernel
theorem win_queues : ((after (.win 1 2 .clean) winW).tile 5).winQ = [.win 0 1 2 5 9 1 3 0 .none 0 10 false] := by decide +kernel
theorem psw_queues : ((after (.psw 1 2 .clean) pswW).tile 5).winQ.length = 1 ∧ ((after (.psw 1 2 .clean) pswW).tile 4).winQ = [] := by
  decide +kernel
theorem ssc_takes_effect : (after (.ssc 1 2 .clean) sscW).reg (TILE_SCALE.s_m.on 4).off = 1 := by decide +kernel
theorem ssc_disagrees : ((run (.ssc 1 2 .clean) (at_ (iword 4 [(118, 1), (32, 1), (0, 1)]))).strand 1 2).fault = 8 := by decide +kernel
theorem ccf_queues : ((after (.ccf 1 2 .clean) ccfW).tile 5).winQ = [.ccf 0 4 2 false false false 9 0] := by decide +kernel
theorem pld_queues : ((after (.pld 1 2 .clean) pldW).tile 4).loadQ.length = 1 := by decide +kernel
theorem pld_waits_for_a_table :
    ((run (.pld 1 2 .clean) (at_ (iword 2 [(118, 4), (115, 1)]))).strand 1 2).state = .waitTable := by decide +kernel
theorem drn_queues : ((after (.drn 1 2 .clean) drnW).tile 4).drainQ.length = 1 ∧ ((after (.drn 1 2 .clean) drnW).strand 1 2).valid = false := by
  decide +kernel
theorem smv_queues : ((after (.smv 1 2 .clean) smvW).queue 33).xfers.length = 1 := by decide +kernel
theorem mrk_writes : (run (.mrk 1 2 .clean true) traced).stageBytesAt 0 4 = [0x34, 0x12, 0, 0] := by decide +kernel
theorem mrk_drops : (run (.mrk 1 2 .clean false) traced).fld (BAY_TRACE_CTL.drops.on 1) = 1 := by decide +kernel
theorem step_stays_halted : ((run (.stepBay 1 1 .clean false) halted).strand 1 2).state = .halted ∧
    ((run (.stepBay 1 1 .clean false) halted).strand 1 2).pc = 11 := by decide +kernel
theorem sequence_ends : ((run (.sequenceEnd 1 .assured) ended).bay 1).assured = none := by decide +kernel
theorem reserved_opcode_faults : ((run (.nop 1 2 .clean) (at_ (iword 7 []))).strand 1 2).fault = 1 := by decide +kernel
theorem double_error_faults : ((run (.nop 1 2 .double) (at_ nopW)).strand 1 2).fault = 2 := by decide +kernel


/-! ### Stage memory, streams and GDDR7 -/

def emptyPkg : Package where
  wellFormed := true
  bays := [⟨0, 0, 0⟩]
  sgran := 1
  ggran := 0
  pewter := [⟨0, 0⟩]
  groups := []
  windows := []
  slots := []
  gslots := [(.assured, 1, 1)]
  queues := []
  counters := [300]
  buffers := []
  timing := []
  seqs := [⟨0, .assured, [(2, 10)], 1, [], [], 10, 8, []⟩]
  code := []
  services := [⟨3, 1, 2, 50, 0, 0, 1, 2, 300, [6], .assured⟩]
  rings := []
  descBase := 0
  descLen := 0
  pieces := []

/-- A wavelength group that is up and bound to score 5. -/
def up : FabGroup := { FabGroup.reset with state := 1, rxl := 15, txl := 15, cred := 128, bound := true, score := 5, partner := 2 }

def xfer : Transfer := ⟨1, .assured, 2, 1, 9, desc0, true, 0, 1, 0, [], (0, false), none, none⟩
/-- Queue 33, the first of bay 1, of score 5, with one transfer; the source block holds 0x5A and a mark. -/
def moving (x : Transfer) : State :=
  let s := (slots withMem).setQueue 33 ⟨5, .assured, true, 2, [x]⟩
  (s.setScore 5 { Score.reset with state := .running, pkg := some emptyPkg }).writeBlock 0x400000 ⟨List.replicate 64 0x5A, some 3⟩
def via (d : Desc) : Transfer := { xfer with desc := d }
/-- A transfer into stream buffer 1 of bay 1, which is `n` blocks long. -/
def intoBuf (n : Nat) : State :=
  (moving { xfer with started := false, desc := { desc0 with dstBuf := 1 } }).setSbuf 65 ⟨0x402000, n, 0, 0, 0, 0, 0, 0, 0⟩
/-- The transfer stands between stage memory and stream buffer 1, which holds `n` blocks of four. -/
def byBuf (d : Desc) (n : Nat) : State := (moving (via d)).setSbuf 65 ⟨0x402000, 4, 0, 0, n, 1, 0, 0, 0⟩
/-- The transfer's other side is remote window 0, over group 1 of port 2 with its first megabyte mapped. -/
def byWindow (d : Desc) : State :=
  (((moving (via d)).setRwin 0 ⟨true, 5, 2, 2, 1, 16⟩).setGroup 2 1 up).writeBytes 0x17CC0007 [0xC0]
def crc : GddrFind := ⟨true, false, []⟩
def toTiles : Desc := { desc0 with dstSp := 3, dstAddr := 1 }
def toGddr : Desc := { desc0 with dstSp := 1 }
def fromGddr : Desc := { desc0 with srcSp := 1 }
def toWindow : Desc := { desc0 with dstSp := 2, dstAddr := 0 }
def fromWindow : Desc := { desc0 with srcSp := 2, srcAddr := 0 }
/-- Queue 34 of strand 1 of the same bay wants a slot of the same bank, where the pointer stands at its strand. -/
def rivalMove : State :=
  let s := (moving xfer).setQueue 34 ⟨5, .assured, true, 2, [{ xfer with strand := 1 }]⟩
  { s with arb := [(keyBank 0, 1)] }
theorem witness_SlotMovesABlock : readingIdx ((moving xfer).queue 33).xfers = some 0 ∧ (moving xfer).xferData 33 xfer = true ∧
    (moving xfer).moving 33 = some xfer ∧ (moving xfer).slotWins 33 = true ∧ xfer.desc.srcSp = 0 ∧ xfer.desc.srcBuf = 0 ∧
    (moving xfer).ownsStage (desc0.srcOf 0) 5 = true ∧ (moving xfer).ownsStage (desc0.dstOf 0) 5 = true ∧
    (moving xfer).holdsDesc (desc0.dstOf 0) = false ∧ desc0.dstSp = 0 ∧ desc0.dstBuf = 0 ∧
    rivalMove.xferData 33 xfer = true ∧ rivalMove.slotWins 33 = false ∧
    (byBuf { desc0 with srcBuf := 1 } 0).xferData 33 (via { desc0 with srcBuf := 1 }) = false := by decide +kernel
theorem witness_SlotMovesABlock_tiles : (moving (via toTiles)).moving 33 = some (via toTiles) ∧
    (moving (via toTiles)).slotWins 33 = true ∧ (via toTiles).tiles = [4] := by decide +kernel
theorem witness_SlotMovesABlock_gddr : (moving (via toGddr)).moving 33 = some (via toGddr) ∧ (moving (via toGddr)).slotWins 33 = true ∧
    noFind.crcBad = false ∧ (moving (via fromGddr)).moving 33 = some (via fromGddr) ∧ (moving (via fromGddr)).slotWins 33 = true ∧
    crc.crcBad = true ∧ (moving (via fromGddr)).gSpanZero (fromGddr.srcOf 0) = false := by decide +kernel
theorem witness_SlotMovesABlock_buffers : (byBuf { desc0 with dstBuf := 1 } 0).moving 33 = some (via { desc0 with dstBuf := 1 }) ∧
    (byBuf { desc0 with dstBuf := 1 } 0).slotWins 33 = true ∧ (via { desc0 with dstBuf := 1 }).dstBufIdx = some 65 ∧
    ((byBuf { desc0 with dstBuf := 1 } 0).sbuf 65).skip = 0 ∧ (via { desc0 with srcBuf := 1 }).srcBufIdx = some 65 ∧
    (byBuf { desc0 with srcBuf := 1 } 4).moving 33 = some (via { desc0 with srcBuf := 1 }) ∧
    (byBuf { desc0 with srcBuf := 1 } 4).slotWins 33 = true := by decide +kernel
theorem witness_SlotMovesABlock_windows : (byWindow toWindow).moving 33 = some (via toWindow) ∧ (byWindow toWindow).slotWins 33 = true ∧
    ((byWindow toWindow).winGroup 0).carries = true ∧ ((byWindow toWindow).translate 5 0 (toWindow.dstOf 0) true).isSome = true ∧
    (byWindow fromWindow).moving 33 = some (via fromWindow) ∧ (byWindow fromWindow).slotWins 33 = true ∧
    (byWindow fromWindow).translate 5 0 (fromWindow.srcOf 0) false = some (0, false) ∧
    (((byWindow fromWindow).winGroup 0).reads.filter (·.q == 33)).length < 8 := by decide +kernel
/-- A transfer whose source buffer is empty and filled by the same queue, and which has waited `n` µs. -/
def cyclic (n : Nat) : State := { (moving { xfer with desc := { desc0 with srcBuf := 1 }, waitTick := some 0 }).setSbuf 65
  ⟨0x402000, 4, 0, 0, 0, 0, 1, 0, 0⟩ with tick := n }
/-- The second transfer of the queue has not started, and the first has not made its last read. -/
def behindFirst : State := (moving xfer).setQueue 33 ⟨5, .assured, true, 2, [xfer, { xfer with started := false }]⟩
theorem witness_TransfersStartCompleteAndAreCut : firstWaiting ((intoBuf 1).queue 33).xfers = some 0 ∧
    (((intoBuf 1).queue 33).xfers.take 0).all (·.readAll) = true ∧
    (intoBuf 1).xferRoom { xfer with started := false, desc := { desc0 with dstBuf := 1 } } = true ∧
    (intoBuf 0).xferRoom { xfer with started := false, desc := { desc0 with dstBuf := 1 } } = false ∧
    firstWaiting (behindFirst.queue 33).xfers = some 1 ∧ ((behindFirst.queue 33).xfers.take 1).all (·.readAll) = false ∧
    firstWaiting ((moving xfer).queue 33).xfers = none ∧ xfer.started = true ∧ xfer.done ≠ xfer.total ∧
    ((moving { xfer with next := 1, done := 1 }).queue 33).xfers = [{ xfer with next := 1, done := 1 }] ∧ xfer.total = 1 ∧
    (cyclic 2000000).isCycle [33] = true ∧ (cyclic 0).isCycle [33] = false ∧
    waitingIdx ((cyclic 2000000).queue ((cyclic 2000000).victim [33])).xfers = some 0 := by decide +kernel
def retrying : State := { z with gddr := { z.gddr with retry := [(5, 33, none), (6, 33, some (blk 7))], zero := [(0, true)] } }
/-- The block goes to an entry of the Pewter map that an update waits for. -/
def retryBusy : State :=
  let s := (updating.setQueue 33 ⟨5, .assured, true, 2, [via { fromGddr with dstAddr := 0x19009000 }]⟩)
  { s with gddr := { s.gddr with retry := [(5, 33, none)] } }
theorem witness_Gddr7RetriesAndClears : retrying.gddr.retry.find? (·.1 == 5) = some (5, 33, none) ∧
    retrying.retryBusy 33 none = false ∧ retrying.gddr.retry.find? (·.1 == 6) = some (6, 33, some (blk 7)) ∧
    retrying.retryBusy 33 (some (blk 7)) = false ∧ retryBusy.gddr.retry.find? (·.1 == 5) = some (5, 33, none) ∧
    retryBusy.retryBusy 33 none = true ∧ z.gddr.retry.find? (·.1 == 5) = none ∧ retrying.spanZero 7 = true ∧ z.spanZero 7 = false := by
  decide +kernel
/-- Entry 9 of it belongs to score 5. -/
def mapped : State := { withMem with scores := { withMem.scores with pewter := [(112, 5)] } }
/-- Bank 0 has remote slots of no owner and of the observability. -/
def remoteSlots (s : State) : State := { s with stage := { s.stage with owner := [(3, 5)] } }
/-- A transfer of a stream reads from the map of tile 4. -/
def mapMoving : State := moving (via { desc0 with srcAddr := 0x19000000 })
theorem witness_MapAccesses : (0x9008 : BitVec 22).toNat % 8 = 0 ∧ mapped.mapBusy 7 ((0x9008 : BitVec 22).toNat / 0x1000) = false ∧
    mapped.mapOpen 7 9 5 = true ∧ mapped.mapOpen 7 9 6 = false ∧ (0x9080 : BitVec 22).toNat % 0x1000 / 8 % 16 = 0 ∧
    mapped.mapClaimed 7 = false ∧ (0x9004 : BitVec 22).toNat % 8 ≠ 0 ∧ updating.mapBusy 4 ((0x9000 : BitVec 22).toNat / 0x1000) = true ∧
    mapMoving.mapClaimed 4 = true := by decide +kernel
/-- The aperture shows the addresses from `base` megabytes on, in sixteens; tile 3 shows its map, tile 0 does not. -/
def showing (base : Nat) : State := (remoteSlots withMem).setFld MEM_APER_BASE.base base
theorem witness_ApertureAccesses : (showing 0).aperAddr 0x400040 < 0x17000000 ∧
    (showing 0).hasSlot 0x400040 remoteKinds ((showing 0).aperCode 0x400040) = true ∧
    (showing 0).hasSlot 0x800000 remoteKinds ((showing 0).aperCode 0x800000) = true ∧
    withMem.hasSlot 0x400040 remoteKinds (withMem.aperCode 0x400040) = false ∧
    0x17000000 ≤ (showing 0x17).aperAddr 0 ∧ (showing 0x17).aperAddr 0xFFFFFF < 0x18000000 ∧
    (showing 0x18).aperAddr 0xC00000 = 0x18C00000 ∧ (showing 0x18).mapVisible (mapTile 0x18C00000) = true ∧ 0x18C00000 % 8 = 0 ∧
    (showing 0x18).mapBusy (mapTile 0x18C00000) (mapEntry 0x18C00000) = false ∧ (showing 0x18).mapClaimed (mapTile 0x18C00000) = false ∧
    (showing 0x18).mapVisible (mapTile 0x18000000) = false ∧
    0x20000000 ≤ (showing 0x18).aperAddr 0x8000000 ∧ 0x18000004 % 8 ≠ 0 := by decide +kernel
theorem witness_ApertureAccesses_writes : (showing 0).granScore ((showing 0).aperAddr 0x40) = 0 ∧
    (showing 0).hasSlot ((showing 0).aperAddr 0x40) remoteKinds 0 = true ∧ (showing 0).granScore ((showing 0).aperAddr 0x400040) ≠ 0 ∧
    0x17000000 ≤ (showing 0x17).aperAddr 0 := by decide +kernel
theorem witness_ApertureAccesses_sound (k : Nat) : (showing 0).blockBad (64 * k) = false := blocks_are_good _ rfl rfl _
/-- Bay 1 of score 5 at rest, with an observability write slot in bank 0. -/
def rested : State := { (((withMem.setBayScore 1 5).setBayState 1 2).setFld (TILE_CAPT_ADDR.addr.on 4) 0x10000).setFld
  (BAY_TRACE_ADDR.addr.on 1) 0x10000 with stage := { withMem.stage with owner := [(1, 5)] } }
theorem witness_TileControlsOfTheHost : halted.bayState (4 / 4) = 5 ∧ (at_ nopW).bayState (4 / 4) ≠ 5 ∧
    rested.bayState (4 / 4) ∈ [1, 2, 5] ∧ (at_ nopW).bayState (4 / 4) ∉ [1, 2, 5] ∧
    (0x40000007 : Word).getLsbD 30 = true ∧ (rested.rawWrite (TILE_CAPT_CTL.start.on 4).off 0x40000007).captureOk 4 = true ∧
    (z.rawWrite (TILE_CAPT_CTL.start.on 4).off 0x40000007).captureOk 4 = false ∧ (0x80000001 : Word).getLsbD 30 = false := by
  decide +kernel
theorem witness_TileControlsOfTheHost_trace : (0x80000001 : Word).getLsbD 31 = true ∧ (rested.bay 1).anyRun = false ∧
    rested.bayScore 1 ≠ 0 ∧ rested.ringOk (64 * rested.fld (BAY_TRACE_ADDR.addr.on 1)) (2 ^ ((0x80000001 : Word).toNat % 16 + 10))
      (rested.bayScore 1) = true ∧ z.bayScore 1 = 0 ∧ (z.bay 1).anyRun = false ∧ (1 : Word).getLsbD 31 = false ∧
    ((at_ nopW).bay 1).anyRun = true := by decide +kernel

/-! Effects (R62, R65, R129, R163, R179, R188, R191, R195, R205, R206, R309). -/

theorem slot_moves : (run (.slotAccess 33 [] noFind) (moving xfer)).stageByte 0x401000 = 0x5A ∧
    (run (.slotAccess 33 [] noFind) (moving xfer)).stageMark 0x401000 = some 3 ∧
    ((run (.slotAccess 33 [] noFind) (moving xfer)).queue 33).xfers.map (·.done) = [1] := by decide +kernel
theorem slot_goes_by_the_pointer : ((run (.slotAccess 33 [] noFind) rivalMove).queue 33).xfers.map (·.done) = [0] ∧
    ((run (.slotAccess 34 [] noFind) rivalMove).queue 34).xfers.map (·.done) = [1] := by decide +kernel
theorem transfer_starts : ((run (.transferStart 33) (intoBuf 1)).queue 33).xfers.map (·.started) = [true] ∧
    ((run (.transferStart 33) (intoBuf 1)).sbuf 65).reserved = 1 := by decide +kernel
theorem transfer_waits_for_room : ((run (.transferStart 33) (intoBuf 0)).queue 33).xfers.map (·.started) = [false] := by decide +kernel
theorem transfer_completes : ((run (.transferComplete 33) (moving { xfer with next := 1, done := 1 })).queue 33).xfers = [] := by
  decide +kernel
theorem cycle_is_cut : (run (.waitGraphCut [33]) (cyclic 2000000)).fld STRM_WG_TMO.cuts = 1 := by decide +kernel
theorem gddr_retries : (run (.gddr7Retry 5 noFind) retrying).gddr.retry = [(6, 33, some (blk 7))] ∧
    (run (.gddr7Retry 5 noFind) retrying).fld MEM_GERR.retry = 1 := by decide +kernel
theorem span_is_cleared : (run (.gddr7SpanClear 7) retrying).spanZero 7 = false ∧ (run (.gddr7SpanClear 7) retrying).spanZero 8 = true := by
  decide +kernel
theorem map_writes : Tab.get dZero ((run (.pewterMapAccess (.stream 5) 7 0x9008 (some 0xFFFFFFFFFF) none) mapped).tile 7).mant
    (512 * 9 + 1) = -1 := by decide +kernel
theorem aperture_reads : (run (.apertureRead 0x400040 4 true) (remoteSlots (withMem.writeBytes 0x400040 [1, 2, 3, 4]))).link.read =
    [1, 2, 3, 4] := by decide +kernel
theorem aperture_writes : (run (.apertureWrite 0x40 [9, 8] true) (remoteSlots withMem)).stageBytesAt 0x40 3 = [9, 8, 0] := by decide +kernel
theorem aperture_write_is_dropped : (run (.apertureWrite 0x400040 [9] true) (remoteSlots withMem)).stageByte 0x400040 = 0 := by
  decide +kernel
theorem zero_idle_asks : ((run (.zeroIdle 4) halted).tile 4).loadQ.map (·.zero) = [true] ∧ ((run (.zeroIdle 4) (at_ nopW)).tile 4).loadQ = [] := by
  decide +kernel
theorem swap_asks : ((run (.swap 4) halted).tile 4).winQ = [.psw 0 0] := by decide +kernel
theorem dither_seed : ((run (.ditherSeedWrite 4 77) z).tile 4).reseed = some 77 := by decide +kernel
theorem pewter_seed : ((run (.pewterSeedWrite 4 1) (rested.setReg (TILE_PEW_SEED_LO.seed_lo.on 4).off 2)).tile 4).gen = 0x100000002 := by
  decide +kernel
theorem pewter_state : (run (.pewterStateRead 4) (tileAt { bare with gen := 0x1122334455667788 })).link.read = [0x88, 0x77, 0x66, 0x55] := by
  decide +kernel
theorem capture_starts : ((run (.capture 4 0x40000007) rested).tile 4).capLeft = 8 ∧
    (run (.capture 4 0x40000007) z).flag (TILE_CAPT_CTL.err.on 4) = true := by decide +kernel
theorem trace_needs_rest : (run (.traceEnable 1 0x80000001) (at_ nopW)).flag (BAY_TRACE_CTL.en.on 1) = false := by decide +kernel

/-! ### Loops and tables -/

/-- Engine 1 with one loop. -/
def looped (L : Loop) (l : Nat) : State := (z.setBayState 1 3).setEngine 1 { Engine.reset with loops := [(l, L)] }
/-- The hand-over has waited `n` samples, with a time of three. -/
def late (n : Nat) : State := looped { Loop.zoneReset with pend := some .track, hcnt := n } 3
/-- In TRACK with an error beyond its limit. -/
def following : State := looped { Loop.zoneReset with mode := .track, e := 5, clamped := true } 3
/-- In TRACK as long as its timer, with its bay's engine in a thermal excursion. -/
def sparedLoop : State := z.setEngine 1 { Engine.reset with
  loops := [(3, { Loop.zoneReset with mode := .track, count := 5, recs := [(8, 5 * 2 ^ 170)] })], exc := true }
/-- The filter of group 1 of port 2. -/
def filterFault : State := z.setEngine 8 { Engine.reset with loops := [(9, { Loop.reset with mode := .track, e := 5, clamped := true })] }
/-- Bay 1 is paused, its loops have been in band for `n` samples and no output is forced. -/
def inBand (n : Nat) : State :=
  { z with pins := { z.pins with powForce := false } }.modBay 1 fun y => { y with pauseFollow := true, inBand := n }
theorem witness_TicksAndLoopFaults_tick : z.allForced = true := by decide +kernel
theorem witness_TicksAndLoopFaults_faults : slotUsed 1 3 = true ∧ ((late 1).loopOf 1 3).handOverDue = true ∧
    ((late 0).loopOf 1 3).handOverDue = false ∧ (following.loopOf 1 3).followDue = true ∧ (following.engine 1).exc = false ∧
    slotUsed 8 9 = true ∧ (filterFault.loopOf 8 9).followDue = true ∧ loopBay 1 3 = some 1 ∧ (z.loopOf 1 3).followDue = false := by
  decide +kernel
theorem witness_TicksAndLoopFaults_spared : (sparedLoop.engine 1).exc = true ∧ (sparedLoop.loopOf 1 3).followLim = false ∧
    (sparedLoop.loopOf 1 3).clamped = false ∧ (sparedLoop.loopOf 1 3).followDue = true := by decide +kernel
theorem witness_TicksAndLoopFaults_resume : 1000 ≤ ((inBand 1000).bay 1).inBand ∧ (inBand 1000).unforced 1 = true ∧
    (inBand 1000).flag CLK_REF_STAT.lost = false ∧ ((inBand 999).bay 1).inBand < 1000 ∧ z.unforced 1 = false ∧
    ((inBand 1000).setFlag CLK_REF_STAT.lost true).flag CLK_REF_STAT.lost = true := by decide +kernel
def telemetry : State := { ((((withMem.setBayScore 1 5).setFlag (LOOP_STAT.run.on 1) true).setFlag (LOOP_TEL_CTL.en.on 1) true).setFld
  (LOOP_TEL_ADDR.addr.on 1) 0x10000) with stage := { withMem.stage with owner := [(1, 5)] } }
def telemetryDone : State := telemetry.setEngine 1 { Engine.reset with telTick := some 0 }
theorem witness_TelemetryIsTaken : telemetry.flag (LOOP_TEL_CTL.en.on 1) = true ∧ telemetry.runs 1 = true ∧
    telemetry.tick % 2 ^ min 10 (telemetry.fld (LOOP_TEL_CTL.dec.on 1)) = 0 ∧ (telemetry.engine 1).telTick ≠ some telemetry.tick ∧
    max 1 (telemetry.fld (LOOP_TEL_SEL.n.on 1)) = 1 ∧ telemetry.hasSlot 0x400000 writeKinds 5 = true ∧
    64 * telemetry.fld (LOOP_TEL_ADDR.addr.on 1) + 32 * (telemetry.engine 1).telPtr = 0x400000 ∧
    telemetry.holdsDesc 0x400000 = false ∧ telemetry.holdsDesc 0x40001F = false ∧
    (telemetryDone.engine 1).telTick = some telemetryDone.tick := by decide +kernel
theorem witness_TelemetryIsTaken_sound (k : Nat) : telemetry.blockBad (64 * k) = false := blocks_are_good _ rfl rfl _
theorem witness_TelemetryIsTaken_range : (0 : Word).getLsbD 31 = false ∧ (0x80000010 : Word).getLsbD 31 = true ∧
    telemetry.bayScore 1 ≠ 0 ∧ telemetry.ringOk (64 * telemetry.fld (LOOP_TEL_ADDR.addr.on 1))
      (2 ^ ((0x80000010 : Word).toNat / 16 % 16 + 10)) (telemetry.bayScore 1) = true ∧ z.bayScore 1 = 0 := by decide +kernel
/-- Bay 1 in debug state with loop 3 selected. -/
def debugLoop : State := ((z.setBayState 1 5).setFld (LOOP_SEL.loop.on 1) 3)
def oscillators : State := (z.setBayState 1 5).setFld TRIM_NCO_SEL.eng 1
theorem witness_LoopWindowIsWritten : slotUsed 1 (debugLoop.fld (LOOP_SEL.loop.on 1)) = true ∧
    debugLoop.mayAsk 1 (debugLoop.loopOf 1 (debugLoop.fld (LOOP_SEL.loop.on 1))) (Mode.ofCode 3) = true ∧
    (debugLoop.loopOf 1 (debugLoop.fld (LOOP_SEL.loop.on 1))).mode ≠ Mode.ofCode 3 ∧
    debugLoop.mayAsk 1 (debugLoop.loopOf 1 (debugLoop.fld (LOOP_SEL.loop.on 1))) (Mode.ofCode 0) = true ∧
    (debugLoop.loopOf 1 (debugLoop.fld (LOOP_SEL.loop.on 1))).mode = Mode.ofCode 0 ∧
    z.mayAsk 1 (z.loopOf 1 (z.fld (LOOP_SEL.loop.on 1))) (Mode.ofCode 3) = false ∧
    slotUsed 9 ((z.setFld (LOOP_SEL.loop.on 9) 43).fld (LOOP_SEL.loop.on 9)) = false ∧ debugLoop.bayState 1 = 5 ∧
    debugLoop.fld (LOOP_GAIN_SEL.rec.on 1) ≤ 8 ∧ z.bayState 1 ≠ 5 ∧
    8 < (debugLoop.setFld (LOOP_GAIN_SEL.rec.on 1) 9).fld (LOOP_GAIN_SEL.rec.on 1) := by decide +kernel
theorem witness_LoopWindowIsWritten_oscillators : oscillators.fld TRIM_NCO_SEL.eng < 8 ∧
    oscillators.bayState (oscillators.fld TRIM_NCO_SEL.eng) = 5 ∧ 429497 ≤ (429497 : Word).toNat ∧
    (429496730 : Word).toNat ≤ 429496730 ∧ (429496 : Word).toNat < 429497 ∧ (429496731 : Word).toNat > 429496730 ∧
    8 ≤ (z.setFld TRIM_NCO_SEL.eng 8).fld TRIM_NCO_SEL.eng ∧ (700 : Word).toNat % 8192 < 4864 ∧
    oscillators.bayState (700 % 8192 / 608) = 5 ∧ z.bayState (z.fld TRIM_NCO_SEL.eng) ≠ 5 ∧ z.bayState (700 % 8192 / 608) ≠ 5 ∧
    4864 ≤ (4864 : Word).toNat % 8192 := by decide +kernel
/-- Engine 1 samples, and its ticks have come to the end of an interval. -/
def due (tick : Nat) : State := { (z.setFlag (LOOP_STAT.run.on 1) true).setFld (LOOP_RECAL.ivl.on 1) 800 with tick := tick }
def slotDue : State := (z.setBayState 1 1).setFld (LOOP_RECAL.pend.on 1) 2
def badTable : State := (z.modBay 1 fun y => { y with calibrated := true }).setTile 4 Tile.reset
theorem witness_RecalibrationAndRebuild : (due 900).runs 1 = true ∧ (due 900).fld (LOOP_RECAL.ivl.on 1) ≠ 0 ∧
    1 * ((due 900).fld (LOOP_RECAL.ivl.on 1) / 8) ≤ (due 900).tick ∧
    ((due 900).tick - 1 * ((due 900).fld (LOOP_RECAL.ivl.on 1) / 8)) % (due 900).fld (LOOP_RECAL.ivl.on 1) = 0 ∧
    ((due 900).bay 1).slotTick ≠ some (due 900).tick ∧
    ((due 901).tick - 1 * ((due 901).fld (LOOP_RECAL.ivl.on 1) / 8)) % (due 901).fld (LOOP_RECAL.ivl.on 1) ≠ 0 ∧
    slotDue.slotReady 4 = true ∧ slotDue.slotReady 5 = false ∧ z.bayState 1 < 2 ∧ 250 ≤ (250 : Word).toNat % 65536 ∧
    2 ≤ debugLoop.bayState 1 ∧ (badTable.bay (4 / 4)).calibrated = true ∧ (badTable.tile 4).tblOk = false ∧
    (badTable.tile 4).quality = false ∧ (z.bay (4 / 4)).calibrated = false := by decide +kernel

/-! Effects (R247, R252, R254, R262, R268, R271, R300, R301). -/

theorem hand_over_times_out : ((run (.handOverTimeout 1 3) (late 1)).loopOf 1 3).hflt = true ∧
    ((run (.handOverTimeout 1 3) (late 1)).loopOf 1 3).pend = none := by decide +kernel
theorem following_pauses : ((run (.followingFault 1 3) following).bay 1).pauseFollow = true ∧
    (run (.followingFault 1 3) following).fld (LOOP_FOLLOW.loop.on 1) = 3 := by decide +kernel
theorem filter_fault_takes_its_group_down : ((run (.followingFault 8 9) filterFault).group 2 1).state = 3 := by decide +kernel
theorem bay_resumes : ((run (.bayResume 1) (inBand 1000)).bay 1).paused = false := by decide +kernel
theorem telemetry_drops : (run (.telemetryRecord 1 false) telemetry).fld (LOOP_TEL_CTL.drops.on 1) = 1 := by decide +kernel
theorem telemetry_enables : (run (.telemetryEnable 1 0x80000010) telemetry).flag (LOOP_TEL_CTL.en.on 1) = true := by decide +kernel
theorem loop_is_selected : (run (.loopSelect 1 0x45) z).fld (LOOP_SEL.loop.on 1) = 0x45 := by decide +kernel
theorem manual_is_asked : ((run (.handOverRequest 1 3) debugLoop).loopOf 1 3).pend = some .manual := by decide +kernel
theorem record_is_selected : (run (.recordSelect 1 0x30002) z).fld (LOOP_GAIN_SEL.rec.on 1) = 2 := by decide +kernel
theorem record_commits : ((run (.recordCommit 1) debugLoop).engine 1).commit.isSome = true ∧
    ((run (.recordCommit 1) z).engine 1).commit = none := by decide +kernel
theorem slot_falls_due : (run (.recalibrationSlotDue 1) (due 900)).fld (LOOP_RECAL.pend.on 1) = 1 := by decide +kernel
theorem interval_is_written : (run (.recalibrationIntervalWrite 1 250) z).fld (LOOP_RECAL.ivl.on 1) = 250 ∧
    run (.recalibrationIntervalWrite 1 249) z = z := by decide +kernel
theorem tone_is_on : (run (.toneInjection 0x800002BC) oscillators).flag TRIM_TEST.en = true := by decide +kernel
theorem nco_is_written : (((run (.ncoWrite false 429497) oscillators).engine 1).tone 0).2.1 = 429497 := by decide +kernel

/-! ### Light, trims and the Guard -/

/-- A line whose last 64 samples stood at its reference. -/
def steady : Line := { Line.reset with hist := List.replicate 64 0 }
/-- The loops of the spare of source 1, comb 4, are in TRACK and in band, and the lines of the spare and of position 0 alike; the
arming stands at position 0. -/
def locked : State :=
  let on : Loop := { Loop.reset with mode := .track, inBand := 1000 }
  (((z.setBayState 1 1).setSpare 1 2).setEngine 9 { Engine.reset with loops := [(tuneSlot 1 4, on), (driveSlot 1 4, on)] }).setSource 1
    { Source.reset with armPos := some 0, lines := ((List.range 320).map fun n => (n, steady)) }
def dark : State := (locked.modBay 1 fun y => { y with darkOn := true }).setSource 1 { locked.source 1 with locked := true }
theorem witness_DarkWindowsSwapTheLight : locked.spareLocked 1 = true ∧ locked.bayState 1 ≠ 4 ∧ z.spareLocked 1 = false ∧
    (wantsDark.bay 1).darkDue = true ∧ wantsDark.bayState 1 ≠ 4 ∧ wantsDark.bayAtBoundary 1 = true ∧
    (winIn .integrating 0).bayAtBoundary 1 = false ∧ (dark.bay 1).darkOn = true ∧ (dark.source 1).locked = true ∧
    (dark.source 1).armPos = some 0 ∧ dark.passing 1 0 ≤ 4 ∧ (z.bay 1).darkOn = false := by decide +kernel
theorem witness_DarkWindowsSwapTheLight_rebind : (locked.setBayState 1 4).spareLocked 1 = true ∧ (locked.setBayState 1 4).bayState 1 = 4 ∧
    ((locked.setBayState 1 4).source 1).armPos = some 0 ∧ (locked.setBayState 1 4).passing 1 0 ≤ 4 := by decide +kernel
def fabricLocked : State := (z.setSource 8 { Source.reset with locked := true, armPos := some 1 }).setGroup 9 1 up
/-- The spare of source 1 has been arming for `n` µs. -/
def arming (n : Nat) : State := { z.setSpare 1 2 with tick := n }
def suspended : State :=
  ((z.setBayState 1 1).setSpare 1 2).setSource 1 { Source.reset with suspended := true, armPos := some 2 }
theorem witness_CombsAreBoostedCutAndReplaced_spare : (fabricLocked.source 8).locked = true ∧ (fabricLocked.source 8).armPos = some 1 ∧
    fabricLocked.passing 8 1 ≤ 2 ∧ (fabricLocked.group 9 1).carries = true ∧ (z.source 8).locked = false ∧
    (arming 40000).spareState 1 = 2 ∧ ((arming 40000).source 1).suspended = false ∧ ((arming 40000).source 1).locked = false ∧
    ((arming 40000).source 1).armTick + 40000 ≤ (arming 40000).tick ∧ (arming 39999).tick < ((arming 39999).source 1).armTick + 40000 ∧
    suspended.spareState 1 = 2 ∧ (suspended.source 1).suspended = true ∧ (suspended.source 1).armPos.isSome = true ∧
    suspended.armHeld 1 = false ∧ z.spareState 1 ≠ 2 := by decide +kernel
def fading : State := (z.setComb 1 2 { Comb.reset with state := 2 }).setLine 1 2 7 { Line.reset with warn := true }
def tooBright (n : Nat) : State := z.setComb 1 2 { Comb.reset with exceeded := n, ma := 300 }
theorem witness_CombsAreBoostedCutAndReplaced_comb : 2 < combsOf 1 ∧ (fading.comb 1 2).state = 2 ∧ (fading.comb 1 2).boost = 0 ∧
    ((List.range (linesOf 1)).any fun n => (fading.line 1 2 n).warn) = true ∧ (z.comb 1 2).state ≠ 2 ∧
    (tooBright 16).tooBright 1 2 = true ∧ (tooBright 15).tooBright 1 2 = false := by decide +kernel
def pinLow : State := { z with pins := { z.pins with clrTrim := false } }
def pinRose (t : Nat) : State := { z with tick := 30, pins := { z.pins with trimRise := some t, pinForce := true } }
/-- The converter stands at output 5, which has met `n` mismatches. -/
def dwells (n : Nat) : State := { z.setTrimOut 5 { TrimOut.reset with mcnt := n } with scan := [(0, 5)] }
theorem witness_ReadbackAndClrTrimForce : Tab.get dZero (dwells 0).scan (5 / 32) = 5 % 32 ∧ Tab.get dZero z.scan (5 / 32) ≠ 5 % 32 ∧
    (dwells 0).fld TRIM_SCAN.tol < ((0xFFF : Int) - (BitVec.ofNat 12 ((dwells 0).expected 5)).toNat).natAbs ∧
    (dwells 7).fld TRIM_SCAN.cnt ≤ min (((dwells 7).trimOut 5).mcnt + 1) 15 ∧ ((dwells 7).trimOut 5).rb = false ∧
    min (((dwells 0).trimOut 5).mcnt + 1) 15 < (dwells 0).fld TRIM_SCAN.cnt ∧
    ¬ (dwells 0).fld TRIM_SCAN.tol < (((BitVec.ofNat 12 ((dwells 0).expected 5)).toNat : Int) -
      (BitVec.ofNat 12 ((dwells 0).expected 5)).toNat).natAbs := by decide +kernel
theorem witness_ReadbackAndClrTrimForce_pin : z.pins.clrTrim = true ∧ pinLow.pins.clrTrim = false ∧ (pinRose 20).pins.trimRise = some 20 ∧
    (pinRose 20).pins.pinForce = true ∧ (pinRose 20).pins.clrTrim = true ∧ 20 + 10 ≤ (pinRose 20).tick ∧ (pinRose 21).tick < 21 + 10 := by
  decide +kernel
theorem witness_GuardCommitsFaultsAndLock_limit : guardIndex 16 = true ∧ z.guardBound 16 0x4000 = true ∧ z.flag SEC_BOOT.rec = false ∧
    guardIndex 127 = false ∧ (1 : Word) ≠ ~~~(1 : Word) := by decide +kernel
def mayEmit : State :=
  (z.setFlag SEC_BOOT.ver true).setEngine 9 { Engine.reset with loops :=
    [(40, { Loop.reset with mode := .track }), (41, { Loop.reset with mode := .track })] }
theorem witness_GuardCommitsFaultsAndLock_lock : mayEmit.flag GUARD_STAT.elock = true ∧ mayEmit.flag SEC_BOOT.ver = true ∧
    (mayEmit.loopOf 9 40).mode = .track ∧ (mayEmit.loopOf 9 41).mode = .track ∧ z.flag SEC_BOOT.ver = false := by decide +kernel

/-! Effects (R166, R276, R281, R283, R286, R287, R292, R295, R296, R444, R445). -/

theorem spare_lock_asks : ((run (.spareLock 1) locked).bay 1).darkDue = true := by decide +kernel
theorem dark_starts : ((run (.darkWindowStart 1 5) wantsDark).bay 1).darkOn = true := by decide +kernel
theorem dark_ends : ((run (.darkWindowEnd 1) dark).bay 1).darkOn = false ∧ (run (.darkWindowEnd 1) dark).fld (BAY_DARK.count.on 1) = 1 := by
  decide +kernel
theorem dark_swaps : (run (.darkWindowEnd 1) dark).spareState 1 = 3 ∧ ((run (.darkWindowEnd 1) dark).comb 1 4).state = 2 := by
  decide +kernel
theorem fabric_swaps : (run .fabricSpareSwap fabricLocked).spareState 8 = 3 ∧
    ((run .fabricSpareSwap fabricLocked).group 9 1).line.map (·.slots) = [List.replicate 5 .idle] := by decide +kernel
theorem arming_fails : (run (.armingFault 1) (arming 40000)).spareState 1 = 4 := by decide +kernel
theorem arming_restarts : ((run (.armingRestart 1) suspended).source 1).suspended = false := by decide +kernel
theorem comb_is_boosted : ((run (.boostStep 1 2) fading).comb 1 2).boost = 1 := by decide +kernel
theorem comb_is_cut : ((run (.opticalCut 1 2) (tooBright 16)).comb 1 2).ma = 0 ∧
    (run (.opticalCut 1 2) (tooBright 16)).bitOf GUARD_STAT.flt 0 = true := by decide +kernel
theorem readback_counts : ((run (.readbackDwell 5 0xFFF) (dwells 0)).trimOut 5).mcnt = 1 ∧ run (.readbackDwell 5 0xFFF) z = z := by
  decide +kernel
theorem pin_forces : (run .clrTrimNAssert z).pins.pinForce = true := by decide +kernel
theorem pin_rises : (run .clrTrimNRelease pinLow).pins.trimRise = some 0 := by decide +kernel
theorem forcing_ends : (run .trimOutputReturn (pinRose 20)).pins.pinForce = false ∧ (run .trimOutputReturn (pinRose 21)).pins.pinForce = true := by
  decide +kernel
theorem heater_fault_forces : (run (.heaterCurrentFault none) z).allForced = true := by decide +kernel
theorem limit_is_committed : (run (.guardLimitCommit 16 0x4000 (~~~0x4000)) z).guardLim 16 = 0x4000 := by decide +kernel
theorem lock_is_released : (run .emissionLockRelease mayEmit).flag GUARD_STAT.elock = false ∧ run .emissionLockRelease z = z := by
  decide +kernel

/-! ### Fabric -/

/-- Port 2 in a state, with the emission lock released, and group 1 of it as given. -/
def portAt (st : Nat) (f : FabGroup) : State :=
  (((z.setFlag GUARD_STAT.elock false).setFld (FAB_PORT_STAT.state.on 2) st).setFld FAB_PID.id 1).setGroup 2 1 f
def aHello : Hello := ⟨2, 99, false, 4, 0⟩
def quiet : FabGroup := { FabGroup.reset with state := 4, rxl := 15, txl := 15 }
def greeted : State :=
  let f : FabGroup := { quiet with helloOf := some aHello }
  (((portAt 2 quiet).setGroup 2 0 f).setGroup 2 2 f).setGroup 2 3 f
def allGroups (st : Nat) (f : FabGroup) : State := (((portAt st f).setGroup 2 0 f).setGroup 2 2 f).setGroup 2 3 f
/-- Every group of port 2 is down, and the comb of its position is in TRACK. -/
def fallen : State := ((allGroups 3 { quiet with state := 3 }).setComb 8 0 { Comb.reset with state := 2, pos := 0 }).setEngine 9
  { Engine.reset with loops := [(tuneSlot 8 0, { Loop.reset with mode := .track })] }
def reset2 : State := portAt 2 FabGroup.reset
theorem witness_PortsTrainAndGreet : reset2.fld (FAB_PORT_STAT.state.on 2) = 2 ∧ reset2.portEnabled 2 = true ∧
    fallen.fld (FAB_PORT_STAT.state.on 2) = 3 ∧ fallen.allDown 2 = true ∧ fallen.portEnabled 2 = true ∧
    (portAt 3 up).allDown 2 = false ∧ (reset2.port 2).fails < 2 ∧ 2 ≤ ((reset2.setPort 2 { Port.reset with fails := 2 }).port 2).fails ∧
    (portAt 1 FabGroup.reset).fld (FAB_PORT_STAT.state.on 2) = 1 ∧ (portAt 1 FabGroup.reset).portEnabled 2 = true ∧
    (portAt 3 up).fld (FAB_PORT_STAT.state.on 2) ∉ [0, 1, 5] ∧ (portAt 5 up).fld (FAB_PORT_STAT.state.on 2) ∈ [0, 1, 5] ∧
    reset2.portUnbound 2 = true ∧ reset2.flag (FAB_PORT_CTL.dis.on 2) = false ∧
    ((portAt 0 FabGroup.reset).setFlag (FAB_PORT_CTL.dis.on 2) true).portUnbound 2 = true ∧
    ((portAt 0 FabGroup.reset).setFlag (FAB_PORT_CTL.dis.on 2) true).flag (FAB_PORT_CTL.dis.on 2) = true ∧
    (portAt 3 up).portUnbound 2 = false ∧ z.portEnabled 2 = false := by decide +kernel
theorem witness_PortsTrainAndGreet_hello : (greeted.group 2 1).state ≠ 0 ∧ (greeted.group 2 1).state ≠ 3 ∧ (greeted.group 2 1).rxl ≠ 0 ∧
    (∀ k, k < 4 → k ≠ 1 → (greeted.group 2 k).helloOf = some aHello) ∧ helloAgrees aHello aHello = true ∧
    ((portAt 2 quiet).group 2 0).helloOf = none ∧ ((portAt 3 up).group 2 1).state ≠ 0 ∧ ((portAt 3 up).group 2 1).state ≠ 3 ∧
    ((portAt 3 up).group 2 1).rxl ≠ 0 ∧ (reset2.group 2 1).rxl = 0 := by decide +kernel

def ann : Announcement := ⟨2, 99, false, true, 6, []⟩
def node : Partner := { Partner.reset with present := true, id := 2, serial := 99, anum := 6 }
/-- Port 2 is up towards node 2, and the module has its ID. -/
def meshed : State := ((portAt 3 up).setFld (FAB_PORT_STAT.fid.on 2) 2).setFlag FAB_PID.asg true
def knownAt (tick : Nat) : State := { meshed.setPartner 0 node with tick := tick }
def known : State := knownAt 400000
def fullTable : State := { z with fab := { z.fab with table := (List.range 128).map fun n => (n, { node with id := 3 }) } }.setFld
  (FAB_PORT_STAT.state.on 2) 3
/-- The group waits for node 2, which is back. -/
def rejoining : State :=
  ((known.setGroup 2 1 { up with pend := true, state := 3, serial := 99 }).setFld (FAB_PORT_STAT.fid.on 2) 2)
theorem witness_PartnersComeAndGo_heard : meshed.portUp 2 = true ∧ ann.id ≠ meshed.ownId ∧ meshed.entryOf 2 = none ∧ meshed.emptyEntry = some 0 ∧
    known.portUp 2 = true ∧ known.entryOf 2 = some 0 ∧ (known.partner 0).present = true ∧ (known.partner 0).serial = ann.serial ∧
    newer ann.anum (known.partner 0).anum = false ∧ newer 7 (known.partner 0).anum = true ∧ newer 0 0xFFFF = true ∧
    (known.partner 0).serial ≠ { ann with serial := 5 }.serial ∧ fullTable.portUp 2 = true ∧ ann.id ≠ fullTable.ownId ∧
    fullTable.entryOf 2 = none ∧ fullTable.emptyEntry = none ∧ z.portUp 2 = false := by decide +kernel
theorem witness_PartnersComeAndGo_told : (knownAt 100000).fab.annTick + 100000 ≤ (knownAt 100000).tick ∧ known.flag FAB_PID.asg = true ∧
    known.upPorts ≠ [] ∧ (knownAt 99999).tick < (knownAt 99999).fab.annTick + 100000 ∧ meshed.xoLocked = meshed.fab.lastAnn.2 ∧
    { meshed with fab := { meshed.fab with lastAnn := ([], !meshed.xoLocked) } }.fab.lastAnn.2 ≠ meshed.xoLocked ∧
    z.flag FAB_PID.asg = false := by decide +kernel
theorem witness_PartnersComeAndGo_gone : (2 : BitVec 12) ≠ known.ownId ∧ (known.partner 0).dup = false ∧
    ((knownAt 350000).partner 0).heard + 350000 ≤ (knownAt 350000).tick ∧
    (knownAt 349999).tick < ((knownAt 349999).partner 0).heard + 350000 ∧ (known.group 2 1).bound = true ∧
    (known.group 2 1).partner = 2 ∧ (rejoining.group 2 1).pend = true ∧ (rejoining.group 2 1).bound = true ∧
    (rejoining.group 2 1).partner = 2 ∧ (rejoining.group 2 1).serial = (rejoining.partner 0).serial ∧ rejoining.portUp 2 = true ∧
    rejoining.farId 2 = 2 ∧ rejoining.entryOf 2 = some 0 ∧ (rejoining.partner 0).present = true ∧ meshed.entryOf 2 = none := by
  decide +kernel

def toUs : Msg := { aMsg with dst := 1, src := 2 }
/-- A flit whose message is the one given, and a pair of it. -/
def flitOf (m : Msg) : List Byte := (msgFlits m).headD []
def pair (m : Msg) : Pair := ⟨true, false, 9 * 2 ^ 20, .head (flitOf m) :: List.replicate 4 .idle⟩
/-- A pair of idle flits whose header asks again for message `n` + 1. -/
def nakPair (n : Nat) : Pair := ⟨true, false, BitVec.ofNat 40 (n * 2 ^ 28 + 2 ^ 27), List.replicate 5 .idle⟩
def badPair : Pair := ⟨false, false, 0, []⟩
def filtered : State := ((portAt 3 { up with state := 3 }).setEngine 8 { Engine.reset with loops :=
  [(9, { Loop.reset with mode := .track, inBand := 1000 })] })
def filteredOn : State := { filtered with pins := { filtered.pins with powForce := false } }
theorem witness_GroupsCarryTraffic_sends : up.carries = true ∧ up.notices = [] ∧ up.resend = [] ∧ 1 + toUs.nfl.toNat ≤ { up with cred := 1 }.cred ∧
    up.replay.length < 8 ∧ { up with cred := 0 }.cred < 1 + toUs.nfl.toNat ∧ up.cls = .assured ∧
    8 ≤ { up with replay := List.replicate 8 toUs }.replay.length ∧ { up with state := 3 }.carries = false := by decide +kernel
theorem witness_GroupsCarryTraffic_receives : badPair.decoded = false ∧ (pair toUs).decoded = true ∧ pairNak (pair toUs) = false ∧
    up.rxSlot ≠ 63 ∧ flitCount (flitOf toUs) = 1 ∧ up.held = [] ∧ up.nakOut = none ∧
    (decodeMsg (flitOf toUs) [some (flitOf toUs)]).seq = up.rxSeq + 1 ∧
    (portAt 3 up).unwanted (decodeMsg (flitOf toUs) [some (flitOf toUs)]) = false ∧
    (decodeMsg (flitOf { toUs with seq := 2 }) [some (flitOf { toUs with seq := 2 })]).seq = up.rxSeq + 2 ∧
    (nakPair 0).decoded = true ∧ pairNak (nakPair 0) = true ∧ toUs.seq = pairAck (nakPair 0) + 1 ∧ toUs.rty = false ∧
    ([toUs].findIdx? fun m => m.seq == pairAck (nakPair 0)) = none := by decide +kernel
theorem witness_GroupsCarryTraffic_naks : { up with nakOut := some 1 }.nakOut.isSome = true ∧ up.nakOut = none ∧
    { up with nakOut := some 1 }.nakOut = some (decodeMsg (headBytes toUs) (up.kept (headSeq (headBytes toUs)) (flitCount (headBytes toUs)))).seq ∧
    (decodeMsg (headBytes toUs) [none]).type ≠ 2 ∧ (decodeMsg (headBytes toUs) [none]).type ≠ 7 ∧
    (portAt 3 up).unwanted (decodeMsg (headBytes toUs) [none]) = false ∧
    (portAt 3 up).unwanted (decodeMsg (headBytes { toUs with dst := 3 }) [none]) = true := by decide +kernel
theorem witness_GroupsRetrainAndReturn : up.carries = true ∧ { up with state := 4 }.state = 4 ∧ { up with state := 4 }.carries = false ∧
    { up with newRx := some 7 }.newRx.isSome = true ∧ up.newRx = none ∧ up.newTx = none ∧
    (filteredOn.group 2 1).state = 3 ∧ (filteredOn.loopOf 8 9).mode = .track ∧ 1000 ≤ (filteredOn.loopOf 8 9).inBand ∧
    filteredOn.isForced (4864 + 4 * 2 + 1) = false ∧ filteredOn.fld (FAB_PORT_STAT.state.on 2) = 3 ∧
    ((filteredOn.group 2 1).bound && (filteredOn.group 2 1).pend) = false ∧ filtered.isForced (4864 + 4 * 2 + 1) = true := by
  decide +kernel

/-- A group of score 5 with a message that has arrived, beside its memory. -/
def arrived (f : FabGroup) (m : Msg) : State :=
  let s := portAt 3 { f with arrived := [m] }
  slots { s with scores := { s.scores with sgran := [(1, 5)], pewter := [(64, 5)] } }
def toGd (m : Msg) : Msg := { m with gddr := true, addr := 0 }
/-- The same with a granule of GDDR7 and its slots. -/
def arrivedGd (m : Msg) : State :=
  let s := (arrived up m).setScore 5 { Score.reset with pkg := some emptyPkg }
  { s with scores := { s.scores with ggran := [(0, 5)] } }
def noSlot (m : Msg) : State := { arrived up m with stage := z.stage }
theorem witness_MessagesAreApplied : toUs.nblk = 1 ∧ (arrived up toUs).targetStatus { up with arrived := [toUs] } toUs = 0 ∧
    (arrived up toUs).applies 2 1 toUs 1 = true ∧ (arrived up toUs).msgReady 2 1 toUs true = true ∧ toUs.gddr = false ∧
    (arrived up toUs).ownsStage toUs.addr.toNat 5 = true ∧ (arrived up toUs).holdsDesc toUs.addr.toNat = false ∧
    (noSlot toUs).msgReady 2 1 toUs true = false ∧ (noSlot toUs).targetStatus { up with arrived := [toUs] } toUs = 0 ∧
    (arrived up { toUs with type := 2 }).applies 2 1 { toUs with type := 2 } 2 = true ∧
    (arrived up { toUs with type := 2 }).msgReady 2 1 { toUs with type := 2 } false = true ∧
    (noSlot { toUs with type := 2 }).msgReady 2 1 { toUs with type := 2 } false = false ∧
    (arrived up { toUs with type := 6 }).applies 2 1 { toUs with type := 6 } 6 = true ∧
    (arrived up { toUs with type := 6 }).msgReady 2 1 { toUs with type := 6 } true = true := by decide +kernel
theorem witness_MessagesAreApplied_gddr : (arrivedGd (toGd toUs)).applies 2 1 (toGd toUs) 1 = true ∧
    (arrivedGd (toGd toUs)).targetStatus ((arrivedGd (toGd toUs)).group 2 1) (toGd toUs) = 0 ∧
    (arrivedGd (toGd toUs)).msgReady 2 1 (toGd toUs) true = true ∧ (findAt [] 0).1.crcBad = false := by decide +kernel
theorem witness_MessagesAreApplied_refused :
    (arrived { up with bound := false } toUs).targetStatus ((arrived { up with bound := false } toUs).group 2 1) toUs = 3 ∧
    (arrived { up with bound := false } toUs).applies 2 1 toUs 1 = true ∧
    (arrived up { toUs with addr := 0 }).targetStatus { up with arrived := [] } { toUs with addr := 0 } ≠ 0 ∧
    (arrived up toUs).applies 2 1 toUs 2 = false ∧ (portAt 3 up).applies 2 1 toUs 1 = false := by decide +kernel
def reading : State := ((arrived { up with reads := [⟨7, 33, 9, 0, 1⟩] } { toUs with type := 3 }).setQueue 33
  ⟨5, .assured, true, 2, [via { desc0 with srcSp := 2, dstSp := 3, dstAddr := 1 }]⟩)
def writing : State := ((arrived { up with writes := [⟨7, 33, 9, 0, 1⟩] } { toUs with type := 7 }).setQueue 33
  ⟨5, .assured, true, 2, [via { desc0 with dstSp := 2 }]⟩)
theorem witness_MessagesAreApplied_replies : reading.applies 2 1 { toUs with type := 3 } 3 = true ∧
    (reading.group 2 1).reads.find? (·.tag == 7) = some ⟨7, 33, 9, 0, 1⟩ ∧ reading.xferOf ⟨7, 33, 9, 0, 1⟩ = some 0 ∧
    (reading.queue 33).xfers[0]? = some (via { desc0 with srcSp := 2, dstSp := 3, dstAddr := 1 }) ∧ toUs.status = 0 ∧
    xfer.refused = none ∧ writing.applies 2 1 { toUs with type := 7 } 7 = true ∧
    (writing.group 2 1).writes.find? (·.tag == 7) = some ⟨7, 33, 9, 0, 1⟩ ∧ writing.xferOf ⟨7, 33, 9, 0, 1⟩ = some 0 := by decide +kernel
def hop (a : BitVec 48) : Msg := { toUs with type := 4, addr := a }
/-- Tile 4 takes a remote chain over the group; entry 9 has these rounds, and the message is an entry's half. -/
def hopping (v : Rounds) (m : Msg) : State :=
  let s := arrived { up with role := 6 } m
  ((s.setBayScore 1 5).setScore 5 { Score.reset with bound := [(2, 3, 9)] }).setTile 4
    { bare with wgr := 3, remote := [(9, v)] } |>.setFlag (TILE_CHAIN_CFG.rin.on 4) true
def nearly (l : List Remote) : State := hopping ⟨l, List.replicate 63 (blk 0)⟩ (hop 0x19009800)
theorem witness_MessagesAreApplied_chain : (hopping ⟨[], []⟩ (hop 0x19009000)).applies 2 1 (hop 0x19009000) 4 = true ∧
    (hopping ⟨[], []⟩ (hop 0x19009000)).hopTile 2 1 = some 4 ∧ inMap 0x19009000 = true ∧ mapEntry 0x19009000 = 9 ∧ up.score ≠ 0 ∧
    (hopping ⟨[], []⟩ (hop 0x19009000)).rangeScore 4 9 = 5 ∧ 0x19009000 % 4096 = 0 ∧ (hop 0x19009000).blocks.length < 64 ∧
    (((hopping ⟨[], []⟩ (hop 0x19009000)).tile 4).rounds 9).held = [] ∧ 0x19009800 % 4096 ≠ 0 ∧
    (((nearly []).tile 4).rounds 9).held ≠ [] ∧ ((((nearly []).tile 4).rounds 9).held ++ (hop 0x19009800).blocks).length = 64 ∧
    (((nearly []).tile 4).rounds 9).due.find? (fun x => !x.done) = none ∧ (nearly []).hopTile 2 1 = some 4 ∧
    (((nearly [⟨0, 1, 0, false⟩]).tile 4).rounds 9).due.find? (fun x => !x.done) = some ⟨0, 1, 0, false⟩ ∧
    ((nearly [⟨0, 1, 0, false⟩]).tile 4).roundOpen 9 ⟨0, 1, 0, false⟩ = true ∧ (nearly []).compat = false ∧
    inMap 0x400000 = false := by decide +kernel

/-- A request of `len` payload blocks, of which the first comes with it. -/
def asks (len : Nat) : Msg := { toUs with type := 5, svc := 3, nblk := 2, blocks := [requestHeader 2 3 7 0 len, blk 1] }
def served (b : Batch) (st : Nat) (m : Msg) : State :=
  { (((arrived { up with role := 6 } m).setScore 5 { Score.reset with
      state := .running, pkg := some emptyPkg, bound := [(0, 0, 1)], batches := [(3, b)] }).setSbuf 66 ⟨0x400000, 8, 0, 0, 4, 0, 0, 0, 0⟩)
    with tick := st }.setSbuf 65 ⟨0x402000, 8, 0, 0, 0, 0, 0, 0, 0⟩
def service3 : ServiceDecl := ⟨3, 1, 2, 50, 0, 0, 1, 2, 300, [6], .assured⟩
def oneAsked : Batch := ⟨[⟨2, 7, 9, 1, [blk 1]⟩], some 0, 4, []⟩
def asked (n : Nat) : State := served ⟨List.replicate n ⟨2, 8, 9, 1, [blk 1]⟩, some 0, 4, []⟩ 49 (asks 1)
def replies (filled : Bool) : State := served ⟨[], none, 5, [⟨filled, 2, 7, 9⟩]⟩ 50 (asks 1)
theorem witness_ServicesBatchAndReply_request : (asked 0).applies 2 1 (asks 1) 5 = true ∧
    (asked 0).serviceStatus ((asked 0).group 2 1) (asks 1) 1 = 0 ∧ (headerOf ((asks 1).blocks.headD (zeroBlock none))).2.2.1 = 7 ∧
    (headerOf ((asks 1).blocks.headD (zeroBlock none))).2.2.2 = 1 ∧ (asked 0).service 5 3 = some service3 ∧
    (((asked 0).score 5).batch 3).partOf 2 7 9 = none ∧ (((asked 0).score 5).batch 3).reqs.length + 1 < service3.batch ∧
    (((served ⟨[⟨2, 7, 9, 2, [blk 1]⟩], some 0, 4, []⟩ 0 (asks 1)).score 5).batch 3).partOf 2 7 9 = some 0 ∧
    (asked 2).serviceStatus ((asked 2).group 2 1) (asks 1) 1 = 1 ∧ (((asked 2).score 5).batch 3).partOf 2 7 9 = none ∧
    (asked 0).serviceStatus up (asks 1) 1 = 2 ∧ (asked 0).serviceStatus ((asked 0).group 2 1) (asks 1) 2 = 4 ∧
    (asked 0).applies 2 1 toUs 5 = false := by decide +kernel
theorem witness_ServicesBatchAndReply_batch : (((served oneAsked 50 (asks 1)).score 5).batch 3).since = some 0 ∧
    0 + service3.deadline ≤ (served oneAsked 50 (asks 1)).tick ∧ (served oneAsked 50 (asks 1)).serviceBuf 5 service3 1 = some 65 ∧
    ((served oneAsked 50 (asks 1)).sbuf 65).present + ((served oneAsked 50 (asks 1)).sbuf 65).reserved +
      ((batchHeader service3 oneAsked).length + (batchSlots service3 oneAsked).length) ≤ ((served oneAsked 50 (asks 1)).sbuf 65).blocks ∧
    (served oneAsked 50 (asks 1)).slotFor ((served oneAsked 50 (asks 1)).sbuf 65).base remoteKinds service3.cls = true ∧
    ((served oneAsked 50 (asks 1)).setSbuf 65 SBuf.reset).slotFor 0 remoteKinds service3.cls = false ∧
    (((asked 2).score 5).batch 3).reqs.length = service3.batch ∧ (asked 1).tick < 0 + service3.deadline ∧
    (((asked 1).score 5).batch 3).reqs.length ≠ service3.batch ∧ (((replies true).score 5).batch 3).since = none := by decide +kernel
theorem witness_ServicesBatchAndReply_reply : (((replies true).score 5).batch 3).due = [⟨true, 2, 7, 9⟩] ∧
    (replies true).serviceBuf 5 service3 2 = some 66 ∧ service3.slot ≤ ((replies true).sbuf 66).present ∧
    (((replies false).score 5).batch 3).due = [⟨false, 2, 7, 9⟩] ∧
    (((replies true).setSbuf 66 SBuf.reset).sbuf 66).present < service3.slot ∧ (((asked 0).score 5).batch 3).due = [] ∧
    z.service 5 3 = none := by decide +kernel

/-! Effects (R228 to R230, R304 to R339). -/

theorem training_succeeds : ((run (.portTraining 2 none 8) reset2).group 2 3).cred = 128 := by decide +kernel
theorem training_fails : (run (.portTraining 2 (some 3) 8) reset2).fld (FAB_TRAIN.fstep.on 2) = 4 := by decide +kernel
theorem idle_port_trains : (run (.portIdleRetry 2 true) (portAt 1 FabGroup.reset)).fld (FAB_PORT_STAT.state.on 2) = 2 := by decide +kernel
theorem no_light_is_idle : (run (.noLightReceived 2) (portAt 3 up)).fld (FAB_PORT_STAT.state.on 2) = 1 := by decide +kernel
theorem fourth_hello_is_up : (run (.hello 2 1 aHello) greeted).fld (FAB_PORT_STAT.state.on 2) = 3 ∧
    (run (.hello 2 1 aHello) greeted).fld (FAB_PORT_STAT.fid.on 2) = 2 := by decide +kernel
theorem retrain_needs_no_binding : run (.retrain 2) (portAt 3 up) = portAt 3 up := by decide +kernel
theorem port_is_disabled : (run (.portDisable 2 true) reset2).fld (FAB_PORT_STAT.state.on 2) = 0 := by decide +kernel
theorem node_is_entered : ((run (.nodeAnnouncement 2 ann) meshed).partner 0).serial = 99 := by decide +kernel
theorem own_announcement : (run .announcementTimer known).fab.anum = 1 := by decide +kernel
theorem node_leaves : ((run (.leaveAnnouncement 2) known).partner 0).gone = true ∧ ((run (.leaveAnnouncement 2) known).group 2 1).pend = true := by
  decide +kernel
theorem node_is_silent : ((run (.partnerEntryTimeout 2) known).partner 0).present = false := by decide +kernel
theorem node_rejoins : ((run (.partnerRejoin 2 true) rejoining).group 2 1).state = 1 := by decide +kernel
/-- R306, R307: the fields of a block header and of a message header. -/
theorem block_header : ({ up with rxSeq := 0xABC, nakDue := true, owed := 0x15, rxl := 7 } : FabGroup).header = 0xABC9570000 := by
  decide +kernel
theorem message_header : (headBytes { toUs with addr := 0x1122, blocks := [⟨List.replicate 64 0, some 9⟩] }).take 40 =
    leBytes 8 0x0100100200100040 ++ leBytes 8 0x0000000700050000 ++ leBytes 8 0x1122 ++ leBytes 8 1 ++ leBytes 8 9 := by decide +kernel
theorem pair_is_taken : ((run (.codewordPair 2 1 (pair toUs)) (portAt 3 { up with cred := 100 })).group 2 1).cred = 109 ∧
    ((run (.codewordPair 2 1 (pair toUs)) (portAt 3 up)).group 2 1).rxSeq = 1 ∧
    ((run (.codewordPair 2 1 (pair toUs)) (portAt 3 up)).group 2 1).arrived.map (·.blocks) = [toUs.blocks] := by decide +kernel
theorem pair_is_lost : ((run (.codewordPair 2 1 badPair) (portAt 3 up)).group 2 1).nakOut = some 1 ∧
    ((run (.codewordPair 2 1 badPair) (portAt 3 { up with rxSlot := 62 })).group 2 1).rxSlot = 3 := by decide +kernel
theorem nak_resends : ((run (.codewordPair 2 1 (nakPair 0)) (portAt 3 { up with replay := [toUs] })).group 2 1).resend =
    [{ toUs with rty := true }] := by decide +kernel
theorem nak_asks_for_a_copy : ((run (.nakTimeout 2 1) (portAt 3 { up with nakOut := some 1 })).group 2 1).nakDue = true := by decide +kernel
theorem loss_notice_goes_on : ((run (.lossNotice 2 1 (headBytes toUs)) (portAt 3 { up with nakOut := some 1 })).group 2 1).rxSeq = 1 ∧
    ((run (.lossNotice 2 1 (headBytes toUs)) (portAt 3 { up with nakOut := some 1 })).group 2 1).arrived.flatMap (·.blocks.map (·.mark)) =
      [some 13] := by decide +kernel
theorem message_is_sent : ((run (.messageSend 2 1) (portAt 3 { up with out := [toUs] })).group 2 1).cred = 127 ∧
    ((run (.messageSend 2 1) (portAt 3 { up with out := [toUs] })).group 2 1).txSeq = 1 ∧
    ((run (.messageSend 2 1) (portAt 3 { up with out := [toUs] })).group 2 1).line.length = 1 := by decide +kernel
/-- R305: slot 63 carries link control. -/
theorem slot_63_is_link_control : ((run (.messageSend 2 1) (portAt 3 { up with txSlot := 60 })).group 2 1).line.map
    (fun w => w.slots.map fun x => decide (x = .idle)) = [[true, true, true, false, true]] := by decide +kernel
theorem group_retrains : ((run (.groupRetrain 2 1 true) (portAt 3 { up with state := 4, cred := 3 })).group 2 1).cred = 128 := by decide +kernel
theorem lane_stops : ((run (.laneStop 2 1 3 false) (portAt 3 up)).group 2 1).newRx = some 7 := by decide +kernel
theorem lanes_change : ((run (.laneChange 2 1) (portAt 3 { up with newRx := some 7 })).group 2 1).state = 2 := by decide +kernel
theorem filter_returns : ((run (.groupFilterReturn 2 1) filteredOn).group 2 1).state = 1 := by decide +kernel
theorem write_is_applied : (run (.write 2 1 ⟨toUs, []⟩) (arrived up toUs)).stageByte 0x400000 = 0xAB ∧
    (((run (.write 2 1 ⟨toUs, []⟩) (arrived up toUs)).group 2 1).out.map fun x => (x.type, x.status)) = [(7, 0)] := by decide +kernel
theorem write_without_binding : (((run (.write 2 1 ⟨toUs, []⟩) (arrived { up with bound := false } toUs)).group 2 1).out.map (·.status)) = [3] := by
  decide +kernel
theorem read_is_answered : (((run (.readRequest 2 1 ⟨{ toUs with type := 2 }, []⟩) (arrived up { toUs with type := 2 })).group 2 1).out.map
    fun x => (x.type, x.status, x.blocks.length)) = [(3, 0, 1)] := by decide +kernel
theorem read_reply_is_taken : ((run (.readReply 2 1 { toUs with type := 3 }) reading).queue 33).xfers.map (·.done) = [1] := by decide +kernel
theorem completion_is_taken : ((run (.writeCompletion 2 1 { toUs with type := 7 }) writing).queue 33).xfers.map (·.done) = [1] := by
  decide +kernel
theorem chain_entry_waits :
    (((run (.chainEntry 2 1 (hop 0x19009000)) (hopping ⟨[], []⟩ (hop 0x19009000))).tile 4).rounds 9).held.length = 1 := by
  decide +kernel
theorem chain_entry_is_added :
    (((run (.chainEntry 2 1 (hop 0x19009800)) (nearly [⟨0, 1, 0, false⟩])).tile 4).rounds 9).held = [] := by decide +kernel
theorem service_reply_is_written : (run (.serviceReply 2 1 ⟨{ toUs with type := 6 }, []⟩) (arrived up { toUs with type := 6 })).stageByte 0x40003F = 0xAB := by
  decide +kernel
theorem request_is_batched : (((run (.serviceRequest 2 1 (asks 1)) (asked 0)).score 5).batch 3).reqs = [⟨2, 7, 9, 1, [blk 1]⟩] := by
  decide +kernel
theorem batch_closes : (((run (.batchDeadline 5 3) (served oneAsked 50 (asks 1))).score 5).batch 3).bseq = 5 := by
  decide +kernel
theorem reply_is_sent : ((run (.serviceReplySend 5 3) (replies true)).group 2 1).out.map
    (fun x => (x.type, x.tag.toNat, x.blocks.length)) = [(6, 7, 2)] := by decide +kernel

/-! ### The command window and the commands -/

def header (opcode plen : Nat) : List Word :=
  let d : List Word := [0x59413343, BitVec.ofNat 32 (opcode + 65536 * plen), 77, 0x03000001]
  d ++ d.map (~~~·)
/-- The block is enabled at step 3 of power-up, with an image running and the link up, and the window holds dwords from 0 on. -/
def host (ws : List Word) : State :=
  let s := ((z.setFlag CMD_CTL.en true).setBitOf GLB_PUP.steps 3 true).setFld SEC_BOOT.run 0
  { s with cmd := { s.cmd with window := ws.zipIdx.map fun p => (p.2, some p.1) }, link := { s.link with up := true } }
def partialAt (n : Nat) : State := { host [] with tick := n, cmd := { (host []).cmd with partial_ := some 0 } }
theorem witness_WindowTakesPackets : Tab.get dNone z.cmd.window 4 = none ∧ Tab.get dNone (host [9]).cmd.window 0 ≠ none ∧
    (7 : BitVec 4) ≠ 15 ∧ (host (header 1 0)).mayTake = true ∧ (host (header 1 0)).headerAt.isSome = true ∧
    ((host (header 1 0)).headerAt.map (·.isSome)) = some true ∧
    (host (header 1 0)).winRead ((host (header 1 0)).cons + 32) 0 = some [] ∧
    (host (header 1 0)).headerStatus ⟨1, 0, 77, 1, 0, 3⟩ (fun _ => 0) = none ∧
    (host (header 0x9999 0)).headerStatus ⟨0x9999, 0, 77, 1, 0, 3⟩ (fun _ => 0) = some 2 ∧
    ((host (header 0x9999 0)).headerAt.map (·.isSome)) = some true ∧ (host (header 0x9999 0)).cmd.taken = [] ∧
    (host (header 0x0104 32)).winRead ((host (header 0x0104 32)).cons + 32) 8 = none ∧
    ((host (header 0x0104 32)).headerAt.map (·.isSome)) = some true ∧
    ((host (List.replicate 8 5)).headerAt.map (·.isSome)) = some false ∧ (host (List.replicate 8 5)).mayTake = true ∧
    z.mayTake = false ∧ (host [9]).headerAt.isNone = true := by decide +kernel
theorem witness_WindowTakesPackets_stall : (partialAt 10000).cmd.partial_ = some 0 ∧
    0 + 1000 * (partialAt 10000).fld CMD_TMO.ms ≤ (partialAt 10000).tick ∧
    (partialAt 9999).tick < 0 + 1000 * (partialAt 9999).fld CMD_TMO.ms ∧ z.cmd.partial_ = none ∧
    z.flag CMD_CTL.en = false ∧ { z with cmd := { z.cmd with ringNew := true } }.cmd.ringNew = true := by decide +kernel
def aReply : Reply := ⟨1, 77, 1, 1, false, false, 0, 0, 0, []⟩
def replying : State := { host [] with cmd := { (host []).cmd with done := [aReply] } }
theorem witness_RepliesAreWritten : replying.cmd.done = [aReply] ∧ replying.flag CMD_CTL.en = true ∧ replying.link.up = true ∧
    replying.ringUsed ≠ replying.ringSize - 1 ∧ z.flag CMD_CTL.en = false ∧ z.link.up = false ∧ z.cmd.done = [] ∧
    (replying.setFld CMD_RPL_HEAD.head 1).ringUsed = (replying.setFld CMD_RPL_HEAD.head 1).ringSize - 1 := by decide +kernel

/-- A taken packet, and the state in which it stands alone. -/
def packet (op : Nat) (ps : List Word) : Taken := ⟨1, BitVec.ofNat 16 op, 32, 77, 1, false, false, false, ps, 0, none, [], false, false⟩
def with_ (s : State) (c : Taken) : State := { s with cmd := { s.cmd with taken := [c], nextNo := 2 } }
/-- Nothing holds the packet up. -/
abbrev free (s : State) (op : Nat) (ps : List Word) : Prop :=
  (packet op ps).opcode.toNat = op ∧ (with_ s (packet op ps)).startable 0 (packet op ps) = true ∧ s.pstate ≠ 1 ∧
    s.barred op (op == 0x0201 && bits ((packet op ps).p 0) 23 16 == 0) = none
theorem free.runs {s : State} {op : Nat} {ps : List Word} (h : free s op ps) : (with_ s (packet op ps)).mayRun 0 op (packet op ps) :=
  have ⟨a, b, c, d⟩ := h
  ⟨rfl, a, b, fun e => (c e).elim, d⟩

/-- The header of a package of score 5: three sections of one block each. -/
def pkgHeader : List Byte :=
  leBytes 8 (0x59A35C0E + 5 * 2 ^ 32 + 3 * 2 ^ 56) ++ leBytes 8 448 ++ List.replicate 64 0 ++
    leBytes 8 (1 * 2 ^ 56 + 4 * 2 ^ 24 + 1) ++ leBytes 8 (2 * 2 ^ 56 + 5 * 2 ^ 24 + 1) ++ leBytes 8 (3 * 2 ^ 56 + 6 * 2 ^ 24 + 1) ++
    List.replicate 152 0
def headerWords : List Word := (List.range 64).map fun i => BitVec.ofNat 32 (leDword pkgHeader i)
/-- LOAD_BEGIN of that package with two home granules. -/
def begins (a b : Nat) : Taken := packet 0x0101 (headerWords ++ [2, BitVec.ofNat 32 (a + 256 * b)])
def tiny : Package := { emptyPkg with bays := [], sgran := 0, pewter := [], gslots := [], counters := [], seqs := [], services := [] }
def inState (x : Score) : State := (host []).setScore 5 x
def analysing : State := let s := inState { Score.reset with state := .analysing }
  { s with scores := { s.scores with loads := [5] } }
/-- Its LOAD_END waits. -/
def ending : State := with_ analysing { packet 0x0103 [5] with begun := some 0 }
theorem witness_ScoresLoad_begin : free (host []) 0x0101 (begins 6 7).params ∧ (begins 6 7).p 64 < 65536 ∧
    ((begins 6 7).bytes 260 2).map (·.toNat) = [6, 7] ∧ ((begins 6 6).bytes 260 2).map (·.toNat) = [6, 6] ∧
    headerOk ((begins 6 7).bytes 0 256) = true ∧ hdrScore ((begins 6 7).bytes 0 256) = 5 ∧ ((host []).score 5).state = .none ∧
    (host []).scores.loads.length < 5 ∧ Tab.get dZero (host []).scores.sgran 7 = 0 ∧ 92 ≤ ((begins 6 92).bytes 261 1).headD 0 ∧
    (inState { Score.reset with state := .loaded }).score 5 ≠ Score.reset ∧ headerOk (List.replicate 256 0) = false := by decide +kernel
theorem witness_ScoresLoad_begin_runs : (with_ (host []) (begins 6 7)).mayRun 0 0x0101 (begins 6 7) := (free.runs (by decide +kernel))
def chunkIn (st : ScoreState) : State := inState { Score.reset with state := st, nextBlk := 4, length := 448 }
theorem witness_ScoresLoad_chunk : free (chunkIn .loading) 0x0102 [5, 0, 4, 3] ∧ (packet 0x0102 [5, 0, 4, 3]).p 0 < 65536 ∧
    (chunkIn .loading).staging 0 192 = true ∧ (packet 0x0102 [5, 0, 4, 3]).p 2 = ((chunkIn .loading).score 5).nextBlk ∧
    0 < (packet 0x0102 [5, 0, 4, 3]).p 3 ∧ (packet 0x0102 [5, 0, 5, 3]).p 2 ≠ ((chunkIn .loading).score 5).nextBlk ∧
    free (chunkIn .none) 0x0102 [5, 0, 4, 3] ∧ ((chunkIn .none).score 5).state = .none ∧
    ((chunkIn .loaded).score 5).state ∉ [.none, .loading, .analysing] := by decide +kernel
theorem witness_ScoresLoad_analysis : analysing.scores.loads.head? = some 5 ∧ (analysing.score 5).state = .analysing ∧
    (({ analysing with scores := { analysing.scores with loads := [] } } : State).analyse { tiny with wellFormed := false } 5).isSome = true ∧
    (({ analysing with scores := { analysing.scores with loads := [] } } : State).analyse tiny 5).isNone = true ∧
    analysing.waitingEnd 5 = none ∧ ending.waitingEnd 5 = some 0 ∧ ending.scores.loads.head? = some 5 ∧
    (host []).scores.loads.head? ≠ some 5 := by decide +kernel
def whole : Score := { Score.reset with state := .loading, pkg := some tiny, length := 64, nextBlk := 1, image := List.replicate 64 0
                                        digest := Config.shake256 (zeroDigest ((List.replicate 64 0).take 64)) }
def unanalysed (n : Nat) : Score := { Score.reset with state := .loading, length := 448, nextBlk := n, image := pkgHeader }
theorem witness_ScoresLoad_digest : Config.shake256 (zeroDigest (whole.image.take whole.length)) = whole.digest ∧
    whole.refusal = none ∧ whole.pkg = some tiny ∧ whole.state = .loading := ⟨rfl, rfl, rfl, rfl⟩
theorem witness_ScoresLoad_end : free (inState whole) 0x0103 [5] ∧ (whole.length + 63) / 64 = whole.nextBlk ∧
    ({ whole with nextBlk := 2 }.length + 63) / 64 ≠ { whole with nextBlk := 2 }.nextBlk ∧
    { Score.reset with refusal := some 9 }.refusal = some 9 ∧ free (inState (unanalysed 7)) 0x0103 [5] ∧
    analysisEnd (unanalysed 7).image ≤ (unanalysed 7).nextBlk ∧ (unanalysed 6).nextBlk < analysisEnd (unanalysed 6).image ∧
    ((host []).score 5).state = .none ∧ ((host []).score 5).refusal = none ∧
    ((chunkIn .loaded).score 5).state ∉ [.none, .loading, .analysing] := by decide +kernel

/-- Score 5, in a state, holds bay 1 and Pewter range 64 by the roles of its package. -/
def holding (st : ScoreState) : State :=
  ((((host []).setScore 5 { Score.reset with state := st, pkg := some emptyPkg, bound := [(0, 0, 1), (1, 0, 64)] }).setBayScore 1 5).setBayState 1 2)
/-- Its sequence 0 runs. -/
def runningSeq : State := ((holding .running).modBay 1 fun y => { y with assured := some { seqR with index := 0 } }).setBayState 1 3
/-- A package whose two sequences want the assured place of one bay. -/
def twice : Package := { emptyPkg with seqs := emptyPkg.seqs ++ emptyPkg.seqs }
def theScore : Score := (holding .loaded).score 5
theorem witness_ScoresStartStopAndUnload_start : free (holding .loaded) 0x0104 [5, 1] ∧ maskSeqs emptyPkg 1 = [0] ∧ theScore.state = .loaded ∧
    theScore.pkg = some emptyPkg ∧ theScore.roleRes 0 0 = some 1 ∧ (holding .loaded).slotsPending theScore emptyPkg 0 = false ∧
    (holding .loaded).mayStart theScore emptyPkg 0 = true ∧ (theScore.places emptyPkg [0]).Nodup ∧
    ((holding .loaded).setFld (LOOP_RECAL.pend.on 1) 1).slotsPending theScore emptyPkg 0 = true ∧
    ¬ (theScore.places twice (maskSeqs twice 3)).Nodup ∧ (∀ n ∈ maskSeqs twice 3, n < twice.seqs.length) ∧
    runningSeq.mayStart (runningSeq.score 5) emptyPkg 0 = false := by decide +kernel
theorem witness_ScoresStartStopAndUnload_runs : (with_ (holding .loaded) (packet 0x0104 [5, 1])).mayRun 0 0x0104 (packet 0x0104 [5, 1]) :=
  (free.runs (by decide +kernel))
theorem witness_ScoresStartStopAndUnload_stop : free runningSeq 0x0105 [5, 1] ∧ (runningSeq.score 5).state = .running ∧
    (∀ n ∈ maskSeqs emptyPkg 1, n < emptyPkg.seqs.length) ∧ (maskSeqs emptyPkg 1).any (runningSeq.seqRuns 5) = true ∧
    free (holding .running) 0x0105 [5, 1] ∧ (maskSeqs emptyPkg 1).any ((holding .running).seqRuns 5) = false ∧
    free (holding .loaded) 0x0105 [5, 1] ∧ theScore.state ≠ .running ∧ free runningSeq 0x0106 [5, 0] ∧ runningSeq.scoreRuns 5 = true ∧
    free (holding .loaded) 0x0106 [5, 0] ∧ (holding .loaded).scoreRuns 5 = false ∧ free (host []) 0x0104 [5, 1] ∧
    free (host []) 0x0105 [5, 1] ∧ free (host []) 0x0106 [5, 0] ∧ ((host []).score 5).state = .none := by decide +kernel

/-- A package that claims a group of node 2 and a window to it. -/
def linked : Package := { emptyPkg with groups := [(0, 2, .spare)], windows := [(0, .spare)] }
/-- The score has no role bound; bay 1 is free; port 2 is up towards node 2. -/
def unbound : State :=
  let s := ((host []).setScore 5 { Score.reset with state := .loaded, pkg := some linked }).setBayState 1 1
  (((s.setFld (FAB_PORT_STAT.state.on 2) 3).setFld (FAB_PORT_STAT.fid.on 2) 2).setFlag FAB_PID.asg true)
def boundBay : State := (unbound.setScore 5 { Score.reset with state := .loaded, pkg := some linked, bound := [(0, 0, 1)] }).setBayScore 1 5
def joined : State := unbound.setGroup 2 1 { up with cls := .spare }
theorem witness_RolesAreBoundAndReleased_bay : free unbound 0x0201 [5, 1, 0] ∧ bindOk (packet 0x0201 [5, 1, 0]) = true ∧
    (unbound.score 5).state = .loaded ∧ (unbound.score 5).roleRes 0 0 = none ∧ linked.bays.find? (·.role == 0) = some ⟨0, 0, 0⟩ ∧
    unbound.bayState 1 = 1 ∧ (unbound.bay 1).anyRun = false ∧ 0 ≤ 128 - unbound.lostLines 1 ∧
    free boundBay 0x0201 [0x10005, 64, 0] ∧ bits ((packet 0x0201 [0x10005, 64, 0]).p 0) 23 16 = 1 ∧
    bindOk (packet 0x0201 [0x10005, 64, 0]) = true ∧ linked.pewter.find? (·.role == 0) = some ⟨0, 0⟩ ∧
    Tab.get dZero boundBay.scores.pewter 64 = 0 ∧ (boundBay.score 5).roleRes 0 0 = some (64 / 64) ∧
    bindOk (packet 0x0201 [5, 8, 0]) = false ∧ free (host []) 0x0201 [5, 1, 0] ∧ ((host []).score 5).state = .none ∧
    ((boundBay.score 5).roleRes 0 0).isSome = true := by decide +kernel
theorem witness_RolesAreBoundAndReleased_group : free unbound 0x0201 [0x20005, 9, 2] ∧ bindOk (packet 0x0201 [0x20005, 9, 2]) = true ∧
    linked.groups.find? (·.1 == 0) = some (0, 2, .spare) ∧ Tab.get dZero unbound.scores.groups 9 = 0 ∧
    (unbound.group 2 1).pend = false ∧ bits ((packet 0x0201 [0x20005, 9, 2]).p 2) 11 0 = 2 ∧ unbound.mayPair 2 2 = true ∧
    free joined 0x0201 [0x30005, 3, 2] ∧ bindOk (packet 0x0201 [0x30005, 3, 2]) = true ∧
    linked.windows.find? (·.1 == 0) = some (0, .spare) ∧ (joined.rwin 3).valid = false ∧ joined.groupTo 5 .spare 2 = some 9 ∧
    unbound.groupTo 5 .spare 2 = none ∧ joined.groupTo 5 .assured 2 = none := by decide +kernel
def begunBind (ps : List Word) : Taken := { packet 0x0201 ps with begun := some 0 }
/-- Bay 1 is rebinding and its loops are in TRACK; or not. -/
def rebindingTo (on : Bool) : State :=
  with_ ((unbound.setBayState 1 4).setEngine 1 { Engine.reset with loops := (List.range 64).map fun l =>
    (l, { Loop.zoneReset with mode := if on then .track else .acquire }) }) (begunBind [5, 1, 0])
def reserving (c : Cls) : State :=
  with_ ((portAt 3 { up with pend := true, bound := false, cls := c })) (begunBind [0x20005, 9, 0])
theorem witness_RolesAreBoundAndReleased_ends : (rebindingTo true).rebinding 0 = some (begunBind [5, 1, 0], 1) ∧
    (rebindingTo true).bayState 1 = 4 ∧ (rebindingTo true).loopsSettled 1 = true ∧ (rebindingTo false).loopsSettled 1 = false ∧
    ((rebindingTo true).setBayState 1 6).bayState 1 ≠ 4 ∧ (host []).rebinding 0 = none ∧
    (reserving .spare).cmd.taken[0]? = some (begunBind [0x20005, 9, 0]) ∧ ((reserving .spare).group (9 / 4) (9 % 4)).pend = true ∧
    bits ((begunBind [0x20005, 9, 0]).p 0) 23 16 = 2 ∧ (begunBind [0x20005, 9, 0]).opcode = 0x0201 ∧
    ((reserving .spare).group (9 / 4) (9 % 4)).cls = .spare ∧ ((reserving .assured).group (9 / 4) (9 % 4)).cls ≠ .spare ∧
    (reserving .assured).flag FAB_REF.lock = false := by decide +kernel
theorem witness_RolesAreBoundAndReleased_release : free (holding .loaded) 0x0202 [5] ∧ theScore.roleRes 0 0 = some 1 ∧
    (holding .loaded).inFlight 5 none = false ∧ free (holding .running) 0x0202 [5] ∧ ((holding .running).score 5).state = .running ∧
    free unbound 0x0202 [5] ∧ (unbound.score 5).roleRes 0 0 = none := by decide +kernel
theorem witness_RolesAreBoundAndReleased_runs : (with_ unbound (packet 0x0201 [5, 1, 0])).mayRun 0 0x0201 (packet 0x0201 [5, 1, 0]) :=
  (free.runs (by decide +kernel))

def inA (n : Nat) : State := (host []).setFld PWR_STAT.state n
theorem witness_ModuleCommandsAnswer_waits : hostCommand (.bind 0) = some (0, 0x0201) ∧ (host []).cmd.taken[0]? = none ∧
    (packet 2 []).opcode.toNat ≠ 0x0201 ∧ (inA 1).fld PWR_STAT.state = 1 ∧ 0x0201 ∉ [0x0001, 0x0002, 0x0302, 0x0601] ∧
    (with_ z (packet 1 [])).startable 0 (packet 1 []) = false ∧
    (with_ (host []) (packet 0x0104 [5, 1])).startable 0 (packet 0x0104 [5, 1]) = true ∧ (inA 2).barred 0x0104 false = some 8 ∧
    ((host []).setFlag SEC_BOOT.rec true).barred 0x0104 false = some 5 := by decide +kernel
def windowed : State := (holding .loaded).setRwin 3 ⟨true, 5, 2, 2, 1, 16⟩
def mapPs (w first : Nat) : List Word := [BitVec.ofNat 32 (5 + 65536 * w), BitVec.ofNat 32 (0x00010000 + first), 0, 0, 0x00100000, 0]
theorem witness_ModuleCommandsAnswer_map : free windowed 0x0203 (mapPs 3 15) ∧ bits ((packet 0x0203 (mapPs 3 15)).p 1) 15 12 = 0 ∧
    (packet 0x0203 (mapPs 3 15)).p 0 < 2 ^ 22 ∧ (packet 0x0203 (mapPs 3 15)).p 1 < 2 ^ 25 ∧
    mapEntries (packet 0x0203 (mapPs 3 15)) = [0x100000] ∧
    (∀ e ∈ mapEntries (packet 0x0203 (mapPs 3 15)), bits e 60 48 = 0 ∧ bits e 19 0 = 0) ∧ (windowed.score 5).state ≠ .none ∧
    (windowed.rwin 3).valid = true ∧ (windowed.rwin 3).score = 5 ∧
    bits ((packet 0x0203 (mapPs 3 15)).p 1) 11 0 + 1 ≤ (windowed.rwin 3).pages ∧
    (windowed.rwin 3).pages < bits ((packet 0x0203 (mapPs 3 16)).p 1) 11 0 + 1 ∧ (windowed.rwin 4).valid = false ∧
    bits ((packet 0x0203 (mapPs 3 0x1000)).p 1) 15 12 ≠ 0 := by decide +kernel
theorem witness_ModuleCommandsAnswer_counter : free (host []) 1 [] ∧ free (host []) 2 [] ∧
    (holding .loaded).counterOf (packet 0x0301 [5 + 300 * 65536, 4]) = .ok (5, 300) ∧
    free (holding .loaded) 0x0301 [5 + 300 * 65536, 4] ∧ (packet 0x0301 [5 + 300 * 65536, 255]).p 1 < 256 ∧
    256 ≤ (packet 0x0301 [5 + 300 * 65536, 256]).p 1 ∧ free (holding .loaded) 0x0302 [5 + 300 * 65536] ∧
    free (holding .loaded) 0x0303 [5 + 300 * 65536, 8] ∧ 8 ≤ (packet 0x0303 [5 + 300 * 65536, 8]).p 1 ∧
    (packet 0x0303 [5 + 300 * 65536, 63]).p 1 < 64 ∧ 64 ≤ (packet 0x0303 [5 + 300 * 65536, 64]).p 1 ∧
    (packet 0x0303 [5 + 300 * 65536, 7]).p 1 < 8 ∧ (holding .loaded).counterOf (packet 0x0301 [5 + 255 * 65536, 4]) = .error 3 := by
  decide +kernel
theorem witness_ModuleCommandsAnswer_runs : (with_ windowed (packet 0x0203 (mapPs 3 15))).mayRun 0 0x0203 (packet 0x0203 (mapPs 3 15)) :=
  (free.runs (by decide +kernel))

def faulted : State := (host []).setFld GUARD_STAT.flt 2
def readBackForced : State := (host []).setTrimOut 7 { TrimOut.reset with rb := true, code := 5 }
def inDebug : State := (holding .loaded).setBayState 1 5
theorem witness_SystemCommandsAct_bays : free (holding .loaded) 0x0401 [1] ∧ (holding .loaded).bayState 1 ∈ [1, 2, 3] ∧
    ((holding .loaded).setBayState 1 4).bayState 1 = 4 ∧ free ((holding .loaded).setBayState 1 4) 0x0401 [1] ∧
    inDebug.bayState 1 ∉ [1, 2, 3, 4] ∧ free inDebug 0x0401 [1] ∧ free inDebug 0x0402 [1] ∧ inDebug.bayState 1 = 5 ∧
    free (holding .loaded) 0x0402 [1] ∧ (holding .loaded).bayState 1 ≠ 5 ∧ free (host []) 0x0501 [1] ∧ (host []).bayScore 1 = 0 ∧
    free (holding .loaded) 0x0501 [1] ∧ (holding .loaded).bayScore 1 ≠ 0 := by decide +kernel
theorem witness_SystemCommandsAct_guard : free faulted 0x0701 [1, 0xFFFFFFFE] ∧ (packet 0x0701 [1, 0xFFFFFFFE]).paired = true ∧
    (packet 0x0701 [1, 1]).paired = false ∧ faulted.bitOf GUARD_STAT.flt 1 = true ∧ inMask ((0 : BitVec 5).toNat % 16) 1 = false ∧
    inMask ((2 : BitVec 5).toNat % 16) 1 = true ∧ (packet 0x0701 [4, 0xFFFFFFFB]).p 0 = 4 ∧ (packet 0x0701 [4, 0xFFFFFFFB]).paired = true ∧
    faulted.bitOf GUARD_STAT.flt 0 = false ∧ free faulted 0x0701 [1, 1] ∧ free readBackForced 0x0702 [7, 0xFFFFFFF8] ∧
    (packet 0x0702 [7, 0xFFFFFFF8]).paired = true ∧ (readBackForced.trimOut 7).rb = true ∧ (faulted.trimOut 7).rb = false ∧
    (packet 0x0702 [7, 7]).paired = false := by decide +kernel
theorem witness_SystemCommandsAct_power : free (inA 0) 0x0601 [2] ∧ (inA 0).pstate = 0 ∧ (inA 0).pwr.wake = none ∧
    (with_ (inA 0) (packet 0x0601 [2])).refusing 2 = none ∧ free (inA 2) 0x0601 [0] ∧ (inA 2).pstate = 2 ∧
    free (inA 2) 0x0601 [1] ∧ (packet 0x0601 [1]).p 0 ≠ (inA 2).pstate ∧
    { inA 2 with pwr := { z.pwr with wake := some ⟨2, 0, none, 0, none⟩ } }.pwr.wake.isSome = true ∧
    (runningSeq.refusing 2).isSome = true ∧ runningSeq.pstate = 0 := by decide +kernel
theorem witness_SystemCommandsAct_runs : (with_ (holding .loaded) (packet 0x0401 [1])).mayRun 0 0x0401 (packet 0x0401 [1]) :=
  (free.runs (by decide +kernel))
/-- An image runs with its alias key, and a session is open. -/
def attested : State := { z with sec := { z.sec with akey := some ⟨[1], [2]⟩, session := some [3] } }
theorem witness_SystemCommandsAct_doe : attested.sec.akey = some ⟨[1], [2]⟩ ∧ attested.sec.session = some [3] ∧
    ([0x12, 0x83] : List Byte).getD 1 0 ≠ 0x84 ∧ ([0x10, 0x84] : List Byte).getD 1 0 = 0x84 ∧ z.sec.akey = none ∧
    1 < (2 : Byte).toNat ∧ 16384 < (List.replicate 16385 (0 : Byte)).length := by decide +kernel

/-! Effects (R210 to R224, R351 to R369). -/

/-- The status of the reply that a command leaves. -/
def status (c : Instr) (s : State) (op : Nat) (ps : List Word) : List Byte :=
  (run c (with_ s (packet op ps))).cmd.done.map (·.status)
def effect (c : Instr) (s : State) (op : Nat) (ps : List Word) : State := run c (with_ s (packet op ps))
theorem packet_is_taken : (run .packetTake (host (header 1 0))).cmd.taken.map (·.opcode) = [1] ∧ (run .packetTake (host (header 1 0))).cons = 32 := by
  decide +kernel
theorem header_is_hunted : (run .packetTake (host (List.replicate 8 5))).flag CMD_STAT.hunt = true := by decide +kernel
theorem window_stalls : (run .windowStall (partialAt 10000)).flag CMD_STAT.stall = true ∧ run .windowStall (partialAt 9999) = partialAt 9999 := by
  decide +kernel
theorem window_fills : (run (.commandWindowWrite 8 [(6, 15), (7, 15)] false) z).cmd.window = [(2, some 6), (3, some 7)] := by decide +kernel
theorem window_overruns : (run (.commandWindowWrite 0 [(6, 15)] false) (host [9])).flag CMD_STAT.ovr = true := by decide +kernel
theorem flush_empties : (run .flush (host [9])).cmd.window = [] := by decide +kernel
theorem enable_sets : (run (.commandEnable true) z).flag CMD_CTL.en = true := by decide +kernel
theorem reply_is_written : (run .replyWrite replying).cmd.done = [] ∧ (run .replyWrite replying).fld CMD_RPL_TAIL.tail = 1 := by decide +kernel
theorem nop_answers : status (.nopCommand 0) (host []) 1 [] = [0] := by decide +kernel
theorem identify_answers : (effect (.identify 0) (host []) 2 []).cmd.done.map (fun r => r.vs.headD 0) = [0x3208A311] := by decide +kernel
theorem load_begins : ((effect (.loadBegin 0) (host []) 0x0101 (headerWords ++ [0])).score 5).state = .loading := by decide +kernel
theorem chunk_joins : ((effect (.loadChunk 0) (chunkIn .loading) 0x0102 [5, 0, 4, 3]).score 5).nextBlk = 7 := by decide +kernel
theorem analysis_refuses : (run (.analysis 5 { tiny with wellFormed := false }) analysing).fld GLB_ADM_LAST.code = 2 := by decide +kernel
theorem analysis_accepts : (run (.analysis 5 tiny) analysing).fld GLB_ADM_LAST.code = 0 ∧ ((run (.analysis 5 tiny) analysing).score 5).pkg = some tiny := by
  decide +kernel
theorem start_runs : ((effect (.start 0) (holding .loaded) 0x0104 [5, 1]).strand 1 2).state = .ready ∧
    (effect (.start 0) (holding .loaded) 0x0104 [5, 1]).bayState 1 = 3 := by decide +kernel
theorem stop_begins : (effect (.stop 0) runningSeq 0x0105 [5, 1]).cmd.taken.map (·.begun) = [some 0] ∧
    ((effect (.stop 0) runningSeq 0x0105 [5, 1]).bay 1).assured.map (·.stopping) = some true := by decide +kernel
theorem unload_frees : ((effect (.unload 0) (holding .loaded) 0x0106 [5, 0]).score 5).state = .none ∧
    (effect (.unload 0) (holding .loaded) 0x0106 [5, 0]).bayScore 1 = 0 := by decide +kernel
theorem bind_begins : (effect (.bind 0) unbound 0x0201 [5, 1, 0]).bayState 1 = 4 := by decide +kernel
theorem rebind_completes : (run (.rebindComplete 0 1) (rebindingTo true)).bayState 1 = 2 ∧ run (.rebindComplete 0 2) (rebindingTo true) = rebindingTo true := by decide +kernel
theorem reservation_binds : ((run (.reservationExchange 0 true) (reserving .spare)).group 2 1).bound = true := by decide +kernel
theorem release_of_a_running_score : status (.release 0) (holding .running) 0x0202 [5] = [1] ∧ status (.release 0) (holding .loaded) 0x0202 [5] = [0] := by
  decide +kernel
theorem map_waits_for_its_reply : (effect (.windowMap 0) windowed 0x0203 (mapPs 3 2)).cmd.maps = [(1, 0x17CC0000 + 8 * (4096 * 3 + 2), 0x100000)] := by
  decide +kernel
theorem event_is_signalled : ((effect (.eventSignal 0) (holding .loaded) 0x0301 [5 + 300 * 65536, 4]).score 5).counter 300 = 4 := by decide +kernel
theorem event_is_read : (effect (.eventRead 0) (holding .loaded) 0x0302 [5 + 300 * 65536]).cmd.done.map (·.vs) = [[0]] := by decide +kernel
theorem event_notifies : Tab.get dZero ((effect (.eventNotify 0) (holding .loaded) 0x0303 [5 + 300 * 65536, 9]).score 5).notify 44 = 9 := by
  decide +kernel
theorem debug_enters : (effect (.debugEnter 0) (holding .loaded) 0x0401 [1]).bayState 1 = 5 := by decide +kernel
theorem guard_clears : (effect (.guardClear 0 0) faulted 0x0701 [1, 0xFFFFFFFE]).fld GUARD_STAT.flt = 0 ∧
    (effect (.guardClear 0 2) faulted 0x0701 [1, 0xFFFFFFFE]).fld GUARD_STAT.flt = 2 := by decide +kernel
theorem unpaired_word_is_refused : status (.guardClear 0 0) faulted 0x0701 [1, 1] = [9] := by decide +kernel
theorem output_is_released : ((effect (.trimRelease 0) readBackForced 0x0702 [7, 0xFFFFFFF8]).trimOut 7).rb = false := by decide +kernel
theorem entry_begins : (effect (.powerState 0) (inA 0) 0x0601 [2]).pwr.entry.isSome = true := by decide +kernel
theorem wake_begins : (effect (.powerState 0) (inA 2) 0x0601 [0]).pwr.wake.isSome = true := by decide +kernel
theorem doe_aborts : (run (.doeRequest 1 [] true) { z with link := { z.link with doe := [1] } }).link.doe = [] := by decide +kernel
/-! ### Clocks and power -/

def clocked (run : Bool) (src : BitVec 2) : State := z.setDom 1 { Dom.reset with run := run, src := src, pll := true }
def selected : State := z.setFld CLK_REF_STAT.sel 2
def held (t : Nat) : State := { selected.setFlag CLK_REF_STAT.hold true with tick := t, clk := { z.clk with xoOn := some 0, xoTick := some t } }
def electing : State := ((held 60000).setFld FAB_PID.id 7).setFlag FAB_PID.asg true
def lostRef : State := z.setFlag CLK_REF_STAT.lost true
theorem witness_SourcesAndReference : switches 1 1 = true ∧ ((clocked true 0).dom 1).run = true ∧ ((clocked true 0).dom 1).src ≠ 1 ∧
    (clocked true 0).sourceRuns 1 = true ∧ (clocked true 0).sourceRuns 0 = false ∧
    ((clocked true 0).setFlag CLK_REF_STAT.lock true).sourceRuns 0 = true ∧ hasPll 1 = true ∧ ((clocked true 0).dom 1).pll = true ∧
    selected.fld CLK_REF_STAT.sel ≠ 0 ∧ selected.flag CLK_REF_STAT.hold = false ∧ (held 100000).refGone = true ∧ z.refGone = false ∧
    lostRef.flag CLK_REF_STAT.lost = true ∧ electing.flag CLK_REF_STAT.hold = true ∧ electing.flag CLK_REF_STAT.lost = false ∧
    electing.takesPart = true ∧ electing.elected = some electing.ownId ∧ electing.clk.xoOn.isSome = true ∧ z.fld CLK_REF_STAT.sel = 0 ∧
    z.flag CLK_REF_STAT.lost = false ∧ z.flag CLK_REF_STAT.hold = false ∧ z.bayScore 1 = 0 ∧ withMem.bayState 1 = 0 ∧
    (withMem.setBayScore 1 5).bayScore 1 ≠ 0 ∧ (z.setBayState 1 3).bayState 1 ≠ 0 := by decide +kernel
/-- No source of reference 0 runs; domain 2 has one source; a domain that stands has no lock to lose. -/
theorem witness_SourcesAndReference_not : switches 2 1 = false ∧ switches 1 2 = false ∧ ((clocked false 0).dom 1).run = false ∧
    ((clocked true 1).dom 1).src = 1 ∧ hasPll 4 = false ∧ ((clocked false 0).dom 1).pll = true := by decide +kernel
/-- Node 1 follows node 2 over port 2; holdover has lasted exactly its time, and one tick less. -/
def followsTwo : State := { known.setPartner 0 { node with cand := true } with
  clk := { known.clk with holdTick := 300000 } }.setFlag CLK_REF_STAT.hold true
def waitsForIt : State := { z with tick := 99999 }.setFlag CLK_REF_STAT.hold true
theorem witness_SourcesAndReference_follows : followsTwo.flag CLK_REF_STAT.hold = true ∧ followsTwo.flag CLK_REF_STAT.lost = false ∧
    followsTwo.elected = some 2 ∧ followsTwo.takesPart = true ∧ (2 : BitVec 12) ≠ followsTwo.ownId ∧ followsTwo.bestPort 2 = some (2, 1) ∧
    followsTwo.clk.holdTick + 100000 ≤ followsTwo.tick ∧ waitsForIt.elected = none ∧ waitsForIt.tick < waitsForIt.clk.holdTick + 100000 := by
  decide +kernel
theorem witness_SourcesAndReference_corrects : (CorrItem.rc, 0) ∈ [(CorrItem.rc, 0), (.readback, 1)] ∧
    (CorrItem.readback, 1) ∈ [(CorrItem.rc, 0), (.readback, 1)] ∧ CorrItem.adc 31 = .adc (31 : TileId) ∧ 2 + (31 : TileId).val = 33 := by
  decide
def running2 (d e : Nat) : State := (z.setDom d { Dom.reset with run := true }).setDom e { Dom.reset with run := true }
theorem witness_GatesCrossingsAndDomains : z.gateHeld 0 = false ∧ ((z.setDom 0 { Dom.reset with run := true }).dom 0).run = true ∧
    z.gateHeld 6 = true ∧ (∀ b, b < 8 → (z.bay b).anyRun = false) ∧ ((at_ nopW).bay 1).anyRun = true ∧
    ((9, 1) : Nat × Nat) ∉ z.clk.closed ∧ ((portAt 3 up).group (9 - 7) 1).state ≠ 0 ∧
    ((z.setDom 0 { Dom.reset with run := true }).dom 1).run = false ∧ (run (.crossingReset 9 1) z).clk.closed = [(9, 1)] ∧
    (9 : DomainId) ≠ 1 ∧ ((running2 1 9).dom 9).run = true ∧ ((running2 1 9).dom 1).run = true ∧ (z.dom 9).run = false ∧
    hasPll 1 = true ∧ 7 ≤ (9 : DomainId).val := by decide +kernel

def powered (n : Nat) : State := { (host []) with
  pins := { z.pins with modReset := true }, pwr := { z.pwr with step := n, wake := none } }
def entering (tgt : Nat) (s : State) : State := { s with pwr := { s.pwr with entry := some ⟨tgt, none, 1000⟩ } }
/-- Nothing delays an entry: GDDR7 is trained. -/
def calm : State := { host [] with gddr := { z.gddr with trained := true } }
def waking (src retries : Nat) (failed : Option Nat) : State := { inA src with pwr := { z.pwr with wake := some ⟨src, retries, none, 0, failed⟩ } }
theorem witness_PowerStatesAreEnteredAndLeft : (powered 0).pstate ≠ 3 ∧ (powered 0).pins.modReset = true ∧
    (powered 0).flag THM_TRIP.latched = false ∧ (powered 0).pwr.step < 8 ∧ (powered 0).stepReady 0 = true ∧
    (powered 5).stepReady (powered 5).pwr.step = false ∧ (powered 0).canFail 0x13 = true ∧
    (entering 1 calm).pwr.entry = some ⟨1, none, 1000⟩ ∧ (entering 3 (holding .loaded)).refusing 3 = some 1 ∧
    ({ holding .loaded with gddr := calm.gddr } : State).refusing 1 = none ∧ (entering 1 calm).refusing 1 = none ∧ (entering 1 calm).delaying = none ∧ (entering 2 calm).refusing 2 = none ∧
    (entering 3 calm).refusing 3 = none ∧ (entering 1 (host [])).delaying = some 37 ∧
    ((⟨1, none, 1000⟩ : Entry).due ≤ { entering 1 (host []) with tick := 1000 }.tick) ∧ (host []).tick < 1000 ∧
    (with_ (inA 1) (packet 0x0104 [])).workArrived = true ∧ (inA 1).pstate = 1 ∧ (inA 1).pwr.wake = none ∧
    (waking 2 0 none).pwr.wake = some ⟨2, 0, none, 0, none⟩ ∧ (waking 2 0 none).canFail 0x12 = true ∧ codeRail 0x12 = some 2 ∧
    (waking 2 0 none).pwr.imgBad = false ∧ 0 + 10000 ≤ { waking 2 1 (some 0) with tick := 10000 }.tick ∧
    (waking 2 1 (some 0)).tick < 0 + 10000 := by decide +kernel
/-- The bounds: the eighth step, step 3 and after, the third retry; a rail that is on; nothing under way. -/
theorem witness_PowerStatesAreEnteredAndLeft_bounds : (powered 8).pwr.step = 8 ∧ (powered 2).pwr.step < 3 ∧ (powered 3).pwr.step = 3 ∧
    (powered 2).canFail 0x30 = true ∧ (powered 2).canFail 0x32 = false ∧ (powered 2).stepReady 2 = true ∧ (powered 0).pwr.entry = none ∧
    (powered 0).pwr.wake = none ∧ (waking 3 3 none).pwr.wake = some ⟨3, 3, none, 0, none⟩ ∧ (waking 1 2 none).canFail 0x12 = true ∧
    ((waking 2 0 none).setRail 2 ⟨true, true, 0, 0⟩).canFail 0x12 = false ∧ ((waking 2 0 none).setRail 2 ⟨false, false, 255, 0⟩).canFail 0x12 = true ∧
    (((waking 2 0 none).setRail 2 ⟨false, false, 255, 0⟩).rail 2).fails = 255 ∧ (inA 1).workArrived = false ∧ (host []).pstate = 0 ∧
    codeRail 0x31 = none := by decide +kernel

/-! ### Temperature and stored pairs -/

def sensed (x : Sensor) : State := z.setSensor 70 x
def hot : State := z.setFlag THM_TRIP.latched true
/-- Sensor 70 has read a value five times up to now. -/
def rising (v : Int) : State := { sensed { Sensor.reset with hist := [(9000, v), (8000, v), (7000, v), (6000, v), (5000, v)] } with tick := 10000 }
/-- Sensor 70, of bay 1, is a cause. -/
def causing : State := { sensed { Sensor.reset with state := 2 } with tick := 5000 }
def stepDown : State := { z.setLevel 1 3 with tick := 5000 }
/-- The assured sequence of bay 1 has stood at its floor for a millisecond. -/
def below : State := { runningSeq.modBay 1 fun y => { y with floorTick := some 0 } with tick := 1000 }.setSensor 70 { Sensor.reset with state := 2 }
def excursion : State := { z.setEngine 1 { Engine.reset with exc := true } with tick := 2000 }
theorem witness_ThermalResponses_samples : (z.sensor 70).broken = false ∧ -2560 ≤ (6400 : BitVec 16).toInt ∧ (6400 : BitVec 16).toInt ≤ 9600 ∧
    64 * (z.throttleAt (sensorClass 70) : Int) ≤ (9600 : BitVec 16).toInt ∧ 9600 < (9601 : BitVec 16).toInt ∧
    (sensed { Sensor.reset with fast := true }).sensor 70 = { Sensor.reset with fast := true } ∧
    0 + 10000 ≤ { sensed { Sensor.reset with fast := true } with tick := 10000 }.tick ∧ z.tick < (z.sensor 70).fastTick + 10000 ∧
    2 ≤ ((sensed { Sensor.reset with above := 2 }).sensor 70).above ∧ z.flag THM_TRIP.latched = false ∧ (z.sensor 70).above < 2 ∧
    ((sensed { Sensor.reset with broken := true }).sensor 70).broken = true ∧ hot.flag THM_TRIP.latched = true ∧
    (z.sensor 70).fast = false ∧ sensorClass 70 ≠ 3 ∧ sensorClass 616 = 3 ∧ (z.sensor 616).misses < 2 ∧
    ((z.setSensor 616 { Sensor.reset with misses := 1 }).sensor 616).misses < 2 ∧
    2 ≤ ((z.setSensor 616 { Sensor.reset with misses := 2 }).sensor 616).misses ∧ (-2560 : Int) = (0xF600 : BitVec 16).toInt ∧
    (0xF5FF : BitVec 16).toInt < -2560 ∧ (9600 : BitVec 16).toInt = 9600 := by decide +kernel
/-- A rate at the act limit, and one below it. -/
theorem witness_ThermalResponses_rate : 64 * (z.fld THM_RATE.act : Int) ≤ 5 * ((rising 6400).sensor 70).change (rising 6400).tick 9600 ∧
    5 * ((rising 6400).sensor 70).change (rising 6400).tick 6400 < 64 * (z.fld THM_RATE.act : Int) ∧ governed 70 = [1] := by decide +kernel
def broke (l : Nat) : State := ({ causing with tick := 9000 }.setLevel 1 l).modBay 1 fun y => { y with floorFault := true }
def warned : State := excursion.setSensor 70 { Sensor.reset with warnTick := some 1 }
theorem witness_ThermalResponses_levels : (causing.bay 1).floorFault = false ∧ causing.bayCause 1 = true ∧ causing.level 1 < causing.levelCap 1 ∧
    (causing.bay 1).levelTick + 100 ≤ causing.tick ∧ (z.setLevel 1 8).levelCap 1 ≤ (z.setLevel 1 8).level 1 ∧
    stepDown.bayCause 1 = false ∧ (stepDown.engine 1).exc = false ∧ 0 < stepDown.level 1 ∧ (stepDown.bay 1).levelTick + 1000 ≤ stepDown.tick ∧
    (below.bay 1).assured = some { seqR with index := 0 } ∧ (below.bay 1).floorTick = some 0 ∧ below.bayCause 1 = true ∧
    (below.bay 1).floorFault = false ∧ 0 + 1000 ≤ below.tick ∧ (excursion.engine 1).exc = true ∧
    (∀ n, n < 632 → (excursion.sensor n).warnTick = none) ∧ z.pstate ≠ 3 ∧ (inA 3).pstate = 3 ∧ z.bayCause 1 = false ∧
    (z.engine 1).exc = false ∧ z.level 1 = 0 ∧ (z.bay 1).assured = none ∧ ((broke 8).bay 1).floorFault = true ∧ (broke 8).level 1 < 15 ∧
    (broke 15).level 1 = 15 ∧ { below with tick := 999 }.tick < 0 + 1000 ∧ { causing with tick := 99 }.tick < (causing.bay 1).levelTick + 100 ∧
    [1400].foldl (· + ·) 0 = 1400 ∧ [1360].foldl (· + ·) 0 = 1360 := by decide +kernel
theorem witness_ThermalResponses_warned : 1 ∈ governed 70 ∧ (warned.sensor 70).warnTick = some 1 ∧ warned.tick < 1 + 2000 ∧
    (warned.engine 1).exc = true := by decide +kernel
theorem witness_StoredPairsAreChecked : (~~~(5 : Word)) = ~~~5 ∧ (7 : Word) ≠ ~~~(5 : Word) ∧ guardIndex 16 = true ∧ guardIndex 0 = true ∧
    slotUsed 1 3 = true ∧ slotUsed 9 43 = false ∧ guardIndex 7 = false ∧ guardIndex 6 = true ∧ guardIndex 12 = false ∧
    guardIndex 11 = true ∧ guardIndex 76 = false := by decide +kernel

/-! ### Firmware -/

def image (key : Bool) : Image := ⟨0x414E4855, 2, 64, 9, 640, key, true, List.replicate 64 1⟩
def booting : State := ((z.setFld SEC_BOOT.run 3).setDom 1 { Dom.reset with run := true })
def activated : State := { ((z.setFld SEC_BOOT.run 0).setFlag SEC_BOOT.pend true).setSlot 0 ⟨none, some ⟨9, 3, []⟩⟩ with tick := 10000000 }
def stagedImg (i : Image) : State := { host [] with sec := { z.sec with staging := some i } }
def tagged : State := (host []).setSlot 1 ⟨none, some ⟨9, 3, []⟩⟩
theorem witness_FirmwareIsVerified : booting.fld SEC_BOOT.run = 3 ∧ (booting.dom 1).run = true ∧ verified (image true) = true ∧
    (image true).kind = 2 ∧ booting.sec.pendingBoot.getD (BitVec.ofNat 2 (booting.fld SEC_BOOT.next)) = 0 ∧
    verified (image false) = false ∧ booting.sec.pendingBoot.getD (BitVec.ofNat 2 (booting.fld SEC_BOOT.next)) ≠ 1 ∧
    verified { image true with kind := 3 } = true ∧ activated.fld SEC_BOOT.run ≠ 3 ∧ activated.flag SEC_BOOT.pend = true ∧
    activated.fld SEC_BOOT.run < 2 ∧ activated.sec.runTick + 10000000 ≤ activated.tick ∧ (activated.slot 0).main = some ⟨9, 3, []⟩ ∧
    z.tick < z.sec.runTick + 10000000 ∧ (host []).fld SEC_BOOT.run = 0 := by decide +kernel
theorem witness_FirmwareIsVerified_commands : free (host []) 0x0801 [0, 20] ∧ imageHeader + (image true).blen ≤ 64 * 20 ∧
    (host []).staging 0 1280 = true ∧ 64 * 10 < imageHeader + (image true).blen ∧ (packet 0x0801 [0, 131073]).p 1 = 131073 ∧
    (host []).staging 4 1280 = false ∧ free (stagedImg (image false)) 0x0802 [1] ∧
    (stagedImg (image false)).commitRefusal (image false) 1 ≠ none ∧ (packet 0x0802 [255]).p 0 < 256 ∧
    256 ≤ (packet 0x0802 [256]).p 0 ∧ (host []).sec.staging = none ∧ free (host []) 0x0802 [1] ∧ free (host []) 0x0803 [1] ∧
    ((host []).slot 1).main = none ∧ free tagged 0x0803 [1] ∧ (tagged.slot 1).main.isSome = true ∧ 1 ≠ tagged.fld SEC_BOOT.run ∧
    (packet 0x0803 [2]).p 0 = 2 := by decide +kernel
theorem witness_FirmwareIsVerified_runs : (with_ tagged (packet 0x0803 [1])).mayRun 0 0x0803 (packet 0x0803 [1]) := (free.runs (by decide +kernel))
/-- The fused counter is below 64, so that an image of security version 64 is never older. -/
theorem witness_FirmwareIsVerified_commit : (host []).commitRefusal (image true) 1 = none := by
  have h : ¬ (64 < (host []).svnCounter) := by
    have := Config.fuseSvn.isLt
    have e : (host []).sec.svn = 0 := rfl
    simp only [State.svnCounter]
    omega
  have a : formatOk (image true) = true := by decide
  have b : (image true).svn = 64 := rfl
  have c : (host []).fld SEC_BOOT.run = 0 := by decide +kernel
  simp [State.commitRefusal, a, b, c, h]
  decide
theorem witness_FirmwareIsVerified_older : { image true with svn := 0 }.svn < ({ booting with sec := { z.sec with svn := 5 } } : State).svnCounter := by
  simp only [State.svnCounter]
  omega

/-! Effects (R384 to R416, R419 to R431, R436 to R443, R458). -/

theorem source_switches : ((run (.sourceSwitch 1 1) ((clocked true 0).setFlag CLK_REF_STAT.lock true)).dom 1).src = 1 := by decide +kernel
theorem stopped_clock_is_forced : (run (.stoppedClock 1 1) (clocked true 0)).flag CLK_SW_LAST.forced = true := by decide +kernel
theorem pll_unlocks : ((run (.pllUnlock 1) (clocked true 0)).dom 1).pll = false := by decide +kernel
theorem reference_holds_over : (run .referenceInputStopped selected).flag CLK_REF_STAT.hold = true := by decide +kernel
theorem module_elects_itself : (run .referenceReelection electing).fld FAB_REF.rid = 7 := by decide +kernel
theorem correction_is_bounded : (run (.temperatureCorrection .xo 400 false) z).fld CLK_CORR.xo_ofs ≤ 1 := by decide +kernel
theorem gate_closes : ((run (.gateClose 0 9) (z.setDom 0 { Dom.reset with run := true })).dom 0).share = 9 := by decide +kernel
theorem gates_stay : (run (.gateDisable 3) z).fld CLK_GATE_DIS.dom = 3 ∧ run (.gateDisable 3) (at_ nopW) = at_ nopW := by decide +kernel
theorem crossing_closes : (run (.crossingReset 9 1) (portAt 3 up)).clk.closed = [(9, 1)] ∧
    ((run (.crossingReset 9 1) (portAt 3 up)).group 2 1).state = 3 := by decide +kernel
theorem crossing_waits : run (.crossingOpen 9 1) (run (.crossingReset 9 1) z) = run (.crossingReset 9 1) z := by decide +kernel
theorem domain_resets : ((run (.domainReset 9) (portAt 3 up)).group 2 1).state = 4 := by decide +kernel
theorem power_up_steps : (run (.powerUp .ok) (powered 0)).pwr.step = 1 ∧ run (.powerUp .ok) (powered 5) = powered 5 := by decide +kernel
theorem entry_is_refused : (run .powerEntry (entering 3 (holding .loaded))).fld PWR_STAT.blk = 1 := by decide +kernel
theorem a1_is_entered : (run .powerEntry (entering 1 calm)).pstate = 1 := by decide +kernel
theorem a1_is_left : (run .a1Exit (with_ (inA 1) (packet 0x0104 []))).pstate = 0 := by decide +kernel
theorem wake_fails : (run (.wakeFailure 0x12) (waking 2 3 none)).fld PWR_WAKE.code = 0x12 ∧
    (run (.wakeFailure 0x12) (waking 2 0 none)).pwr.wake = some ⟨2, 0, none, 0, some 0⟩ := by decide +kernel
theorem wake_retries : (run .wakeRetry { waking 2 1 (some 0) with tick := 10000 }).pwr.wake = some ⟨2, 2, none, 0, none⟩ := by decide +kernel
theorem reading_is_kept : ((run (.thermalSample 70 (some 6400)) z).sensor 70).temp = 6400 := by decide +kernel
theorem sensor_breaks : ((run (.thermalSample 70 (some 9601)) z).sensor 70).broken = true ∧ ((run (.thermalSample 70 none) z).sensor 70).broken = true := by
  decide +kernel
theorem fast_sampling_ends : ((run (.fastSamplingEnd 70) { sensed { Sensor.reset with fast := true } with tick := 10000 }).sensor 70).fast = false := by
  decide +kernel
theorem no_trip_yet : run (.trip 70) (sensed { Sensor.reset with above := 1 }) = sensed { Sensor.reset with above := 1 } := by decide +kernel
theorem level_rises : (run (.throttleStepUp 1) causing).level 1 = 1 := by decide +kernel
theorem level_falls : (run (.throttleStepDown 1) stepDown).level 1 = 2 := by decide +kernel
theorem floor_is_fallen_below : ((run (.belowFloor 1) below).bay 1).floorFault = true := by decide +kernel
theorem excursion_clears : ((run (.excursionClear 1) excursion).engine 1).exc = false := by decide +kernel
theorem power_is_a_cause : (run (.pmbusPowerRead [1000, 401]) z).flag THM_STAT.pwr = true ∧ (run (.pmbusPowerRead [1400]) z).flag THM_STAT.pwr = false := by
  decide +kernel
theorem pair_holds : run (.storedPairCheck .admPlim 5 (~~~5)) z = z := by decide +kernel
theorem scale_pair_disagrees : ((run (.storedPairCheck (.tileScale 4) 5 7) z).tile 4).scaleBad = true := by decide +kernel
theorem image_runs : (run (.mainImageHandover 0 { image true with svn := 64 } []) booting).fld SEC_BOOT.run = 0 ∧
    run (.mainImageHandover 0 (image false) []) booting = booting := by decide +kernel
theorem watchdog_bites : (run .watchdogReset activated).fld SEC_BOOT.run = 3 ∧ (run .watchdogReset activated).fld SEC_BOOT.next = 1 := by
  decide +kernel
theorem bad_image_is_refused : status (.fwCommit 0) (stagedImg (image false)) 0x0802 [1] = [3] := by decide +kernel
theorem slot_is_activated : (effect (.fwActivate 0) ((host []).setSlot 1 ⟨none, some ⟨9, 3, []⟩⟩) 0x0803 [1]).fld SEC_BOOT.next = 1 ∧
    status (.fwActivate 0) (host []) 0x0803 [1] = [3] := by decide +kernel

/-! ### Sideband, pins, links and registers -/

def rescue (cmpl : Byte) : Rescue := ⟨cmpl, 0, 0, some true⟩
def asleep : State := inA 3
def addressing (a : Nat) : State := { z with link := { z.link with regAddr := BitVec.ofNat 32 a } }
theorem witness_SidebandReads : z.pins.vbrz = true ∧ z.flag THM_TRIP.latched = false ∧ (0x1C : Word).toNat % 4 = 0 ∧ asleep.pstate = 3 ∧
    asleep.pins.vbrz = true ∧ { asleep with link := { asleep.link with regAddr := 0x600010 } }.link.regAddr.toNat ∉ bronzeReads ∧
    asleep.link.regAddr.toNat ∈ bronzeReads ∧ z.pstate ≠ 3 ∧ asleep.pwr.wake = none ∧ (0x1E : Word).toNat % 4 ≠ 0 ∧
    (addressing FAB_PT_SER_LO.ser_lo.off).link.regAddr.toNat = FAB_PT_SER_LO.ser_lo.off ∧
    (addressing 0x240058).link.regAddr.toNat = 0x200058 + 0x10000 * (4 : TileId) ∧ z.link.regAddr.toNat ≠ FAB_PT_SER_LO.ser_lo.off ∧
    (∀ t : TileId, z.link.regAddr.toNat ≠ 0x200058 + 0x10000 * t) ∧ (run .standbyLoss z).pins.vbrz = false ∧
    (run .wakeMatch asleep).pwr.wake.isSome = true ∧ (asleep.setFlag THM_TRIP.latched true).flag THM_TRIP.latched = true ∧
    255 = { asleep with link := { asleep.link with pec := 255 } }.link.pec := by decide +kernel
theorem witness_RescueNeedsTheNonce : z.pins.vbrz = true ∧ (rescue 0xFE).pec = some true ∧ (rescue 0xFE).zeros = 0 ∧
    (rescue 0xFE).nonce = z.link.nonce ∧ { rescue 0xFE with nonce := 1 }.nonce ≠ z.link.nonce ∧ { rescue 0xFE with pec := none }.pec = none ∧
    z.flag THM_TRIP.latched = false ∧ z.pstate ≠ 3 ∧ ((clocked true 0).dom 1).run = true ∧ (asleep.setFld PWR_WAKE.code 5).fld PWR_WAKE.code ≠ 0 ∧
    (asleep.setFld PWR_WAKE.code 5).pstate ≠ 0 ∧ hot.flag THM_TRIP.latched = true ∧ asleep.flag PWR_STAT.mgmt = false ∧
    (asleep.setFlag PWR_STAT.mgmt true).flag PWR_STAT.mgmt = true ∧ ((clocked false 0).dom 1).run = false ∧ z.fld PWR_WAKE.code = 0 ∧
    (run .wakeMatch asleep).pwr.wake ≠ none ∧ { rescue 0xFE with zeros := 1 }.zeros ≠ 0 ∧ { rescue 0xFE with pec := some false }.pec = some false ∧
    (rescue 0xFD).cmpl = 0xFD ∧ (rescue 0xFA).cmpl = 0xFA ∧ (run .standbyLoss z).pins.vbrz = false ∧
    (asleep.setFld PWR_WAKE.code 5).pwr.wake = none := by decide +kernel
def pinsAt (p : Pins) : State := { z with pins := p }
def trains : State := { z.setRail 11 ⟨true, true, 0, 0⟩ with pins := z.pins }
theorem witness_PinsResetsAndLink : (pinsAt { z.pins with modReset := true }).pins.modReset = true ∧ z.pins.modReset = false ∧
    z.pins.vbrz = true ∧ z.pins.perst = true ∧ (pinsAt { z.pins with perst := false }).pins.perst = false ∧ trains.mayTrain = true ∧
    (trains.rail 11).on = true ∧ z.mayTrain = false ∧ (run .standbyLoss z).pins.vbrz = false ∧
    LinkErr.corrected ∈ [LinkErr.corrected, .unexpectedCompletion, .poisonedBar] := by decide +kernel
theorem witness_PairedWordsNeedBothWrites : isPaired 0x58 = true ∧ z.pairTakes 0x58 = true ∧ isPaired 0x200030 = true ∧
    z.pairTakes 0x200030 = false ∧ (z.setBayState 0 5).pairTakes 0x200030 = true ∧ isPaired 0x410014 = true ∧
    (z.setBayState 1 5).pairTakes 0x41000C = true ∧ (z.setBayState 1 5).pairTakes 0x410014 = true ∧ z.pairTakes 0x410014 = false ∧
    isPaired 0x41000C = true ∧ isPaired 0x3F0030 = true ∧ 0x3F0030 = 0x200030 + 0x10000 * (31 : TileId).val ∧
    ({ z with armed := [(0x58, some 900)] } : State).armedAt 0x58 = some (~~~(~~~(900 : Word))) ∧ z.armedAt 0x58 ≠ some (~~~(5 : Word)) := by
  decide +kernel
theorem witness_RegistersTakeWrites : aligned 2 4 = false ∧ aligned 4 8 = false ∧
    (0x20000 : BitVec 25).toNat % 8 = 0 ∧ 0x2FFFC / 0x10000 ∈ [2, 3, 6] ∧ regSpec 0x2FFFC = none ∧ 0x60004 / 0x10000 ∈ [2, 3, 6] ∧
    (regSpec 0x60004).isSome = true ∧ ((regSpec 0x60004).map (·.paired)) = some false ∧ pairedBelow 0x60004 = false ∧
    pairedBelow 0x5C = true ∧ pairedBelow 0 = false ∧ pairedBelow 0x2FFFC = false ∧ regSpec 0x17FFC = none ∧ regSpec 0x18400 = none := by decide +kernel
theorem witness_RegistersTakeWrites_lower : exec (.registerWrite 0x20000 4 0) z = .next (run (.registerWrite 0x20000 4 0) z) := rfl
/-- A state whose reset causes stand, and a step that keeps them; one that clears them by a write; the causes' own conditions. -/
theorem witness_ResetCausesAreKept : exec .functionLevelReset z = .next (run .functionLevelReset z) ∧
    (z.reg 0x4001C).getLsbD 7 = true ∧ ((run .functionLevelReset z).reg 0x4001C).getLsbD 7 = true ∧
    ((run (.registerWrite 0x4001C 4 0x80) z).reg 0x4001C).getLsbD 7 = false ∧
    (pinsAt { z.pins with modReset := true }).pins.modReset = true ∧ z.pins.vbrz = true ∧ (rescue 0xFC).pec = some true ∧
    (rescue 0xFC).zeros = 0 ∧ (rescue 0xFC).nonce = z.link.nonce ∧ z.flag THM_TRIP.latched = false ∧ ((clocked true 0).dom 1).run = true ∧
    free tagged 0x0803 [1] ∧ (tagged.slot 1).main.isSome = true ∧ 1 ≠ tagged.fld SEC_BOOT.run ∧ activated.fld SEC_BOOT.run ≠ 3 ∧
    z.pins.perst = true ∧ (held 100000).refGone = true :=
  ⟨rfl, by decide +kernel⟩
/-- A hand-over that sets SEC_BOOT.ver, and with step 3 done gives the trim release; a reset that clears it; the lock's release. -/
theorem witness_VerifiedImageOpensTheGuard : (let s := booting.setBitOf GLB_PUP.steps 3 true
    let u := run (.mainImageHandover 0 (image true) []) s
    s.flag SEC_BOOT.ver = false ∧ u.flag SEC_BOOT.ver = true ∧ s.flag GUARD_STAT.rel = false ∧ u.flag GUARD_STAT.rel = true ∧
    (run (.powerOnReset 0) u).flag SEC_BOOT.ver = false) ∧
    mayEmit.flag GUARD_STAT.elock = true ∧ (run .emissionLockRelease mayEmit).flag GUARD_STAT.elock = false := by decide +kernel
theorem witness_EveryCommandCompletes : (Instr.loopTick ⟨[], [], [], [], [], []⟩).wf = true ∧ SourceId.combs 8 ≤ 3 ∧ slotUsed 9 43 = false := by
  decide
/-- Memory is canonical in a state that holds some, and a step from it answers. -/
theorem witness_MemoryStaysCanonical : (moving xfer).memOk = true ∧
    step ({ moving xfer with pending := [.transferStart 33] } : State) = .next (run (.transferStart 33) (moving xfer)) :=
  ⟨by decide +kernel, rfl⟩
theorem witness_ResetIsAsTheTablesSay : step State.reset = .next { State.reset with core := 1 } := rfl
theorem witness_ComputingChangesOnlyItsParts : computeChanges (.gddr7SpanClear 7) = some [.gddr] ∧ Part.stage ∉ [Part.gddr] := by decide
theorem witness_PlantChangesOnlyItsParts : plantChanges (.gateClose 0 9) = some [.clk] ∧ Part.regs .clk ∉ [Part.clk] := by decide
theorem witness_OutsideChangesOnlyItsParts : outsideChanges .status = some [.link] ∧ Part.stage ∉ [Part.link] := by decide
/-- A command has at most one of the three footprints. -/
theorem footprints_do_not_overlap : (computeChanges .powerEntry).isNone ∧ (plantChanges .powerEntry).isNone ∧
    (outsideChanges .powerEntry).isNone ∧ (plantChanges .status).isNone ∧ (computeChanges .status).isNone := by decide

/-! Effects (R8 to R13, R342 to R349, R372 to R377, R393, R468 to R480). -/

theorem status_reads : (run .status asleep).link.sb.length = 8 ∧ (run .status asleep).link.sb.headD 0 = 3 := by decide +kernel
theorem ident_reads : (run .ident z).link.sb.length = 16 := by decide +kernel
theorem temps_in_a3 : (run .temps asleep).link.sb = [0, 0x80, 0, 0x80, 0, 0x80, 0, 0x80] := by decide +kernel
theorem power_in_a3 : (run .power asleep).link.sb = [0, 0x80, 0, 0x80] := by decide +kernel
theorem last_fault_reads : (run .faultRead z).link.sb = List.replicate 32 0 := by decide +kernel
theorem register_address : (run (.regAddr 0x1C (some true)) z).link.regAddr = 0x1C ∧ (run (.regAddr 0x1C (some false)) z).link.pec = 1 := by
  decide +kernel
theorem register_data : (run .regData z).link.sb = [0x11, 0xA3, 0x08, 0x32] := by decide +kernel
theorem nonce_reads : (run .nonceRead z).link.sb = [0, 0, 0, 0] := by decide +kernel
theorem rescue_flushes : (run (.rescueFlush (rescue 0xFE)) (host [9])).cmd.window = [] := by decide +kernel
theorem rescue_without_pec : run (.rescueFlush { rescue 0xFE with pec := none }) (host [9]) = host [9] := by decide +kernel
theorem rescue_recovers : (run (.rescueRecoveryImage (rescue 0xFB)) (clocked true 0)).sec.pendingBoot = some 2 := by decide +kernel
theorem rescue_wakes : (run (.rescueRetryWake (rescue 0xFA)) (asleep.setFld PWR_WAKE.code 5)).pwr.wake.isSome = true := by decide +kernel
theorem match_wakes : (run .wakeMatch asleep).pwr.wake.isSome = true := by decide +kernel
theorem power_good_samples : (run (.powerGood true 9) z).flag GLB_STRAP.compat = true ∧ (run (.powerGood true 9) z).fld FAB_PID.id = 9 := by
  decide +kernel
theorem power_on_keeps_nothing : (run (.powerOnReset 3) (moving xfer)).stage.bytes = [] ∧ (run (.powerOnReset 3) z).fld GLB_PUP.sba = 3 := by
  decide +kernel
theorem standby_is_lost : (run .standbyLoss z).pins.vbrz = false := by decide +kernel
theorem vret_is_lost : (run .vretLoss (z.writeBytes 0x16FFFFFF [1, 2])).stageBytesAt 0x16FFFFFF 2 = [1, 0] := by decide +kernel
theorem perst_takes_the_link_down : (run .perstNAssert (host [9])).link.up = false ∧ (run .perstNAssert (host [9])).cmd.window = [] := by
  decide +kernel
theorem perst_rises : (run .perstNRelease (pinsAt { z.pins with perst := false })).pins.perst = true := by decide +kernel
theorem link_trains : (run (.linkRetry true 4 6) trains).link.up = true ∧ (run (.linkRetry true 4 6) z).link.up = false := by decide +kernel
theorem function_resets : (run .functionLevelReset (host [9])).flag CLK_RST_CAUSE.flr = true ∧
    (run .functionLevelReset (host [9])).flag CMD_CTL.en = false := by decide +kernel
theorem fatal_error : (run (.linkError .fatal) (host [9])).link.up = false := by decide +kernel
theorem configuration_retries : (run .configurationRequest z).link.cpl = 2 ∧ (run .configurationRequest { z with tick := 120000 }).link.cpl = 0 := by
  decide +kernel
theorem refclk_stops : (run (.pcieRefclkStable false) (host [])).link.up = false := by decide +kernel
theorem value_word_arms : (run (.pairedValueWrite 0x58 900) z).armedAt 0x58 = some 900 ∧ (run (.pairedValueWrite 0x58 900) z).fld GLB_ADM_PLIM.watts =
    z.fld GLB_ADM_PLIM.watts := by decide +kernel
theorem complement_word_commits : (run (.pairedComplementWrite 0x5C (~~~900)) { z with armed := [(0x58, some 900)] }).fld GLB_ADM_PLIM.watts = 900 ∧
    (run (.pairedComplementWrite 0x5C 5) { z with armed := [(0x58, some 900)] }).armedAt 0x58 = none := by decide +kernel
theorem register_is_written : (run (.registerWrite 0x60004 4 77) z).fld THM_SEL.sensor = 77 ∧ (run (.registerWrite 0x60002 4 77) z).link.cpl = 1 := by
  decide +kernel
theorem serial_latches : (run .serialRead known).link.read = [99, 0, 0, 0] := by decide +kernel

end Sys2Proof.Tests
end

section
/-! SUPPORT. The registers of BAR0: which are paired, how their fields take a write, which writes do more, and what arming and closing a
pair does (R8 to R13, R482 to R486). -/

namespace Sys2Proof.Machine

/-! ### The register tables (R7 to R10, R482) -/

/-- The fields of a register lie inside its word, and no two of them share a bit. -/
def RegSpec.FieldsApart (r : RegSpec) : Prop :=
  (∀ f ∈ r.fields, f.lo ≤ f.hi ∧ f.hi < 32) ∧ r.fields.Pairwise fun f g => g.hi < f.lo ∨ f.hi < g.lo

/-- The fields of every register of GUARD, SEC and THM lie apart. -/
theorem fieldsApart_of_mem : ∀ r ∈ regsGUARD ++ regsSEC ++ regsTHM, r.FieldsApart := by
  unfold RegSpec.FieldsApart
  decide

theorem blockOf_snd (off : Nat) : (blockOf off).2 = off % 0x10000 := by
  unfold blockOf
  extract_lets b o
  simp only [apply_ite Prod.snd, ite_self, o]

/-- A listed register stands in its block's table at its offset in the block. -/
theorem mem_of_regSpec {off : Nat} {r : RegSpec} (h : regSpec off = some r) :
    r ∈ (blockOf off).1 ∧ r.off = off % 0x10000 :=
  ⟨List.mem_of_find?_eq_some h, by simpa [blockOf_snd] using List.find?_some h⟩

theorem fieldsApart_of_regSpec {off : Nat} {r : RegSpec} (b : off / 0x10000 ∈ [2, 3, 6]) (h : regSpec off = some r) :
    r.FieldsApart := by
  obtain ⟨m, -⟩ := mem_of_regSpec h
  unfold blockOf at m
  simp only [List.mem_cons, List.not_mem_nil, or_false] at b
  apply fieldsApart_of_mem
  rcases b with b | b | b <;> rw [b] at m <;> simp only [List.mem_append]
  · exact .inl (.inl m)
  · exact .inl (.inr m)
  · exact .inr m

/-- The offsets in their block of the paired registers of a table. -/
def pairedOffs (l : List RegSpec) : List Nat := (l.filter (·.paired)).map (·.off)

theorem mem_pairedOffs_of_isPaired {off : Nat} (h : isPaired off = true) : off % 0x10000 ∈ pairedOffs (blockOf off).1 := by
  unfold isPaired at h
  split at h
  · next r e =>
    obtain ⟨m, o⟩ := mem_of_regSpec e
    exact List.mem_map.2 ⟨r, List.mem_filter.2 ⟨m, h⟩, o⟩
  · exact absurd h Bool.false_ne_true

/-- The offsets of the paired registers' value words, by register. -/
inductive PairedReg : Nat → Prop
  | admLimit : PairedReg 0x58
  | guardLimit : PairedReg 0x2000C
  | tileScale (t : Nat) (h : t < 32) : PairedReg (0x200030 + 0x10000 * t)
  | loopTarget (e : Nat) (h : e < 10) : PairedReg (0x40000C + 0x10000 * e)
  | loopProf (e : Nat) (h : e < 10) : PairedReg (0x400014 + 0x10000 * e)

theorem pairedReg_of_isPaired {off : Nat} (h : isPaired off = true) : PairedReg off := by
  have m := mem_pairedOffs_of_isPaired h
  revert m
  unfold blockOf
  extract_lets b o
  have place : off = 0x10000 * b + o := by omega
  have block : ∀ {c : Prop} [Decidable c] {x y : List RegSpec × Nat}, (c → o ∈ pairedOffs x.1 → PairedReg off) →
      (¬c → o ∈ pairedOffs y.1 → PairedReg off) → o ∈ pairedOffs (if c then x else y).1 → PairedReg off :=
    fun p q => iteInduction (motive := fun x : List RegSpec × Nat => o ∈ pairedOffs x.1 → PairedReg off) p q
  have unpaired : o ∈ ([] : List Nat) → PairedReg off := fun m => absurd m List.not_mem_nil
  refine block (fun k (m : o ∈ [0x58]) => ?glb) fun _ => ?_
  case glb => exact (show off = 0x58 by have := List.mem_singleton.1 m; omega) ▸ .admLimit
  refine block (fun _ => unpaired) fun _ => ?_
  refine block (fun k (m : o ∈ [0xC]) => ?guard) fun _ => ?_
  case guard => exact (show off = 0x2000C by have := List.mem_singleton.1 m; omega) ▸ .guardLimit
  iterate 7 refine block (fun _ => unpaired) fun _ => ?_
  refine block (fun k (m : o ∈ [0x30]) => ?tile) fun _ => ?_
  case tile =>
    rw [show off = 0x200030 + 0x10000 * (b - 0x20) by have := List.mem_singleton.1 m; omega]
    exact .tileScale _ (by omega)
  refine block (fun k (m : o ∈ [0xC, 0x14]) => ?loop) fun _ => ?_
  case loop =>
    rcases List.mem_pair.1 m with m | m
    · rw [show off = 0x40000C + 0x10000 * (b - 0x40) by omega]
      exact .loopTarget _ (by omega)
    · rw [show off = 0x400014 + 0x10000 * (b - 0x40) by omega]
      exact .loopProf _ (by omega)
  refine block (fun _ m => unpaired ?fab) fun _ => ?_
  case fab =>
    revert m
    exact iteInduction (motive := fun l => o ∈ pairedOffs l → o ∈ []) (fun _ => id) fun _ => id
  iterate 2 refine block (fun _ => unpaired) fun _ => ?_
  exact unpaired

theorem PairedReg.lt {off : Nat} (h : PairedReg off) : off + 4 < 2 ^ 25 := by cases h <;> omega

/-- Where a paired register's value word lies in its block. -/
theorem PairedReg.place {off : Nat} (h : PairedReg off) : off % 0x10000 ∈ [0xC, 0x14, 0x30, 0x58] := by
  cases h <;> simp [Nat.add_mul_mod_self_left]

theorem pairedBelow_eq (off : Nat) : pairedBelow off = (decide (4 ≤ off) && isPaired (off - 4)) := rfl

theorem pairedBelow_add_four (off : Nat) : pairedBelow (off + 4) = isPaired off := by
  simp [pairedBelow_eq]

/-- No value word stands where a complement word does. -/
theorem pairedBelow_of_isPaired {off : Nat} (h : isPaired off = true) : pairedBelow off = false := by
  by_contra k
  rw [Bool.not_eq_false, pairedBelow_eq, Bool.and_eq_true, decide_eq_true_iff] at k
  have value := (pairedReg_of_isPaired h).place
  have below := (pairedReg_of_isPaired k.2).place
  simp only [List.mem_cons, List.not_mem_nil, or_false] at value below
  omega

/-- The complement word of a paired register lies at the next word. -/
theorem toNat_add_four {off : BitVec 25} (h : isPaired off.toNat = true) : (off + 4).toNat = off.toNat + 4 := by
  rw [BitVec.toNat_add]
  exact Nat.mod_eq_of_lt (pairedReg_of_isPaired h).lt

/-! ### Writes by the access codes (R9, R486) -/

/-- A field's value after a write of `n` to it, by its access code. -/
def RegField.takes (f : RegField) (old n : Nat) : Nat :=
  match f.acc with
  | .rw => n
  | .w1c => old - (old &&& n)
  | .cnt => if n = 0 then 0 else old
  | .ro | .wo | .rwp => old

theorem bits_lt (n hi lo : Nat) : bits n hi lo < 2 ^ (hi - lo + 1) := Nat.mod_lt _ (Nat.two_pow_pos _)

theorem State.fld_lt (s : State) (g : Fld) : s.fld g < 2 ^ (g.hi - g.lo + 1) := bits_lt _ _ _

theorem State.fld_writeField_same (s : State) (off : Nat) (v : Word) (f : RegField) (h : f.lo ≤ f.hi) (k : f.hi < 32) :
    (State.writeField off v s f).fld ⟨off, f.hi, f.lo⟩ = f.takes (s.fld ⟨off, f.hi, f.lo⟩) (bits v.toNat f.hi f.lo) := by
  have stored : ∀ n, n < 2 ^ (f.hi - f.lo + 1) → (s.setFld ⟨off, f.hi, f.lo⟩ n).fld ⟨off, f.hi, f.lo⟩ = n :=
    fun n l => (State.fld_setFld_same s ⟨off, f.hi, f.lo⟩ n h k).trans (Nat.mod_eq_of_lt l)
  have old := s.fld_lt ⟨off, f.hi, f.lo⟩
  unfold State.writeField RegField.takes
  cases f.acc with
  | rw => exact stored _ (bits_lt _ _ _)
  | w1c => exact stored _ (Nat.lt_of_le_of_lt (Nat.sub_le _ _) old)
  | cnt =>
    dsimp only
    split
    · exact stored 0 (Nat.two_pow_pos _)
    · rfl
  | ro => rfl
  | wo => rfl
  | rwp => rfl

theorem State.fld_writeField_apart (s : State) (off : Nat) (v : Word) (f g : RegField) (h : f.lo ≤ f.hi) (k : f.hi < 32)
    (h' : g.lo ≤ g.hi) (d : g.hi < f.lo ∨ f.hi < g.lo) :
    (State.writeField off v s f).fld ⟨off, g.hi, g.lo⟩ = s.fld ⟨off, g.hi, g.lo⟩ := by
  have kept : ∀ n, (s.setFld ⟨off, f.hi, f.lo⟩ n).fld ⟨off, g.hi, g.lo⟩ = s.fld ⟨off, g.hi, g.lo⟩ :=
    fun n => State.fld_setFld_beside s ⟨off, f.hi, f.lo⟩ ⟨off, g.hi, g.lo⟩ n rfl h k h' d
  unfold State.writeField
  cases f.acc with
  | rw => exact kept _
  | w1c => exact kept _
  | cnt =>
    dsimp only
    split
    · exact kept 0
    · rfl
  | ro => rfl
  | wo => rfl
  | rwp => rfl

/-- A field apart from all that are written keeps its value. -/
theorem State.fld_foldl_writeField_apart (off : Nat) (v : Word) (l : List RegField) (s : State) (g : RegField) (h' : g.lo ≤ g.hi)
    (h : ∀ f ∈ l, (f.lo ≤ f.hi ∧ f.hi < 32) ∧ (g.hi < f.lo ∨ f.hi < g.lo)) :
    (l.foldl (State.writeField off v) s).fld ⟨off, g.hi, g.lo⟩ = s.fld ⟨off, g.hi, g.lo⟩ := by
  induction l generalizing s with
  | nil => rfl
  | cons x l ih =>
    obtain ⟨⟨⟨lo, hi⟩, d⟩, rest⟩ := List.forall_mem_cons.1 h
    rw [List.foldl_cons, ih _ rest, State.fld_writeField_apart s off v x g lo hi h' d]

/-- Fields that lie apart take a write each by its own code. -/
theorem State.fld_foldl_writeField (off : Nat) (v : Word) (l : List RegField) (s : State)
    (inside : ∀ f ∈ l, f.lo ≤ f.hi ∧ f.hi < 32) (apart : l.Pairwise fun f g => g.hi < f.lo ∨ f.hi < g.lo) (f : RegField) (m : f ∈ l) :
    (l.foldl (State.writeField off v) s).fld ⟨off, f.hi, f.lo⟩ =
      f.takes (s.fld ⟨off, f.hi, f.lo⟩) (bits v.toNat f.hi f.lo) := by
  induction l generalizing s with
  | nil => exact absurd m List.not_mem_nil
  | cons x l ih =>
    obtain ⟨first, rest⟩ := List.pairwise_cons.1 apart
    obtain ⟨inX, inL⟩ := List.forall_mem_cons.1 inside
    rw [List.foldl_cons]
    rcases List.mem_cons.1 m with rfl | m
    · rw [← State.fld_writeField_same s off v f inX.1 inX.2]
      exact State.fld_foldl_writeField_apart off v l _ f inX.1 fun g k => ⟨inL g k, (first g k).symm⟩
    · rw [ih _ inL rest m, State.fld_writeField_apart s off v x f inX.1 inX.2 (inL f m).1 (first f m)]

theorem State.rawWrite_of_regSpec (s : State) {off : Nat} {r : RegSpec} (v : Word) (h : regSpec off = some r) :
    s.rawWrite off v = r.fields.foldl (State.writeField off v) s := by
  unfold State.rawWrite
  rw [h]

theorem State.rawWrite_unlisted (s : State) {off : Nat} (v : Word) (h : regSpec off = none) : s.rawWrite off v = s := by
  unfold State.rawWrite
  rw [h]

theorem State.fld_rawWrite (s : State) {off : Nat} {r : RegSpec} (v : Word) (h : regSpec off = some r) (apart : r.FieldsApart)
    (f : RegField) (m : f ∈ r.fields) :
    (s.rawWrite off v).fld ⟨off, f.hi, f.lo⟩ = f.takes (s.fld ⟨off, f.hi, f.lo⟩) (bits v.toNat f.hi f.lo) := by
  rw [s.rawWrite_of_regSpec v h]
  exact State.fld_foldl_writeField off v r.fields s apart.1 apart.2 f m

/-! ### Registers whose writes do more than their access codes say -/

/-- Blocks, from the first up to the last one excluded, with the offsets whose writes do more than the access codes say. -/
def actingRows : List (Nat × Nat × List Nat) :=
  [(0, 1, [0x4C, 0x54, 0x80]), (1, 2, [4, 0x10, 0x14, 0x18, 0x24]), (4, 5, [0xC, 0x14]), (5, 6, [4, 0xC]), (7, 8, [8]),
   (8, 9, [0x1C, 0x20, 0x24]), (0x10, 0x18, [0, 0x24]), (0x20, 0x40, [0, 0x10, 0x38, 0x54]),
   (0x40, 0x4A, [4, 8, 0x2C, 0x30, 0x34, 0x38, 0x3C, 0x40, 0x44, 0x48, 0x4C, 0x54, 0x58]), (0x50, 0x60, [4]), (0x60, 0x61, [0x1C]),
   (0x70, 0x71, [0xC])]

/-- A write of the offset does more than the access codes say. -/
def ActsAt (off : Nat) : Prop :=
  ∃ q ∈ actingRows, q.1 ≤ off / 0x10000 ∧ off / 0x10000 < q.2.1 ∧ off % 0x10000 ∈ q.2.2

theorem actingRows_listed : ∀ q ∈ actingRows, ∀ b ∈ List.range' q.1 (q.2.1 - q.1), ∀ o ∈ q.2.2, (regSpec (0x10000 * b + o)).isSome := by
  decide +kernel

theorem not_actsAt_of_unlisted {off : Nat} (h : regSpec off = none) : ¬ ActsAt off := by
  rintro ⟨q, m, lo, hi, o⟩
  have listed := actingRows_listed q m (off / 0x10000) (List.mem_range'_1.2 ⟨lo, by omega⟩) _ o
  rw [Nat.div_add_mod, h] at listed
  exact Bool.false_ne_true listed

/-- Every write in GUARD, SEC and THM does what the access codes say. -/
theorem not_actsAt_of_block {off : Nat} (b : off / 0x10000 ∈ [2, 3, 6]) : ¬ ActsAt off := by
  have apart : ∀ q ∈ actingRows, ∀ b ∈ [2, 3, 6], ¬ (q.1 ≤ b ∧ b < q.2.1) := by decide
  rintro ⟨q, m, lo, hi, -⟩
  exact apart q m _ b ⟨lo, hi⟩

section
variable (s : State) {off o : Nat} (v : Word)

theorem State.writeGLB_plain (e : o = off) (h : o ∉ [0x4C, 0x54, 0x80]) : s.writeGLB o v = s.rawWrite off v := by
  subst e
  simp only [List.mem_cons, List.not_mem_nil, or_false, not_or] at h
  obtain ⟨h1, h2, h3⟩ := h
  simp [State.writeGLB, GLB_PROM_STAT.misses, GLB_PROM_WORST.w_ns, GLB_PEP_CNT.count, h1, h2, h3]

theorem State.writeCMD_plain (e : 0x10000 + o = off) (h : o ∉ [4, 0x10, 0x14, 0x18, 0x24]) (k : o < 0x8000 ∨ 0x8400 ≤ o) :
    s.writeCMD o v = s.rawWrite off v := by
  subst e
  have table : ¬ (0x8000 ≤ o ∧ o < 0x8400) := by omega
  simp_all [State.writeCMD]

theorem State.writeCLK_plain (e : 0x40000 + o = off) (h : o ∉ [0xC, 0x14]) : s.writeCLK o v = s.rawWrite off v := by
  subst e
  simp_all [State.writeCLK]

theorem State.writePWR_plain (e : 0x50000 + o = off) (h : o ∉ [4, 0xC]) : s.writePWR o v = s.rawWrite off v := by
  subst e
  simp_all [State.writePWR]

theorem State.writeLSA_plain (e : 0x70000 + o = off) (h : o ∉ [8]) : s.writeLSA o v = s.rawWrite off v := by
  subst e
  simp_all [State.writeLSA]

theorem State.writeTRIM_plain (e : 0x80000 + o = off) (h : o ∉ [0x1C, 0x20, 0x24]) : s.writeTRIM o v = s.rawWrite off v := by
  subst e
  simp_all [State.writeTRIM]

theorem State.writeBAY_plain (b : Nat) (e : 0x100000 + 0x10000 * b + o = off) (h : o ∉ [0, 0x24]) :
    s.writeBAY b o v = s.rawWrite off v := by
  subst e
  simp_all [State.writeBAY]

theorem State.writeTILE_plain (t : Nat) (e : 0x200000 + 0x10000 * t + o = off) (h : o ∉ [0, 0x10, 0x38, 0x54]) :
    s.writeTILE t o v = s.rawWrite off v := by
  subst e
  simp_all [State.writeTILE]

theorem State.writeLOOP_plain (g : Nat) (e : 0x400000 + 0x10000 * g + o = off) (a : o % 4 = 0)
    (h : o ∉ [4, 8, 0x2C, 0x30, 0x34, 0x38, 0x3C, 0x40, 0x44, 0x48, 0x4C, 0x54, 0x58]) :
    s.writeLOOP g o v = s.rawWrite off v := by
  subst e
  simp only [List.mem_cons, List.not_mem_nil, or_false, not_or] at h
  have record : ¬ (0x30 ≤ o ∧ o ≤ 0x4C) := by omega
  simp [State.writeLOOP, record, h]

theorem State.writeFAB_plain (p : Nat) (e : 0x500000 + 0x10000 * p + o = off) (h : o ∉ [4]) :
    s.writeFAB p o v = s.rawWrite off v := by
  subst e
  simp_all [State.writeFAB]

theorem State.writeMEM_plain (e : 0x600000 + o = off) (h : o ∉ [0x1C]) : s.writeMEM o v = s.rawWrite off v := by
  subst e
  simp_all [State.writeMEM]

theorem State.writeSTRM_plain (e : 0x700000 + o = off) (h : o ∉ [0xC]) : s.writeSTRM o v = s.rawWrite off v := by
  subst e
  simp_all [State.writeSTRM]

/-- Away from the acting registers, the paired registers and the MSI-X table, a write does what the access codes say. -/
theorem State.writeWord_eq_rawWrite (a : off % 4 = 0) (value : isPaired off = false) (cmpl : pairedBelow off = false)
    (plain : ¬ ActsAt off) (msix : off < 0x18000 ∨ 0x18400 ≤ off) : s.writeWord off v = s.rawWrite off v := by
  unfold State.writeWord
  extract_lets b o
  have place : off = 0x10000 * b + o := by omega
  have outside : ∀ lo hi l, (lo, hi, l) ∈ actingRows → lo ≤ b → b < hi → o ∉ l :=
    fun lo hi l m x y z => plain ⟨(lo, hi, l), m, x, y, z⟩
  rw [value, cmpl, if_neg Bool.false_ne_true, if_neg Bool.false_ne_true]
  have block : ∀ {c : Prop} [Decidable c] {x y : State}, (c → x = s.rawWrite off v) → (¬c → y = s.rawWrite off v) →
      (if c then x else y) = s.rawWrite off v := fun p q => iteInduction (motive := (· = s.rawWrite off v)) p q
  refine block (fun h => s.writeGLB_plain v (by omega) (outside 0 1 _ (by decide) (by omega) (by omega))) fun _ => ?_
  refine block (fun h => s.writeCMD_plain v (by omega) (outside 1 2 _ (by decide) (by omega) (by omega)) (by omega)) fun _ => ?_
  refine block (fun h => s.writeCLK_plain v (by omega) (outside 4 5 _ (by decide) (by omega) (by omega))) fun _ => ?_
  refine block (fun h => s.writePWR_plain v (by omega) (outside 5 6 _ (by decide) (by omega) (by omega))) fun _ => ?_
  refine block (fun h => s.writeLSA_plain v (by omega) (outside 7 8 _ (by decide) (by omega) (by omega))) fun _ => ?_
  refine block (fun h => s.writeTRIM_plain v (by omega) (outside 8 9 _ (by decide) (by omega) (by omega))) fun _ => ?_
  refine block (fun h => s.writeBAY_plain v _ (by omega) (outside 0x10 0x18 _ (by decide) h.1 h.2)) fun _ => ?_
  refine block (fun h => s.writeTILE_plain v _ (by omega) (outside 0x20 0x40 _ (by decide) h.1 h.2)) fun _ => ?_
  refine block (fun h => s.writeLOOP_plain v _ (by omega) (by omega) (outside 0x40 0x4A _ (by decide) h.1 h.2)) fun _ => ?_
  refine block (fun h => s.writeFAB_plain v _ (by omega) (outside 0x50 0x60 _ (by decide) h.1 h.2)) fun _ => ?_
  refine block (fun h => s.writeMEM_plain v (by omega) (outside 0x60 0x61 _ (by decide) (by omega) (by omega))) fun _ => ?_
  refine block (fun h => s.writeSTRM_plain v (by omega) (outside 0x70 0x71 _ (by decide) (by omega) (by omega))) fun _ => ?_
  rfl

end

/-! ### Writes to BAR0 (R12, R344) -/

theorem exec_registerWrite (s : State) (off : BitVec 25) (w : Nat) (x : BitVec 64) :
    exec (.registerWrite off w x) s = .next (s.writeBar0 off.toNat w x) := rfl

theorem State.writeBar0_unaligned (s : State) {off w : Nat} (x : BitVec 64) (h : aligned off w = false) :
    s.writeBar0 off w x = s.unsupported := by
  unfold State.writeBar0
  rw [h, Bool.not_false, if_pos rfl]

theorem State.writeBar0_four (s : State) {off : Nat} (x : BitVec 64) (h : off % 4 = 0) :
    s.writeBar0 off 4 x = s.writeWord off (x.setWidth 32) := by
  simp [State.writeBar0, aligned, h]

/-- Eight bytes act as the lower word and then the upper (R12). -/
theorem State.writeBar0_eight (s : State) {off : Nat} (x : BitVec 64) (h : off % 8 = 0) :
    s.writeBar0 off 8 x = (s.writeBar0 off 4 x).writeBar0 (off + 4) 4 (x >>> 32) := by
  have upper : x.extractLsb' 32 32 = (x >>> 32).setWidth 32 := rfl
  rw [s.writeBar0_four x (by omega), State.writeBar0_four _ _ (by omega), ← upper]
  simp [State.writeBar0, aligned, h]

/-- A 4-byte write at a place whose writes do what the access codes say. -/
theorem State.writeBar0_plain (s : State) {off : Nat} (x : BitVec 64) (a : off % 4 = 0) (value : isPaired off = false)
    (cmpl : pairedBelow off = false) (plain : ¬ ActsAt off) (msix : off < 0x18000 ∨ 0x18400 ≤ off) :
    s.writeBar0 off 4 x = s.rawWrite off (x.setWidth 32) := by
  rw [s.writeBar0_four x a, s.writeWord_eq_rawWrite _ a value cmpl plain msix]

theorem isPaired_of_regSpec {off : Nat} {r : RegSpec} (h : regSpec off = some r) : isPaired off = r.paired := by
  unfold isPaired
  rw [h]

theorem isPaired_unlisted {off : Nat} (h : regSpec off = none) : isPaired off = false := by
  unfold isPaired
  rw [h]

theorem State.closePair_unpaired (s : State) {off : Nat} (c : Word) (h : isPaired off = false) : s.closePair off c = s := by
  unfold State.closePair
  rw [h, Bool.false_and, if_neg Bool.false_ne_true]

/-- A complement word that is none of a paired register's does nothing. -/
theorem exec_pairedComplementWrite_unpaired (s : State) (off : BitVec 25) (c : Word) (h : pairedBelow off.toNat = false) :
    exec (.pairedComplementWrite off c) s = .next s := by
  refine congrArg Host.Outcome.next (ite_eq_right_iff.2 fun k => s.closePair_unpaired c ?_)
  simpa [pairedBelow_eq, k] using h

/-! ### The serial of a partner (R329) -/

/-- The bytes of a number are those of its remainder. -/
theorem leBytes_mod (n v : Nat) : leBytes n (v % 256 ^ n) = leBytes n v := by
  induction n generalizing v with
  | zero => rfl
  | succ n ih =>
    have high : v % 256 ^ (n + 1) / 256 = v / 256 % 256 ^ n := by rw [pow_succ', Nat.mod_mul_right_div_self]
    have byte : BitVec.ofNat 8 (v % 256 ^ (n + 1)) = BitVec.ofNat 8 v := BitVec.eq_of_toNat_eq (by simp)
    unfold leBytes
    rw [byte, high, ih]

theorem State.serialRead_read (s : State) : s.serialRead.link.read = leBytes 4 (s.entryShown.serial.toNat % 2 ^ 32) :=
  (leBytes_mod 4 _).symm

theorem State.serialRead_latches (s : State) :
    s.serialRead.reg FAB_PT_SER_HI.ser_hi.off = s.entryShown.serial.extractLsb' 32 32 :=
  State.reg_setReg_same s _ _

/-! ### What a read of a paired register shows (R13) -/

theorem State.readReg_paired (s : State) {off : Nat} (h : isPaired off = true) : s.readReg off = s.viewReg off := by
  unfold State.readReg
  rw [pairedBelow_of_isPaired h, if_neg Bool.false_ne_true]

theorem State.readReg_complement (s : State) {off : Nat} (h : isPaired off = true) : s.readReg (off + 4) = ~~~s.viewReg off := by
  unfold State.readReg
  rw [pairedBelow_add_four, h, if_pos rfl, Nat.add_sub_cancel]

theorem State.viewReg_tile (s : State) {t o : Nat} (h : t < 32) (k : o < 0x10000) :
    s.viewReg (0x200000 + 0x10000 * t + o) = s.viewTILE t o := by
  unfold State.viewReg
  extract_lets b p
  have hb : b = 0x20 + t := by omega
  have hp : p = o := by omega
  clear_value b p
  subst hb hp
  iterate 10 rw [if_neg (by omega)]
  rw [if_pos (by omega), Nat.add_sub_cancel_left]

theorem State.viewReg_loop (s : State) {e o : Nat} (h : e < 10) (k : o < 0x10000) :
    s.viewReg (0x400000 + 0x10000 * e + o) = s.viewLOOP e o := by
  unfold State.viewReg
  extract_lets b p
  have hb : b = 0x40 + e := by omega
  have hp : p = o := by omega
  clear_value b p
  subst hb hp
  iterate 11 rw [if_neg (by omega)]
  rw [if_pos (by omega), Nat.add_sub_cancel_left]

/-- The loop of an engine that LOOP_SEL selects. -/
def State.selected (s : State) (e : Nat) : Loop := s.loopOf e (s.fld (LOOP_SEL.loop.on e))

/-- The active target of a loop: the manual one in manual mode. -/
def Loop.activeTarget (L : Loop) : BitVec 24 := if L.mode = .manual then L.mtgt else L.target

/-- LOOP_SETPT of a loop. -/
def Loop.setptWord (L : Loop) : Word := putAll 0 [(LOOP_SETPT.clp, L.clp.toNat), (LOOP_SETPT.tgt, L.activeTarget.toNat)]

theorem Loop.setptWord_target (L : Loop) : bits L.setptWord.toNat 23 0 = L.activeTarget.toNat :=
  (bits_putBits_same _ 23 0 _ (by decide) (by decide)).trans (Nat.mod_eq_of_lt L.activeTarget.isLt)

theorem State.viewReg_admLimit (s : State) : s.viewReg 0x58 = s.reg 0x58 := rfl

theorem State.viewReg_guardLimit (s : State) : s.viewReg 0x2000C = (s.guardPair (s.fld GUARD_LIM_SEL.idx)).val := rfl

theorem State.viewReg_tileScale (s : State) {t : Nat} (h : t < 32) :
    s.viewReg (0x200030 + 0x10000 * t) = s.reg (0x200030 + 0x10000 * t) := by
  rw [show 0x200030 + 0x10000 * t = 0x200000 + 0x10000 * t + 0x30 by omega]
  exact s.viewReg_tile h (by decide)

theorem State.viewReg_loopTarget (s : State) {e : Nat} (h : e < 10) : s.viewReg (0x40000C + 0x10000 * e) = (s.selected e).setptWord := by
  rw [show 0x40000C + 0x10000 * e = 0x400000 + 0x10000 * e + 0xC by omega]
  exact s.viewReg_loop h (by decide)

theorem State.viewReg_loopProf (s : State) {e : Nat} (h : e < 10) : s.viewReg (0x400014 + 0x10000 * e) = (s.selected e).prof := by
  rw [show 0x400014 + 0x10000 * e = 0x400000 + 0x10000 * e + 0x14 by omega]
  exact s.viewReg_loop h (by decide)

/-- What a paired register shows depends on the engines, the Guard's limits and the registers other than GLB_FLT_PTR. -/
theorem PairedReg.viewReg_congr {off : Nat} (h : PairedReg off) {s u : State} (engines : u.engines = s.engines) (sec : u.sec = s.sec)
    (regs : ∀ o, o ≠ 0x70 → u.reg o = s.reg o) : u.viewReg off = s.viewReg off := by
  have fld : ∀ f : Fld, f.off ≠ 0x70 → u.fld f = s.fld f := fun f o => congrArg (fun w : Word => bits w.toNat f.hi f.lo) (regs f.off o)
  have selected : ∀ e, u.selected e = s.selected e := fun e => by
    have sel : (LOOP_SEL.loop.on e).off ≠ 0x70 := by simp only [Fld.on, LOOP_SEL.loop]; omega
    rw [State.selected, State.loopOf, State.engine, engines, fld _ sel]
    rfl
  cases h with
  | admLimit => exact regs 0x58 (by decide)
  | guardLimit =>
    rw [State.viewReg_guardLimit, State.viewReg_guardLimit, fld _ (by decide), State.guardPair, sec]
    rfl
  | tileScale t h => rw [State.viewReg_tileScale _ h, State.viewReg_tileScale _ h, regs _ (by omega)]
  | loopTarget e h => rw [State.viewReg_loopTarget _ h, State.viewReg_loopTarget _ h, selected]
  | loopProf e h => rw [State.viewReg_loopProf _ h, State.viewReg_loopProf _ h, selected]

/-! ### Arming, committing and discarding (R10, R11, R485) -/

theorem State.armedAt_disarm (s : State) (off : Nat) : (s.disarm off).armedAt off = none := Tab.get_set_same _ _ off none

theorem State.commitPair_armed (s : State) (off : Nat) (v : Word) : (s.commitPair off v).armed = s.armed := by
  unfold State.commitPair
  extract_lets b e l L
  split_ifs <;> rfl

/-- The admission limit takes at most 1,400 W (R234). -/
theorem State.commitPair_admLimit (s : State) (v : Word) :
    (s.commitPair 0x58 v).fld GLB_ADM_PLIM.watts = min (v.toNat % 2048) 1400 := by
  have field : bits v.toNat 10 0 = v.toNat % 2048 := by simp [bits]
  have stored := s.fld_setFld_same GLB_ADM_PLIM.watts (min (bits v.toNat 10 0) 1400) (by decide) (by decide)
  rw [field, Nat.mod_eq_of_lt (Nat.lt_of_le_of_lt (Nat.min_le_right _ _) (by decide))] at stored
  rw [← stored, ← field]
  rfl

theorem State.commitPair_tileScale (s : State) (v : Word) {t : Nat} (h : t < 32) :
    (s.commitPair (0x200030 + 0x10000 * t) v).reg (0x200030 + 0x10000 * t) = v &&& 0xFF00FFFF := by
  unfold State.commitPair
  extract_lets b
  rw [if_neg (by simp only [GLB_ADM_PLIM.watts]; omega), if_pos (by omega), State.reg, State.modTile_regs]
  exact State.reg_setReg_same s _ _

/-- A commit to LOOP_SETPT goes to the target of the selected loop. -/
theorem State.commitPair_loopTarget (s : State) (v : Word) (e : Nat) :
    s.commitPair (0x40000C + 0x10000 * e) v = s.setLoop e (s.fld (LOOP_SEL.loop.on e))
      ((s.selected e).setTarget (s.engine e).supply (s.guardLim 1) (v.setWidth 24)) := by
  unfold State.commitPair
  extract_lets b g l L
  have hg : g = e := by omega
  clear_value g
  subst hg
  rw [if_neg (by simp only [GLB_ADM_PLIM.watts]; omega), if_neg (by omega),
    if_pos (by simp only [setptOff, Fld.on, LOOP_SETPT.tgt]; omega)]
  rfl

/-- A commit to LOOP_PROF goes to the profile limits of the selected loop. -/
theorem State.commitPair_loopProf (s : State) (v : Word) (e : Nat) :
    s.commitPair (0x400014 + 0x10000 * e) v = s.setLoop e (s.fld (LOOP_SEL.loop.on e)) { s.selected e with prof := v, pairBad := false } := by
  unfold State.commitPair
  extract_lets b g l L
  have hg : g = e := by omega
  clear_value g
  subst hg
  rw [if_neg (by simp only [GLB_ADM_PLIM.watts]; omega), if_neg (by omega),
    if_neg (by simp only [setptOff, Fld.on, LOOP_SETPT.tgt]; omega)]
  rfl

theorem State.selected_setLoop (s : State) (e : Nat) (L : Loop) : (s.setLoop e (s.fld (LOOP_SEL.loop.on e)) L).selected e = L :=
  State.loopOf_setLoop_same s e _ L

/-- The paired-word fault: class 4, code 1, with the block as its unit (R11). -/
theorem State.pairMismatch_spec (s : State) (off : Nat) (p : Option Word) (c : Word) :
    ∃ r : FaultRec, s.pairMismatch off p c = s.raise r ∧ r.cls = 4 ∧ r.code = 1 ∧ r.unit = off / 0x10000 := by
  cases p with
  | none => exact ⟨_, rfl, rfl, rfl, rfl⟩
  | some v => exact ⟨_, rfl, rfl, rfl, rfl⟩

section
variable (s : State) {off : Nat} (v : Word)

theorem State.armPair_taken (h : isPaired off = true) (k : s.pairTakes off = true) :
    s.armPair off v = { s with armed := Tab.set dNone s.armed off (some v) } := by
  unfold State.armPair
  rw [h, k, Bool.and_self, if_pos rfl]

theorem State.armPair_ignored (k : s.pairTakes off = false) : s.armPair off v = s := by
  unfold State.armPair
  rw [k, Bool.and_false, if_neg Bool.false_ne_true]

theorem State.closePair_committed (h : isPaired off = true) (k : s.pairTakes off = true) (armed : s.armedAt off = some (~~~v)) :
    s.closePair off v = (s.disarm off).commitPair off (~~~v) := by
  unfold State.closePair
  rw [h, k, Bool.and_self, if_pos rfl]
  exact if_pos armed

theorem State.closePair_discarded (h : isPaired off = true) (k : s.pairTakes off = true) (armed : s.armedAt off ≠ some (~~~v)) :
    s.closePair off v = (s.disarm off).pairMismatch off (s.armedAt off) v := by
  unfold State.closePair
  rw [h, k, Bool.and_self, if_pos rfl]
  exact if_neg armed

theorem State.closePair_ignored (k : s.pairTakes off = false) : s.closePair off v = s := by
  unfold State.closePair
  rw [k, Bool.and_false, if_neg Bool.false_ne_true]

end

/-- A complement word acts on the register whose value word lies below it. -/
theorem exec_pairedComplementWrite (s : State) {off : BitVec 25} (c : Word) (h : isPaired off.toNat = true) :
    exec (.pairedComplementWrite (off + 4) c) s = .next (s.closePair off.toNat c) := by
  have below : exec (.pairedComplementWrite (off + 4) c) s =
    .next (if 4 ≤ (off + 4).toNat then s.closePair ((off + 4).toNat - 4) c else s) := rfl
  rw [below, toNat_add_four h, if_pos (by omega), Nat.add_sub_cancel]

/-- The active value of a paired register stays when the armed one is discarded with a fault. -/
theorem State.raise_disarm_kept (s : State) {off : Nat} (h : isPaired off = true) (r : FaultRec) :
    ((s.disarm off).raise r).armedAt off = none ∧ ((s.disarm off).raise r).readReg off = s.readReg off := by
  obtain ⟨x, g, m, n, e, -, regs⟩ := (s.disarm off).raise_spec r
  refine ⟨?_, ?_⟩
  · rw [e]
    exact s.armedAt_disarm off
  · rw [State.readReg_paired _ h, State.readReg_paired _ h]
    exact (pairedReg_of_isPaired h).viewReg_congr (by rw [e]; rfl) (by rw [e]; rfl) regs

/-! ### The statements of 00_scope -/

/-- Settles O50: each clause is what one of the paired registers shows, or what one write of a pair does. -/
theorem pairedWordsNeedBothWrites : Obligations.PairedWordsNeedBothWrites := by
  intro s off paired
  rw [s.readReg_complement paired, s.readReg_paired paired]
  refine ⟨rfl, fun at58 => ?limitShown, fun t atScale => ?scaleShown, fun e => ⟨fun atTarget => ?targetShown, fun atProf => ?profShown⟩,
    fun takes v c => ⟨congrArg _ (s.armPair_taken v paired takes), fun armed => ?committed, fun armed => ?discarded⟩,
    fun ignores v c => ⟨congrArg _ (s.armPair_ignored v ignores), ?ignored⟩⟩
  case limitShown => subst at58; rfl
  case scaleShown => rw [atScale]; exact s.viewReg_tileScale t.isLt
  case targetShown => rw [atTarget, s.viewReg_loopTarget e.isLt]; exact Loop.setptWord_target _
  case profShown => rw [atProf]; exact s.viewReg_loopProf e.isLt
  case ignored => rw [exec_pairedComplementWrite s c paired, s.closePair_ignored c ignores]
  case committed =>
    rw [exec_pairedComplementWrite s c paired, s.closePair_committed c paired takes armed]
    refine ⟨_, rfl, ?_, fun at58 => ?_, fun t atScale => ?_, fun e => ⟨fun atTarget => ?_, fun atProf => ?_⟩⟩
    · rw [State.armedAt, State.commitPair_armed]
      exact s.armedAt_disarm _
    · subst at58
      exact State.commitPair_admLimit _ _
    · rw [State.readReg_paired _ paired, atScale, State.viewReg_tileScale _ t.isLt, State.commitPair_tileScale _ _ t.isLt]
    · rw [atTarget, State.commitPair_loopTarget]
      exact State.loopOf_setLoop_same _ _ _ _
    · rw [State.readReg_paired _ paired, atProf, State.viewReg_loopProf _ e.isLt, State.commitPair_loopProf, State.selected_setLoop]
  case discarded =>
    rw [exec_pairedComplementWrite s c paired, s.closePair_discarded c paired takes armed, ← s.readReg_paired paired]
    obtain ⟨r, raised, cls, code, unit⟩ := (s.disarm off.toNat).pairMismatch_spec off.toNat (s.armedAt off.toNat) c
    obtain ⟨unarmed, kept⟩ := s.raise_disarm_kept paired r
    exact ⟨_, r, rfl, raised, cls, code, unit, raised ▸ unarmed, raised ▸ kept⟩

/-- Settles O51: away from the registers that act, a write is the write of the register's fields, each by its access code. -/
theorem registersTakeWrites : Obligations.RegistersTakeWrites := by
  intro s off
  refine ⟨fun w x bad => ?unaligned, fun x u h first => ?eight, fun x a unlisted cmpl msix => ?unlisted,
    fun x r a b listed value cmpl => ?listed, fun c cmpl => exec_pairedComplementWrite_unpaired s off c cmpl,
    s.serialRead, rfl, s.serialRead_read, s.serialRead_latches⟩
  case unaligned =>
    rw [exec_registerWrite, s.writeBar0_unaligned x bad]
    exact ⟨_, rfl, rfl, rfl⟩
  case eight =>
    have next : (off + 4).toNat = off.toNat + 4 := by
      rw [BitVec.toNat_add]
      exact Nat.mod_eq_of_lt (by have := off.isLt; simp only [BitVec.reduceToNat]; omega)
    obtain rfl : s.writeBar0 off.toNat 4 x = u := Host.Outcome.next.inj first
    rw [exec_registerWrite, exec_registerWrite, next, s.writeBar0_eight x h]
  case unlisted =>
    rw [exec_registerWrite, s.writeBar0_plain x a (isPaired_unlisted unlisted) cmpl (not_actsAt_of_unlisted unlisted) msix,
      s.rawWrite_unlisted _ unlisted]
  case listed =>
    have msix : off.toNat < 0x18000 ∨ 0x18400 ≤ off.toNat := by
      simp only [List.mem_cons, List.not_mem_nil, or_false] at b
      omega
    have only := s.writeBar0_plain x a ((isPaired_of_regSpec listed).trans value) cmpl (not_actsAt_of_block b) msix
    obtain ⟨-, -, others⟩ := s.rawWrite_spec off.toNat (x.setWidth 32)
    refine ⟨s.rawWrite off.toNat (x.setWidth 32), congrArg Host.Outcome.next only, fun f m => ?_, others⟩
    rw [← BitVec.toNat_setWidth]
    exact s.fld_rawWrite _ listed (fieldsApart_of_regSpec b listed) f m

/-- Settles O57: every table of the reset state is empty, so that each unit and register holds its own reset value. -/
theorem resetIsAsTheTablesSay : Obligations.ResetIsAsTheTablesSay := by
  refine ⟨reset_memOk, rfl, rfl, rfl, ?lock, ?trims, ?part, ?family, fun _ => rfl, fun _ => rfl, fun r h => ?idle⟩
  case lock => decide
  case trims => decide
  case part => decide
  case family => decide
  case idle =>
    obtain rfl : State.reset.idle = r := Host.Outcome.next.inj h
    exact ⟨rfl, rfl⟩

end Sys2Proof.Machine
end

section
/-! SUPPORT. The rebuild of a temperature table whose error lies in a reference temperature (R20, R179). -/

namespace Sys2Proof.Machine

/-- Bay 0 is calibrated, and two bits of zone 6's reference temperature in the table of its first tile are flipped. -/
def upsetTable : State :=
  { State.reset with bays := [(0, { Bay.reset with calibrated := true })]
                     stage := { State.reset.stage with flips := [(tableBase 0 + 64, 3)] } }

/-- The rebuild complements the reference temperature as it was written, and the same write stores it as it reads, with the flipped bits
(`State.refreshBlock`): the two disagree, and the check fails. -/
theorem tableRebuild_upsetTable : ((upsetTable.tableRebuild 0).tile 0).tblOk = false := by decide +kernel

/-- Refutes O23: an uncorrectable error in a reference temperature leaves the rebuilt table not valid. -/
theorem not_recalibrationAndRebuild : ¬ Obligations.RecalibrationAndRebuild := by
  intro holds
  obtain ⟨-, -, rebuilds, -⟩ := holds.2 upsetTable 0
  obtain ⟨u, ran, -, -, valid⟩ := rebuilds ⟨rfl, rfl, rfl⟩
  obtain rfl : upsetTable.tableRebuild 0 = u := Host.Outcome.next.inj ran
  exact Bool.false_ne_true (tableRebuild_upsetTable.symm.trans valid)

end Sys2Proof.Machine
end

section
/-! SUPPORT. The diagnostic aperture: what a read returns in each part of the map, and what a write reaches (R27, R179, R206). -/

namespace Sys2Proof.Machine

/-! ### Errors of stage memory after a write (R179) -/

theorem foldl_add_le (f g : Nat → Nat) (l : List Nat) {m n : Nat} (start : m ≤ n) (each : ∀ i, f i ≤ g i) :
    l.foldl (fun n i => n + f i) m ≤ l.foldl (fun n i => n + g i) n := by
  induction l generalizing m n with
  | nil => exact start
  | cons i l ih => exact ih (Nat.add_le_add start (each i))

/-- A write clears the flipped bits of what it reaches and makes none. -/
theorem State.flips_writeBytes (s : State) (a : Nat) (l : List Byte) (k : Nat) :
    popByte ((s.writeBytes a l).stageFlip k) ≤ popByte (s.stageFlip k) ∧
      popByte (Tab.get dZero (s.writeBytes a l).stage.chk k) ≤ popByte (Tab.get dZero s.stage.chk k) := by
  have cleared : ∀ (t : Tab Byte) (j : Nat), popByte (Tab.get dZero (Tab.set dZero t j 0) k) ≤ popByte (Tab.get dZero t k) := by
    intro t j
    rw [Tab.get_set]
    split
    · exact Nat.zero_le _
    · exact Nat.le_refl _
  induction l generalizing s a with
  | nil => exact ⟨Nat.le_refl _, Nat.le_refl _⟩
  | cons x l ih =>
    obtain ⟨flips, chk⟩ := ih { s with stage := { s.stage with
      bytes := Tab.set dZero s.stage.bytes a x, flips := Tab.set dZero s.stage.flips a 0
      chk := Tab.set dZero s.stage.chk (a / 8) 0 } } (a + 1)
    exact ⟨flips.trans (cleared s.stage.flips a), chk.trans (cleared s.stage.chk (a / 8))⟩

theorem State.wordFlips_writeBlock_le (s : State) (a : Nat) (x : Block) (w : Nat) : (s.writeBlock a x).wordFlips w ≤ s.wordFlips w :=
  foldl_add_le _ _ _ (s.flips_writeBytes a x.data (w / 8)).2 fun i => (s.flips_writeBytes a x.data (w + i)).1

/-- A block that reads without an uncorrectable error still does after another write. -/
theorem State.blockBad_writeBlock (s : State) (a : Nat) (x : Block) {b : Nat} (good : s.blockBad b = false) :
    (s.writeBlock a x).blockBad b = false := by
  unfold State.blockBad at good ⊢
  rw [List.any_eq_false] at good ⊢
  intro i m bad
  have few := good i m
  have le := s.wordFlips_writeBlock_le a x (b + 8 * i)
  rw [decide_eq_true_iff] at few bad
  omega

theorem State.refreshBlock_cases (s : State) (a : Nat) : s.refreshBlock a = s ∨ s.refreshBlock a = s.writeBlock a (s.blockAt a) := by
  unfold State.refreshBlock
  split
  · exact .inr rfl
  · exact .inl rfl

/-- What a block without an uncorrectable error delivers is what was written to it. -/
theorem State.blockAt_good (s : State) {a : Nat} (good : s.blockBad a = false) :
    (s.blockAt a).data = (List.range 64).map fun i => s.stageByte (a + i) := by
  unfold State.blockAt
  rw [good, if_neg Bool.false_ne_true]

theorem State.stageByte_refreshBlock (s : State) {a : Nat} (good : s.blockBad a = false) (n : Nat) :
    (s.refreshBlock a).stageByte n = s.stageByte n := by
  rcases s.refreshBlock_cases a with same | written
  · rw [same]
  · rw [written, State.stageByte_writeBlock, s.blockAt_good good, List.length_map, List.length_range]
    split
    · next inside =>
      have place : n - a < ((List.range 64).map fun i => s.stageByte (a + i)).length := by
        rw [List.length_map, List.length_range]
        omega
      rw [List.getD_eq_getElem _ _ place, List.getElem_map, List.getElem_range, Nat.add_sub_cancel' inside.1]
    · rfl

theorem State.blockBad_refreshBlock (s : State) (a : Nat) {b : Nat} (good : s.blockBad b = false) :
    (s.refreshBlock a).blockBad b = false := by
  rcases s.refreshBlock_cases a with same | written
  · rwa [same]
  · rw [written]
    exact s.blockBad_writeBlock a _ good

/-- Blocks without an uncorrectable error keep their bytes when they are stored anew. -/
theorem State.stageByte_refreshBlocks (s : State) (a : Nat) (ks : List Nat) (good : ∀ k, s.blockBad (64 * k) = false) (n : Nat) :
    (ks.foldl (fun s k => s.refreshBlock (a / 64 * 64 + 64 * k)) s).stageByte n = s.stageByte n := by
  induction ks generalizing s with
  | nil => rfl
  | cons k ks ih =>
    have here : s.blockBad (a / 64 * 64 + 64 * k) = false := by
      rw [show a / 64 * 64 + 64 * k = 64 * (a / 64 + k) by omega]
      exact good _
    rw [List.foldl_cons, ih _ fun j => s.blockBad_refreshBlock _ (good j), s.stageByte_refreshBlock here]

/-- What a write of bytes leaves at an address. -/
theorem State.stageByte_storeBytes_inside (s : State) (a : Nat) (bs : List Byte) {n : Nat} (h : a ≤ n ∧ n < a + bs.length) :
    (s.storeBytes a bs).stageByte n = bs.getD (n - a) 0 := by
  unfold State.storeBytes
  rw [State.stageByte_writeBytes, if_pos h]

theorem State.stageByte_storeBytes_outside (s : State) (a : Nat) (bs : List Byte) (good : ∀ k, s.blockBad (64 * k) = false) {n : Nat}
    (h : n < a ∨ a + bs.length ≤ n) : (s.storeBytes a bs).stageByte n = s.stageByte n := by
  unfold State.storeBytes
  rw [State.stageByte_writeBytes, if_neg (by omega)]
  exact s.stageByte_refreshBlocks a _ good n

/-- Memory that holds the bytes of a list at an address and above. -/
theorem State.stageBytesAt_eq (u : State) (a : Nat) (bs : List Byte) (h : ∀ n, a ≤ n ∧ n < a + bs.length → u.stageByte n = bs.getD (n - a) 0) :
    u.stageBytesAt a bs.length = bs := by
  refine List.ext_getElem (by simp [State.stageBytesAt]) fun i short long => ?_
  have byte := h (a + i) ⟨Nat.le_add_right _ _, by omega⟩
  rw [Nat.add_sub_cancel_left, List.getD_eq_getElem _ _ long] at byte
  simpa [State.stageBytesAt] using byte

/-! ### Reads -/

theorem Part.kept_countMark (p : Part) (s : State) (r n : Nat) (h : p ≠ .faults) : p.kept s (s.countMark r n) := by
  cases p with
  | faults => exact absurd rfl h
  | regs b => exact fun _ _ => rfl
  | _ => rfl

theorem Part.kept_bump (p : Part) (s : State) (f : Fld) (n : Nat) (h : p ≠ .regs (regBlock f.off)) : p.kept s (s.bump f n) :=
  p.kept_setReg s f.off _ h

/-- A read counts in MEM_ECC and among the marks. -/
theorem Part.kept_countRead (p : Part) (s : State) (a : Nat) (h : p ≠ .faults) (k : p ≠ .regs .upper) : p.kept s (s.countRead a) := by
  have counted : ∀ n, p.kept s (s.bump MEM_ECC.uncorr n) := fun n => p.kept_bump s _ n k
  unfold State.countRead
  extract_lets s1
  split_ifs
  · exact p.kept_trans s s1 _ (counted 1) (p.kept_countMark s1 9 1 h)
  · exact counted 1
  · exact p.kept_refl s
  · exact p.kept_bump s _ _ k

/-- A count stands at its maximum. -/
theorem State.fld_bump_same (s : State) (f : Fld) (n : Nat) (h : f.lo ≤ f.hi) (w : f.hi < 32) :
    (s.bump f n).fld f = min (s.fld f + n) (2 ^ (f.hi - f.lo + 1) - 1) := by
  have few : min (s.fld f + n) (2 ^ (f.hi - f.lo + 1) - 1) < 2 ^ (f.hi - f.lo + 1) :=
    Nat.lt_of_le_of_lt (Nat.min_le_right _ _) (Nat.sub_lt (Nat.two_pow_pos _) Nat.one_pos)
  unfold State.bump
  rw [s.fld_setFld_same f _ h w, Nat.mod_eq_of_lt few]

section
variable (s : State) {off : Nat} (len : Nat) (free : Bool)

theorem State.apertureRead_keeps :
    (s.apertureRead off len free).stage = s.stage ∧ (s.apertureRead off len free).tiles = s.tiles := by
  have given : ∀ (u : State) bs, u.stage = s.stage → u.tiles = s.tiles → (u.aperGive bs).stage = s.stage ∧ (u.aperGive bs).tiles = s.tiles :=
    fun u bs stage tiles => ⟨stage, tiles⟩
  have served : ∀ a, (s.aperServe a len).stage = s.stage ∧ (s.aperServe a len).tiles = s.tiles := fun a =>
    given (s.countRead _) _ (Part.kept_countRead .stage s _ nofun nofun) (Part.kept_countRead .tiles s _ nofun nofun)
  have refused : (s.aperRefuse len).stage = s.stage ∧ (s.aperRefuse len).tiles = s.tiles :=
    given (s.bump _) _ (Part.kept_bump .stage s _ _ nofun) (Part.kept_bump .tiles s _ _ nofun)
  have unshown : ∀ bs, (s.refusedRead.2.aperGive bs).stage = s.stage ∧ (s.refusedRead.2.aperGive bs).tiles = s.tiles := fun bs =>
    given (s.countMark 15) bs rfl rfl
  unfold State.apertureRead
  extract_lets a t e
  split_ifs
  · exact refused
  · exact served a
  · exact ⟨rfl, rfl⟩
  · exact served a
  · exact ⟨rfl, rfl⟩
  · exact unshown _
  · exact ⟨rfl, rfl⟩
  · exact ⟨rfl, rfl⟩
  · exact unshown _

/-- A read that waits for its slot, or is served. -/
theorem State.apertureRead_granule (h : s.aperAddr off < 0x17000000) :
    s.apertureRead off len free =
      if s.hasSlot (s.aperAddr off) remoteKinds (s.aperCode (s.aperAddr off)) then
        if free then s.aperServe (s.aperAddr off) len else s
      else s.aperRefuse len := by
  unfold State.apertureRead
  dsimp only
  rw [if_pos h]
  cases s.hasSlot (s.aperAddr off) remoteKinds (s.aperCode (s.aperAddr off)) with
  | false => rw [Bool.not_false, if_pos rfl, if_neg Bool.false_ne_true]
  | true => rw [Bool.not_true, if_neg Bool.false_ne_true, if_pos rfl]

theorem State.apertureRead_reserved (h : 0x17000000 ≤ s.aperAddr off) (k : s.aperAddr off < 0x18000000) :
    s.apertureRead off len free = if free then s.aperServe (s.aperAddr off) len else s := by
  unfold State.apertureRead
  extract_lets a
  rw [if_neg (Nat.not_lt.2 h), if_pos k]

theorem State.apertureRead_map (h : 0x18000000 ≤ s.aperAddr off) (k : s.aperAddr off < 0x20000000)
    (visible : s.mapVisible (mapTile (s.aperAddr off)) = true) (row : s.aperAddr off % 8 = 0)
    (idle : s.mapBusy (mapTile (s.aperAddr off)) (mapEntry (s.aperAddr off)) = false)
    (unclaimed : s.mapClaimed (mapTile (s.aperAddr off)) = false) :
    s.apertureRead off 8 free =
      s.aperGive (leBytes 8 ((s.tile (mapTile (s.aperAddr off))).mapWord (mapEntry (s.aperAddr off)) (mapRow (s.aperAddr off)))) := by
  unfold State.apertureRead
  extract_lets a t e
  rw [if_neg (by omega), if_neg (by omega), if_pos k, if_neg, idle, unclaimed]
  · rfl
  · simp [t, visible, a, row]

/-- Where the map shows nothing, the read is refused and returns zeros. -/
theorem State.apertureRead_unshown (h : 0x18000000 ≤ s.aperAddr off)
    (k : 0x20000000 ≤ s.aperAddr off ∨ s.mapVisible (mapTile (s.aperAddr off)) = false ∨ s.aperAddr off % 8 ≠ 0 ∨ len ≠ 8) :
    s.apertureRead off len free = s.refusedRead.2.aperGive (List.replicate len 0) := by
  unfold State.apertureRead
  extract_lets a t e
  rw [if_neg (by omega), if_neg (by omega)]
  split
  · next below =>
    rw [if_pos]
    simpa using k.resolve_left (Nat.not_le.2 below)
  · rfl

theorem State.aperRefuse_counts :
    (s.aperRefuse len).fld MEM_APER_BASE.refused = min (s.fld MEM_APER_BASE.refused + 1) 2047 := by
  have given : ∀ (u : State) bs, (u.aperGive bs).fld MEM_APER_BASE.refused = u.fld MEM_APER_BASE.refused := fun _ _ => rfl
  have top : 2 ^ (MEM_APER_BASE.refused.hi - MEM_APER_BASE.refused.lo + 1) - 1 = 2047 := by decide
  unfold State.aperRefuse
  rw [given, s.fld_bump_same MEM_APER_BASE.refused 1 (by decide) (by decide), top]

end

/-! ### Writes -/

section
variable (s : State) {off : Nat} (bs : List Byte)

theorem State.apertureWrite_free (h : s.aperAddr off < 0x17000000) (unbound : s.granScore (s.aperAddr off) = 0)
    (slot : s.hasSlot (s.aperAddr off) remoteKinds 0 = true) :
    (s.apertureWrite off bs true).stageBytesAt (s.aperAddr off) bs.length = bs ∧
      ((∀ k, s.blockBad (64 * k) = false) → ∀ n, (n < s.aperAddr off ∨ s.aperAddr off + bs.length ≤ n) →
        (s.apertureWrite off bs true).stageByte n = s.stageByte n) := by
  unfold State.apertureWrite
  dsimp only
  rw [if_pos ⟨h, unbound, slot⟩, if_pos rfl]
  generalize s.aperAddr off = a
  split
  · refine ⟨State.stageBytesAt_eq _ a bs fun n inside => ?_, fun _ n outside => ?_⟩
    · rw [State.stageByte_writeBlock, if_pos inside]
    · rw [State.stageByte_writeBlock, if_neg (by dsimp only; omega)]
  · exact ⟨State.stageBytesAt_eq _ a bs fun n inside => s.stageByte_storeBytes_inside a bs inside,
      fun good n outside => s.stageByte_storeBytes_outside a bs good outside⟩

theorem State.apertureWrite_waits (h : s.aperAddr off < 0x17000000) (unbound : s.granScore (s.aperAddr off) = 0)
    (slot : s.hasSlot (s.aperAddr off) remoteKinds 0 = true) : s.apertureWrite off bs false = s := by
  unfold State.apertureWrite
  extract_lets a
  rw [if_pos ⟨h, unbound, slot⟩, if_neg Bool.false_ne_true]

theorem State.apertureWrite_dropped (free : Bool)
    (h : 0x17000000 ≤ s.aperAddr off ∨ s.granScore (s.aperAddr off) ≠ 0 ∨ s.hasSlot (s.aperAddr off) remoteKinds 0 = false) :
    (s.apertureWrite off bs free).stage = s.stage := by
  unfold State.apertureWrite
  extract_lets a
  rw [if_neg]
  · exact Part.kept_raise .stage s _ (by decide) (by decide) (by decide)
  · rintro ⟨low, unbound, slot⟩
    rcases h with high | bound | slotless
    · exact Nat.not_lt.2 high low
    · exact bound unbound
    · exact Bool.false_ne_true (slotless.symm.trans slot)

end

/-- Settles O18: a read by the part of the map that its address lies in, a write by whether it reaches a granule of no one. -/
theorem apertureAccesses : Obligations.ApertureAccesses := by
  intro s off
  dsimp only
  refine ⟨fun len free => ?reads, fun bs free => ⟨fun low unbound slot => ⟨?written, ?waits⟩, fun dropped => ?dropped⟩⟩
  case reads =>
    obtain ⟨stage, tiles⟩ := s.apertureRead_keeps (off := off.toNat) len free
    refine ⟨_, rfl, stage, tiles, fun low slot => ?served, fun low slotless => ?refused, fun high low => ?reserved,
      fun high low visible row eight idle unclaimed => ?word, fun high unshown => ?zeros⟩
    case served =>
      rw [s.apertureRead_granule len free low, if_pos slot]
      refine ⟨fun is => ?_, fun is => ?_⟩
      · rw [is]; rfl
      · rw [is]; rfl
    case refused =>
      rw [s.apertureRead_granule len free low, slotless]
      exact ⟨rfl, s.aperRefuse_counts len⟩
    case reserved =>
      rw [s.apertureRead_reserved len free high low]
      refine ⟨fun is => ?_, fun is => ?_⟩
      · rw [is]; rfl
      · rw [is]; rfl
    case word =>
      subst eight
      rw [s.apertureRead_map free high low visible row idle unclaimed]
      rfl
    case zeros =>
      rw [s.apertureRead_unshown len free high unshown]
      rfl
  case written =>
    rintro rfl
    obtain ⟨bytes, others⟩ := s.apertureWrite_free bs low unbound slot
    exact ⟨_, rfl, bytes, others⟩
  case waits =>
    rintro rfl
    exact congrArg Host.Outcome.next (s.apertureWrite_waits bs low unbound slot)
  case dropped => exact ⟨_, rfl, s.apertureWrite_dropped bs free dropped⟩

end Sys2Proof.Machine
end

section
/-! SUPPORT. The light supply: what a change of the spare touches, what it brings about, and the dark window around it (R41, R166, R167,
R281, R282, R287). -/

namespace Sys2Proof.Machine

/-! ### Engines, registers and light, one after another -/

/-- Between two states only the engines moved. -/
def State.EnginesMoved (s u : State) : Prop := ∃ g, u = { s with engines := g }

theorem State.EnginesMoved.refl (s : State) : s.EnginesMoved s := ⟨s.engines, rfl⟩
theorem State.EnginesMoved.trans {s t u : State} (h : s.EnginesMoved t) (k : t.EnginesMoved u) : s.EnginesMoved u := by
  obtain ⟨g, rfl⟩ := h
  obtain ⟨g', rfl⟩ := k
  exact ⟨g', rfl⟩
theorem State.EnginesMoved.regs {s u : State} (h : s.EnginesMoved u) : u.regs = s.regs := by
  obtain ⟨g, rfl⟩ := h
  rfl
theorem State.EnginesMoved.comb {s u : State} (h : s.EnginesMoved u) (i k : Nat) : u.comb i k = s.comb i k := by
  obtain ⟨g, rfl⟩ := h
  rfl
theorem State.setLoop_moves (s : State) (e l : Nat) (x : Loop) : s.EnginesMoved (s.setLoop e l x) := ⟨_, rfl⟩
theorem State.holdNow_moves (s : State) (e l : Nat) : s.EnginesMoved (s.holdNow e l) := s.setLoop_moves e l _
theorem State.driveTo_moves (s : State) (slot : Nat) (tgt : Int) : s.EnginesMoved (s.driveTo slot tgt) := s.setLoop_moves 9 slot _
theorem State.driveRamp_moves (s : State) (slot : Nat) (tgt : Int) : s.EnginesMoved (s.driveRamp slot tgt) :=
  (s.driveTo_moves slot tgt).trans (State.setLoop_moves _ 9 slot _)

/-- A comb that is powered down keeps what its loops do not stand for. -/
theorem State.combDown_moves (s : State) (i c : Nat) (st : BitVec 3) :
    (s.setComb i c { s.comb i c with state := st, ma := 0, mw := 0 }).EnginesMoved (s.combDown i c st) :=
  ((State.driveRamp_moves _ _ _).trans (State.holdNow_moves _ _ _)).trans (State.holdNow_moves _ _ _)

/-- Between two states only registers of the light supply moved. -/
def State.LsaMoved (s u : State) : Prop :=
  ∃ g, u = { s with regs := g } ∧ ∀ off, regBlock off ≠ .lsa → u.reg off = s.reg off

theorem State.LsaMoved.trans {s t u : State} (h : s.LsaMoved t) (k : t.LsaMoved u) : s.LsaMoved u := by
  obtain ⟨g, rfl, a⟩ := h
  obtain ⟨g', rfl, b⟩ := k
  exact ⟨g', rfl, fun off o => (b off o).trans (a off o)⟩
theorem State.LsaMoved.setFld (s : State) (f : Fld) (v : Nat) (h : regBlock f.off = .lsa) : s.LsaMoved (s.setFld f v) :=
  ⟨_, rfl, fun _ o => Tab.get_set_other _ _ _ _ _ fun same => o (same ▸ h)⟩

theorem State.setSpare_moves (s : State) (i v : Nat) : s.LsaMoved (s.setSpare i v) := .setFld s (spareFld i) v rfl

theorem State.armLast_moves (s : State) (i : Nat) (fail : Bool) : s.LsaMoved (s.armLast i fail) :=
  (((State.LsaMoved.setFld s LSA_ARM_LAST.valid _ rfl).trans (.setFld _ LSA_ARM_LAST.fail _ rfl)).trans
    (.setFld _ LSA_ARM_LAST.src _ rfl)).trans ((State.LsaMoved.setFld _ LSA_ARM_LAST.pos _ rfl).trans (.setFld _ LSA_ARM_LAST.time _ rfl))

/-- Between two states only the light supply moved, with what hangs on it: the tiles' affected sets, the fabric's lanes, the combs' loops,
the supply's registers, and a fault record. -/
def State.LightMoved (s u : State) : Prop :=
  ∃ t e l f x g m n, u = { s with
      tiles := t, engines := e, light := l, fab := f, faults := x, regs := g, cmd := { s.cmd with msix := m, sent := n } } ∧
    ∀ off, regBlock off ≠ .lsa → off ≠ GLB_FLT_PTR.wr.off → u.reg off = s.reg off

theorem State.LightMoved.refl (s : State) : s.LightMoved s :=
  ⟨s.tiles, s.engines, s.light, s.fab, s.faults, s.regs, s.cmd.msix, s.cmd.sent, rfl, fun _ _ _ => rfl⟩
theorem State.LightMoved.trans {s t u : State} (h : s.LightMoved t) (k : t.LightMoved u) : s.LightMoved u := by
  obtain ⟨y, e, l, f, x, g, m, n, rfl, a⟩ := h
  obtain ⟨y', e', l', f', x', g', m', n', rfl, b⟩ := k
  exact ⟨y', e', l', f', x', g', m', n', rfl, fun off o p => (b off o p).trans (a off o p)⟩
theorem State.EnginesMoved.light {s u : State} (h : s.EnginesMoved u) : s.LightMoved u := by
  obtain ⟨e, rfl⟩ := h
  exact ⟨s.tiles, e, s.light, s.fab, s.faults, s.regs, s.cmd.msix, s.cmd.sent, rfl, fun _ _ _ => rfl⟩
theorem State.LsaMoved.light {s u : State} (h : s.LsaMoved u) : s.LightMoved u := by
  obtain ⟨g, rfl, a⟩ := h
  exact ⟨s.tiles, s.engines, s.light, s.fab, s.faults, g, s.cmd.msix, s.cmd.sent, rfl, fun off o _ => a off o⟩
theorem State.LightMoved.setSource (s : State) (i : Nat) (x : Source) : s.LightMoved (s.setSource i x) :=
  ⟨s.tiles, s.engines, _, s.fab, s.faults, s.regs, s.cmd.msix, s.cmd.sent, rfl, fun _ _ _ => rfl⟩
theorem State.LightMoved.setGroup (s : State) (p g : Nat) (x : FabGroup) : s.LightMoved (s.setGroup p g x) :=
  ⟨s.tiles, s.engines, s.light, _, s.faults, s.regs, s.cmd.msix, s.cmd.sent, rfl, fun _ _ _ => rfl⟩
theorem State.LightMoved.modTile (s : State) (t : Nat) (f : Tile → Tile) : s.LightMoved (s.modTile t f) :=
  ⟨_, s.engines, s.light, s.fab, s.faults, s.regs, s.cmd.msix, s.cmd.sent, rfl, fun _ _ _ => rfl⟩
theorem State.LightMoved.raise (s : State) (f : FaultRec) : s.LightMoved (s.raise f) := by
  obtain ⟨x, g, m, n, h, -, r⟩ := s.raise_spec f
  exact ⟨s.tiles, s.engines, s.light, s.fab, x, g, m, n, h, fun off _ o => r off o⟩
theorem State.combDown_light (s : State) (i c : Nat) (st : BitVec 3) : s.LightMoved (s.combDown i c st) :=
  (State.LightMoved.setSource s i _).trans (s.combDown_moves i c st).light

theorem State.stopLane_light (s : State) (p g lane : Nat) (transmit : Bool) : s.LightMoved (s.stopLane p g lane transmit) := by
  unfold State.stopLane
  split
  · exact .setGroup s p g _
  · exact .setGroup s p g _

theorem State.darkenLanes_light (s s0 : State) (i : Nat) : s.LightMoved (s.darkenLanes s0 i) := by
  unfold State.darkenLanes
  split
  · exact .refl s
  · exact foldl_does State.LightMoved .refl (fun _ _ _ => .trans) _ (fun u x =>
      foldl_does State.LightMoved .refl (fun _ _ _ => .trans) _ (fun v k => v.stopLane_light _ _ _ _) _ u) _ s

theorem State.spreadAffected_moves (s : State) (b : Nat) : s.BaysMoved (s.spreadAffected b) :=
  foldl_does State.BaysMoved .refl .trans _ (fun u _ => u.modTile_moves _ _) _ s

theorem State.spreadAffected_light (s : State) (b : Nat) : s.LightMoved (s.spreadAffected b) :=
  foldl_does State.LightMoved .refl (fun _ _ _ => .trans) _ (fun u _ => .modTile u _ _) _ s

theorem State.armFail_light (s : State) (i : Nat) : s.LightMoved (s.armFail i) := by
  have down : s.LightMoved (((s.armLast i true).spareDown i 4).setSpare i 4) :=
    ((s.armLast_moves i true).light.trans (State.combDown_light _ _ _ _)).trans (State.setSpare_moves _ i 4).light
  exact ((down.trans (.setSource _ i _)).trans (State.darkenLanes_light _ _ i)).trans (.raise _ _)

/-- The spare put in a position, and the comb that it replaces taken out of it. -/
def State.spareIn (s : State) (i pos : Nat) : State :=
  let c := spareComb i
  let s1 := s.setSpare i 3
  let s2 := s1.setComb i c { s1.comb i c with state := 2, pos := BitVec.ofNat 3 pos, ref := (s1.comb i pos).ref, boost := 0 }
  s2.setComb i pos { s2.comb i pos with boost := 0, pos := 7 }

/-- The swap of a source: the spare in, the comb that it replaces powered down and failed, the lines of the position clear. -/
def State.swap (s : State) (i pos : Nat) : State :=
  let s1 := (s.spareIn i pos).combDown i pos 4
  let clear := fun (p : Nat × Line) => if p.1 / 32 = pos then (p.1, { p.2 with aff := false, arm := false }) else p
  s1.setSource i { s1.source i with armPos := none, spos := BitVec.ofNat 3 pos, lines := (s1.source i).lines.map clear, locked := false }

/-- What a locked spare comes to. -/
theorem State.takeOver_locked (s : State) {i pos : Nat} (locked : (s.source i).locked = true) (armed : (s.source i).armPos = some pos) :
    s.takeOver i = if (if i < 8 then 4 else 2) < s.passing i pos then s.armFail i
      else if i < 8 then (s.swap i pos).spreadAffected i else s.swap i pos := by
  unfold State.takeOver
  rw [armed, locked]
  rfl

theorem State.takeOver_unlocked (s : State) {i : Nat} (h : (s.source i).locked = false) : s.takeOver i = s := by
  unfold State.takeOver
  rw [h]
  split
  · rfl
  · rfl

theorem State.takeOver_unarmed (s : State) {i : Nat} (h : (s.source i).armPos = none) : s.takeOver i = s := by
  unfold State.takeOver
  rw [h]

theorem State.swap_light (s : State) (i pos : Nat) : s.LightMoved (s.swap i pos) := by
  have spareIn : s.LightMoved (s.spareIn i pos) :=
    (s.setSpare_moves i 3).light.trans ((State.LightMoved.setSource _ i _).trans (.setSource _ i _))
  exact spareIn.trans ((State.combDown_light _ i pos 4).trans (.setSource _ i _))

theorem State.takeOver_light (s : State) (i : Nat) : s.LightMoved (s.takeOver i) := by
  cases locked : (s.source i).locked with
  | false =>
    rw [s.takeOver_unlocked locked]
    exact .refl s
  | true =>
    cases armed : (s.source i).armPos with
    | none =>
      rw [s.takeOver_unarmed armed]
      exact .refl s
    | some pos =>
      rw [s.takeOver_locked locked armed]
      have swapped := s.swap_light i pos
      generalize s.swap i pos = u at swapped
      by_cases few : (if i < 8 then 4 else 2) < s.passing i pos
      · rw [if_pos few]
        exact s.armFail_light i
      · rw [if_neg few]
        split
        · exact swapped.trans (u.spreadAffected_light i)
        · exact swapped

/-! ### What others read of a state -/

theorem State.reg_congr {s u : State} (h : u.regs = s.regs) (off : Nat) : u.reg off = s.reg off := by
  unfold State.reg
  rw [h]

theorem State.bay_congr {s u : State} (h : u.bays = s.bays) (b : Nat) : u.bay b = s.bay b := by
  unfold State.bay
  rw [h]

theorem State.source_congr {s u : State} (h : u.light = s.light) (i : Nat) : u.source i = s.source i := by
  unfold State.source
  rw [h]

theorem State.bayState_congr {s u : State} (h : u.reg 0x10 = s.reg 0x10) (b : Nat) : u.bayState b = s.bayState b :=
  congrArg (fun w : Word => bits w.toNat (4 * b + 3) (4 * b) % 8) h

theorem State.fld_congr {s u : State} (f : Fld) (h : u.reg f.off = s.reg f.off) : u.fld f = s.fld f :=
  congrArg (fun w : Word => bits w.toNat f.hi f.lo) h

theorem State.comb_setComb (s : State) (i c k : Nat) (x : Comb) : (s.setComb i c x).comb i k = if k = c then x else s.comb i k := by
  unfold State.setComb State.comb
  rw [State.source_setSource_same]
  exact Tab.get_set _ _ c k x

/-- The combs of a source that keeps its table of combs. -/
theorem State.comb_setSource (s : State) (i k : Nat) {x : Source} (h : x.combs = (s.source i).combs) :
    (s.setSource i x).comb i k = s.comb i k := by
  unfold State.comb
  rw [State.source_setSource_same, h]

theorem State.passing_congr {s u : State} (i pos : Nat) (h : ∀ k, u.comb i k = s.comb i k) : u.passing i pos = s.passing i pos := by
  unfold State.passing State.combWorks
  simp only [h]

/-! ### The swap (R168, R282) -/

/-- The spare of a bay serves a position, and the comb that it replaces is failed. -/
def State.Swapped (u : State) (i pos : Nat) : Prop :=
  u.spareState i = 3 ∧ (u.comb i 4).state = 2 ∧ (u.comb i 4).pos = BitVec.ofNat 3 pos ∧ (u.comb i pos).state = 4

theorem State.Swapped.congr {s u : State} {i pos : Nat} (h : s.Swapped i pos) (reg : u.reg 0x70000 = s.reg 0x70000) (light : u.light = s.light) :
    u.Swapped i pos := by
  have comb : ∀ k, u.comb i k = s.comb i k := fun k => congrArg (fun l => Tab.get dComb (Tab.get dSource l i).combs k) light
  unfold State.Swapped
  rw [comb, comb, State.spareState, State.fld_congr (spareFld i) reg]
  exact h

theorem State.spareState_setSpare (s : State) {i v : Nat} (h : i < 9) (k : v < 8) : (s.setSpare i v).spareState i = v := by
  have width : 3 * i + 2 - 3 * i + 1 = 3 := by omega
  refine (s.fld_setFld_same (spareFld i) v (Nat.le_add_right _ 2) ?_).trans ?_
  · show 3 * i + 2 < 32
    omega
  · show v % 2 ^ (3 * i + 2 - 3 * i + 1) = v
    rw [width]
    exact Nat.mod_eq_of_lt k

theorem State.spareIn_regs (s : State) (i pos : Nat) : (s.spareIn i pos).regs = (s.setSpare i 3).regs := by
  unfold State.spareIn
  rw [State.setComb_regs, State.setComb_regs]

theorem State.combDown_regs (s : State) (i c : Nat) (st : BitVec 3) : (s.combDown i c st).regs = s.regs :=
  (s.combDown_moves i c st).regs.trans (State.setComb_regs _ _ _ _)

theorem State.swap_regs (s : State) (i pos : Nat) : (s.swap i pos).regs = (s.setSpare i 3).regs := by
  unfold State.swap
  rw [State.setSource_regs, State.combDown_regs, State.spareIn_regs]

/-- The spare of a bay, put in a position, works in it. -/
theorem State.spareIn_spare (s : State) {i pos : Nat} (bay : i < 8) (h : pos < 4) :
    ((s.spareIn i pos).comb i 4).state = 2 ∧ ((s.spareIn i pos).comb i 4).pos = BitVec.ofNat 3 pos := by
  have spare : 4 = spareComb i := (congrArg (· - 1) (if_pos bay : combsOf i = 5)).symm
  unfold State.spareIn
  dsimp only
  rw [State.comb_setComb, if_neg (Nat.ne_of_gt h), State.comb_setComb, if_pos spare]
  exact ⟨rfl, rfl⟩

theorem State.comb_combDown (s : State) (i c k : Nat) (st : BitVec 3) :
    (s.combDown i c st).comb i k = if k = c then { s.comb i c with state := st, ma := 0, mw := 0 } else s.comb i k := by
  rw [← s.comb_setComb]
  exact (s.combDown_moves i c st).comb i k

theorem State.comb_swap (s : State) (i pos k : Nat) : (s.swap i pos).comb i k = ((s.spareIn i pos).combDown i pos 4).comb i k := by
  unfold State.swap
  generalize (s.spareIn i pos).combDown i pos 4 = u
  exact u.comb_setSource i k rfl

theorem State.swap_swaps (s : State) {i pos : Nat} (bay : i < 8) (h : pos < 4) : (s.swap i pos).Swapped i pos := by
  obtain ⟨works, place⟩ := s.spareIn_spare bay h
  unfold State.Swapped
  rw [s.comb_swap, s.comb_swap, State.comb_combDown, State.comb_combDown, if_neg (Nat.ne_of_gt h), if_pos rfl]
  refine ⟨?_, works, place, rfl⟩
  rw [State.spareState, State.fld_congr (s := s.setSpare i 3) _ (State.reg_congr (s.swap_regs i pos) _)]
  exact s.spareState_setSpare (Nat.lt_succ_of_lt bay) (by decide)

/-- A locked spare takes the position that it was armed for, with at most four combs passing light then. -/
theorem State.takeOver_swaps (s : State) {i pos : Nat} (bay : i < 8) (locked : (s.source i).locked = true)
    (armed : (s.source i).armPos = some pos) (h : pos < 4) (few : s.passing i pos ≤ 4) : (s.takeOver i).Swapped i pos := by
  rw [s.takeOver_locked locked armed, if_pos bay, if_neg (Nat.not_lt.2 few), if_pos bay]
  have swapped := s.swap_swaps bay h
  generalize s.swap i pos = u at swapped
  obtain ⟨y, t, spread⟩ := u.spreadAffected_moves i
  rw [spread]
  exact swapped.congr rfl rfl

/-! ### The claims of a swap (R232, R233) -/

theorem State.modTriggers_moves (s : State) (i : ScoreId) (n : Nat) (f : OpenTrigger → OpenTrigger) : s.ClaimsMoved (s.modTriggers i n f) :=
  s.setScore_moves i _

theorem State.scoreFold_moves (s : State) (i : ScoreId) (q : Nat) (f : State → Nat → TimingClaim → State)
    (step : ∀ u n c, State.ClaimsMoved u (f u n c)) : s.ClaimsMoved (s.scoreFold i q f) := by
  refine foldl_does State.ClaimsMoved .refl .trans _ (fun u x => ?_) _ s
  split
  · exact step u _ _
  · exact .refl u

theorem State.noteCause_moves (s : State) (b cause : Nat) : s.ClaimsMoved (s.noteCause b cause) := by
  unfold State.noteCause
  split
  · exact .refl s
  · exact s.scoreFold_moves _ _ _ fun u n c => u.modTriggers_moves _ n _

theorem State.noteSwap_moves (s : State) (b : Nat) : s.ClaimsMoved (s.noteSwap b) := by
  unfold State.noteSwap
  split
  · exact .refl s
  · refine .trans _ _ _ (s.noteCause_moves b 3) (State.scoreFold_moves _ _ _ _ fun u n c => ?_)
    dsimp only
    split
    · exact .trans _ _ _ (u.setScore_moves _ _) (State.promiseRisk_moves _ _ _ _)
    · exact u.setScore_moves _ _

/-! ### SPARE_LOCK (R281, R166) -/

theorem State.spareLock_unlocked (s : State) {i : Nat} (h : s.spareLocked i = false) : s.spareLock i = s := by
  unfold State.spareLock
  rw [h, Bool.not_false, if_pos rfl]

/-- The lock as it is reported, before the swap that it may bring. -/
def State.lockNoted (s : State) (i : Nat) : State := (s.armLast i false).setSource i { s.source i with locked := true }

theorem State.spareLock_locked (s : State) {i : Nat} (h : s.spareLocked i = true) :
    s.spareLock i = if i = 8 then s.lockNoted i
      else if (s.lockNoted i).bayState i = 4 then (s.lockNoted i).takeOver i
      else (s.lockNoted i).modBay i fun y => { y with darkDue := true } := by
  unfold State.spareLock
  rw [h, Bool.not_true, if_neg Bool.false_ne_true]
  rfl

theorem State.lockNoted_source (s : State) (i : Nat) : (s.lockNoted i).source i = { s.source i with locked := true } :=
  State.source_setSource_same _ i _

theorem State.lockNoted_bayState (s : State) (i b : Nat) : (s.lockNoted i).bayState b = s.bayState b := by
  obtain ⟨g, -, regs⟩ := s.armLast_moves i false
  refine State.bayState_congr ?_ b
  rw [← regs 0x10 (by decide)]
  exact State.reg_congr (State.setSource_regs _ i _) 0x10

theorem State.lockNoted_passing (s : State) (i pos : Nat) : (s.lockNoted i).passing i pos = s.passing i pos :=
  State.passing_congr i pos fun k => by
    unfold State.comb
    rw [s.lockNoted_source]

/-! ### The dark window (R22, R166, R167) -/

/-- The end of a dark window, before the swap that it is for. -/
def State.darkEnded (s : State) (b : Nat) : State :=
  ((s.modBay b fun y => { y with darkOn := false }).bump (BAY_DARK.count.on b)).setBitOf GLB_INTERLOCK.dark b true

/-- A bit of a mask that is put into it is there. -/
theorem inMask_insert (m i : Nat) : inMask (m - (if inMask m i then 2 ^ i else 0) + 2 ^ i) i = true := by
  have bit : ∀ n : Nat, inMask n i = n.testBit i := fun n => by
    rw [Nat.testBit_eq_decide_div_mod_eq]
    rfl
  rw [bit, bit]
  cases set : m.testBit i with
  | true => rw [if_pos rfl, Nat.sub_add_cancel (Nat.ge_two_pow_of_testBit set), set]
  | false => rw [if_neg Bool.false_ne_true, Nat.sub_zero, Nat.add_comm, Nat.testBit_two_pow_add_eq, set]; rfl

theorem State.bitOf_setBitOf (s : State) (f : Fld) {i : Nat} (h : f.lo ≤ f.hi) (w : f.hi < 32) (k : i < f.hi - f.lo + 1) :
    (s.setBitOf f i true).bitOf f i = true := by
  unfold State.setBitOf State.bitOf
  rw [s.fld_setFld_same f _ h w, if_pos rfl]
  have bit : ∀ n : Nat, inMask n i = n.testBit i := fun n => by
    rw [Nat.testBit_eq_decide_div_mod_eq]
    rfl
  have put := inMask_insert (s.fld f) i
  rw [bit] at put ⊢
  rw [Nat.testBit_mod_two_pow, decide_eq_true k, Bool.true_and]
  exact put

theorem State.fld_setBitOf_other (s : State) (f g : Fld) (i : Nat) (v : Bool) (h : g.off ≠ f.off) :
    (s.setBitOf f i v).fld g = s.fld g := s.fld_setFld_other f g _ h

theorem State.darkEnded_spec (s : State) {b : Nat} (h : b < 8) :
    ((s.darkEnded b).bay b).darkOn = false ∧
      (s.darkEnded b).fld (BAY_DARK.count.on b) = min (s.fld (BAY_DARK.count.on b) + 1) 65535 ∧
      (s.darkEnded b).bitOf GLB_INTERLOCK.dark b = true := by
  refine ⟨?_, ?_, State.bitOf_setBitOf _ _ (by decide) (by decide) h⟩
  · have bays : (s.darkEnded b).bays = (s.modBay b fun y => { y with darkOn := false }).bays := by
      unfold State.darkEnded State.setBitOf State.bump
      rw [State.setFld_bays, State.setFld_bays]
    rw [State.bay_congr bays, State.bay_modBay_same]
  · have apart : (BAY_DARK.count.on b).off ≠ GLB_INTERLOCK.dark.off := by
      show 0x100018 + b * 0x10000 ≠ 0x14
      omega
    unfold State.darkEnded
    rw [State.fld_setBitOf_other _ _ _ _ _ apart, State.fld_bump_same _ _ _ (by decide : (16 : Nat) ≤ 31) (by decide : (31 : Nat) < 32)]
    rfl

/-- What a swap and the claims it touches leave of the end of a dark window. -/
theorem State.darkEnded_beside (s : State) {b : Nat} (h : b < 8) {u : State} (bays : u.bays = (s.darkEnded b).bays)
    (regs : ∀ off, regBlock off ≠ .lsa → off ≠ GLB_FLT_PTR.wr.off → u.reg off = (s.darkEnded b).reg off) :
    (u.bay b).darkOn = false ∧ u.fld (BAY_DARK.count.on b) = min (s.fld (BAY_DARK.count.on b) + 1) 65535 ∧
      u.bitOf GLB_INTERLOCK.dark b = true := by
  have counter : regBlock (BAY_DARK.count.on b).off = .bay := by
    show regBlock (0x100018 + b * 0x10000) = .bay
    unfold regBlock
    iterate 9 rw [if_neg (by omega)]
    rw [if_pos (by omega)]
  have apart : (BAY_DARK.count.on b).off ≠ GLB_FLT_PTR.wr.off := by
    show 0x100018 + b * 0x10000 ≠ 0x70
    omega
  unfold State.bitOf
  rw [State.bay_congr bays, State.fld_congr _ (regs _ (by rw [counter]; decide) apart),
    State.fld_congr GLB_INTERLOCK.dark (regs _ (by decide) (by decide))]
  exact s.darkEnded_spec h

theorem State.LightMoved.bays {s u : State} (h : s.LightMoved u) : u.bays = s.bays := by
  obtain ⟨t, e, l, f, x, g, m, n, rfl, -⟩ := h
  rfl
theorem State.LightMoved.reg {s u : State} (h : s.LightMoved u) {off : Nat} (o : regBlock off ≠ .lsa) (p : off ≠ GLB_FLT_PTR.wr.off) :
    u.reg off = s.reg off := by
  obtain ⟨t, e, l, f, x, g, m, n, -, regs⟩ := h
  exact regs off o p
theorem State.ClaimsMoved.bays {s u : State} (h : s.ClaimsMoved u) : u.bays = s.bays := by
  obtain ⟨c, x, g, m, n, rfl, -, -⟩ := h
  rfl
theorem State.ClaimsMoved.light {s u : State} (h : s.ClaimsMoved u) : u.light = s.light := by
  obtain ⟨c, x, g, m, n, rfl, -, -⟩ := h
  rfl
theorem State.ClaimsMoved.reg {s u : State} (h : s.ClaimsMoved u) {off : Nat} (p : off ≠ GLB_FLT_PTR.wr.off) : u.reg off = s.reg off := by
  obtain ⟨c, x, g, m, n, -, -, regs⟩ := h
  exact regs off p

/-- The end of a dark window leaves the light as it was. -/
theorem State.darkEnded_source (s : State) (b i : Nat) : (s.darkEnded b).source i = s.source i := by
  have light : (s.darkEnded b).light = s.light := by
    unfold State.darkEnded State.setBitOf State.bump
    rw [State.setFld_light, State.setFld_light, State.modBay_light]
  exact State.source_congr light i

/-- A swap at the end of a dark window, with what it means for the bay's claims. -/
theorem State.darkEnded_swaps (s : State) {b pos : Nat} (h : b < 8) (locked : (s.source b).locked = true)
    (armed : (s.source b).armPos = some pos) (k : pos < 4) (few : s.passing b pos ≤ 4) :
    (((s.darkEnded b).takeOver b).noteSwap b).Swapped b pos := by
  have source := s.darkEnded_source b b
  have passing : (s.darkEnded b).passing b pos = s.passing b pos := State.passing_congr b pos fun c => by
    unfold State.comb
    rw [source]
  have swapped := (s.darkEnded b).takeOver_swaps h ((congrArg Source.locked source).trans locked)
    ((congrArg Source.armPos source).trans armed) k (passing.trans_le few)
  have claims := ((s.darkEnded b).takeOver b).noteSwap_moves b
  exact swapped.congr (claims.reg (by decide)) claims.light

/-! ### The statement -/

theorem State.spareLock_bay (s : State) {i : Nat} (h : s.spareLocked i = true) (bay : i < 8) (running : s.bayState i ≠ 4) :
    s.spareLock i = (s.lockNoted i).modBay i fun y => { y with darkDue := true } := by
  rw [s.spareLock_locked h, if_neg (Nat.ne_of_lt bay), s.lockNoted_bayState, if_neg running]

/-- In a bay that rebinds, the lock makes the swap at once. -/
theorem State.spareLock_swaps (s : State) {i pos : Nat} (h : s.spareLocked i = true) (bay : i < 8) (rebinds : s.bayState i = 4)
    (armed : (s.source i).armPos = some pos) (k : pos < 4) (few : s.passing i pos ≤ 4) : (s.spareLock i).Swapped i pos := by
  have source := s.lockNoted_source i
  rw [s.spareLock_locked h, if_neg (Nat.ne_of_lt bay), s.lockNoted_bayState, if_pos rebinds]
  refine (s.lockNoted i).takeOver_swaps bay ?_ ?_ k ((s.lockNoted_passing i pos).trans_le few)
  · rw [source]
  · rw [source]
    exact armed

theorem State.spareLock_notes (s : State) {i : Nat} (h : s.spareLocked i = true) (bay : i < 8) (running : s.bayState i ≠ 4) :
    ((s.spareLock i).source i).locked = true ∧ ((s.spareLock i).bay i).darkDue = true := by
  rw [s.spareLock_bay h bay running]
  rw [State.source_congr (State.modBay_light _ i _), s.lockNoted_source, State.bay_modBay_same]
  exact ⟨rfl, rfl⟩

theorem State.spareLock_fabric (s : State) (h : s.spareLocked 8 = true) : ((s.spareLock 8).source 8).locked = true := by
  rw [s.spareLock_locked h, if_pos rfl, s.lockNoted_source]

/-- A dark window that starts. -/
def State.darkBegun (s : State) (b : Nat) (align : BitVec 9) : State :=
  (s.modBay b fun y => { y with darkDue := false, darkOn := true }).setFld (BAY_DARK.align.on b) align.toNat

theorem State.darkBegun_spec (s : State) (b : Nat) (align : BitVec 9) :
    ((s.darkBegun b align).bay b).darkOn = true ∧ ((s.darkBegun b align).bay b).darkDue = false ∧
      (s.darkBegun b align).fld (BAY_DARK.align.on b) = align.toNat := by
  unfold State.darkBegun
  rw [State.bay_congr (State.setFld_bays _ _ _), State.bay_modBay_same]
  refine ⟨rfl, rfl, ?_⟩
  rw [State.fld_setFld_same _ _ _ (by decide : (0 : Nat) ≤ 8) (by decide : (8 : Nat) < 32)]
  exact Nat.mod_eq_of_lt align.isLt

/-- Settles O24: the lock's report by the bay's state, and the two ends of the dark window. -/
theorem darkWindowsSwapTheLight : Obligations.DarkWindowsSwapTheLight := by
  intro s i b align
  dsimp only
  have begins : exec (.darkWindowStart b align) s = .next (if ((s.bay b).darkDue && s.bayState b != 4 && s.bayAtBoundary b) = true
    then s.darkBegun b align else s) := rfl
  have ends : exec (.darkWindowEnd b) s = .next (if (s.bay b).darkOn then
    if ((s.darkEnded b).source b).locked then ((s.darkEnded b).takeOver b).noteSwap b else s.darkEnded b else s) := rfl
  refine ⟨fun locked => ⟨s.spareLock i, rfl, s.spareLock_notes locked, fun fabric => ?fabric, fun pos bay rebinds armed h few =>
      s.spareLock_swaps locked bay rebinds armed h few⟩,
    fun unlocked => congrArg Host.Outcome.next (s.spareLock_unlocked unlocked), fun due running boundary => ?begins, fun waits => ?waits,
    fun on => ?ends, fun off => ?off⟩
  case fabric =>
    rw [fabric] at locked ⊢
    exact s.spareLock_fabric locked
  case begins =>
    rw [begins, if_pos (by simp [due, running, boundary])]
    exact ⟨_, rfl, s.darkBegun_spec b align⟩
  case waits =>
    rw [begins, if_neg]
    rcases waits with due | rebinds | boundary
    · simp [due]
    · simp [rebinds]
    · simp [boundary]
  case ends =>
    rw [ends, if_pos on, s.darkEnded_source]
    cases locked : (s.source b).locked with
    | false =>
      obtain ⟨dark, count, shown⟩ := s.darkEnded_beside b.isLt rfl fun _ _ _ => rfl
      exact ⟨_, rfl, dark, count, shown, nofun⟩
    | true =>
      have light := (s.darkEnded b).takeOver_light b
      have claims := ((s.darkEnded b).takeOver b).noteSwap_moves b
      obtain ⟨dark, count, shown⟩ := s.darkEnded_beside b.isLt (claims.bays.trans light.bays) fun off o p =>
        (claims.reg p).trans (light.reg o p)
      exact ⟨_, rfl, dark, count, shown, fun pos _ armed h few => s.darkEnded_swaps b.isLt locked armed h few⟩
  case off => rw [ends, off, if_neg Bool.false_ne_true]

end Sys2Proof.Machine
end

section
/-! SUPPORT. How a host command runs, is answered and begins, and what stands beside it: the taken commands, the bays' states and runs,
the scores (R42, R358, R362, R364). -/

namespace Sys2Proof.Machine

/-! ### The rules of a command -/

/-- A command that may run does what its row is for. -/
theorem State.command_of_mayRun {s : State} {k op : Nat} {c : Taken} (h : s.mayRun k op c) (f : State → Taken → State) :
    s.command k op f = f s c := by
  obtain ⟨taken, opcode, startable, a1, unbarred⟩ := h
  unfold State.command
  rw [taken]
  dsimp only
  rw [if_neg (by simp [opcode, startable]), if_neg, unbarred]
  rintro ⟨state, other⟩
  simp [a1 state] at other

/-- Between two states no command was taken, begun or completed, and no time passed. -/
def State.CmdKept (s u : State) : Prop := u.tick = s.tick ∧ u.cmd.taken = s.cmd.taken ∧ u.cmd.done = s.cmd.done

theorem State.CmdKept.refl (s : State) : s.CmdKept s := ⟨rfl, rfl, rfl⟩
theorem State.CmdKept.trans {s t u : State} (h : s.CmdKept t) (k : t.CmdKept u) : s.CmdKept u :=
  ⟨k.1.trans h.1, k.2.1.trans h.2.1, k.2.2.trans h.2.2⟩

/-- A command that completes in a state where the commands stand as before is answered. -/
theorem State.CmdKept.replied {s t : State} {k : Nat} {c : Taken} (h : s.CmdKept t) (taken : s.cmd.taken[k]? = some c) (st d : Nat)
    (vs : List Nat) : s.Replied (t.complete k st d vs) k c (BitVec.ofNat 8 st) (vs.map (BitVec.ofNat 32)) := by
  obtain ⟨-, same, done⟩ := h
  unfold State.complete State.Replied
  rw [same, taken]
  refine ⟨rfl, fun loud => ?_⟩
  dsimp only
  rw [loud, done, if_neg Bool.false_ne_true]
  exact ⟨_, rfl, rfl, rfl, rfl, rfl, rfl⟩

/-- A command that begins in a state where the commands stand as before has begun. -/
theorem State.CmdKept.begun {s t : State} {k : Nat} {c : Taken} (h : s.CmdKept t) (taken : s.cmd.taken[k]? = some c) :
    s.Begun (t.begin k) k c := by
  obtain ⟨tick, same, done⟩ := h
  unfold State.begin State.Begun
  dsimp only
  rw [same, done, tick, List.getElem?_modify_eq, taken]
  exact ⟨rfl, rfl⟩

/-- A completion changes the command path alone. -/
theorem State.complete_only (s : State) (k st d : Nat) (vs : List Nat) : ∃ x, s.complete k st d vs = { s with cmd := x } := by
  obtain ⟨t, e, done, -⟩ := s.complete_spec k st d vs
  exact ⟨_, done⟩

section
variable (s : State) (k st d : Nat) (vs : List Nat)

theorem State.complete_scores : (s.complete k st d vs).scores = s.scores := by
  obtain ⟨x, e⟩ := s.complete_only k st d vs
  rw [e]
theorem State.complete_bays : (s.complete k st d vs).bays = s.bays := by
  obtain ⟨x, e⟩ := s.complete_only k st d vs
  rw [e]
theorem State.complete_regs : (s.complete k st d vs).regs = s.regs := by
  obtain ⟨x, e⟩ := s.complete_only k st d vs
  rw [e]
theorem State.complete_tiles : (s.complete k st d vs).tiles = s.tiles := by
  obtain ⟨x, e⟩ := s.complete_only k st d vs
  rw [e]
theorem State.complete_fab : (s.complete k st d vs).fab = s.fab := by
  obtain ⟨x, e⟩ := s.complete_only k st d vs
  rw [e]
theorem State.complete_strm : (s.complete k st d vs).strm = s.strm := by
  obtain ⟨x, e⟩ := s.complete_only k st d vs
  rw [e]

end

theorem State.begin_scores (s : State) (k : Nat) : (s.begin k).scores = s.scores := rfl
theorem State.begin_bays (s : State) (k : Nat) : (s.begin k).bays = s.bays := rfl
theorem State.begin_fab (s : State) (k : Nat) : (s.begin k).fab = s.fab := rfl

/-- A refused command changes nothing but the command path. -/
theorem State.mayRun.refused {s : State} {k op : Nat} {c : Taken} (h : s.mayRun k op c) (st : Nat) :
    (s.complete k st).scores = s.scores ∧ s.Replied (s.complete k st) k c (BitVec.ofNat 8 st) [] :=
  ⟨s.complete_scores k st 0 [], (State.CmdKept.refl s).replied h.1 st 0 []⟩

/-! ### What leaves the commands alone -/

theorem State.CmdKept.of_parts {s u : State} (tick : u.tick = s.tick) (cmd : u.cmd = s.cmd) : s.CmdKept u :=
  ⟨tick, congrArg CmdPath.taken cmd, congrArg CmdPath.done cmd⟩
theorem State.CmdKept.setFld (s : State) (f : Fld) (v : Nat) : s.CmdKept (s.setFld f v) := ⟨rfl, rfl, rfl⟩
theorem State.CmdKept.setScore (s : State) (i : ScoreId) (x : Score) : s.CmdKept (s.setScore i x) := ⟨rfl, rfl, rfl⟩
theorem State.CmdKept.modBay (s : State) (b : Nat) (f : Bay → Bay) : s.CmdKept (s.modBay b f) := ⟨rfl, rfl, rfl⟩
theorem State.CmdKept.setQueue (s : State) (q : Nat) (x : Queue) : s.CmdKept (s.setQueue q x) := ⟨rfl, rfl, rfl⟩
theorem State.CmdKept.setSbuf (s : State) (n : Nat) (x : SBuf) : s.CmdKept (s.setSbuf n x) := ⟨rfl, rfl, rfl⟩
theorem State.CmdKept.setRwin (s : State) (w : Nat) (x : RWin) : s.CmdKept (s.setRwin w x) := ⟨rfl, rfl, rfl⟩
theorem State.CmdKept.foldl {α : Type} (f : State → α → State) (step : ∀ u x, State.CmdKept u (f u x)) (l : List α) (s : State) :
    s.CmdKept (l.foldl f s) := foldl_does State.CmdKept .refl (fun _ _ _ => .trans) f step l s
theorem State.BaysMoved.commands {s u : State} (h : s.BaysMoved u) : s.CmdKept u := by
  obtain ⟨y, t, rfl⟩ := h
  exact ⟨rfl, rfl, rfl⟩
theorem State.ClaimsMoved.commands {s u : State} (h : s.ClaimsMoved u) : s.CmdKept u := by
  obtain ⟨c, x, g, m, n, rfl, -, -⟩ := h
  exact ⟨rfl, rfl, rfl⟩
theorem State.LightMoved.commands {s u : State} (h : s.LightMoved u) : s.CmdKept u := by
  obtain ⟨t, e, l, f, x, g, m, n, rfl, -⟩ := h
  exact ⟨rfl, rfl, rfl⟩
theorem State.EnginesMoved.commands {s u : State} (h : s.EnginesMoved u) : s.CmdKept u := by
  obtain ⟨e, rfl⟩ := h
  exact ⟨rfl, rfl, rfl⟩

/-! ### Bays and their states (R42) -/

theorem State.BaysMoved.scores {s u : State} (h : s.BaysMoved u) : u.scores = s.scores := by
  obtain ⟨y, t, rfl⟩ := h
  rfl

theorem State.setBayState_commands (s : State) (b v : Nat) : s.CmdKept (s.setBayState b v) := by
  obtain ⟨g, m, n, e, -⟩ := s.setBayState_spec b v
  rw [e]
  exact ⟨rfl, rfl, rfl⟩
theorem State.setBayState_bays (s : State) (b v : Nat) : (s.setBayState b v).bays = s.bays := by
  obtain ⟨g, m, n, e, -⟩ := s.setBayState_spec b v
  rw [e]
theorem State.setBayState_scores (s : State) (b v : Nat) : (s.setBayState b v).scores = s.scores := by
  obtain ⟨g, m, n, e, -⟩ := s.setBayState_spec b v
  rw [e]
theorem State.setBayState_reg (s : State) (b v : Nat) {off : Nat} (h : off ≠ 0x10) : (s.setBayState b v).reg off = s.reg off := by
  obtain ⟨g, m, n, -, regs⟩ := s.setBayState_spec b v
  exact regs off h

theorem State.sendMsix_regs (s : State) (v : Nat) : (s.sendMsix v).regs = s.regs := by
  obtain ⟨m, n, e⟩ := s.sendMsix_spec v
  rw [e]

theorem State.bayField_setBayField (s : State) {b : Nat} (h : b < 8) (v : Nat) : (s.setBayField b v).bayField b = v % 16 := by
  unfold State.setBayField
  split
  · next same => exact same
  · have width : 4 * b + 3 - 4 * b + 1 = 4 := by omega
    have stored := s.fld_setFld_same (bayFld b) v (Nat.le_add_right _ 3) (show 4 * b + 3 < 32 by omega)
    rw [show (bayFld b).hi - (bayFld b).lo + 1 = 4 from width] at stored
    exact (State.fld_congr _ (State.reg_congr (State.sendMsix_regs _ 5) _)).trans stored

theorem State.bayField_setBayField_other (s : State) {b k : Nat} (h : b < 8) (other : k ≠ b) (v : Nat) :
    (s.setBayField b v).bayField k = s.bayField k := by
  unfold State.setBayField
  split
  · rfl
  · refine (State.fld_congr _ (State.reg_congr (State.sendMsix_regs _ 5) _)).trans ?_
    refine s.fld_setFld_beside (bayFld b) (bayFld k) v rfl (Nat.le_add_right _ 3) ?_ (Nat.le_add_right _ 3) ?_
    · show 4 * b + 3 < 32
      omega
    · show 4 * k + 3 < 4 * b ∨ 4 * b + 3 < 4 * k
      omega

/-- A bay's state after one has been set. -/
theorem State.bayState_setBayState (s : State) {b v : Nat} (h : b < 8) (w : v < 8) (k : Nat) :
    (s.setBayState b v).bayState k = if k = b then v else s.bayState k := by
  unfold State.setBayState State.bayState
  by_cases same : k = b
  · rw [if_pos same, same, s.bayField_setBayField h]
    split <;> omega
  · rw [if_neg same, s.bayField_setBayField_other h same]

/-- A state other than offline is that of one of the eight bays. -/
theorem State.lt_of_bayState (s : State) {b : Nat} (h : s.bayState b ≠ 0) : b < 8 := by
  by_contra far
  refine h ?_
  have small : (s.reg 0x10).toNat < 2 ^ (4 * b) :=
    Nat.lt_of_lt_of_le (s.reg 0x10).isLt (Nat.pow_le_pow_right Nat.two_pos (by omega))
  show bits (s.reg 0x10).toNat (4 * b + 3) (4 * b) % 8 = 0
  unfold bits
  rw [Nat.div_eq_of_lt small, Nat.zero_mod, Nat.zero_mod]

theorem State.bay_modBay (s : State) (b k : Nat) (f : Bay → Bay) : (s.modBay b f).bay k = if k = b then f (s.bay b) else s.bay k :=
  s.bay_setBay b k _

theorem Bay.run_setRun (y : Bay) (c d : Cls) (r : Option SeqRun) : (y.setRun c r).run d = if d = c then r else y.run d := by
  cases c with
  | assured => cases d <;> rfl
  | spare => cases d <;> rfl

theorem Bay.run_setStrand (y : Bay) (j : Nat) (x : Strand) (c : Cls) : (y.setStrand j x).run c = y.run c := by
  cases c with
  | assured => rfl
  | spare => rfl

/-- Between two states the commands, the bays and the register of the bays' states stand as they did. -/
def State.BaysKept (s u : State) : Prop := s.CmdKept u ∧ u.bays = s.bays ∧ u.reg 0x10 = s.reg 0x10

theorem State.BaysKept.refl (s : State) : s.BaysKept s := ⟨.refl s, rfl, rfl⟩
theorem State.BaysKept.trans {s t u : State} (h : s.BaysKept t) (k : t.BaysKept u) : s.BaysKept u :=
  ⟨h.1.trans k.1, k.2.1.trans h.2.1, k.2.2.trans h.2.2⟩
theorem State.BaysKept.foldl {α : Type} (f : State → α → State) (step : ∀ u x, State.BaysKept u (f u x)) (l : List α) (s : State) :
    s.BaysKept (l.foldl f s) := foldl_does State.BaysKept .refl (fun _ _ _ => .trans) f step l s
theorem State.BaysKept.of_regs {s u : State} (cmd : s.CmdKept u) (bays : u.bays = s.bays) (regs : u.regs = s.regs) : s.BaysKept u :=
  ⟨cmd, bays, State.reg_congr regs 0x10⟩
theorem State.BaysKept.setFld (s : State) (f : Fld) (v : Nat) (h : f.off ≠ 0x10) : s.BaysKept (s.setFld f v) :=
  ⟨.setFld s f v, State.setFld_bays s f v, s.reg_setFld_other f v 0x10 (Ne.symm h)⟩
theorem State.ClaimsMoved.baysKept {s u : State} (h : s.ClaimsMoved u) : s.BaysKept u := ⟨h.commands, h.bays, h.reg (by decide)⟩
theorem State.LightMoved.baysKept {s u : State} (h : s.LightMoved u) : s.BaysKept u := ⟨h.commands, h.bays, h.reg (by decide) (by decide)⟩
theorem State.EnginesMoved.baysKept {s u : State} (h : s.EnginesMoved u) : s.BaysKept u := h.light.baysKept

/-! ### Scores -/

theorem State.score_setScore (s : State) (i j : ScoreId) (x : Score) : (s.setScore i x).score j = if j = i then x else s.score j := by
  unfold State.score State.setScore
  rw [Tab.get_set]
  exact ite_congr (propext BitVec.toNat_inj) (fun _ => rfl) fun _ => rfl

theorem State.score_congr {s u : State} (h : u.scores = s.scores) (i : ScoreId) : u.score i = s.score i := by
  unfold State.score
  rw [h]

theorem Score.roleRes_congr {x y : Score} (h : x.bound = y.bound) (kind role : Nat) : x.roleRes kind role = y.roleRes kind role := by
  unfold Score.roleRes
  rw [h]

end Sys2Proof.Machine
end

section
/-! SUPPORT. Scores: what a start sets on its bays, what a stop halts, what an unload releases (R24, R28, R133, R214). -/

namespace Sys2Proof.Machine

/-! ### The claims of a start (R232) -/

/-- Score `i` keeps its state and the roles bound to it. -/
def State.RolesKept (i : ScoreId) (s u : State) : Prop := (u.score i).state = (s.score i).state ∧ (u.score i).bound = (s.score i).bound

theorem State.RolesKept.refl (i : ScoreId) (s : State) : s.RolesKept i s := ⟨rfl, rfl⟩
theorem State.RolesKept.trans {i : ScoreId} {s t u : State} (h : s.RolesKept i t) (k : t.RolesKept i u) : s.RolesKept i u :=
  ⟨k.1.trans h.1, k.2.trans h.2⟩
theorem State.RolesKept.of_scores {i : ScoreId} {s u : State} (h : u.scores = s.scores) : s.RolesKept i u := by
  unfold State.RolesKept
  rw [State.score_congr h]
  exact ⟨rfl, rfl⟩
theorem State.RolesKept.setPromise (i : ScoreId) (s : State) (n : Nat) (p : Promise) :
    s.RolesKept i (s.setScore i ((s.score i).setPromise n p)) := by
  unfold State.RolesKept
  rw [State.score_setScore_same]
  exact ⟨rfl, rfl⟩

theorem State.setPromiseState_roles (s : State) (i : ScoreId) (n : Nat) (st : BitVec 2) (cause : Nat) :
    s.RolesKept i (s.setPromiseState i n st cause) := by
  unfold State.setPromiseState
  extract_lets c p s1
  split
  · exact .refl i s
  · have noted : s.RolesKept i s1 := .setPromise i s n _
    clear_value s1
    generalize ({ cls := 9, code := st.toNat, score := i, unit := n, arg0 := cause, arg1 := p.worst } : FaultRec) = f
    obtain ⟨x, g, m, k, raised, -, -⟩ := s1.raise_spec f
    obtain ⟨m', k', sent⟩ := (s1.raise f).sendMsix_spec 3
    refine noted.trans (.of_scores ?_)
    rw [sent, raised]

/-- A claim as its sequence starts: kept, or at risk where it holds only on the remaining lines of a bay, with the trigger of a start. -/
def State.enterClaim (s : State) (i : ScoreId) (k : Nat) (c : TimingClaim) : State :=
  let p := (s.score i).promise k
  let tight := s.claimTight (s.score i) k c
  let s1 := (s.setScore i ((s.score i).setPromise k { p with worst := 0, since := [] })).setPromiseState i k
    (if tight then 2 else 1) (if tight then 8 else 0)
  if c.trigger = .start then s1.claimTrigger i k else s1

theorem State.startClaims_eq (s : State) (i : ScoreId) (n : Nat) :
    s.startClaims i n = (s.score i).claims.foldl (fun s x => if x.2.seq = n then s.enterClaim i x.1 x.2 else s) s := rfl

theorem State.enterClaim_spec (s : State) (i : ScoreId) (k : Nat) (c : TimingClaim) :
    s.ClaimsMoved (s.enterClaim i k c) ∧ s.RolesKept i (s.enterClaim i k c) := by
  unfold State.enterClaim
  extract_lets p tight s1
  have entered : s.ClaimsMoved s1 ∧ s.RolesKept i s1 :=
    ⟨.trans _ _ _ (s.setScore_moves i _) (State.setPromiseState_moves _ i _ _ _),
      (State.RolesKept.setPromise i s _ _).trans (State.setPromiseState_roles _ i _ _ _)⟩
  clear_value s1
  split
  · exact ⟨.trans _ _ _ entered.1 (s1.claimTrigger_moves i _), entered.2.trans (.setPromise i s1 _ _)⟩
  · exact entered

/-- A start's claims move nothing but claims, and leave the score's state and roles. -/
theorem State.startClaims_spec (s : State) (i : ScoreId) (n : Nat) :
    s.ClaimsMoved (s.startClaims i n) ∧ s.RolesKept i (s.startClaims i n) := by
  rw [s.startClaims_eq]
  refine foldl_does (fun s u => s.ClaimsMoved u ∧ s.RolesKept i u) (fun s => ⟨.refl s, .refl i s⟩)
    (fun _ _ _ h k => ⟨.trans _ _ _ h.1 k.1, h.2.trans k.2⟩) _ (fun u x => ?_) _ s
  split
  · exact u.enterClaim_spec i _ _
  · exact ⟨.refl u, .refl i u⟩

/-! ### The strands of a start (R133, R134) -/

/-- A strand that stands ready for a class. -/
def Strand.readyFor (x : Strand) (c : Cls) : Prop := x.state = .ready ∧ x.cls = c

theorem Bay.strand_setStrand (y : Bay) (j k : Nat) (x : Strand) : (y.setStrand j x).strand k = if k = j then x else y.strand k :=
  Tab.get_set _ _ j k x

/-- Every strand of a started sequence stands ready, and the bay's runs are as they were. -/
theorem Bay.startStrands_spec (y : Bay) (q : SeqDecl) (tick : Nat) :
    (∀ t ∈ q.strands, ((y.startStrands q tick).strand t.1).readyFor q.cls) ∧ ∀ c, (y.startStrands q tick).run c = y.run c := by
  have ready : ∀ (l : List (Nat × BitVec 14)) (y : Bay),
      (∀ j, (y.strand j).readyFor q.cls ∨ j ∈ l.map Prod.fst → ((l.foldl (fun y t => y.setStrand t.1
        { Strand.reset with state := .ready, cls := q.cls, pc := t.2, waitFrom := some tick }) y).strand j).readyFor q.cls) ∧
      ∀ c, (l.foldl (fun y t => y.setStrand t.1
        { Strand.reset with state := .ready, cls := q.cls, pc := t.2, waitFrom := some tick }) y).run c = y.run c := by
    intro l
    induction l with
    | nil => exact fun y => ⟨fun j h => h.resolve_right List.not_mem_nil, fun _ => rfl⟩
    | cons t l ih =>
      intro y
      obtain ⟨strands, runs⟩ := ih (y.setStrand t.1 { Strand.reset with state := .ready, cls := q.cls, pc := t.2, waitFrom := some tick })
      refine ⟨fun j h => strands j ?_, fun c => (runs c).trans (y.run_setStrand _ _ c)⟩
      rw [Bay.strand_setStrand]
      split
      · exact .inl ⟨rfl, rfl⟩
      · next other => exact h.imp_right fun m => (List.mem_cons.1 m).resolve_left other
  obtain ⟨strands, runs⟩ := ready q.strands y
  exact ⟨fun t m => strands t.1 (.inr (List.mem_map_of_mem m)), runs⟩

theorem Bay.strand_setRun (y : Bay) (c : Cls) (r : Option SeqRun) (j : Nat) : (y.setRun c r).strand j = y.strand j := by
  cases c with
  | assured => rfl
  | spare => rfl

/-! ### The start of one sequence (R133, R194) -/

/-- What a sequence that starts runs as. -/
def State.runOf (s : State) (i : ScoreId) (n : Nat) (q : SeqDecl) : SeqRun :=
  ⟨i, n, q.tiles, q.strands.map (·.1), q.first, q.count, q.queues, q.events, s.readDescs q, [], false, false⟩

/-- A bay with a sequence started on it. -/
def State.runOn (s : State) (i : ScoreId) (n : Nat) (q : SeqDecl) (y : Bay) : Bay :=
  (y.startStrands q s.tick).setRun q.cls (some (s.runOf i n q))

/-- A sequence on its bay, before its claims enter. -/
def State.seqPlaced (s : State) (i : ScoreId) (p : Package) (n : Nat) (q : SeqDecl) (b : Nat) : State :=
  let s0 := q.descs.foldl (fun s d => s.countRead d.1) s
  let s1 := s0.modBay b (s.runOn i n q)
  let s2 := q.queues.foldl (fun s t => s.setQueue (32 * b + t.1) ⟨i, q.cls, true, t.2, []⟩) s1
  (s2.startBuffers b (s2.score i) p n q.cls).setBayState b 3

theorem State.startSeq_eq (s : State) {i : ScoreId} {p : Package} {n b : Nat} {q : SeqDecl} (h : p.seqs[n]? = some q)
    (k : (s.score i).roleRes 0 q.bayRole = some b) :
    s.startSeq i p n = if q.cls = .assured then (s.seqPlaced i p n q b).startClaims i n else s.seqPlaced i p n q b := by
  unfold State.startSeq
  rw [h]
  dsimp only
  rw [k]
  rfl

/-- Between two states the commands, the bays with their states, and the scores stand as they did. -/
def State.ScoresKept (s u : State) : Prop := s.BaysKept u ∧ u.scores = s.scores

theorem State.ScoresKept.refl (s : State) : s.ScoresKept s := ⟨.refl s, rfl⟩
theorem State.ScoresKept.trans {s t u : State} (h : s.ScoresKept t) (k : t.ScoresKept u) : s.ScoresKept u :=
  ⟨h.1.trans k.1, k.2.trans h.2⟩
theorem State.ScoresKept.foldl {α : Type} (f : State → α → State) (step : ∀ u x, State.ScoresKept u (f u x)) (l : List α) (s : State) :
    s.ScoresKept (l.foldl f s) := foldl_does State.ScoresKept .refl (fun _ _ _ => .trans) f step l s
theorem State.ScoresKept.countRead (s : State) (a : Nat) : s.ScoresKept (s.countRead a) :=
  ⟨⟨.of_parts (Part.kept_countRead .tick s a nofun nofun) (Part.kept_countRead .cmd s a nofun nofun),
    Part.kept_countRead .bays s a nofun nofun, Part.kept_countRead (.regs .glb) s a nofun nofun 0x10 (by decide)⟩,
    Part.kept_countRead .scores s a nofun nofun⟩
theorem State.ScoresKept.setQueue (s : State) (q : Nat) (x : Queue) : s.ScoresKept (s.setQueue q x) :=
  ⟨⟨.setQueue s q x, rfl, rfl⟩, rfl⟩
theorem State.ScoresKept.setSbuf (s : State) (n : Nat) (x : SBuf) : s.ScoresKept (s.setSbuf n x) := ⟨⟨.setSbuf s n x, rfl, rfl⟩, rfl⟩

theorem State.startBuffers_kept (s : State) (b : Nat) (x : Score) (p : Package) (n : Nat) (c : Cls) :
    s.ScoresKept (s.startBuffers b x p n c) := State.ScoresKept.foldl _ (fun u _ => .setSbuf u _ _) _ s

/-- The descriptors' reads, and the queues and buffers of a sequence, leave the bays and the scores. -/
theorem State.seqPlaced_spec (s : State) (i : ScoreId) (p : Package) (n : Nat) (q : SeqDecl) {b : Nat} (h : b < 8) :
    s.CmdKept (s.seqPlaced i p n q b) ∧ (s.seqPlaced i p n q b).scores = s.scores ∧
      (∀ k, (s.seqPlaced i p n q b).bay k = if k = b then s.runOn i n q (s.bay b) else s.bay k) ∧
      ∀ k, (s.seqPlaced i p n q b).bayState k = if k = b then 3 else s.bayState k := by
  unfold State.seqPlaced
  extract_lets s0 s1 s2
  obtain ⟨⟨cmd0, bays0, reg0⟩, scores0⟩ : s.ScoresKept s0 := State.ScoresKept.foldl _ (fun u _ => .countRead u _) _ s
  have queues : s1.ScoresKept s2 := State.ScoresKept.foldl _ (fun u _ => .setQueue u _ _) _ s1
  obtain ⟨⟨cmd3, bays3, reg3⟩, scores3⟩ := queues.trans (s2.startBuffers_kept b (s2.score i) p n q.cls)
  have cmd1 : s.CmdKept s1 := cmd0.trans (.modBay s0 b _)
  have scores1 : s1.scores = s.scores := (State.modBay_scores s0 b _).trans scores0
  have reg1 : s1.reg 0x10 = s.reg 0x10 := (State.reg_congr (State.modBay_regs s0 b _) 0x10).trans reg0
  have bays1 : ∀ k, s1.bay k = if k = b then s.runOn i n q (s.bay b) else s.bay k := fun k => by
    rw [State.bay_modBay, State.bay_congr bays0, State.bay_congr bays0]
  clear_value s0 s1 s2
  generalize s2.startBuffers b (s2.score i) p n q.cls = s3 at cmd3 bays3 reg3 scores3
  refine ⟨cmd1.trans (cmd3.trans (s3.setBayState_commands b 3)), ?_, fun k => ?_, fun k => ?_⟩
  · rw [State.setBayState_scores, scores3, scores1]
  · rw [State.bay_congr (s3.setBayState_bays b 3), State.bay_congr bays3, bays1]
  · rw [s3.bayState_setBayState h (by decide), State.bayState_congr (reg3.trans reg1)]

theorem State.startSeq_spec (s : State) {i : ScoreId} {p : Package} {n b : Nat} {q : SeqDecl} (h : p.seqs[n]? = some q)
    (k : (s.score i).roleRes 0 q.bayRole = some b) (bay : b < 8) :
    s.CmdKept (s.startSeq i p n) ∧ s.RolesKept i (s.startSeq i p n) ∧
      (∀ k, (s.startSeq i p n).bay k = if k = b then s.runOn i n q (s.bay b) else s.bay k) ∧
      ∀ k, (s.startSeq i p n).bayState k = if k = b then 3 else s.bayState k := by
  obtain ⟨cmd, scores, bays, states⟩ := s.seqPlaced_spec i p n q bay
  rw [s.startSeq_eq h k]
  generalize s.seqPlaced i p n q b = u at cmd scores bays states
  split
  · obtain ⟨claims, roles⟩ := u.startClaims_spec i n
    exact ⟨cmd.trans claims.commands, (State.RolesKept.of_scores scores).trans roles, fun k => (State.bay_congr claims.bays k).trans (bays k),
      fun k => (State.bayState_congr (claims.reg (by decide)) k).trans (states k)⟩
  · exact ⟨cmd, .of_scores scores, bays, states⟩

/-! ### The start of several sequences (R28, R214) -/

theorem Score.places_congr {x y : Score} (h : x.bound = y.bound) (p : Package) (l : List Nat) : x.places p l = y.places p l := by
  unfold Score.places Score.roleRes
  rw [h]

theorem Score.places_cons {x : Score} {p : Package} {n b : Nat} {q : SeqDecl} (h : p.seqs[n]? = some q)
    (k : x.roleRes 0 q.bayRole = some b) (l : List Nat) : x.places p (n :: l) = (b, q.cls) :: x.places p l := by
  unfold Score.places
  rw [List.filterMap_cons_some]
  rw [h]
  dsimp only [Option.bind_some]
  rw [k]
  rfl

/-- Sequences of a score that run on their bays: each bay is running, and holds the run of the sequence's class. -/
def State.SeqOn (u : State) (i : ScoreId) (n : Nat) (q : SeqDecl) (b : Nat) : Prop :=
  u.bayState b = 3 ∧ ∃ r, (u.bay b).run q.cls = some r ∧ r.score = i ∧ r.index = n

theorem State.run_startSeq (s : State) {i : ScoreId} {n : Nat} {q : SeqDecl} (y : Bay) (c : Cls) :
    (s.runOn i n q y).run c = if c = q.cls then some (s.runOf i n q) else y.run c := by
  unfold State.runOn
  rw [Bay.run_setRun, (y.startStrands_spec q s.tick).2]

/-- Sequences of a score, started in turn, no two in one place. -/
theorem State.startSeqs_spec (i : ScoreId) (p : Package) (l : List Nat) (s : State)
    (there : ∀ n ∈ l, ∃ q b, p.seqs[n]? = some q ∧ (s.score i).roleRes 0 q.bayRole = some b ∧ b < 8)
    (apart : ((s.score i).places p l).Nodup) :
    let u := l.foldl (fun s n => s.startSeq i p n) s
    s.CmdKept u ∧ s.RolesKept i u ∧ (∀ b, s.bayState b = 3 → u.bayState b = 3) ∧
      (∀ b c, (b, c) ∉ (s.score i).places p l → (u.bay b).run c = (s.bay b).run c) ∧
      ∀ n ∈ l, ∀ q b, p.seqs[n]? = some q → (s.score i).roleRes 0 q.bayRole = some b → u.SeqOn i n q b := by
  induction l generalizing s with
  | nil => exact ⟨.refl s, .refl i s, fun _ h => h, fun _ _ _ => rfl, fun n m => absurd m List.not_mem_nil⟩
  | cons n l ih =>
    obtain ⟨q, b, seq, res, bay⟩ := there n List.mem_cons_self
    obtain ⟨cmd, roles, bays, states⟩ := s.startSeq_spec seq res bay
    rw [Score.places_cons seq res] at apart ⊢
    obtain ⟨fresh, apart⟩ := List.nodup_cons.1 apart
    have res' : ∀ kind role, ((s.startSeq i p n).score i).roleRes kind role = (s.score i).roleRes kind role :=
      Score.roleRes_congr roles.2
    have places' : ((s.startSeq i p n).score i).places p l = (s.score i).places p l := Score.places_congr roles.2 p l
    obtain ⟨cmd', roles', running, others, started⟩ := ih (s.startSeq i p n) (fun m h => by
      simpa only [res'] using there m (List.mem_cons_of_mem n h)) (places' ▸ apart)
    rw [places'] at others
    intro u
    refine ⟨cmd.trans cmd', roles.trans roles', fun k h => running k ?_, fun k c h => ?_, fun m h q' b' seq' res'' => ?_⟩
    · rw [states, h, ite_self]
    · rw [List.mem_cons, not_or, Prod.mk.injEq, not_and] at h
      refine (others k c h.2).trans ?_
      rw [bays]
      split
      · next same => rw [State.run_startSeq, if_neg (h.1 same), same]
      · rfl
    · rcases List.mem_cons.1 h with rfl | h
      · obtain rfl : q = q' := Option.some.inj (seq.symm.trans seq')
        obtain rfl : b = b' := Option.some.inj (res.symm.trans res'')
        refine ⟨running b ?_, s.runOf i m q, (others b q.cls fresh).trans ?_, rfl, rfl⟩
        · rw [states, if_pos rfl]
        · rw [bays, if_pos rfl, State.run_startSeq, if_pos rfl]
      · exact started m h q' b' seq' (by rw [res']; exact res'')

/-! ### START (R24, R133, R214) -/

/-- A first start makes the score running and touches its bays' counters alone. -/
theorem State.firstStart_spec (s : State) (i : ScoreId) :
    s.CmdKept (s.firstStart i) ∧ (s.firstStart i).regs = s.regs ∧ ((s.firstStart i).score i).state = .running ∧
      ((s.firstStart i).score i).bound = (s.score i).bound ∧ ∀ b c, ((s.firstStart i).bay b).run c = (s.bay b).run c := by
  unfold State.firstStart
  extract_lets x s1
  split
  · next running => exact ⟨.refl s, rfl, running, rfl, fun _ _ => rfl⟩
  · have first : s1.score i = { x with state := .running, counters := [], batches := [] } := State.score_setScore_same s i _
    have counters : ∀ u b, State.CmdKept u (u.modBay b fun y => { y with events := [] }) ∧
        (∀ k c, ((u.modBay b fun y => { y with events := [] }).bay k).run c = (u.bay k).run c) := fun u b =>
      ⟨.modBay u b _, fun k c => by
        rw [State.bay_modBay]
        split
        · next same =>
          rw [same]
          cases c <;> rfl
        · rfl⟩
    have fold : ∀ l : List Nat, s1.CmdKept (l.foldl (fun s b => s.modBay b fun y => { y with events := [] }) s1) ∧
        (l.foldl (fun s b => s.modBay b fun y => { y with events := [] }) s1).regs = s1.regs ∧
        (l.foldl (fun s b => s.modBay b fun y => { y with events := [] }) s1).scores = s1.scores ∧
        ∀ k c, ((l.foldl (fun s b => s.modBay b fun y => { y with events := [] }) s1).bay k).run c = (s1.bay k).run c := fun l =>
      foldl_does (fun s u => s.CmdKept u ∧ u.regs = s.regs ∧ u.scores = s.scores ∧ ∀ k c, (u.bay k).run c = (s.bay k).run c)
        (fun s => ⟨.refl s, rfl, rfl, fun _ _ => rfl⟩)
        (fun _ _ _ h k => ⟨h.1.trans k.1, k.2.1.trans h.2.1, k.2.2.1.trans h.2.2.1, fun b c => (k.2.2.2 b c).trans (h.2.2.2 b c)⟩)
        _ (fun u b => ⟨(counters u b).1, rfl, rfl, (counters u b).2⟩) l s1
    obtain ⟨cmd, regs, scores, runs⟩ := fold ((List.range 8).filter fun b => s.bayScore b == i)
    rw [State.score_congr scores, first]
    exact ⟨(State.CmdKept.setScore s i _).trans cmd, regs, rfl, rfl, runs⟩

/-- What a command that names a score and a mask of its sequences finds: both words in range, the score there, its package, and every
sequence of the mask in the package. -/
structure State.NamesSeqs (s : State) (c : Taken) (p : Package) : Prop where
  score : c.p 0 < 65536
  mask : c.p 1 < 65536
  there : (s.score (BitVec.ofNat 16 (c.p 0))).state ≠ .none
  pkg : (s.score (BitVec.ofNat 16 (c.p 0))).pkg = some p
  inside : ∀ n ∈ maskSeqs p (c.p 1), n < p.seqs.length

theorem any_beyond_eq_false {l : List Nat} {m : Nat} (h : ∀ n ∈ l, n < m) : (l.any fun n => decide (m ≤ n)) = false := by
  rw [List.any_eq_false]
  intro n k
  simpa using h n k

theorem State.start_eq (s : State) (k : Nat) {c : Taken} {p : Package} (h : s.NamesSeqs c p) :
    s.start k c =
      let i := BitVec.ofNat 16 (c.p 0)
      let x := s.score i
      let l := maskSeqs p (c.p 1)
      if l.any (s.slotsPending x p) then s
      else if (x.state ≠ .loaded ∧ x.state ≠ .running) ∨ !l.all (s.mayStart x p) ∨ !(x.places p l).Nodup then s.complete k 5
      else (l.foldl (fun s n => s.startSeq i p n) (s.firstStart i)).complete k 0 := by
  obtain ⟨score, mask, there, pkg, inside⟩ := h
  unfold State.start
  dsimp only
  rw [if_neg (by omega), if_neg there, pkg]
  dsimp only
  rw [any_beyond_eq_false inside, if_neg Bool.false_ne_true]

/-- A sequence that may start has a bay of its score. -/
theorem State.of_mayStart (s : State) {x : Score} {p : Package} {n : Nat} (h : s.mayStart x p n = true) :
    ∃ q b, p.seqs[n]? = some q ∧ x.roleRes 0 q.bayRole = some b ∧ b < 8 := by
  unfold State.mayStart at h
  cases seq : p.seqs[n]? with
  | none =>
    rw [seq] at h
    exact absurd h Bool.false_ne_true
  | some q =>
    rw [seq] at h
    dsimp only at h
    cases res : x.roleRes 0 q.bayRole with
    | none =>
      rw [res] at h
      exact absurd h Bool.false_ne_true
    | some b =>
      rw [res] at h
      dsimp only at h
      simp only [Bool.and_eq_true, Bool.or_eq_true, beq_iff_eq] at h
      obtain ⟨⟨⟨state, -⟩, -⟩, -⟩ := h
      exact ⟨q, b, rfl, res, s.lt_of_bayState (by omega)⟩

/-- A start of sequences that may start: each runs on its bay, and the strands of one that starts alone stand ready. -/
theorem State.started_spec (s : State) {i : ScoreId} {p : Package} {l : List Nat} (all : l.all (s.mayStart (s.score i) p) = true)
    (apart : ((s.score i).places p l).Nodup) :
    let u := l.foldl (fun s n => s.startSeq i p n) (s.firstStart i)
    s.CmdKept u ∧ (u.score i).state = .running ∧
      ∀ n ∈ l, ∀ q b, p.seqs[n]? = some q → (s.score i).roleRes 0 q.bayRole = some b → u.SeqOn i n q b ∧
        (l = [n] → ∀ t ∈ q.strands, (u.strand b t.1).readyFor q.cls) := by
  intro u
  obtain ⟨cmd, -, running, bound, -⟩ := s.firstStart_spec i
  have res : ∀ kind role, ((s.firstStart i).score i).roleRes kind role = (s.score i).roleRes kind role := Score.roleRes_congr bound
  have there : ∀ n ∈ l, ∃ q b, p.seqs[n]? = some q ∧ ((s.firstStart i).score i).roleRes 0 q.bayRole = some b ∧ b < 8 := fun n m => by
    rw [List.all_eq_true] at all
    simpa only [res] using s.of_mayStart (all n m)
  obtain ⟨cmd', roles, -, -, started⟩ := State.startSeqs_spec i p l (s.firstStart i) there (by rwa [Score.places_congr bound])
  refine ⟨cmd.trans cmd', roles.1.trans running, fun n m q b seq at_b => ⟨started n m q b seq (by rwa [res]), fun alone t strand => ?_⟩⟩
  have bay : b < 8 := by
    obtain ⟨q', b', seq', at_b', bay⟩ := there n m
    obtain rfl : q = q' := Option.some.inj (seq.symm.trans seq')
    rw [res, at_b] at at_b'
    exact Option.some.inj at_b' ▸ bay
  obtain ⟨-, -, bays, -⟩ := (s.firstStart i).startSeq_spec seq (by rwa [res]) bay
  have only : u = (s.firstStart i).startSeq i p n := by
    show l.foldl _ _ = _
    rw [alone]
    rfl
  have strands := (((s.firstStart i).bay b).startStrands_spec q (s.firstStart i).tick).1 t strand
  rw [only, State.strand, bays, if_pos rfl]
  unfold State.runOn
  rw [Bay.strand_setRun]
  exact strands

/-! ### STOP (R214) -/

/-- A run after a stop of the sequences that a list names. -/
def stopNamed (i : ScoreId) (l : List Nat) (r : Option SeqRun) : Option SeqRun :=
  r.map fun r => if r.score = i ∧ l.contains r.index then { r with stopping := true } else r

theorem stopNamed_idem (i : ScoreId) (l : List Nat) (r : Option SeqRun) : stopNamed i l (stopNamed i l r) = stopNamed i l r := by
  cases r with
  | none => rfl
  | some r =>
    unfold stopNamed
    rw [Option.map_some, Option.map_some]
    by_cases named : r.score = i ∧ l.contains r.index = true
    · rw [if_pos named]
      exact congrArg some (if_pos named)
    · rw [if_neg named, if_neg named]

theorem stopNamed_some {i : ScoreId} {l : List Nat} {r : SeqRun} (h : r.score = i) (k : r.index ∈ l) :
    stopNamed i l (some r) = some { r with stopping := true } :=
  congrArg some (if_pos ⟨h, List.contains_iff_mem.2 k⟩)

/-- Halts the sequence of a bay and a class where a list names it. -/
def State.haltNamed (s : State) (i : ScoreId) (l : List Nat) (b : Nat) (c : Cls) : State :=
  match (s.bay b).run c with
  | some r => if r.score = i ∧ l.contains r.index then s.haltSeq b c else s
  | none => s

theorem State.haltSeqs_eq (s : State) (i : ScoreId) (l : List Nat) :
    s.haltSeqs i l = (List.range 8).foldl (fun s b => (s.haltNamed i l b .assured).haltNamed i l b .spare) s := rfl

/-- Strands that are set leave a bay's runs. -/
theorem Bay.run_foldl (f : Bay → Nat → Bay) (step : ∀ y j c, (f y j).run c = y.run c) (js : List Nat) (y : Bay) (c : Cls) :
    (js.foldl f y).run c = y.run c := by
  induction js generalizing y with
  | nil => rfl
  | cons j js ih => exact (ih _).trans (step y j c)

theorem State.haltSeq_spec (s : State) {b : Nat} {c : Cls} {r : SeqRun} (h : (s.bay b).run c = some r) :
    s.BaysMoved (s.haltSeq b c) ∧ ∀ k d, ((s.haltSeq b c).bay k).run d =
      if k = b ∧ d = c then some { r with stopping := true } else (s.bay k).run d := by
  unfold State.haltSeq
  rw [h]
  refine ⟨s.modBay_moves b _, fun k d => ?_⟩
  rw [State.bay_modBay]
  by_cases here : k = b
  · rw [if_pos here, Bay.run_setRun, here]
    by_cases same : d = c
    · rw [if_pos same, if_pos ⟨rfl, same⟩]
    · rw [if_neg same, if_neg fun both => same both.2]
      refine Bay.run_foldl _ (fun y j e => ?_) _ _ d
      split
      · rfl
      · exact y.run_setStrand _ _ e
  · rw [if_neg here, if_neg fun both => here both.1]

theorem State.haltNamed_spec (s : State) (i : ScoreId) (l : List Nat) (b : Nat) (c : Cls) :
    s.BaysMoved (s.haltNamed i l b c) ∧ ∀ k d, ((s.haltNamed i l b c).bay k).run d =
      if k = b ∧ d = c then stopNamed i l ((s.bay k).run d) else (s.bay k).run d := by
  unfold State.haltNamed
  cases run : (s.bay b).run c with
  | none =>
    refine ⟨.refl s, fun k d => ?_⟩
    by_cases same : k = b ∧ d = c
    · rw [if_pos same, same.1, same.2]
      dsimp only
      rw [run]
      rfl
    · exact (if_neg same).symm
  | some r =>
    dsimp only
    split
    · next named =>
      obtain ⟨moved, runs⟩ := s.haltSeq_spec run
      refine ⟨moved, fun k d => (runs k d).trans ?_⟩
      split
      · next same => rw [same.1, same.2, run, stopNamed_some named.1 (List.contains_iff_mem.1 named.2)]
      · rfl
    · next other =>
      refine ⟨.refl s, fun k d => ?_⟩
      split
      · next same =>
        rw [same.1, same.2, run]
        exact (congrArg some (if_neg other)).symm
      · rfl

/-- What a list names is stopped on every bay, and nothing else about the runs changes. -/
theorem State.haltSeqs_spec (s : State) (i : ScoreId) (l : List Nat) :
    s.BaysMoved (s.haltSeqs i l) ∧ ∀ k d, k < 8 → ((s.haltSeqs i l).bay k).run d = stopNamed i l ((s.bay k).run d) := by
  have bays : ∀ (bs : List Nat) (s : State),
      let u := bs.foldl (fun s b => (s.haltNamed i l b .assured).haltNamed i l b .spare) s
      s.BaysMoved u ∧ ∀ k d, (u.bay k).run d = if k ∈ bs then stopNamed i l ((s.bay k).run d) else (s.bay k).run d := by
    intro bs
    induction bs with
    | nil => exact fun s => ⟨.refl s, fun k d => (if_neg List.not_mem_nil).symm⟩
    | cons b bs ih =>
      intro s
      obtain ⟨moved, first⟩ := s.haltNamed_spec i l b .assured
      obtain ⟨moved', second⟩ := (s.haltNamed i l b .assured).haltNamed_spec i l b .spare
      obtain ⟨rest, runs⟩ := ih ((s.haltNamed i l b .assured).haltNamed i l b .spare)
      refine ⟨.trans _ _ _ moved (.trans _ _ _ moved' rest), fun k d => (runs k d).trans ?_⟩
      have here : (((s.haltNamed i l b .assured).haltNamed i l b .spare).bay k).run d =
          if k = b then stopNamed i l ((s.bay k).run d) else (s.bay k).run d := by
        rw [second, first]
        cases d <;> simp
      rw [here]
      by_cases same : k = b
      · rw [if_pos same, stopNamed_idem, ite_self, if_pos (List.mem_cons.2 (.inl same))]
      · rw [if_neg same]
        exact if_congr (by rw [List.mem_cons, or_iff_right same]) rfl rfl
  obtain ⟨moved, runs⟩ := bays (List.range 8) s
  rw [s.haltSeqs_eq]
  exact ⟨moved, fun k d h => (runs k d).trans (if_pos (List.mem_range.2 h))⟩

theorem State.stop_eq (s : State) (k : Nat) {c : Taken} {p : Package} (h : s.NamesSeqs c p) :
    s.stop k c =
      let i := BitVec.ofNat 16 (c.p 0)
      let l := maskSeqs p (c.p 1)
      if (s.score i).state ≠ .running then s.complete k 5
      else if l.any (s.seqRuns i) then (s.haltSeqs i l).begin k
      else s.complete k 0 0 [0] := by
  obtain ⟨score, mask, there, pkg, inside⟩ := h
  unfold State.stop
  dsimp only
  rw [if_neg (by omega), if_neg there, pkg]
  dsimp only
  rw [any_beyond_eq_false inside, if_neg Bool.false_ne_true]

/-! ### UNLOAD (R31, R214) -/

theorem State.CmdKept.setGroup (s : State) (p g : Nat) (x : FabGroup) : s.CmdKept (s.setGroup p g x) := ⟨rfl, rfl, rfl⟩

/-- A bay that is given up: its owner, itself and its state. -/
theorem State.freeBay_spec (s : State) (b : Nat) : s.CmdKept (s.freeBay b) ∧ (s.freeBay b).scores = s.scores := by
  unfold State.freeBay
  extract_lets s1 s2
  have released : s.CmdKept s2 := (State.CmdKept.setFld s _ _).trans (.modBay s1 b _)
  split
  · exact ⟨released.trans (s2.setBayState_commands b 1), s2.setBayState_scores b 1⟩
  · exact ⟨released, rfl⟩

theorem State.freeGroup_commands (s : State) (n : Nat) : s.CmdKept (s.freeGroup n) := by
  unfold State.freeGroup
  extract_lets g s1
  have unbound : s.CmdKept s1 := .setGroup s _ _ _
  clear_value s1
  exact unbound.trans ⟨rfl, rfl, rfl⟩
theorem State.freeGran_commands (s : State) (n : Nat) : s.CmdKept (s.freeGran n) := by
  unfold State.freeGran
  extract_lets codes other owner
  clear_value owner
  exact ⟨rfl, rfl, rfl⟩

theorem State.freeHomes_commands (s : State) (i : ScoreId) : s.CmdKept (s.freeHomes i) :=
  State.CmdKept.foldl _ (fun u n => u.freeGran_commands n) _ s

/-- Granules that are freed are held by no one, and every other as before. -/
theorem State.sgran_freeGrans (l : List Nat) (s : State) (n : Nat) :
    Tab.get dZero (l.foldl State.freeGran s).scores.sgran n = if n ∈ l then 0 else Tab.get dZero s.scores.sgran n := by
  induction l generalizing s with
  | nil => rw [if_neg List.not_mem_nil]; rfl
  | cons m l ih =>
    rw [List.foldl_cons, ih]
    have here : Tab.get dZero (s.freeGran m).scores.sgran n = if n = m then 0 else Tab.get dZero s.scores.sgran n :=
      Tab.get_set dZero s.scores.sgran m n 0
    rw [here]
    by_cases same : n = m
    · rw [if_pos same, ite_self, if_pos (same ▸ List.mem_cons_self)]
    · rw [if_neg same]
      exact if_congr (by rw [List.mem_cons, or_iff_right same]) rfl rfl

/-- What a table says of a number, it says in an entry, or the number is unlisted. -/
theorem Tab.mem_of_get {α : Type} (d : Nat → α) (t : Tab α) (k : Nat) : (k, Tab.get d t k) ∈ t ∨ Tab.get d t k = d k := by
  induction t with
  | nil => exact .inr rfl
  | cons p t ih =>
    unfold Tab.get
    split
    · next same => exact .inl (same ▸ List.mem_cons_self)
    · exact ih.imp_left (List.mem_cons_of_mem p)

theorem mem_heldBy {t : Tab ScoreId} {i : ScoreId} {n : Nat} (h : Tab.get dZero t n = i) (k : i ≠ 0) : n ∈ heldBy t i.toNat := by
  have listed := (Tab.mem_of_get dZero t n).resolve_right fun unlisted => k (h.symm.trans unlisted)
  rw [h] at listed
  exact List.mem_map.2 ⟨(n, i), List.mem_filter.2 ⟨listed, beq_self_eq_true i.toNat⟩, rfl⟩

/-- A score's home granules are held by it no more. -/
theorem State.freeHomes_spec (s : State) (i : ScoreId) (n : Nat) (h : Tab.get dZero (s.freeHomes i).scores.sgran n = i) : i = 0 := by
  have freed : Tab.get dZero (s.freeHomes i).scores.sgran n =
      if n ∈ heldBy s.scores.sgran i.toNat then 0 else Tab.get dZero s.scores.sgran n := State.sgran_freeGrans _ s n
  rw [freed] at h
  split at h
  · exact h.symm
  · next others =>
    by_contra named
    exact others (mem_heldBy h named)

/-- What is left of a score when all that it holds is released. -/
theorem State.releaseAll_spec (s : State) (i : ScoreId) :
    s.CmdKept (s.releaseAll i) ∧ (s.releaseAll i).score i = Score.reset ∧ i ∉ (s.releaseAll i).scores.loads ∧
      ∀ n, Tab.get dZero (s.releaseAll i).scores.sgran n = i → i = 0 := by
  unfold State.releaseAll
  extract_lets s1 s2 s3 s4 s5
  have bays : s.CmdKept s1 := State.CmdKept.foldl _ (fun u b => (u.freeBay_spec b).1) _ s
  have groups : s1.CmdKept s2 := State.CmdKept.foldl _ (fun u n => u.freeGroup_commands n) _ s1
  have wins : s2.CmdKept s3 := State.CmdKept.foldl _ (fun u w => .setRwin u w _) _ s2
  have queues : s3.CmdKept s4 := State.CmdKept.foldl _ (fun u n => .setQueue u _ _) _ s3
  have homes : s4.CmdKept s5 := s4.freeHomes_commands i
  have freed : ∀ n, Tab.get dZero s5.scores.sgran n = i → i = 0 := s4.freeHomes_spec i
  have commands := bays.trans (groups.trans (wins.trans (queues.trans homes)))
  clear_value s5
  refine ⟨commands.trans ⟨rfl, rfl, rfl⟩, State.score_setScore_same _ i _, ?_, freed⟩
  intro waiting
  have kept := (List.mem_filter.1 waiting).2
  simp at kept

/-- A next analysis leaves a score that does not wait for one, and the granules. -/
theorem State.nextAnalysis_spec (s : State) {i : ScoreId} (h : i ∉ s.scores.loads) :
    s.CmdKept s.nextAnalysis ∧ s.nextAnalysis.score i = s.score i ∧ s.nextAnalysis.scores.sgran = s.scores.sgran := by
  unfold State.nextAnalysis
  cases loads : s.scores.loads with
  | nil => exact ⟨.refl s, rfl, rfl⟩
  | cons j l =>
    dsimp only
    have other : i ≠ j := fun same => h (loads ▸ same ▸ List.mem_cons_self)
    split
    · exact ⟨.setScore s j _, (s.score_setScore j i _).trans (if_neg other), rfl⟩
    · exact ⟨.refl s, rfl, rfl⟩

theorem State.unload_eq (s : State) (k : Nat) {c : Taken} (h : c.p 0 < 65536)
    (there : (s.score (BitVec.ofNat 16 (c.p 0))).state ≠ .none) :
    s.unload k c =
      let i := BitVec.ofNat 16 (c.p 0)
      if s.scoreRuns i then ((s.setScore i { s.score i with state := .unloading }).haltSeqs i (List.range 16)).begin k
      else s.finishUnload k i := by
  unfold State.unload
  dsimp only
  rw [if_neg (Nat.not_le.2 h), if_neg there]

/-- A measured score changes the measurement registers alone. -/
theorem State.measureScore_only (s : State) (event : Nat) (i : ScoreId) (d : List Byte) :
    ∃ x, s.measureScore event i d = { s with sec := x } := ⟨_, rfl⟩

/-- The state of an unload of a score at rest, before the measurement and the reply. -/
theorem State.released_spec (s : State) (i : ScoreId) :
    s.CmdKept (s.releaseAll i).nextAnalysis ∧ (s.releaseAll i).nextAnalysis.score i = Score.reset ∧
      ∀ n, Tab.get dZero (s.releaseAll i).nextAnalysis.scores.sgran n = i → i = 0 := by
  obtain ⟨commands, reset, unwaiting, freed⟩ := s.releaseAll_spec i
  obtain ⟨next, score, sgran⟩ := (s.releaseAll i).nextAnalysis_spec unwaiting
  refine ⟨commands.trans next, score.trans reset, fun n held => freed n ?_⟩
  rw [← sgran]
  exact held

/-- An unload of a score at rest: the state before its reply. -/
theorem State.finishUnload_spec (s : State) (k : Nat) (i : ScoreId) :
    ∃ t, s.finishUnload k i = t.complete k 0 ∧ s.CmdKept t ∧ t.score i = Score.reset ∧
      ∀ n, Tab.get dZero t.scores.sgran n = i → i = 0 := by
  obtain ⟨released, gone, freed⟩ := s.released_spec i
  unfold State.finishUnload
  generalize (s.releaseAll i).nextAnalysis = u at released gone freed
  dsimp only
  split
  · obtain ⟨x, measured⟩ := u.measureScore_only 2 i (s.score i).digest
    rw [measured]
    exact ⟨_, rfl, ⟨released.1, released.2.1, released.2.2⟩, gone, freed⟩
  · exact ⟨u, rfl, released, gone, freed⟩

/-! ### The statement -/

theorem State.start_absent (s : State) (k : Nat) {c : Taken} (h : c.p 0 < 65536) (m : c.p 1 < 65536)
    (absent : (s.score (BitVec.ofNat 16 (c.p 0))).state = .none) : s.start k c = s.complete k 4 := by
  unfold State.start
  dsimp only
  rw [if_neg (by omega), if_pos absent]

theorem State.stop_absent (s : State) (k : Nat) {c : Taken} (h : c.p 0 < 65536) (m : c.p 1 < 65536)
    (absent : (s.score (BitVec.ofNat 16 (c.p 0))).state = .none) : s.stop k c = s.complete k 4 := by
  unfold State.stop
  dsimp only
  rw [if_neg (by omega), if_pos absent]

theorem State.unload_absent (s : State) (k : Nat) {c : Taken} (h : c.p 0 < 65536)
    (absent : (s.score (BitVec.ofNat 16 (c.p 0))).state = .none) : s.unload k c = s.complete k 4 := by
  unfold State.unload
  dsimp only
  rw [if_neg (Nat.not_le.2 h), if_pos absent]

/-- A start, a stop or an unload that may run finds what it names, and does what its row says. -/
theorem exec_start {s : State} {k : Nat} {c : Taken} (h : s.mayRun k 0x0104 c) : exec (.start k) s = .next (s.start k c) :=
  congrArg Host.Outcome.next (State.command_of_mayRun h (·.start k))
theorem exec_stop {s : State} {k : Nat} {c : Taken} (h : s.mayRun k 0x0105 c) : exec (.stop k) s = .next (s.stop k c) :=
  congrArg Host.Outcome.next (State.command_of_mayRun h (·.stop k))
theorem exec_unload {s : State} {k : Nat} {c : Taken} (h : s.mayRun k 0x0106 c) : exec (.unload k) s = .next (s.unload k c) :=
  congrArg Host.Outcome.next (State.command_of_mayRun h (·.unload k))

/-- The sequences of a start may start: the score is there to run, each may start, and no two take one place (R28, R214). -/
def State.mayStartAll (s : State) (x : Score) (p : Package) (l : List Nat) : Prop :=
  (x.state = .loaded ∨ x.state = .running) ∧ l.all (s.mayStart x p) = true ∧ (x.places p l).Nodup

/-- A start that may not start any sequence is answered with status 5. -/
theorem State.start_refused (s : State) (k : Nat) {c : Taken} {p : Package} (h : s.NamesSeqs c p)
    (free : (maskSeqs p (c.p 1)).any (s.slotsPending (s.score (BitVec.ofNat 16 (c.p 0))) p) = false)
    (may : ¬ s.mayStartAll (s.score (BitVec.ofNat 16 (c.p 0))) p (maskSeqs p (c.p 1))) : s.start k c = s.complete k 5 := by
  rw [s.start_eq k h]
  dsimp only
  rw [free, if_neg Bool.false_ne_true, if_pos]
  by_contra none
  obtain ⟨state, all, apart⟩ := by simpa only [not_or] using none
  exact may ⟨by tauto, by simpa using all, by simpa using apart⟩

/-- A start of sequences that may start runs each of them. -/
theorem State.start_runs (s : State) (k : Nat) {c : Taken} {p : Package} (h : s.NamesSeqs c p)
    (free : (maskSeqs p (c.p 1)).any (s.slotsPending (s.score (BitVec.ofNat 16 (c.p 0))) p) = false)
    (may : s.mayStartAll (s.score (BitVec.ofNat 16 (c.p 0))) p (maskSeqs p (c.p 1))) :
    s.start k c = ((maskSeqs p (c.p 1)).foldl (fun s n => s.startSeq (BitVec.ofNat 16 (c.p 0)) p n)
      (s.firstStart (BitVec.ofNat 16 (c.p 0)))).complete k 0 := by
  obtain ⟨state, all, apart⟩ := may
  rw [s.start_eq k h]
  dsimp only
  rw [free, if_neg Bool.false_ne_true, if_neg]
  rintro (other | stuck | shared)
  · exact state.elim other.1 other.2
  · simp [all] at stuck
  · simp [apart] at shared

/-- A stop of running sequences halts those that it names. -/
theorem State.stop_halts (s : State) (k : Nat) {c : Taken} {p : Package} (h : s.NamesSeqs c p)
    (running : (s.score (BitVec.ofNat 16 (c.p 0))).state = .running)
    (named : (maskSeqs p (c.p 1)).any (s.seqRuns (BitVec.ofNat 16 (c.p 0))) = true) :
    s.stop k c = (s.haltSeqs (BitVec.ofNat 16 (c.p 0)) (maskSeqs p (c.p 1))).begin k := by
  rw [s.stop_eq k h]
  dsimp only
  rw [if_neg (not_not.2 running), if_pos named]

theorem State.stop_idle (s : State) (k : Nat) {c : Taken} {p : Package} (h : s.NamesSeqs c p)
    (running : (s.score (BitVec.ofNat 16 (c.p 0))).state = .running)
    (unnamed : (maskSeqs p (c.p 1)).any (s.seqRuns (BitVec.ofNat 16 (c.p 0))) = false) : s.stop k c = s.complete k 0 0 [0] := by
  rw [s.stop_eq k h]
  dsimp only
  rw [if_neg (not_not.2 running), unnamed, if_neg Bool.false_ne_true]

theorem State.stop_unstarted (s : State) (k : Nat) {c : Taken} {p : Package} (h : s.NamesSeqs c p)
    (rest : (s.score (BitVec.ofNat 16 (c.p 0))).state ≠ .running) : s.stop k c = s.complete k 5 := by
  rw [s.stop_eq k h]
  dsimp only
  rw [if_pos rest]

/-- Settles O37: a start is the fold of `startSeq` over the mask, which leaves each sequence on its bay; a stop and an unload fold over
the bays and over what the score holds. -/
theorem scoresStartStopAndUnload : Obligations.ScoresStartStopAndUnload := by
  rintro s k c _ rfl score mask
  refine ⟨fun p h there pkg => ?_, fun p h there pkg inside => ⟨fun running named => ?_, fun running unnamed => ?_, fun rest => ?_⟩,
    fun h there => ⟨fun rest => ?_, fun runs => ?_⟩, fun absent => ⟨fun h => ?_, fun h => ?_, fun h => ?_⟩⟩
  · intro l may inside
    have names : s.NamesSeqs c p := ⟨score, mask, there, pkg, inside⟩
    rw [exec_start h]
    refine ⟨fun pending => ?_, fun free => ⟨fun yes => ?_, fun no => ?_⟩⟩
    · rw [s.start_eq k names]
      exact congrArg Host.Outcome.next (if_pos pending)
    · obtain ⟨cmd, running, started⟩ := s.started_spec yes.2.1 yes.2.2
      rw [s.start_runs k names free yes]
      refine ⟨_, rfl, ?_, cmd.replied h.1 0 0 [], fun n m q b seq bay => ?_⟩
      · rw [State.score_congr (State.complete_scores _ k 0 0 [])]
        exact running
      · obtain ⟨⟨state, run⟩, strands⟩ := started n m q b seq bay
        rw [State.bayState_congr (State.reg_congr (State.complete_regs _ k 0 0 []) _), State.bay_congr (State.complete_bays _ k 0 0 [])]
        refine ⟨state, run, fun alone t strand => ?_⟩
        rw [State.strand, State.bay_congr (State.complete_bays _ k 0 0 [])]
        exact strands alone t strand
    · rw [s.start_refused k names free no]
      exact ⟨_, rfl, (h.refused 5).1, s.complete_bays k 5 0 [], (h.refused 5).2⟩
  · rw [exec_stop h, s.stop_halts k ⟨score, mask, there, pkg, inside⟩ running named]
    obtain ⟨moved, halted⟩ := s.haltSeqs_spec (BitVec.ofNat 16 (c.p 0)) (maskSeqs p (c.p 1))
    refine ⟨_, rfl, moved.commands.begun h.1, fun b cl r bay run mine member => ?_⟩
    rw [State.bay_congr (State.begin_bays _ k), halted b cl bay, run, stopNamed_some mine member]
  · rw [exec_stop h, s.stop_idle k ⟨score, mask, there, pkg, inside⟩ running unnamed]
    exact ⟨_, rfl, (State.CmdKept.refl s).replied h.1 0 0 [0]⟩
  · rw [exec_stop h, s.stop_unstarted k ⟨score, mask, there, pkg, inside⟩ rest]
    exact ⟨_, rfl, s.complete_bays k 5 0 [], (h.refused 5).2⟩
  · obtain ⟨t, finished, cmd, gone, freed⟩ := s.finishUnload_spec k (BitVec.ofNat 16 (c.p 0))
    rw [exec_unload h, s.unload_eq k score there]
    dsimp only
    rw [rest, if_neg Bool.false_ne_true, finished]
    refine ⟨_, rfl, ?_, ?_, cmd.replied h.1 0 0 []⟩
    · rw [State.score_congr (t.complete_scores k 0 0 []), gone]
      rfl
    · rw [t.complete_scores k 0 0 []]
      exact freed
  · rw [exec_unload h, s.unload_eq k score there]
    dsimp only
    rw [if_pos runs]
    obtain ⟨moved, -⟩ := (s.setScore (BitVec.ofNat 16 (c.p 0)) { s.score (BitVec.ofNat 16 (c.p 0)) with state := .unloading }).haltSeqs_spec
      (BitVec.ofNat 16 (c.p 0)) (List.range 16)
    refine ⟨_, rfl, ?_, ((State.CmdKept.setScore s _ _).trans moved.commands).begun h.1⟩
    rw [State.score_congr (State.begin_scores _ k), State.score_congr moved.scores, State.score_setScore_same]
  · rw [exec_start h, s.start_absent k score mask absent]
    exact ⟨_, rfl, h.refused 4⟩
  · rw [exec_stop h, s.stop_absent k score mask absent]
    exact ⟨_, rfl, h.refused 4⟩
  · rw [exec_unload h, s.unload_absent k score absent]
    exact ⟨_, rfl, h.refused 4⟩

end Sys2Proof.Machine
end

section
/-! SUPPORT. Roles: what each kind of bind does, the answers that end it, what a release gives back (R28, R37 to R40, R222 to R224, R366). -/

namespace Sys2Proof.Machine

/-! ### The refusals and the kinds of a bind (R222, R366) -/

/-- What a bind that may bind finds: its parameters in range, its score loaded with its package, and its role not bound. -/
structure State.BindsRole (s : State) (c : Taken) (p : Package) : Prop where
  inside : bindOk c = true
  loaded : (s.score (BitVec.ofNat 16 (c.p 0))).state = .loaded ∨ (s.score (BitVec.ofNat 16 (c.p 0))).state = .running
  pkg : (s.score (BitVec.ofNat 16 (c.p 0))).pkg = some p
  unbound : (s.score (BitVec.ofNat 16 (c.p 0))).roleRes (bits (c.p 0) 23 16) (bits (c.p 0) 31 24) = none

theorem State.bind_eq (s : State) (k : Nat) {c : Taken} {p : Package} (h : s.BindsRole c p) :
    s.bind k c =
      let i := BitVec.ofNat 16 (c.p 0)
      let kind := bits (c.p 0) 23 16
      let role := bits (c.p 0) 31 24
      if kind = 0 then s.bindBay k i p role (c.p 1)
      else if kind = 1 then s.bindRange k i p role (c.p 1)
      else if kind = 2 then s.bindGroup k i p role (c.p 1) (bits (c.p 2) 11 0)
      else s.bindWindow k i p role (c.p 1) (bits (c.p 2) 11 0) (bits (c.p 2) 27 16 + 1) := by
  obtain ⟨inside, loaded, pkg, unbound⟩ := h
  have there : (s.score (BitVec.ofNat 16 (c.p 0))).state ≠ .none := by
    rcases loaded with h | h <;> rw [h] <;> decide
  unfold State.bind
  dsimp only
  rw [inside, if_neg (by decide), if_neg there, pkg]
  dsimp only
  rw [if_neg fun other => loaded.elim other.1 other.2, unbound, if_neg (by decide)]

theorem State.bind_outside (s : State) (k : Nat) {c : Taken} (h : bindOk c = false) : s.bind k c = s.complete k 3 := by
  unfold State.bind
  dsimp only
  rw [h, if_pos (by decide)]

theorem State.bind_absent (s : State) (k : Nat) {c : Taken} (h : bindOk c = true)
    (absent : (s.score (BitVec.ofNat 16 (c.p 0))).state = .none) : s.bind k c = s.complete k 4 := by
  unfold State.bind
  dsimp only
  rw [h, if_neg (by decide), if_pos absent]

theorem State.bind_unready (s : State) (k : Nat) {c : Taken} (h : bindOk c = true)
    (there : (s.score (BitVec.ofNat 16 (c.p 0))).state ≠ .none)
    (unready : (s.score (BitVec.ofNat 16 (c.p 0))).pkg = none ∨ (s.score (BitVec.ofNat 16 (c.p 0))).state ∉ [.loaded, .running] ∨
      ((s.score (BitVec.ofNat 16 (c.p 0))).roleRes (bits (c.p 0) 23 16) (bits (c.p 0) 31 24)).isSome = true) :
    s.bind k c = s.complete k 5 := by
  unfold State.bind
  dsimp only
  rw [h, if_neg (by decide), if_neg there]
  cases pkg : (s.score (BitVec.ofNat 16 (c.p 0))).pkg with
  | none => rfl
  | some p =>
    dsimp only
    split
    · rfl
    · next loaded =>
      refine if_pos ((unready.resolve_left (pkg ▸ Option.some_ne_none p)).resolve_left fun other => loaded ?_)
      simpa using other

/-! ### A bay that is cleared (R36, R54) -/

theorem State.BaysKept.modTile (s : State) (t : Nat) (f : Tile → Tile) : s.BaysKept (s.modTile t f) :=
  (State.LightMoved.modTile s t f).baysKept
theorem State.BaysKept.setScore (s : State) (i : ScoreId) (x : Score) : s.BaysKept (s.setScore i x) := (s.setScore_moves i x).baysKept
theorem State.BaysKept.draw (s : State) (n : Nat) : s.BaysKept (s.draw n) := .of_regs ⟨rfl, rfl, rfl⟩ rfl rfl

/-- A register of a tile's own is not that of the bays' states. -/
theorem Fld.on_off_ne (f : Fld) (t : Nat) (h : 0x10 < f.off) : (f.on t).off ≠ 0x10 := by
  show f.off + t * 0x10000 ≠ 0x10
  omega

theorem State.recordLoad_kept (s : State) (t clamps : Nat) : s.BaysKept (s.recordLoad t clamps) := by
  unfold State.recordLoad
  extract_lets d
  exact (State.BaysKept.setFld s _ _ (Fld.on_off_ne _ t (by decide))).trans (.setFld _ _ _ (Fld.on_off_ne _ t (by decide)))

theorem State.zeroPlanes_kept (s : State) (t : Nat) : s.BaysKept (s.zeroPlanes t) := by
  unfold State.zeroPlanes
  extract_lets r _ s1
  have loaded : s.BaysKept s1 := .modTile s t _
  clear_value s1
  split
  · exact loaded.trans ((s1.recordLoad_kept t r.2).trans (.draw _ 2))
  · exact loaded.trans (.draw s1 2)

theorem State.clearTile_kept (s : State) (t : Nat) (old new : ScoreId) : s.BaysKept (s.clearTile t old new) := by
  unfold State.clearTile
  extract_lets x mine _ y s1
  have cleared : s.BaysKept s1 := (State.BaysKept.modTile s t fun _ => y).trans
    (((s.setTile t y).zeroPlanes_kept t).trans (.modTile _ t _))
  clear_value s1
  exact cleared.trans ((State.BaysKept.setFld s1 _ _ (Fld.on_off_ne _ t (by decide))).trans
    ((State.BaysKept.setFld _ _ _ (Fld.on_off_ne _ t (by decide))).trans (.setFld _ _ _ (Fld.on_off_ne _ t (by decide)))))

/-- A state in which a bay `b` is rebinding for a role, the commands as they were. -/
structure State.Rebinds (s u : State) (b role : Nat) : Prop where
  commands : s.CmdKept u
  state : u.bayState b = 4
  role : (u.bay b).role = role

theorem State.Rebinds.kept {s u v : State} {b role : Nat} (h : s.Rebinds u b role) (k : u.BaysKept v) : s.Rebinds v b role :=
  ⟨h.commands.trans k.1, (State.bayState_congr k.2.2 b).trans h.state, (congrArg Bay.role (State.bay_congr k.2.1 b)).trans h.role⟩

theorem State.bayState_modBay (s : State) (b k : Nat) (f : Bay → Bay) : (s.modBay b f).bayState k = s.bayState k :=
  State.bayState_congr (State.reg_congr (State.modBay_regs s b f) 0x10) k

theorem State.Rebinds.modBay {s u : State} {b role : Nat} (h : s.Rebinds u b role) (f : Bay → Bay) (k : (f (u.bay b)).role = role) :
    s.Rebinds (u.modBay b f) b role :=
  ⟨h.commands.trans (.modBay u b f), (u.bayState_modBay b b f).trans h.state, by rw [State.bay_modBay_same, k]⟩

theorem State.clearBay_spec (s : State) (b : Nat) (old new : ScoreId) (code : List (BitVec 128)) :
    s.CmdKept (s.clearBay b old new code) ∧ ∀ k, (s.clearBay b old new code).bayState k = s.bayState k := by
  unfold State.clearBay
  extract_lets s1
  have cleared : s.BaysKept s1 := State.BaysKept.foldl _ (fun u k => u.clearTile_kept _ old new) _ s
  clear_value s1
  exact ⟨cleared.1.trans (.modBay s1 b _), fun k => (s1.bayState_modBay b k _).trans (State.bayState_congr cleared.2.2 k)⟩

/-- A swap that waits is made (R41), and the bay's state and role stay. -/
theorem State.Rebinds.swapInRebind {s u : State} {b role : Nat} (h : s.Rebinds u b role) : s.Rebinds (u.swapInRebind b) b role := by
  unfold State.swapInRebind
  split
  · exact (h.modBay _ h.role).kept (State.takeOver_light _ b).baysKept
  · exact h

theorem State.rampBay_moves (s : State) (b : Nat) (tgt : Int) : s.EnginesMoved (s.rampBay b tgt) := by
  unfold State.rampBay
  extract_lets d
  split
  · exact .refl s
  · exact foldl_does State.EnginesMoved .refl (fun _ _ _ => .trans) _ (fun u l => u.setLoop_moves b l _) _ s

/-! ### The four kinds of a bind (R222 to R226) -/

/-- A bay that is free, or bound and at rest, with lines enough left, is bound anew. -/
theorem State.bindBay_spec (s : State) (k : Nat) (i : ScoreId) {p : Package} {role b : Nat} {cl : BayClaim}
    (claim : p.bays.find? (·.role == role) = some cl) (bay : b < 8)
    (rest : s.bayState b = 1 ∨ (s.bayState b = 2 ∧ s.inFlight 0 (some b) = false)) (idle : (s.bay b).anyRun = false)
    (lines : cl.minLines ≤ 128 - s.lostLines b) : ∃ u, s.bindBay k i p role b = u.begin k ∧ s.Rebinds u b role := by
  unfold State.bindBay
  rw [claim]
  dsimp only
  rw [if_neg, if_neg]
  · have unbound : s.CmdKept (s.untie (s.bayScore b) 0 b) := .setScore s _ _
    generalize s.untie (s.bayScore b) 0 b = s0 at unbound
    have freed := unbound.trans (s0.setBayState_commands b 4)
    have state : (s0.setBayState b 4).bayState b = 4 := by
      rw [s0.bayState_setBayState bay (by decide), if_pos rfl]
    generalize s0.setBayState b 4 = s1 at freed state
    obtain ⟨cleared, states⟩ := s1.clearBay_spec b (s.bayScore b) i (bayCode p role)
    generalize s1.clearBay b (s.bayScore b) i (bayCode p role) = s2 at cleared states
    have rebinds : s.Rebinds (s2.modBay b fun y => { y with role := role, minLines := cl.minLines, upset := 0 }) b role :=
      ⟨(freed.trans cleared).trans (.modBay s2 b _), (s2.bayState_modBay b b _).trans ((states b).trans state), by
        rw [State.bay_modBay_same]⟩
    exact ⟨_, rfl, rebinds.swapInRebind.kept (State.rampBay_moves _ b _).baysKept⟩
  · rintro (other | short)
    · omega
    · omega
  · rw [idle]
    rintro (running | rebinds | busy | ⟨bound, flying⟩)
    · omega
    · omega
    · exact Bool.false_ne_true busy
    · rcases rest with free | ⟨-, still⟩
      · omega
      · exact Bool.false_ne_true (still.symm.trans flying)

/-- Entries that are cleared have no mantissas. -/
theorem Tile.mant_clearEntries (a : Nat) (l : List Nat) (x : Tile) {e r : Nat} (h : e ∈ l) (k : r < 512) :
    Tab.get dZero (l.foldl (fun x e => x.clearEntry (a + e)) x).mant (512 * (a + e) + r) = 0 := by
  have kept : ∀ (l : List Nat) (x : Tile),
      ∀ y ∈ (l.foldl (fun x e => x.clearEntry (a + e)) x).mant, y ∈ x.mant ∧ ∀ e ∈ l, y.1 / 512 ≠ a + e := by
    intro l
    induction l with
    | nil => exact fun x y m => ⟨m, fun e h => absurd h List.not_mem_nil⟩
    | cons f l ih =>
      intro x y m
      obtain ⟨before, rest⟩ := ih (x.clearEntry (a + f)) y m
      obtain ⟨there, other⟩ := List.mem_filter.1 before
      refine ⟨there, fun e h => ?_⟩
      rcases List.mem_cons.1 h with rfl | h
      · simpa using other
      · exact rest e h
  refine (Tab.mem_of_get dZero _ (512 * (a + e) + r)).resolve_left fun listed => (kept l x _ listed).2 e h ?_
  show (512 * (a + e) + r) / 512 = a + e
  omega

/-- The entries of a Pewter range, cleared on their tile. -/
def State.clearRange (s : State) (n : Nat) : State :=
  s.modTile (n / 16) fun x => (List.range 64).foldl (fun x e => x.clearEntry (64 * (n % 16) + e)) x

theorem State.clearRange_commands (s : State) (n : Nat) : s.CmdKept (s.clearRange n) := (State.BaysKept.modTile s _ _).1
theorem State.clearRange_clears (s : State) (n : Nat) (e r : Nat) (inside : e < 64) (row : r < 512) :
    Tab.get dZero ((s.clearRange n).tile (n / 16)).mant (512 * (64 * (n % 16) + e) + r) = 0 := by
  unfold State.clearRange
  rw [State.tile_modTile_same]
  exact Tile.mant_clearEntries _ _ _ (List.mem_range.2 inside) row

/-- A Pewter range of the bay, held by no score that runs or moves data, is the score's at once, cleared. -/
theorem State.bindRange_spec (s : State) (k : Nat) (i : ScoreId) {p : Package} {role n : Nat} {cl : PewterClaim}
    (claim : p.pewter.find? (·.role == role) = some cl) (bay : (s.score i).roleRes 0 cl.bayRole = some (n / 64))
    (rest : Tab.get dZero s.scores.pewter n = 0 ∨ (s.scoreRuns (Tab.get dZero s.scores.pewter n) = false ∧
      s.inFlight (Tab.get dZero s.scores.pewter n) none = false)) :
    ∃ u, s.bindRange k i p role n = u.complete k 0 0 [0, 0] ∧ s.CmdKept u ∧ Tab.get dZero u.scores.pewter n = i ∧
      ∀ e r, e < 64 → r < 512 → Tab.get dZero (u.tile (n / 16)).mant (512 * (64 * (n % 16) + e) + r) = 0 := by
  unfold State.bindRange
  rw [claim]
  dsimp only
  rw [if_neg, if_neg (not_not.2 bay)]
  · have unbound : s.CmdKept (s.untie (Tab.get dZero s.scores.pewter n) 1 n) := .setScore s _ _
    generalize s.untie (Tab.get dZero s.scores.pewter n) 1 n = s0 at unbound
    have commands := unbound.trans (s0.clearRange_commands n)
    have cleared := s0.clearRange_clears n
    change ∃ u : State, ((State.tie { s0.clearRange n with scores :=
      { (s0.clearRange n).scores with pewter := Tab.set dZero (s0.clearRange n).scores.pewter n i } } i 1 role n).complete k 0 0 [0, 0]) =
        u.complete k 0 0 [0, 0] ∧ _
    generalize s0.clearRange n = s1 at commands cleared
    exact ⟨_, rfl, commands.trans ⟨rfl, rfl, rfl⟩, Tab.get_set_same dZero _ n i, cleared⟩
  · rintro ⟨held, busy⟩
    rcases rest with free | ⟨still, landed⟩
    · exact held free
    · rw [still, landed] at busy
      exact busy.elim Bool.false_ne_true Bool.false_ne_true

/-- A group of no score that may pair is asked for, and waits for the partner's answer. -/
theorem State.bindGroup_spec (s : State) (k : Nat) (i : ScoreId) {p : Package} {role n partner : Nat} {cl : Nat × BitVec 12 × Cls}
    (claim : p.groups.find? (·.1 == role) = some cl) (free : Tab.get dZero s.scores.groups n = 0)
    (still : (s.group (n / 4) (n % 4)).pend = false) (named : cl.2.1.toNat = partner) (may : s.mayPair (n / 4) partner = true)
    (short : cl.2.2 = .assured → Config.longFibre (n / 4) = false) :
    ∃ x, s.bindGroup k i p role n partner = (s.setGroup (n / 4) (n % 4) x).begin k ∧ x.pend = true ∧ x.score = i ∧ x.cls = cl.2.2 ∧
      x.partner = cl.2.1 := by
  unfold State.bindGroup
  rw [claim]
  dsimp only
  rw [free, still, may, if_neg (by simp), if_neg]
  · rw [if_pos rfl]
    exact ⟨_, rfl, rfl, rfl, rfl, rfl⟩
  · rintro (other | refused | ⟨assured, long⟩)
    · exact other named
    · exact absurd refused (by decide)
    · exact Bool.false_ne_true ((short assured).symm.trans long)

/-- A free remote window, tied to the lowest group of its class to the partner. -/
theorem State.bindWindow_spec (s : State) (k : Nat) (i : ScoreId) (pages : Nat) {p : Package} {role w partner m : Nat} {cl : Nat × Cls}
    (claim : p.windows.find? (·.1 == role) = some cl) (free : (s.rwin w).valid = false) (via : s.groupTo i cl.2 partner = some m) :
    ∃ u, s.bindWindow k i p role w partner pages = u.complete k 0 0 [0, 0] ∧ s.CmdKept u ∧
      u.rwin w = ⟨true, i, BitVec.ofNat 12 partner, m / 4, m % 4, pages⟩ := by
  unfold State.bindWindow
  rw [claim]
  dsimp only
  rw [free, if_neg fun busy => Bool.false_ne_true busy.1, via]
  dsimp only
  rw [if_neg Bool.false_ne_true]
  exact ⟨_, rfl, ⟨rfl, rfl, rfl⟩, (s.clearMap w).rwin_setRwin_same w ⟨true, i, BitVec.ofNat 12 partner, m / 4, m % 4, pages⟩⟩

theorem State.bindWindow_refused (s : State) (k : Nat) (i : ScoreId) {p : Package} {role w partner pages : Nat} {cl : Nat × Cls}
    (claim : p.windows.find? (·.1 == role) = some cl) (free : (s.rwin w).valid = false) (unreached : s.groupTo i cl.2 partner = none) :
    s.bindWindow k i p role w partner pages = s.complete k 5 := by
  unfold State.bindWindow
  rw [claim]
  dsimp only
  rw [free, if_neg fun busy => Bool.false_ne_true busy.1, unreached]

/-- The parameters of a bind in range: a bay is one of the eight. -/
theorem bay_of_bindOk {c : Taken} (h : bindOk c = true) (kind : bits (c.p 0) 23 16 = 0) : c.p 1 < 8 := by
  unfold bindOk at h
  dsimp only at h
  rw [kind] at h
  simp only [Bool.and_eq_true, decide_eq_true_eq] at h
  simpa using h.1.2

/-! ### The end of a bay's bind (R38, R40) -/

theorem State.taken_of_rebinding {s : State} {k : Nat} {c : Taken} {r : Nat} (h : s.rebinding k = some (c, r)) :
    s.cmd.taken[k]? = some c := by
  unfold State.rebinding at h
  split at h
  · next d taken =>
    split at h
    · exact taken.trans (congrArg some (congrArg Prod.fst (Option.some.inj h)))
    · exact absurd h.symm (Option.some_ne_none _)
  · exact absurd h.symm (Option.some_ne_none _)

theorem State.rebindComplete_eq {s : State} {k b r : Nat} {c : Taken} (h : s.rebinding k = some (c, r)) :
    s.rebindComplete k b =
      if r ≠ b then s
      else if s.bayState b ≠ 4 then s.complete k 5
      else if !s.loopsSettled b then s
      else (((s.setBayScore b (BitVec.ofNat 16 (c.p 0))).tie (BitVec.ofNat 16 (c.p 0)) 0 (bits (c.p 0) 31 24) b).setBayState b 2).complete k 0 0
        [s.tick - c.begun.getD s.tick, (s.bay b).upset.toNat] := by
  unfold State.rebindComplete
  rw [h]

/-- A bay whose bind completes is bound, and its score's. -/
theorem State.bound_spec (s : State) {b : Nat} (h : b < 8) (i : ScoreId) (role : Nat) :
    let u := ((s.setBayScore b i).tie i 0 role b).setBayState b 2
    s.CmdKept u ∧ u.bayState b = 2 ∧ u.bayScore b = i := by
  have owned : (s.setBayScore b i).bayScore b = i := by
    unfold State.bayScore State.setBayScore
    rw [s.fld_setFld_same (GLB_BAY_OWNER.score.nth b) i.toNat (show 0 ≤ 15 by decide) (show 15 < 32 by decide)]
    exact BitVec.eq_of_toNat_eq (by
      rw [BitVec.toNat_ofNat]
      exact (Nat.mod_mod i.toNat (2 ^ 16)).trans (Nat.mod_eq_of_lt i.isLt))
  have tied : (s.setBayScore b i).BaysKept ((s.setBayScore b i).tie i 0 role b) := .setScore _ i _
  have regs : ((s.setBayScore b i).tie i 0 role b).regs = (s.setBayScore b i).regs := State.setScore_regs _ i _
  have commands : s.CmdKept (s.setBayScore b i) := .setFld s _ _
  generalize (s.setBayScore b i).tie i 0 role b = t at tied regs
  generalize s.setBayScore b i = s1 at tied regs owned commands
  refine ⟨(commands.trans tied.1).trans (t.setBayState_commands b 2), ?_, ?_⟩
  · rw [t.bayState_setBayState h (by decide), if_pos rfl]
  · have other : (GLB_BAY_OWNER.score.nth b).off ≠ 0x10 := show 0x20 + 4 * b ≠ 0x10 by omega
    have field : (t.setBayState b 2).fld (GLB_BAY_OWNER.score.nth b) = s1.fld (GLB_BAY_OWNER.score.nth b) :=
      State.fld_congr _ ((t.setBayState_reg b 2 other).trans (State.reg_congr regs _))
    exact (congrArg (BitVec.ofNat 16) field).trans owned

/-! ### The partner's answer (R224, R336) -/

/-- A group of a score after the partner has taken it, with the reply. -/
def State.reserved (s : State) (k : Nat) (c : Taken) : State :=
  let i := BitVec.ofNat 16 (c.p 0)
  let n := c.p 1
  let s1 := s.setGroup (n / 4) (n % 4) { s.group (n / 4) (n % 4) with pend := false, bound := true }
  let s2 : State := { s1 with scores := { s1.scores with groups := Tab.set dZero s1.scores.groups n i } }
  (s2.tie i 2 (bits (c.p 0) 31 24) n).complete k 0 0 [s.tick - c.begun.getD s.tick, 0]

theorem State.reservation_eq {s : State} {k : Nat} {c : Taken} (taken : s.cmd.taken[k]? = some c) (acc : Bool) :
    s.reservation k acc =
      if c.opcode ≠ 0x0201 ∨ c.begun.isNone ∨ bits (c.p 0) 23 16 ≠ 2 ∨ !(s.group (c.p 1 / 4) (c.p 1 % 4)).pend then s
      else if acc ∧ ((s.group (c.p 1 / 4) (c.p 1 % 4)).cls = .spare ∨ s.flag FAB_REF.lock) then s.reserved k c
      else (s.freeGroup (c.p 1)).complete k 7 := by
  unfold State.reservation
  rw [taken]
  rfl

/-- A group that the partner takes is bound to the score. -/
theorem State.reserved_spec (s : State) (k : Nat) (c : Taken) :
    ∃ t, s.reserved k c = t.complete k 0 0 [s.tick - c.begun.getD s.tick, 0] ∧ s.CmdKept t ∧
      (t.group (c.p 1 / 4) (c.p 1 % 4)).bound = true ∧ (t.group (c.p 1 / 4) (c.p 1 % 4)).pend = false ∧
      Tab.get dZero t.scores.groups (c.p 1) = BitVec.ofNat 16 (c.p 0) := by
  have stored := s.group_setGroup_same (c.p 1 / 4) (c.p 1 % 4) { s.group (c.p 1 / 4) (c.p 1 % 4) with pend := false, bound := true }
  exact ⟨_, rfl, ⟨rfl, rfl, rfl⟩, congrArg FabGroup.bound stored, congrArg FabGroup.pend stored, Tab.get_set_same dZero _ _ _⟩

/-- A group that its score gives up is bound no more. -/
theorem State.freeGroup_unbound (s : State) (n : Nat) : ((s.freeGroup n).group (n / 4) (n % 4)).bound = false :=
  congrArg FabGroup.bound (s.group_setGroup_same (n / 4) (n % 4) _)

theorem State.group_congr {s u : State} (h : u.fab = s.fab) (p g : Nat) : u.group p g = s.group p g := by
  unfold State.group State.port
  rw [h]

/-! ### A release (R223, R366) -/

theorem State.score_untie (s : State) (i : ScoreId) (kind n : Nat) :
    ((s.untie i kind n).score i).bound = (s.score i).bound.filter fun y => !(y.1 == kind && y.2.2 == n) :=
  congrArg Score.bound (State.score_setScore_same s i _)

/-- What is given back serves the score's role no more. -/
theorem State.giveBack_spec (s : State) (i : ScoreId) {kind : Nat} (n : Nat) (h : kind ≠ 2) :
    s.CmdKept (s.giveBack i kind n) ∧ ∀ y ∈ ((s.giveBack i kind n).score i).bound, ¬ (y.1 = kind ∧ y.2.2 = n) := by
  have given : s.CmdKept (s.giveBack i kind n) ∧ (s.giveBack i kind n).score i = (s.untie i kind n).score i := by
    have untied : s.CmdKept (s.untie i kind n) := .setScore s i _
    unfold State.giveBack
    generalize s.untie i kind n = t at untied
    dsimp only
    split
    · obtain ⟨cmd, scores⟩ := t.freeBay_spec (n % 8)
      exact ⟨untied.trans cmd, State.score_congr scores i⟩
    · split
      · exact ⟨untied.trans ⟨rfl, rfl, rfl⟩, rfl⟩
      · exact ⟨untied.trans (.setRwin t n _), rfl⟩
  refine ⟨given.1, fun y m => ?_⟩
  rw [given.2, s.score_untie] at m
  rintro ⟨same, here⟩
  have kept := (List.mem_filter.1 m).2
  simp [same, here] at kept

theorem State.release_eq (s : State) (k : Nat) {c : Taken} {n : Nat} (kind : bits (c.p 0) 23 16 < 4)
    (there : (s.score (BitVec.ofNat 16 (c.p 0))).state ≠ .none)
    (role : (s.score (BitVec.ofNat 16 (c.p 0))).roleRes (bits (c.p 0) 23 16) (bits (c.p 0) 31 24) = some n) :
    s.release k c =
      let i := BitVec.ofNat 16 (c.p 0)
      if (s.score i).state = .running ∨ s.inFlight i none then s.complete k 1
      else if bits (c.p 0) 23 16 = 2 ∧ (List.range 64).any fun w =>
          (s.rwin w).valid && (s.rwin w).score == i && 4 * (s.rwin w).port + (s.rwin w).group == n then s.complete k 5
      else (s.giveBack i (bits (c.p 0) 23 16) n).complete k 0 := by
  unfold State.release
  dsimp only
  rw [if_neg (Nat.not_le.2 kind), if_neg there, role]

theorem State.release_unbound (s : State) (k : Nat) {c : Taken} (kind : bits (c.p 0) 23 16 < 4)
    (there : (s.score (BitVec.ofNat 16 (c.p 0))).state ≠ .none)
    (role : (s.score (BitVec.ofNat 16 (c.p 0))).roleRes (bits (c.p 0) 23 16) (bits (c.p 0) 31 24) = none) :
    s.release k c = s.complete k 4 := by
  unfold State.release
  dsimp only
  rw [if_neg (Nat.not_le.2 kind), if_neg there, role]

theorem exec_bind {s : State} {k : Nat} {c : Taken} (h : s.mayRun k 0x0201 c) : exec (.bind k) s = .next (s.bind k c) :=
  congrArg Host.Outcome.next (State.command_of_mayRun h (·.bind k))
theorem exec_release {s : State} {k : Nat} {c : Taken} (h : s.mayRun k 0x0202 c) : exec (.release k) s = .next (s.release k c) :=
  congrArg Host.Outcome.next (State.command_of_mayRun h (·.release k))

/-! ### The statement -/

section
variable {s : State} {k : Nat} {c : Taken} {p : Package} (h : s.mayRun k 0x0201 c) (binds : s.BindsRole c p)
include h binds

theorem exec_bind_bay {cl : BayClaim} (kind : bits (c.p 0) 23 16 = 0) (claim : p.bays.find? (·.role == bits (c.p 0) 31 24) = some cl)
    (rest : s.bayState (c.p 1) = 1 ∨ (s.bayState (c.p 1) = 2 ∧ s.inFlight 0 (some (c.p 1)) = false)) (idle : (s.bay (c.p 1)).anyRun = false)
    (lines : cl.minLines ≤ 128 - s.lostLines (c.p 1)) :
    ∃ u, exec (.bind k) s = .next u ∧ u.bayState (c.p 1) = 4 ∧ (u.bay (c.p 1)).role = bits (c.p 0) 31 24 ∧ s.Begun u k c := by
  obtain ⟨u, bound, commands, state, role⟩ := s.bindBay_spec k (BitVec.ofNat 16 (c.p 0)) claim (bay_of_bindOk binds.inside kind) rest idle lines
  rw [exec_bind h, s.bind_eq k binds]
  dsimp only
  rw [if_pos kind, bound]
  exact ⟨_, rfl, state, role, commands.begun h.1⟩

theorem exec_bind_range {cl : PewterClaim} (kind : bits (c.p 0) 23 16 = 1) (claim : p.pewter.find? (·.role == bits (c.p 0) 31 24) = some cl)
    (bay : (s.score (BitVec.ofNat 16 (c.p 0))).roleRes 0 cl.bayRole = some (c.p 1 / 64))
    (rest : Tab.get dZero s.scores.pewter (c.p 1) = 0 ∨ (s.scoreRuns (Tab.get dZero s.scores.pewter (c.p 1)) = false ∧
      s.inFlight (Tab.get dZero s.scores.pewter (c.p 1)) none = false)) :
    ∃ u, exec (.bind k) s = .next u ∧ Tab.get dZero u.scores.pewter (c.p 1) = BitVec.ofNat 16 (c.p 0) ∧ s.Replied u k c 0 [0, 0] ∧
      ∀ e r, e < 64 → r < 512 → Tab.get dZero (u.tile (c.p 1 / 16)).mant (512 * (64 * (c.p 1 % 16) + e) + r) = 0 := by
  obtain ⟨u, bound, commands, held, cleared⟩ := s.bindRange_spec k (BitVec.ofNat 16 (c.p 0)) claim bay rest
  rw [exec_bind h, s.bind_eq k binds]
  dsimp only
  rw [if_neg (by omega), if_pos kind, bound]
  refine ⟨_, rfl, ?_, commands.replied h.1 0 0 [0, 0], ?_⟩
  · rw [u.complete_scores, held]
  · unfold State.tile
    rw [u.complete_tiles]
    exact cleared

theorem exec_bind_group {cl : Nat × BitVec 12 × Cls} (kind : bits (c.p 0) 23 16 = 2)
    (claim : p.groups.find? (·.1 == bits (c.p 0) 31 24) = some cl) (free : Tab.get dZero s.scores.groups (c.p 1) = 0)
    (still : (s.group (c.p 1 / 4) (c.p 1 % 4)).pend = false) (named : cl.2.1.toNat = bits (c.p 2) 11 0)
    (may : s.mayPair (c.p 1 / 4) (bits (c.p 2) 11 0) = true) (short : cl.2.2 = .assured → Config.longFibre (c.p 1 / 4) = false) :
    ∃ u, exec (.bind k) s = .next u ∧ s.Begun u k c ∧ (u.group (c.p 1 / 4) (c.p 1 % 4)).pend = true ∧
      (u.group (c.p 1 / 4) (c.p 1 % 4)).score = BitVec.ofNat 16 (c.p 0) ∧ (u.group (c.p 1 / 4) (c.p 1 % 4)).cls = cl.2.2 ∧
      (u.group (c.p 1 / 4) (c.p 1 % 4)).partner = cl.2.1 := by
  obtain ⟨x, bound, asked⟩ := s.bindGroup_spec k (BitVec.ofNat 16 (c.p 0)) claim free still named may short
  rw [exec_bind h, s.bind_eq k binds]
  dsimp only
  rw [if_neg (by omega), if_neg (by omega), if_pos kind, bound]
  refine ⟨_, rfl, (State.CmdKept.setGroup s _ _ x).begun h.1, ?_⟩
  rw [State.group_congr (State.begin_fab _ k), State.group_setGroup_same]
  exact asked

theorem exec_bind_window {cl : Nat × Cls} (kind : bits (c.p 0) 23 16 = 3) (claim : p.windows.find? (·.1 == bits (c.p 0) 31 24) = some cl)
    (free : (s.rwin (c.p 1)).valid = false) {m : Nat} (via : s.groupTo (BitVec.ofNat 16 (c.p 0)) cl.2 (bits (c.p 2) 11 0) = some m) :
    ∃ u, exec (.bind k) s = .next u ∧ s.Replied u k c 0 [0, 0] ∧
      u.rwin (c.p 1) = ⟨true, BitVec.ofNat 16 (c.p 0), BitVec.ofNat 12 (bits (c.p 2) 11 0), m / 4, m % 4, bits (c.p 2) 27 16 + 1⟩ := by
  obtain ⟨u, bound, commands, window⟩ := s.bindWindow_spec k (BitVec.ofNat 16 (c.p 0)) (bits (c.p 2) 27 16 + 1) claim free via
  rw [exec_bind h, s.bind_eq k binds]
  dsimp only
  rw [if_neg (by omega), if_neg (by omega), if_neg (by omega), bound]
  refine ⟨_, rfl, commands.replied h.1 0 0 [0, 0], ?_⟩
  unfold State.rwin
  rw [u.complete_strm]
  exact window

theorem exec_bind_unreached {cl : Nat × Cls} (kind : bits (c.p 0) 23 16 = 3)
    (claim : p.windows.find? (·.1 == bits (c.p 0) 31 24) = some cl) (free : (s.rwin (c.p 1)).valid = false)
    (unreached : s.groupTo (BitVec.ofNat 16 (c.p 0)) cl.2 (bits (c.p 2) 11 0) = none) :
    ∃ u, exec (.bind k) s = .next u ∧ u.scores = s.scores ∧ s.Replied u k c 5 [] := by
  rw [exec_bind h, s.bind_eq k binds]
  dsimp only
  rw [if_neg (by omega), if_neg (by omega), if_neg (by omega), s.bindWindow_refused k _ claim free unreached]
  exact ⟨_, rfl, h.refused 5⟩

end

section
variable {s : State} {k : Nat} {c : Taken} (taken : s.cmd.taken[k]? = some c)
include taken

/-- The group's bind that has begun and waits for its answer. -/
theorem exec_reservation_pending (opcode : c.opcode = 0x0201) (begun : c.begun.isSome = true) (kind : bits (c.p 0) 23 16 = 2)
    (waits : (s.group (c.p 1 / 4) (c.p 1 % 4)).pend = true) (acc : Bool) :
    exec (.reservationExchange k acc) s = .next (
      if acc ∧ ((s.group (c.p 1 / 4) (c.p 1 % 4)).cls = .spare ∨ s.flag FAB_REF.lock) then s.reserved k c
      else (s.freeGroup (c.p 1)).complete k 7) := by
  refine congrArg Host.Outcome.next ((State.reservation_eq taken acc).trans ?_)
  refine if_neg ?_
  rw [waits]
  rintro (other | unbegun | other | still)
  · exact other opcode
  · rw [Option.isNone_iff_eq_none] at unbegun
    rw [unbegun] at begun
    exact Bool.false_ne_true begun
  · exact other kind
  · exact Bool.false_ne_true still

theorem exec_reservation_refused {acc : Bool} (opcode : c.opcode = 0x0201) (begun : c.begun.isSome = true) (kind : bits (c.p 0) 23 16 = 2)
    (waits : (s.group (c.p 1 / 4) (c.p 1 % 4)).pend = true)
    (no : ¬ (acc = true ∧ ((s.group (c.p 1 / 4) (c.p 1 % 4)).cls = .spare ∨ s.flag FAB_REF.lock = true))) :
    ∃ u, exec (.reservationExchange k acc) s = .next u ∧ (u.group (c.p 1 / 4) (c.p 1 % 4)).bound = false ∧ s.Replied u k c 7 [] := by
  rw [exec_reservation_pending taken opcode begun kind waits, if_neg no]
  refine ⟨_, rfl, ?_, (s.freeGroup_commands (c.p 1)).replied taken 7 0 []⟩
  rw [State.group_congr (State.complete_fab _ k 7 0 []), s.freeGroup_unbound]

theorem exec_reservation_taken (opcode : c.opcode = 0x0201) (begun : c.begun.isSome = true) (kind : bits (c.p 0) 23 16 = 2)
    (waits : (s.group (c.p 1 / 4) (c.p 1 % 4)).pend = true)
    (takes : (s.group (c.p 1 / 4) (c.p 1 % 4)).cls = .spare ∨ s.flag FAB_REF.lock = true) :
    ∃ u, exec (.reservationExchange k true) s = .next u ∧ (u.group (c.p 1 / 4) (c.p 1 % 4)).bound = true ∧
      (u.group (c.p 1 / 4) (c.p 1 % 4)).pend = false ∧ Tab.get dZero u.scores.groups (c.p 1) = BitVec.ofNat 16 (c.p 0) ∧
      ∃ vs, s.Replied u k c 0 vs := by
  rw [exec_reservation_pending taken opcode begun kind waits, if_pos ⟨rfl, takes⟩]
  obtain ⟨t, done, commands, bound, answered, held⟩ := s.reserved_spec k c
  rw [done]
  refine ⟨_, rfl, ?_, ?_, ?_, _, commands.replied taken 0 0 _⟩
  · rw [State.group_congr (State.complete_fab _ k 0 0 _), bound]
  · rw [State.group_congr (State.complete_fab _ k 0 0 _), answered]
  · rw [State.complete_scores, held]

theorem exec_reservation_other (other : c.opcode ≠ 0x0201 ∨ c.begun = none ∨ bits (c.p 0) 23 16 ≠ 2 ∨
    (s.group (c.p 1 / 4) (c.p 1 % 4)).pend = false) (acc : Bool) : exec (.reservationExchange k acc) s = .next s := by
  refine congrArg Host.Outcome.next ((State.reservation_eq taken acc).trans (if_pos ?_))
  rcases other with opcode | unbegun | kind | still
  · exact .inl opcode
  · exact .inr (.inl (unbegun ▸ rfl))
  · exact .inr (.inr (.inl kind))
  · exact .inr (.inr (.inr (by rw [still]; rfl)))

end

section
variable {s : State} {k : Nat} {c : Taken} {b : BayId} {r : Nat} (h : s.rebinding k = some (c, r))
include h

theorem exec_rebindComplete :
    exec (.rebindComplete k b) s = .next (
      if r ≠ b.val then s
      else if s.bayState b ≠ 4 then s.complete k 5
      else if !s.loopsSettled b then s
      else (((s.setBayScore b (BitVec.ofNat 16 (c.p 0))).tie (BitVec.ofNat 16 (c.p 0)) 0 (bits (c.p 0) 31 24) b).setBayState b 2).complete k 0 0
        [s.tick - c.begun.getD s.tick, (s.bay b).upset.toNat]) := congrArg Host.Outcome.next (State.rebindComplete_eq h)

theorem exec_rebindComplete_settled (here : r = b.val) (rebinds : s.bayState b = 4) (settled : s.loopsSettled b = true) :
    ∃ u, exec (.rebindComplete k b) s = .next u ∧ u.bayState b = 2 ∧ u.bayScore b = BitVec.ofNat 16 (c.p 0) ∧
      ∃ t, s.Replied u k c 0 [t, BitVec.ofNat 32 (s.bay b).upset.toNat] := by
  rw [exec_rebindComplete h, if_neg (not_not.2 here), if_neg (not_not.2 rebinds), settled, if_neg (by decide)]
  obtain ⟨commands, bound, owned⟩ := s.bound_spec b.isLt (BitVec.ofNat 16 (c.p 0)) (bits (c.p 0) 31 24)
  refine ⟨_, rfl, ?_, ?_, _, commands.replied (State.taken_of_rebinding h) 0 0 _⟩
  · rw [State.bayState_congr (State.reg_congr (State.complete_regs _ k 0 0 _) _), bound]
  · exact (congrArg (BitVec.ofNat 16) (State.fld_congr _ (State.reg_congr (State.complete_regs _ k 0 0 _) _))).trans owned

end

section
variable {s : State} {k : Nat} {c : Taken} (h : s.mayRun k 0x0202 c) (kind : bits (c.p 0) 23 16 < 4)
  (there : (s.score (BitVec.ofNat 16 (c.p 0))).state ≠ .none)
include h kind there

theorem exec_release_moving {m : Nat} (role : (s.score (BitVec.ofNat 16 (c.p 0))).roleRes (bits (c.p 0) 23 16) (bits (c.p 0) 31 24) = some m)
    (moving : (s.score (BitVec.ofNat 16 (c.p 0))).state = .running ∨ s.inFlight (BitVec.ofNat 16 (c.p 0)) none = true) :
    ∃ u, exec (.release k) s = .next u ∧ u.scores = s.scores ∧ s.Replied u k c 1 [] := by
  rw [exec_release h, s.release_eq k kind there role]
  dsimp only
  rw [if_pos moving]
  exact ⟨_, rfl, h.refused 1⟩

theorem exec_release_resting {m : Nat} (role : (s.score (BitVec.ofNat 16 (c.p 0))).roleRes (bits (c.p 0) 23 16) (bits (c.p 0) 31 24) = some m)
    (rests : ¬ ((s.score (BitVec.ofNat 16 (c.p 0))).state = .running ∨ s.inFlight (BitVec.ofNat 16 (c.p 0)) none = true))
    (ungrouped : bits (c.p 0) 23 16 ≠ 2) :
    ∃ u, exec (.release k) s = .next u ∧ s.Replied u k c 0 [] ∧
      ∀ y ∈ (u.score (BitVec.ofNat 16 (c.p 0))).bound, ¬ (y.1 = bits (c.p 0) 23 16 ∧ y.2.2 = m) := by
  rw [exec_release h, s.release_eq k kind there role]
  dsimp only
  rw [if_neg rests, if_neg fun group => ungrouped group.1]
  obtain ⟨commands, given⟩ := s.giveBack_spec (BitVec.ofNat 16 (c.p 0)) m ungrouped
  refine ⟨_, rfl, commands.replied h.1 0 0 [], ?_⟩
  rw [State.score_congr (State.complete_scores _ k 0 0 [])]
  exact given

theorem exec_release_unbound (role : (s.score (BitVec.ofNat 16 (c.p 0))).roleRes (bits (c.p 0) 23 16) (bits (c.p 0) 31 24) = none) :
    ∃ u, exec (.release k) s = .next u ∧ u.scores = s.scores ∧ s.Replied u k c 4 [] := by
  rw [exec_release h, s.release_unbound k kind there role]
  exact ⟨_, rfl, h.refused 4⟩

end

/-- Settles O38: each kind of bind, each end of one and each release is a lemma of its own above; the statement puts them side by side. -/
theorem rolesAreBoundAndReleased : Obligations.RolesAreBoundAndReleased := by
  rintro s k c _ rfl
  refine ⟨fun p h inside loaded pkg unbound => ?_, fun h => ⟨fun outside => ?_, fun inside absent => ?_, fun inside there unready => ?_⟩,
    fun b r h => ⟨exec_rebindComplete_settled h, fun here rebinds unsettled => ?_, fun here left => ?_, fun other => ?_⟩, fun none b => ?_,
    fun taken opcode begun kind waits => ⟨exec_reservation_taken taken opcode begun kind waits, fun no => ?_, ?_⟩,
    fun taken other acc => exec_reservation_other taken other acc,
    fun h kind there => ⟨fun m role => ⟨exec_release_moving h kind there role, exec_release_resting h kind there role⟩,
      exec_release_unbound h kind there⟩⟩
  · have binds : s.BindsRole c p := ⟨inside, loaded, pkg, unbound⟩
    exact ⟨fun _ => exec_bind_bay h binds, fun _ => exec_bind_range h binds, fun _ => exec_bind_group h binds,
      fun _ kind claim free => ⟨fun _ => exec_bind_window h binds kind claim free, exec_bind_unreached h binds kind claim free⟩⟩
  · rw [exec_bind h, s.bind_outside k outside]
    exact ⟨_, rfl, h.refused 3⟩
  · rw [exec_bind h, s.bind_absent k inside absent]
    exact ⟨_, rfl, h.refused 4⟩
  · rw [exec_bind h, s.bind_unready k inside there unready]
    exact ⟨_, rfl, h.refused 5⟩
  · rw [exec_rebindComplete h, if_neg (not_not.2 here), if_neg (not_not.2 rebinds), unsettled, if_pos (by decide)]
  · rw [exec_rebindComplete h, if_neg (not_not.2 here), if_pos left]
    exact ⟨_, rfl, s.complete_scores k 5 0 [], (State.CmdKept.refl s).replied (State.taken_of_rebinding h) 5 0 []⟩
  · rw [exec_rebindComplete h, if_pos other]
  · refine congrArg Host.Outcome.next ?_
    unfold State.rebindComplete
    rw [none]
  · exact exec_reservation_refused taken opcode begun kind waits fun yes => no yes.2
  · exact exec_reservation_refused taken opcode begun kind waits fun yes => Bool.false_ne_true yes.1

end Sys2Proof.Machine
end

section
/-! SUPPORT. Tiles: fields of replicated registers, what settling a tile's queues and stopping its sequence leave of the work under way,
what an update of an entry touches (R34, R65, R107, R112, R160, R172). -/

namespace Sys2Proof.Machine

/-! ### Fields of replicated registers (R7) -/

theorem Fld.on_off_ne_on {f g : Fld} (h : f.off ≠ g.off) (t : Nat) : (f.on t).off ≠ (g.on t).off := by
  simp only [Fld.on]
  omega

theorem Fld.on_off_ne_below {f : Fld} {off : Nat} (h : off < f.off) (t : Nat) : (f.on t).off ≠ off := by
  simp only [Fld.on]
  omega

/-- A flag is the bit of its word. -/
theorem bits_flag (v : Word) (i : Nat) : (bits v.toNat i i != 0) = v.getLsbD i := by
  have width : i - i + 1 = 1 := by omega
  unfold bits BitVec.getLsbD
  rw [width, Nat.testBit_eq_decide_div_mod_eq]
  rcases Nat.mod_two_eq_zero_or_one (v.toNat / 2 ^ i) with h | h <;> simp [h]

theorem State.flag_congr {s u : State} (f : Fld) (h : u.reg f.off = s.reg f.off) : u.flag f = s.flag f :=
  congrArg (· != 0) (State.fld_congr f h)

/-- A field lies in its word. -/
abbrev Fld.Fits (f : Fld) : Prop := f.lo ≤ f.hi ∧ f.hi < 32

/-- Two fields of one register lie beside each other. -/
abbrev Fld.Beside (f g : Fld) : Prop := g.off = f.off ∧ g.lo ≤ g.hi ∧ (g.hi < f.lo ∨ f.hi < g.lo)

section
variable (s : State) {f : Fld} (h : f.Fits) (t : Nat)
include h

theorem State.fld_setFld_on (v : Nat) : (s.setFld (f.on t) v).fld (f.on t) = v % 2 ^ (f.hi - f.lo + 1) :=
  s.fld_setFld_same (f.on t) v h.1 h.2

theorem State.flag_setFlag_on (b : Bool) : (s.setFlag (f.on t) b).flag (f.on t) = b := by
  have small : b.toNat < 2 ^ (f.hi - f.lo + 1) :=
    Nat.lt_of_lt_of_le b.toNat_lt (Nat.pow_le_pow_right Nat.two_pos (Nat.le_add_left 1 _))
  unfold State.flag State.setFlag
  rw [s.fld_setFld_on h, Nat.mod_eq_of_lt small]
  cases b <;> rfl

theorem State.fld_setFld_on_beside {g : Fld} (d : f.Beside g) (v : Nat) : (s.setFld (f.on t) v).fld (g.on t) = s.fld (g.on t) :=
  s.fld_setFld_beside (f.on t) (g.on t) v (congrArg (· + t * 0x10000) d.1) h.1 h.2 d.2.1 d.2.2

theorem State.flag_setFld_on_beside {g : Fld} (d : f.Beside g) (v : Nat) : (s.setFld (f.on t) v).flag (g.on t) = s.flag (g.on t) :=
  congrArg (· != 0) (s.fld_setFld_on_beside h t d v)

/-- A 16-bit count stands at 65,535. -/
theorem State.fld_bump_on (k : f.hi - f.lo = 15) (n : Nat) : (s.bump (f.on t) n).fld (f.on t) = min (s.fld (f.on t) + n) 65535 := by
  have width : (f.on t).hi - (f.on t).lo = 15 := k
  rw [s.fld_bump_same (f.on t) n h.1 h.2, width]
  rfl

end

theorem State.tile_congr {s u : State} (h : u.tiles = s.tiles) (t : Nat) : u.tile t = s.tile t := by
  unfold State.tile
  rw [h]

/-! ### The work of a tile that is under way -/

/-- Two contents of a tile agree in the work under way: the planes, the load that writes, the blocks delivered, the windows. -/
structure Tile.SameWork (x y : Tile) : Prop where
  planeA  : y.planeA = x.planeA
  planeB  : y.planeB = x.planeB
  loading : y.loading = x.loading
  inbuf   : y.inbuf = x.inbuf
  wins    : y.wins = x.wins
  started : y.started = x.started

theorem Tile.SameWork.refl (x : Tile) : x.SameWork x := ⟨rfl, rfl, rfl, rfl, rfl, rfl⟩
theorem Tile.SameWork.trans {x y z : Tile} (h : x.SameWork y) (k : y.SameWork z) : x.SameWork z :=
  ⟨k.planeA.trans h.planeA, k.planeB.trans h.planeB, k.loading.trans h.loading, k.inbuf.trans h.inbuf, k.wins.trans h.wins,
    k.started.trans h.started⟩
theorem Tile.SameWork.foldl {α : Type} (f : Tile → α → Tile) (step : ∀ x a, Tile.SameWork x (f x a)) (l : List α) (x : Tile) :
    x.SameWork (l.foldl f x) := by
  induction l generalizing x with
  | nil => exact .refl x
  | cons a l ih => exact (step x a).trans (ih _)
theorem Tile.SameWork.planeOf {x y : Tile} (h : x.SameWork y) (p : Bool) : y.planeOf p = x.planeOf p := by
  unfold Tile.planeOf
  rw [h.planeA, h.planeB]

/-- Between two states no tile's work under way moved. -/
def State.WorkKept (s u : State) : Prop := ∀ k, (s.tile k).SameWork (u.tile k)

theorem State.WorkKept.refl (s : State) : s.WorkKept s := fun _ => .refl _
theorem State.WorkKept.trans {s t u : State} (h : s.WorkKept t) (k : t.WorkKept u) : s.WorkKept u := fun n => (h n).trans (k n)
theorem State.WorkKept.of_tiles {s u : State} (h : u.tiles = s.tiles) : s.WorkKept u := fun k => by
  rw [State.tile_congr h]
  exact .refl _
theorem State.WorkKept.setTile (s : State) {t : Nat} {x : Tile} (h : (s.tile t).SameWork x) : s.WorkKept (s.setTile t x) := fun k => by
  rw [s.tile_setTile]
  split
  · next same => exact same ▸ h
  · exact .refl _
theorem State.WorkKept.foldl {α : Type} (f : State → α → State) (step : ∀ u x, State.WorkKept u (f u x)) (l : List α) (s : State) :
    s.WorkKept (l.foldl f s) := foldl_does State.WorkKept .refl (fun _ _ _ => .trans) f step l s

/-! ### A tile's queues at rest (R65, R160) -/

/-- A tile after its queues have come to rest, under the scale word `w`. -/
def Tile.rested (x : Tile) (w : Word) : Tile :=
  let y := x.admitHeld
  let q := (leadScale w y.winQ).2
  { y with winQ := q, scaleBad := y.scaleBad && q.length == y.winQ.length }

theorem State.tile_settle (s : State) (t : Nat) : (s.settle t).tile t = (s.tile t).rested (s.reg (scaleOff t)) := by
  have stored := s.tile_setTile_same t ((s.tile t).rested (s.reg (scaleOff t)))
  unfold State.settle
  dsimp only
  split
  · exact stored
  · exact stored

theorem State.settle_reg (s : State) (t : Nat) {off : Nat} (h : off ≠ scaleOff t) : (s.settle t).reg off = s.reg off := by
  unfold State.settle
  dsimp only
  split
  · rfl
  · exact Tab.get_set_other _ _ _ _ _ h

theorem Tile.admitHeld_work (x : Tile) : x.SameWork x.admitHeld := by
  unfold Tile.admitHeld
  extract_lets x1
  have first : x.SameWork x1 := by
    unfold x1
    split
    · exact ⟨rfl, rfl, rfl, rfl, rfl, rfl⟩
    · exact .refl x
  split
  · exact first.trans ⟨rfl, rfl, rfl, rfl, rfl, rfl⟩
  · exact first

theorem Tile.rested_work (x : Tile) (w : Word) : x.SameWork (x.rested w) := x.admitHeld_work.trans ⟨rfl, rfl, rfl, rfl, rfl, rfl⟩

theorem State.settle_work (s : State) (t : Nat) : (s.tile t).SameWork ((s.settle t).tile t) := by
  rw [s.tile_settle]
  exact Tile.rested_work _ _

/-- Scale words alone leave the head of a window queue. -/
theorem mem_leadScale {w : Word} {q : List WinEntry} {st job : Nat} (h : WinEntry.psw st job ∈ q) :
    WinEntry.psw st job ∈ (leadScale w q).2 := by
  fun_induction leadScale w q with
  | case1 w st' w' r ih => exact ih ((List.mem_cons.1 h).resolve_left nofun)
  | case2 w q other => exact h

/-! ### What a stop leaves (R172) -/

theorem Tile.discard_work (x : Tile) : x.SameWork x.discard := ⟨rfl, rfl, rfl, rfl, rfl, rfl⟩

theorem State.stopSeq_work (s : State) (b : Nat) (c : Cls) : s.WorkKept (s.stopSeq b c) := by
  unfold State.stopSeq
  split
  · exact .refl s
  · refine State.WorkKept.trans (.of_tiles (State.modBay_tiles s b _)) (.foldl _ (fun u k => ?_) _ _)
    have dropped := State.WorkKept.foldl (fun u n => u.dropJob b n) (fun u n => .of_tiles (State.modBay_tiles u b _))
      (u.tile (4 * b + k)).discarded u
    exact dropped.trans (.setTile _ (Tile.discard_work _))

theorem State.raise_tiles (s : State) (f : FaultRec) : (s.raise f).tiles = s.tiles := by
  obtain ⟨x, g, m, n, e, -⟩ := s.raise_spec f
  rw [e]
theorem State.raise_bays (s : State) (f : FaultRec) : (s.raise f).bays = s.bays := by
  obtain ⟨x, g, m, n, e, -⟩ := s.raise_spec f
  rw [e]

/-- Between two states the tiles and the bays stand as they did. -/
def State.UnitsKept (s u : State) : Prop := u.tiles = s.tiles ∧ u.bays = s.bays

theorem State.UnitsKept.refl (s : State) : s.UnitsKept s := ⟨rfl, rfl⟩
theorem State.UnitsKept.trans {s t u : State} (h : s.UnitsKept t) (k : t.UnitsKept u) : s.UnitsKept u :=
  ⟨k.1.trans h.1, k.2.trans h.2⟩
theorem State.UnitsKept.foldl {α : Type} (f : State → α → State) (step : ∀ u x, State.UnitsKept u (f u x)) (l : List α) (s : State) :
    s.UnitsKept (l.foldl f s) := foldl_does State.UnitsKept .refl (fun _ _ _ => .trans) f step l s
theorem State.UnitsKept.setFld (s : State) (f : Fld) (v : Nat) : s.UnitsKept (s.setFld f v) :=
  ⟨State.setFld_tiles s f v, State.setFld_bays s f v⟩
theorem State.UnitsKept.setFlag (s : State) (f : Fld) (v : Bool) : s.UnitsKept (s.setFlag f v) := .setFld s f v.toNat
theorem State.UnitsKept.raise (s : State) (f : FaultRec) : s.UnitsKept (s.raise f) := ⟨s.raise_tiles f, s.raise_bays f⟩

/-- A strand that faults, in a state where its sequence has stopped. -/
def State.faultStrand (s : State) (b j code : Nat) : State :=
  s.setStrand b j { s.strand b j with state := .faulted, fault := BitVec.ofNat 4 code, waitFrom := none }

/-- Beyond the stop and the strand itself, a strand's fault is a matter of registers and records. -/
theorem State.strandFault_units (s : State) (b j code pc : Nat) :
    ((s.stopSeq b (s.strand b j).cls).faultStrand b j code).UnitsKept (s.strandFault b j code pc) := by
  unfold State.strandFault
  dsimp only
  refine .trans ?_ (.raise _ _)
  refine .trans ?_ (.setFld _ _ _)
  refine .trans ?_ (.setFld _ _ _)
  refine .trans ?_ (.setFld _ _ _)
  refine .trans ?_ (.setFlag _ _ _)
  exact .setFlag _ _ _

theorem State.strandFault_work (s : State) (b j code pc : Nat) : s.WorkKept (s.strandFault b j code pc) :=
  (s.stopSeq_work b _).trans (.of_tiles (s.strandFault_units b j code pc).1)

theorem State.strandFault_strand (s : State) (b j code pc : Nat) :
    ((s.strandFault b j code pc).strand b j).state = .faulted ∧ ((s.strandFault b j code pc).strand b j).fault = BitVec.ofNat 4 code := by
  unfold State.strand
  rw [State.bay_congr (s.strandFault_units b j code pc).2]
  have set := State.strand_setStrand_same (s.stopSeq b (s.strand b j).cls) b j
    { (s.stopSeq b (s.strand b j).cls).strand b j with state := .faulted, fault := BitVec.ofNat 4 code, waitFrom := none }
  exact ⟨congrArg Strand.state set, congrArg Strand.fault set⟩

/-! ### Updates of entries (R107 to R109, R120) -/

/-- Between two states a tile's Pewter moved: no tile's work under way, and of the registers those of the tile's updates alone. -/
def State.PewterMoved (t : Nat) (s u : State) : Prop :=
  s.WorkKept u ∧ ∀ off, off ≠ (TILE_PEW_STAT.raises.on t).off → off ≠ (TILE_PEW_LAST.valid.on t).off → u.reg off = s.reg off

theorem State.PewterMoved.refl (t : Nat) (s : State) : s.PewterMoved t s := ⟨.refl s, fun _ _ _ => rfl⟩
theorem State.PewterMoved.trans {t : Nat} {s u v : State} (h : s.PewterMoved t u) (k : u.PewterMoved t v) : s.PewterMoved t v :=
  ⟨h.1.trans k.1, fun off o p => (k.2 off o p).trans (h.2 off o p)⟩
theorem State.PewterMoved.of_regs (t : Nat) {s u : State} (tiles : u.tiles = s.tiles) (regs : u.regs = s.regs) : s.PewterMoved t u :=
  ⟨.of_tiles tiles, fun off _ _ => State.reg_congr regs off⟩
theorem State.PewterMoved.setTile (t : Nat) (s : State) {x : Tile} (h : (s.tile t).SameWork x) : s.PewterMoved t (s.setTile t x) :=
  ⟨.setTile s h, fun _ _ _ => rfl⟩
theorem State.PewterMoved.setFld (t : Nat) (s : State) (f : Fld) (v : Nat)
    (h : f.off = (TILE_PEW_STAT.raises.on t).off ∨ f.off = (TILE_PEW_LAST.valid.on t).off) : s.PewterMoved t (s.setFld f v) :=
  ⟨.of_tiles (State.setFld_tiles s f v), fun off o p => s.reg_setFld_other f v off fun same =>
    h.elim (fun stat => o (same.trans stat)) fun last => p (same.trans last)⟩
theorem State.PewterMoved.setFlag (t : Nat) (s : State) (f : Fld) (v : Bool)
    (h : f.off = (TILE_PEW_STAT.raises.on t).off ∨ f.off = (TILE_PEW_LAST.valid.on t).off) : s.PewterMoved t (s.setFlag f v) :=
  .setFld t s f v.toNat h
theorem State.PewterMoved.bump (t : Nat) (s : State) (f : Fld) (n : Nat)
    (h : f.off = (TILE_PEW_STAT.raises.on t).off ∨ f.off = (TILE_PEW_LAST.valid.on t).off) : s.PewterMoved t (s.bump f n) :=
  .setFld t s f _ h
theorem State.PewterMoved.foldl {α : Type} (t : Nat) (f : State → α → State) (step : ∀ u x, State.PewterMoved t u (f u x)) (l : List α)
    (s : State) : s.PewterMoved t (l.foldl f s) := foldl_does (State.PewterMoved t) (.refl t) (fun _ _ _ => .trans) f step l s
theorem State.PewterMoved.countMark (t : Nat) (s : State) (r n : Nat) : s.PewterMoved t (s.countMark r n) := .of_regs t rfl rfl

theorem Tile.setMant_work (x : Tile) (e r : Nat) (m : Int) : x.SameWork (x.setMant e r m) := ⟨rfl, rfl, rfl, rfl, rfl, rfl⟩

theorem Tile.setGroupVal_work (x : Tile) (e g : Nat) (v : GroupVal) : x.SameWork (x.setGroupVal e g v) := by
  unfold Tile.setGroupVal
  extract_lets y
  exact Tile.SameWork.trans (y := y) ⟨rfl, rfl, rfl, rfl, rfl, rfl⟩ (.foldl _ (fun z i => z.setMant_work e _ _) _ y)

/-- A group whose step saturates is counted and shown as the latest. -/
theorem State.showSat_moves (s : State) (t e g : Nat) (n : Nat) :
    s.PewterMoved t ((((s.bump (TILE_PEW_STAT.sats.on t) n).setFlag (TILE_PEW_LAST.valid.on t) true).setFld
      (TILE_PEW_LAST.group.on t) g).setFld (TILE_PEW_LAST.entry.on t) e) := by
  refine .trans ?_ (.setFld t _ _ _ (.inr rfl))
  refine .trans ?_ (.setFld t _ _ _ (.inr rfl))
  refine .trans ?_ (.setFlag t _ _ _ (.inr rfl))
  exact .bump t s _ n (.inl rfl)

theorem State.PewterMoved.ite {t : Nat} {s u v : State} {c : Prop} [Decidable c] (h : c → s.PewterMoved t u) (k : ¬c → s.PewterMoved t v) :
    s.PewterMoved t (if c then u else v) := iteInduction (motive := s.PewterMoved t) h k

theorem State.countSteps_moves (s : State) (t e : Nat) (l : List GroupStep) (marks : List (Option CMark)) :
    s.PewterMoved t (s.countSteps t e l marks) := by
  unfold State.countSteps
  refine .trans (.ite (fun _ => .bump t s _ _ (.inl rfl)) fun _ => .refl t s) (.foldl t _ (fun u g => ?_) _ _)
  dsimp only
  split
  · exact .refl t u
  · next x _ =>
    have sat := u.showSat_moves t e g 1
    generalize State.setFld _ (TILE_PEW_LAST.entry.on t) e = w at sat
    have marked : u.PewterMoved t (if x.sat then if x.old.ovf then w else w.countMark 2 else u) :=
      .ite (fun _ => .ite (fun _ => sat) fun _ => sat.trans (.countMark t w 2 1)) fun _ => .refl t u
    generalize (if x.sat = true then _ else u) = v at marked
    split
    · exact .ite (fun _ => marked.trans (.countMark t v _ 1)) fun _ => marked
    · exact marked

theorem State.addToEntry_moves (s : State) (t e : Nat) (p ex : List Int) (marks : List (Option CMark)) (ovfs : List Bool) (gen : BitVec 64) :
    s.PewterMoved t (s.addToEntry t e p ex marks ovfs gen) := by
  unfold State.addToEntry
  extract_lets x l y
  have entry : x.SameWork y := .foldl _ (fun z g => by
    split
    · exact z.setGroupVal_work _ _ _
    · exact .refl z) _ x
  exact (State.PewterMoved.setTile t s entry).trans (State.countSteps_moves _ t e l marks)

theorem State.remoteAdd_moves (s : State) (t e : Nat) (bs : List Block) (gen : BitVec 64) : s.PewterMoved t (s.remoteAdd t e bs gen) := by
  unfold State.remoteAdd
  extract_lets w s1
  have cleared : s.PewterMoved t s1 := by
    unfold s1
    split
    · exact .refl t s
    · exact .setTile t s ⟨rfl, rfl, rfl, rfl, rfl, rfl⟩
  exact cleared.trans (State.addToEntry_moves _ t e _ _ _ _ gen)

theorem State.addArrived_moves (s : State) (t e : Nat) : s.PewterMoved t (s.addArrived t e) := by
  unfold State.addArrived
  extract_lets x v
  split
  · exact .refl t s
  · split
    · refine State.PewterMoved.trans (.setTile t s ?_) (State.remoteAdd_moves _ t e _ _)
      exact ⟨rfl, rfl, rfl, rfl, rfl, rfl⟩
    · exact .refl t s

theorem State.reserveRemote_moves (s : State) (t e pos : Nat) : s.PewterMoved t (s.reserveRemote t e pos) := by
  unfold State.reserveRemote
  extract_lets x a g v
  split
  · refine State.PewterMoved.trans (.setTile t s ?_) (State.addArrived_moves _ t e)
    exact ⟨rfl, rfl, rfl, rfl, rfl, rfl⟩
  · exact .refl t s

end Sys2Proof.Machine
end

section
/-! SUPPORT. The host's own controls of a tile and a bay: plane requests in debug state, generator seeds, captures, the trace ring (R62, R63,
R65, R70, R113, R174). -/

namespace Sys2Proof.Machine

/-! ### Plane requests (R65) -/

/-- A request for zero codes is held, or stands in the load queue. -/
theorem Tile.rested_zeroReq (x : Tile) (w : Word) (h : x.zeroReq = true) :
    (x.rested w).zeroReq = true ∨ ∃ l ∈ (x.rested w).loadQ, l.zero = true ∧ l.pl = 0 := by
  suffices x.admitHeld.zeroReq = true ∨ ∃ l ∈ x.admitHeld.loadQ, l.zero = true ∧ l.pl = 0 from this
  unfold Tile.admitHeld
  extract_lets x1
  have taken : x1.zeroReq = true ∨ ∃ l ∈ x1.loadQ, l.zero = true ∧ l.pl = 0 := by
    unfold x1
    split
    · exact .inr ⟨_, List.mem_append_right _ (List.mem_singleton_self _), rfl, rfl⟩
    · exact .inl h
  split
  · exact taken
  · exact taken

/-- A request for a swap is held, or stands in the window queue. -/
theorem Tile.rested_swapReq (x : Tile) (w : Word) (h : x.swapReq = true) :
    (x.rested w).swapReq = true ∨ ∃ st, WinEntry.psw st 0 ∈ (x.rested w).winQ := by
  suffices x.admitHeld.swapReq = true ∨ ∃ st, WinEntry.psw st 0 ∈ x.admitHeld.winQ from
    this.imp id fun ⟨st, m⟩ => ⟨st, mem_leadScale m⟩
  unfold Tile.admitHeld
  extract_lets x1
  have held : x1.swapReq = true := by
    unfold x1
    split
    · exact h
    · exact h
  split
  · exact .inr ⟨_, List.mem_append_right _ (List.mem_singleton_self _)⟩
  · exact .inl held

theorem State.zeroIdle_asks (s : State) {t : Nat} (h : s.bayState (t / 4) = 5) :
    ((s.zeroIdle t).tile t).zeroReq = true ∨ ∃ l ∈ ((s.zeroIdle t).tile t).loadQ, l.zero = true ∧ l.pl = 0 := by
  unfold State.zeroIdle
  rw [if_pos h, State.tile_settle, State.tile_modTile_same]
  exact Tile.rested_zeroReq _ _ rfl

theorem State.swapRequest_asks (s : State) {t : Nat} (h : s.bayState (t / 4) = 5) :
    ((s.swapRequest t).tile t).swapReq = true ∨ ∃ st, WinEntry.psw st 0 ∈ ((s.swapRequest t).tile t).winQ := by
  unfold State.swapRequest
  rw [if_pos h, State.tile_settle, State.tile_modTile_same]
  exact Tile.rested_swapReq _ _ rfl

/-! ### Generator seeds and states (R70, R113) -/

/-- A field that is its whole register. -/
theorem bits_word (v : Word) : bits v.toNat 31 0 = v.toNat := by
  unfold bits
  rw [pow_zero, Nat.div_one]
  exact Nat.mod_eq_of_lt v.isLt

theorem ofNat_two_words (hi lo : Word) : BitVec.ofNat 64 (lo.toNat + 2 ^ 32 * hi.toNat) = hi ++ lo := by
  refine BitVec.eq_of_toNat_eq ?_
  have below := lo.isLt
  have above := hi.isLt
  rw [BitVec.toNat_ofNat, BitVec.toNat_append, Nat.shiftLeft_eq, Nat.mod_eq_of_lt (by omega),
    Nat.mul_comm hi.toNat, ← Nat.two_pow_add_eq_or_of_lt below, Nat.add_comm]

theorem State.pewterSeed_ignored (s : State) {t : Nat} (v : Word) (h : s.bayState (t / 4) ∉ [1, 2, 5]) : s.pewterSeed t v = s := by
  simp only [List.mem_cons, List.not_mem_nil, or_false] at h
  unfold State.pewterSeed
  exact if_neg h

/-- The seed that the two registers of a tile spell. -/
theorem State.pewSeed_words (s : State) (t : Nat) :
    s.pewSeed t = seed64 (s.reg (TILE_PEW_SEED_HI.seed_hi.on t).off ++ s.reg (TILE_PEW_SEED_LO.seed_lo.on t).off) := by
  have lo : s.fld (TILE_PEW_SEED_LO.seed_lo.on t) = (s.reg (TILE_PEW_SEED_LO.seed_lo.on t).off).toNat := bits_word _
  have hi : s.fld (TILE_PEW_SEED_HI.seed_hi.on t) = (s.reg (TILE_PEW_SEED_HI.seed_hi.on t).off).toNat := bits_word _
  unfold State.pewSeed
  rw [lo, hi, ofNat_two_words]

theorem State.pewterSeed_loads (s : State) {t : Nat} (v : Word) (h : s.bayState (t / 4) ∈ [1, 2, 5]) :
    ((s.pewterSeed t v).tile t).gen = ((s.pewterSeed t v).tile t).hop ∧
      ((s.pewterSeed t v).tile t).gen = seed64 (v ++ s.reg (TILE_PEW_SEED_LO.seed_lo.on t).off) := by
  simp only [List.mem_cons, List.not_mem_nil, or_false] at h
  have apart : (TILE_PEW_SEED_LO.seed_lo.on t).off ≠ (TILE_PEW_SEED_HI.seed_hi.on t).off := Fld.on_off_ne_on (by decide) t
  unfold State.pewterSeed State.loadGens
  dsimp only
  rw [if_pos h, State.tile_modTile_same, State.pewSeed_words, State.reg_setReg_same, State.reg_setReg, if_neg apart]
  exact ⟨rfl, rfl⟩

theorem State.pewterState_latches (s : State) (t : Nat) :
    (s.pewterState t).link.read = leBytes 4 ((s.tile t).gen.toNat % 2 ^ 32) ∧
      (s.pewterState t).reg (TILE_PEW_STATE_HI.state_hi.on t).off = (s.tile t).gen.extractLsb' 32 32 ∧
      (s.pewterState t).tiles = s.tiles := by
  refine ⟨(leBytes_mod 4 _).symm, ?_, rfl⟩
  refine (State.reg_setReg_same s _ _).trans (BitVec.eq_of_toNat_eq ?_)
  rw [BitVec.toNat_ofNat, BitVec.extractLsb'_toNat, Nat.shiftRight_eq_div_pow]

/-! ### Captures (R62, R63) -/

/-- The fields of TILE_CAPT_CTL. -/
def captCtl : RegSpec :=
  ⟨0x10, false, [⟨31, 31, .ro, 0⟩, ⟨30, 30, .wo, 0⟩, ⟨29, 28, .rw, 0⟩, ⟨27, 27, .w1c, 0⟩, ⟨24, 16, .rw, 0⟩, ⟨15, 0, .rw, 0⟩]⟩

theorem regSpec_captCtl : ∀ t : TileId, regSpec (TILE_CAPT_CTL.start.on t).off = some captCtl := by decide

theorem captCtl_apart : captCtl.FieldsApart := by
  unfold RegSpec.FieldsApart
  decide

theorem State.rawWrite_tiles (s : State) (off : Nat) (v : Word) : (s.rawWrite off v).tiles = s.tiles := by
  obtain ⟨g, e, -⟩ := s.rawWrite_spec off v
  rw [e]

/-- The count that a write gives a capture. -/
theorem State.fld_captCount (s : State) (t : TileId) (v : Word) :
    (s.rawWrite (TILE_CAPT_CTL.start.on t).off v).fld (TILE_CAPT_CTL.count.on t) = v.toNat % 65536 := by
  have count := s.fld_rawWrite v (regSpec_captCtl t) captCtl_apart ⟨15, 0, .rw, 0⟩ (by decide)
  refine count.trans ?_
  simp [RegField.takes, bits]

section
variable (s : State) (t : TileId) (v : Word)

theorem State.capture_idle (h : v.getLsbD 30 = false) : (s.capture t v).tiles = s.tiles := by
  unfold State.capture
  dsimp only
  rw [h, Bool.not_false, if_pos rfl, s.rawWrite_tiles]

theorem State.capture_accepted (h : v.getLsbD 30 = true) (ok : (s.rawWrite (TILE_CAPT_CTL.start.on t).off v).captureOk t = true) :
    ((s.capture t v).tile t).capLeft = v.toNat % 65536 + 1 ∧ ((s.capture t v).tile t).capOff = 0 := by
  unfold State.capture
  dsimp only
  rw [h, Bool.not_true, if_neg Bool.false_ne_true, if_pos ok, State.tile_modTile_same, s.fld_captCount]
  exact ⟨rfl, rfl⟩

theorem State.capture_refused (h : v.getLsbD 30 = true) (bad : (s.rawWrite (TILE_CAPT_CTL.start.on t).off v).captureOk t = false) :
    (s.capture t v).flag (TILE_CAPT_CTL.err.on t) = true ∧ (s.capture t v).tiles = s.tiles := by
  unfold State.capture
  dsimp only
  rw [h, Bool.not_true, if_neg Bool.false_ne_true, bad, if_neg Bool.false_ne_true]
  exact ⟨State.flag_setFlag_on _ (f := TILE_CAPT_CTL.err) (by decide) t true,
    (State.setFlag_tiles _ _ _).trans (s.rawWrite_tiles _ v)⟩

end

/-! ### The trace ring (R174) -/

/-- The fields of BAY_TRACE_CTL. -/
def traceCtl : RegSpec := ⟨0x24, false, [⟨31, 31, .rw, 0⟩, ⟨23, 8, .cnt, 0⟩, ⟨3, 0, .rw, 0⟩]⟩

theorem regSpec_traceCtl : ∀ b : BayId, regSpec (BAY_TRACE_CTL.en.on b).off = some traceCtl := by decide

theorem traceCtl_apart : traceCtl.FieldsApart := by
  unfold RegSpec.FieldsApart
  decide

/-- The enable that a write of BAY_TRACE_CTL leaves. -/
theorem State.flag_traceEnable (s : State) (b : BayId) (v : Word) :
    (s.rawWrite (BAY_TRACE_CTL.en.on b).off v).flag (BAY_TRACE_CTL.en.on b) = v.getLsbD 31 := by
  have en := s.fld_rawWrite v (regSpec_traceCtl b) traceCtl_apart ⟨31, 31, .rw, 0⟩ (by decide)
  exact (congrArg (· != 0) en).trans (bits_flag v 31)

section
variable (s : State) (b : BayId) (v : Word)

/-- Whether an enable of a bay's trace ring is taken: the bay is a score's, and so is the whole ring. -/
def State.ringTaken (b : Nat) (v : Word) : Bool :=
  s.bayScore b != 0 && s.ringOk (64 * s.fld (BAY_TRACE_ADDR.addr.on b)) (2 ^ (v.toNat % 16 + 10)) (s.bayScore b)

theorem State.ringTaken_iff : s.ringTaken b v = true ↔ s.bayScore b ≠ 0 ∧
    s.ringOk (64 * s.fld (BAY_TRACE_ADDR.addr.on b)) (2 ^ (v.toNat % 16 + 10)) (s.bayScore b) = true := by
  unfold State.ringTaken
  rw [Bool.and_eq_true, bne_iff_ne]

theorem State.traceWrite_off (h : v.getLsbD 31 = false) : s.traceWrite b v = s.rawWrite (BAY_TRACE_CTL.en.on b).off v := by
  unfold State.traceWrite
  dsimp only
  rw [h, Bool.not_false, if_pos rfl]

theorem State.traceWrite_running (h : v.getLsbD 31 = true) (runs : (s.bay b).anyRun = true) : s.traceWrite b v = s := by
  unfold State.traceWrite
  dsimp only
  rw [h, Bool.not_true, if_neg Bool.false_ne_true, if_pos runs]

theorem State.traceWrite_idle (h : v.getLsbD 31 = true) (idle : (s.bay b).anyRun = false) :
    s.traceWrite b v = if s.ringTaken b v then (s.rawWrite (BAY_TRACE_CTL.en.on b).off v).setFld (BAY_TRACE_PTR.next.on b) 0
      else s.setFlag (BAY_TRACE_CTL.en.on b) false := by
  have size : bits v.toNat 3 0 = v.toNat % 16 := by simp [bits]
  unfold State.traceWrite State.ringTaken
  dsimp only
  rw [h, Bool.not_true, if_neg Bool.false_ne_true, idle, if_neg Bool.false_ne_true, size]

theorem State.traceWrite_taken (h : v.getLsbD 31 = true) (idle : (s.bay b).anyRun = false) (taken : s.ringTaken b v = true) :
    (s.traceWrite b v).flag (BAY_TRACE_CTL.en.on b) = true ∧ (s.traceWrite b v).fld (BAY_TRACE_PTR.next.on b) = 0 := by
  rw [s.traceWrite_idle b v h idle, if_pos taken]
  have apart : (BAY_TRACE_CTL.en.on b).off ≠ (BAY_TRACE_PTR.next.on b).off := Fld.on_off_ne_on (by decide) b
  refine ⟨?_, ?_⟩
  · rw [State.flag_congr _ (State.reg_setFld_other _ _ 0 _ apart), s.flag_traceEnable, h]
  · exact State.fld_setFld_on _ (f := BAY_TRACE_PTR.next) (by decide) b 0

theorem State.traceWrite_refused (h : v.getLsbD 31 = true) (idle : (s.bay b).anyRun = false) (refused : s.ringTaken b v = false) :
    (s.traceWrite b v).flag (BAY_TRACE_CTL.en.on b) = false := by
  rw [s.traceWrite_idle b v h idle, refused, if_neg Bool.false_ne_true]
  exact s.flag_setFlag_on (f := BAY_TRACE_CTL.en) (by decide) b false

end

/-- Settles O19: each control is the lemma of its write above. -/
theorem tileControlsOfTheHost : Obligations.TileControlsOfTheHost := by
  refine ⟨fun s t => ⟨fun debug => ⟨⟨_, rfl, s.zeroIdle_asks debug⟩, _, rfl, s.swapRequest_asks debug⟩,
      fun other => ⟨congrArg Host.Outcome.next (if_neg other), congrArg Host.Outcome.next (if_neg other)⟩⟩,
    fun s t v => ⟨?dither, fun still => ⟨_, rfl, s.pewterSeed_loads v still⟩,
      fun other => congrArg Host.Outcome.next (s.pewterSeed_ignored v other), _, rfl, s.pewterState_latches t⟩,
    fun s v => ⟨fun t start ok => ⟨_, rfl, s.capture_accepted t v start ok⟩,
      fun t start bad => ⟨_, rfl, s.capture_refused t v start bad⟩, fun t idle => ⟨_, rfl, s.capture_idle t v idle⟩,
      fun b en idle bound ring => ⟨_, rfl, s.traceWrite_taken b v en idle ((s.ringTaken_iff b v).2 ⟨bound, ring⟩)⟩,
      fun b en idle refused => ⟨_, rfl, s.traceWrite_refused b v en idle ?unbound⟩, fun b off => ⟨_, rfl, ?off⟩,
      fun b en runs => congrArg Host.Outcome.next (s.traceWrite_running b v en runs)⟩⟩
  case dither =>
    refine ⟨_, rfl, s.reg_setReg_same _ v, ?_⟩
    rw [State.tile_modTile_same]
    exact ⟨rfl, rfl⟩
  case unbound =>
    rw [← Bool.not_eq_true, s.ringTaken_iff]
    rintro ⟨bound, ring⟩
    rcases refused with free | outside
    · exact bound free
    · exact Bool.false_ne_true (outside.symm.trans ring)
  case off => rw [s.traceWrite_off b v off, s.flag_traceEnable, off]

end Sys2Proof.Machine
end

section
/-! SUPPORT. Windows of a tile after their integration: conversion, the overflow decision, replays (R56, R89 to R92). -/

namespace Sys2Proof.Machine

/-! ### The windows of a tile -/

theorem Tile.mem_of_firstIn {x : Tile} {ph : WinPhase} {w : Win} (h : x.firstIn ph = some w) : w ∈ x.wins := List.mem_of_find?_eq_some h

/-- A window of the tile that is set stands in its place. -/
theorem Tile.mem_setWin {x : Tile} {w v : Win} (h : w ∈ x.wins) (no : v.no = w.no) : v ∈ (x.setWin v).wins :=
  List.mem_map.2 ⟨w, h, if_pos no.symm⟩

theorem Tile.closeIdle_work (x : Tile) : x.SameWork x.closeIdle ∧ x.closeIdle.ended = x.ended := by
  unfold Tile.closeIdle
  extract_lets next waits x1
  split
  · exact ⟨⟨rfl, rfl, rfl, rfl, rfl, rfl⟩, rfl⟩
  · exact ⟨.refl x, rfl⟩

/-- A window that is delivered leaves the tile. -/
theorem Tile.no_of_mem_deliver (x : Tile) (w : Win) (y : List Int) (marks : List (Option CMark)) :
    ∀ v ∈ (x.deliver w y marks).wins, v.no ≠ w.no := by
  intro v m
  have kept : v ∈ x.wins.filter (·.no != w.no) := m
  exact bne_iff_ne.1 (List.mem_filter.1 kept).2

/-! ### WINDOW_END (R56) -/

theorem State.UnitsKept.writeBytes (s : State) (a : Nat) (l : List Byte) : s.UnitsKept (s.writeBytes a l) := by
  obtain ⟨b, f, c, e⟩ := s.writeBytes_spec a l
  rw [e]
  exact ⟨rfl, rfl⟩

theorem State.UnitsKept.refreshBlock (s : State) (a : Nat) : s.UnitsKept (s.refreshBlock a) := by
  rcases s.refreshBlock_cases a with same | written
  · rw [same]
    exact .refl s
  · obtain ⟨b, f, c, e⟩ := s.writeBlock_spec a (s.blockAt a)
    rw [written, e]
    exact ⟨rfl, rfl⟩

theorem State.UnitsKept.putBytes (s : State) (q a : Nat) (bs : List Byte) : s.UnitsKept (s.putBytes q a bs) := by
  unfold State.putBytes
  split
  · exact .raise s _
  · exact (State.UnitsKept.foldl _ (fun u k => .refreshBlock u _) _ s).trans (.writeBytes _ a bs)

theorem State.UnitsKept.captureCode (s : State) (t : Nat) (w : Win) (codes : List Int) : s.UnitsKept (s.captureCode t w codes) := by
  unfold State.captureCode
  split
  · exact .refl s
  · extract_lets a
    split
    · exact .putBytes s _ _ _
    · exact .putBytes s _ _ _

theorem State.UnitsKept.bandMark (s : State) (t : Nat) (band : Bool) : s.UnitsKept (s.bandMark t band) := by
  unfold State.bandMark
  split
  · exact .setFld s _ _
  · exact .refl s

/-- A window as its conversion leaves it. -/
def State.convertedWin (s : State) (t : Nat) (w : Win) : Win :=
  let x := s.tile t
  let p := x.planeOf w.plane
  { w with
    phase := .converted, codes := x.convert w p false s.free
    marks := w.groupMarks p (s.flag (TILE_PLANE_STAT.stale.on t) && w.plane == s.active t) (w.band || x.band) (w.aff ++ x.aff) }

theorem State.convertedWin_codes (s : State) (t : Nat) (w : Win) :
    (s.convertedWin t w).codes = (s.tile t).convert w ((s.tile t).planeOf w.plane) false s.free := by
  simp only [State.convertedWin]

/-- A tile after the conversion of a window. -/
def State.endedTile (s : State) (t : Nat) (w : Win) : Tile :=
  Tile.closeIdle { (s.tile t).setWin (s.convertedWin t w) with ended := (s.tile t).ended + 1 }

theorem State.windowEnd_units (s : State) {t : Nat} {w : Win} (h : (s.tile t).firstIn .integrating = some w) :
    ((s.draw 512).setTile t (s.endedTile t w)).UnitsKept (s.windowEnd t) := by
  unfold State.windowEnd
  extract_lets x
  rw [show x.firstIn .integrating = some w from h]
  dsimp -zeta only
  extract_lets p codes band stale w1 set x1 s1
  exact (State.UnitsKept.bandMark s1 t band).trans (.captureCode _ t w codes)

theorem State.endedTile_spec (s : State) {t : Nat} {w : Win} (h : (s.tile t).firstIn .integrating = some w) :
    (s.endedTile t w).ended = (s.tile t).ended + 1 ∧ s.convertedWin t w ∈ (s.endedTile t w).wins := by
  unfold State.endedTile
  obtain ⟨work, ended⟩ := Tile.closeIdle_work { (s.tile t).setWin (s.convertedWin t w) with ended := (s.tile t).ended + 1 }
  rw [work.wins, ended]
  exact ⟨rfl, Tile.mem_setWin (Tile.mem_of_firstIn h) rfl⟩

theorem State.windowEnd_spec (s : State) {t : Nat} {w : Win} (h : (s.tile t).firstIn .integrating = some w) :
    ((s.windowEnd t).tile t).ended = (s.tile t).ended + 1 ∧ s.convertedWin t w ∈ ((s.windowEnd t).tile t).wins := by
  rw [State.tile_congr (s.windowEnd_units h).1, State.tile_setTile_same]
  exact s.endedTile_spec h

theorem State.windowEnd_none (s : State) {t : Nat} (h : (s.tile t).firstIn .integrating = none) : s.windowEnd t = s := by
  unfold State.windowEnd
  extract_lets x
  rw [show x.firstIn .integrating = none from h]

/-! ### A window's delivery (R92) -/

section
variable (s : State) (t : Nat) (w : Win) (y : List Int) (sat : List Nat) (marks : List (Option CMark))

/-- A delivery, with the rows that stay saturated counted if there are any. -/
theorem State.deliverWin_eq :
    s.deliverWin t w y sat marks =
      if sat.isEmpty then s.modTile t fun x => x.deliver w y (satMarks w sat marks)
      else ((s.modTile t fun x => x.deliver w y (satMarks w sat marks)).bump (TILE_OVF_STAT.sats.on t) sat.length).countMark 1 sat.length :=
  rfl

theorem State.deliverWin_tile : (s.deliverWin t w y sat marks).tile t = (s.tile t).deliver w y (satMarks w sat marks) := by
  have left := s.tile_modTile_same t fun x => x.deliver w y (satMarks w sat marks)
  rw [s.deliverWin_eq]
  generalize (s.modTile t fun x => x.deliver w y (satMarks w sat marks)) = u at left
  split
  · exact left
  · rw [State.tile_congr (State.countMark_tiles _ 1 _), State.tile_congr (State.bump_tiles u _ _), left]

/-- The rows that stay saturated are counted. -/
theorem State.deliverWin_sats (h : sat ≠ []) :
    (s.deliverWin t w y sat marks).fld (TILE_OVF_STAT.sats.on t) = min (s.fld (TILE_OVF_STAT.sats.on t) + sat.length) 65535 := by
  rw [s.deliverWin_eq, if_neg (by simpa using h), State.fld_congr _ (State.reg_congr (State.countMark_regs _ 1 _) _),
    State.fld_bump_on _ (f := TILE_OVF_STAT.sats) (by decide) t (by decide),
    State.fld_congr _ (State.reg_congr (State.modTile_regs s t _) _)]

theorem State.deliverWin_replays :
    (s.deliverWin t w y sat marks).fld (TILE_OVF_STAT.replays.on t) = s.fld (TILE_OVF_STAT.replays.on t) := by
  have kept := State.fld_congr (TILE_OVF_STAT.replays.on t) (State.reg_congr (State.modTile_regs s t fun x => x.deliver w y (satMarks w sat marks)) _)
  rw [s.deliverWin_eq]
  generalize (s.modTile t fun x => x.deliver w y (satMarks w sat marks)) = u at kept
  split
  · exact kept
  · rw [State.fld_congr _ (State.reg_congr (State.countMark_regs _ 1 _) _), ← kept]
    exact u.fld_setFld_on_beside (f := TILE_OVF_STAT.sats) (g := TILE_OVF_STAT.replays) (by decide) t (by decide) _

end

/-! ### OVERFLOW_DECISION (R89, R90, R92) -/

section
variable (s : State) (t : Nat) (w : Win) (rows : List Nat) (sat : Bool)

theorem State.setOvfLast_units : s.UnitsKept (s.setOvfLast t w rows sat) := by
  unfold State.setOvfLast
  refine .trans ?_ (.setFld _ _ _)
  refine .trans ?_ (.setFld _ _ _)
  refine .trans ?_ (.setFlag _ _ _)
  exact .setFlag _ _ _

theorem State.setOvfLast_reg {off : Nat} (h : off ≠ (TILE_OVF_LAST.valid.on t).off) : (s.setOvfLast t w rows sat).reg off = s.reg off := by
  have other : ∀ (u : State) (f : Fld) (n : Nat), f.off = TILE_OVF_LAST.valid.off → (u.setFld (f.on t) n).reg off = u.reg off :=
    fun u f n o => u.reg_setFld_other (f.on t) n off fun same => h (same.trans (congrArg (· + t * 0x10000) o))
  unfold State.setOvfLast State.setFlag
  rw [other _ TILE_OVF_LAST.win _ rfl, other _ TILE_OVF_LAST.row _ rfl, other _ TILE_OVF_LAST.sat _ rfl, other _ TILE_OVF_LAST.valid _ rfl]

theorem State.setOvfLast_shows (h : rows.headD 0 < 512) :
    (s.setOvfLast t w rows sat).flag (TILE_OVF_LAST.valid.on t) = true ∧ (s.setOvfLast t w rows sat).flag (TILE_OVF_LAST.sat.on t) = sat ∧
      (s.setOvfLast t w rows sat).fld (TILE_OVF_LAST.win.on t) = w.no % 2 ^ 21 ∧
      (s.setOvfLast t w rows sat).fld (TILE_OVF_LAST.row.on t) = rows.headD 0 := by
  unfold State.setOvfLast
  refine ⟨?valid, ?sat, State.fld_setFld_on _ (f := TILE_OVF_LAST.win) (by decide) t w.no, ?row⟩
  case valid =>
    rw [State.flag_setFld_on_beside _ (f := TILE_OVF_LAST.win) (g := TILE_OVF_LAST.valid) (by decide) t (by decide),
      State.flag_setFld_on_beside _ (f := TILE_OVF_LAST.row) (g := TILE_OVF_LAST.valid) (by decide) t (by decide), State.setFlag,
      State.flag_setFld_on_beside _ (f := TILE_OVF_LAST.sat) (g := TILE_OVF_LAST.valid) (by decide) t (by decide),
      s.flag_setFlag_on (f := TILE_OVF_LAST.valid) (by decide) t]
  case sat =>
    rw [State.flag_setFld_on_beside _ (f := TILE_OVF_LAST.win) (g := TILE_OVF_LAST.sat) (by decide) t (by decide),
      State.flag_setFld_on_beside _ (f := TILE_OVF_LAST.row) (g := TILE_OVF_LAST.sat) (by decide) t (by decide),
      State.flag_setFlag_on _ (f := TILE_OVF_LAST.sat) (by decide) t]
  case row =>
    rw [State.fld_setFld_on_beside _ (f := TILE_OVF_LAST.win) (g := TILE_OVF_LAST.row) (by decide) t (by decide),
      State.fld_setFld_on _ (f := TILE_OVF_LAST.row) (by decide) t]
    exact Nat.mod_eq_of_lt h

end

/-- Every row that keeps a rail code is one of the 512. -/
theorem headD_overRows_lt (codes : List Int) : (overRows codes).headD 0 < 512 := by
  cases rows : overRows codes with
  | nil => exact Nat.succ_pos 511
  | cons r l =>
    have m : r ∈ overRows codes := rows ▸ List.mem_cons_self
    exact List.mem_range.1 (List.mem_filter.1 m).1

section
variable (s : State) {t : Nat} {w : Win} (h : (s.tile t).firstIn .converted = some w)
include h

/-- A window with a rail code that can be replayed waits for its replay. -/
theorem State.overflowDecision_waits (rails : overRows w.codes ≠ []) (can : s.replayable t w = true) :
    s.overflowDecision t =
      (s.modTile t fun x => x.setWin { w with phase := .replaying, since := 0 }).setOvfLast t w (overRows w.codes) false := by
  unfold State.overflowDecision
  extract_lets x
  rw [show x.firstIn .converted = some w from h]
  exact if_pos ⟨by simpa using rails, can⟩

/-- Any other converted window is delivered. -/
theorem State.overflowDecision_delivers (no : ¬ (overRows w.codes ≠ [] ∧ s.replayable t w = true)) :
    ∃ y, s.overflowDecision t =
      if (overRows w.codes).isEmpty then s.deliverWin t w y (overRows w.codes) w.marks
      else (s.deliverWin t w y (overRows w.codes) w.marks).setOvfLast t w (overRows w.codes) true := by
  unfold State.overflowDecision
  extract_lets x
  rw [show x.firstIn .converted = some w from h]
  exact ⟨_, if_neg fun ⟨rails, can⟩ => no ⟨by simpa using rails, can⟩⟩

theorem State.overflowDecision_replays (rails : overRows w.codes ≠ []) (can : s.replayable t w = true) :
    (∃ v ∈ ((s.overflowDecision t).tile t).wins, v.no = w.no ∧ v.phase = .replaying) ∧
      (s.overflowDecision t).flag (TILE_OVF_LAST.valid.on t) = true ∧ (s.overflowDecision t).flag (TILE_OVF_LAST.sat.on t) = false ∧
      (s.overflowDecision t).fld (TILE_OVF_LAST.win.on t) = w.no % 2 ^ 21 ∧
      (s.overflowDecision t).fld (TILE_OVF_LAST.row.on t) = (overRows w.codes).headD 0 := by
  rw [s.overflowDecision_waits h rails can]
  refine ⟨?_, State.setOvfLast_shows _ t w _ false (headD_overRows_lt _)⟩
  rw [State.tile_congr (State.setOvfLast_units _ t w _ false).1, State.tile_modTile_same]
  exact ⟨_, Tile.mem_setWin (Tile.mem_of_firstIn h) rfl, rfl, rfl⟩

theorem State.overflowDecision_saturates (rails : overRows w.codes ≠ []) (cannot : s.replayable t w = false) :
    (∀ v ∈ ((s.overflowDecision t).tile t).wins, v.no ≠ w.no) ∧ (s.overflowDecision t).flag (TILE_OVF_LAST.sat.on t) = true ∧
      (s.overflowDecision t).fld (TILE_OVF_STAT.sats.on t) =
        min (s.fld (TILE_OVF_STAT.sats.on t) + (overRows w.codes).length) 65535 := by
  obtain ⟨y, delivered⟩ := s.overflowDecision_delivers h fun ⟨_, can⟩ => Bool.false_ne_true (cannot.symm.trans can)
  rw [delivered, if_neg (by simpa using rails)]
  obtain ⟨-, sat, -, -⟩ := State.setOvfLast_shows (s.deliverWin t w y (overRows w.codes) w.marks) t w _ true (headD_overRows_lt w.codes)
  refine ⟨?_, sat, ?_⟩
  · rw [State.tile_congr (State.setOvfLast_units _ t w _ true).1, s.deliverWin_tile]
    exact Tile.no_of_mem_deliver _ w y _
  · rw [State.fld_congr _ (State.setOvfLast_reg _ t w _ true (Fld.on_off_ne_on (by decide) t)), s.deliverWin_sats t w y _ _ rails]

theorem State.overflowDecision_leaves (none : overRows w.codes = []) : ∀ v ∈ ((s.overflowDecision t).tile t).wins, v.no ≠ w.no := by
  obtain ⟨y, delivered⟩ := s.overflowDecision_delivers h fun rails => rails.1 none
  rw [delivered, none, if_pos List.isEmpty_nil, s.deliverWin_tile]
  exact Tile.no_of_mem_deliver _ w y _

end

/-! ### REPLAY (R91, R92, R232) -/

theorem State.noteUse_moves (s : State) (i : ScoreId) (n allowed : Nat) (replay : Bool) : s.ClaimsMoved (s.noteUse i n allowed replay) := by
  unfold State.noteUse
  extract_lets s1
  exact iteInduction (motive := s.ClaimsMoved) (fun _ => .trans _ _ _ (s.modTriggers_moves i n _) (s1.promiseRisk_moves i n _))
    fun _ => s.modTriggers_moves i n _

theorem State.noteReplay_moves (s : State) (t : Nat) : s.ClaimsMoved (s.noteReplay t) := by
  unfold State.noteReplay
  split
  · exact .refl s
  · split
    · exact .trans _ _ _ (s.noteCause_moves _ 4) (State.scoreFold_moves _ _ _ _ fun u n c => u.noteUse_moves _ n _ true)
    · exact .refl s

theorem State.ClaimsMoved.tiles {s u : State} (h : s.ClaimsMoved u) : u.tiles = s.tiles := by
  obtain ⟨c, x, g, m, n, rfl, -, -⟩ := h
  rfl

theorem State.UnitsKept.ovfSaturated (s : State) (t : Nat) (w : Win) (sat : List Nat) : s.UnitsKept (s.ovfSaturated t w sat) := by
  unfold State.ovfSaturated
  split
  · exact .setFlag s _ true
  · exact .refl s

theorem State.ovfSaturated_reg (s : State) (t : Nat) (w : Win) (sat : List Nat) {off : Nat} (h : off ≠ (TILE_OVF_LAST.sat.on t).off) :
    (s.ovfSaturated t w sat).reg off = s.reg off := by
  unfold State.ovfSaturated
  split
  · exact s.reg_setFld_other _ _ off h
  · rfl

theorem State.bandMark_reg (s : State) (t : Nat) (band : Bool) {off : Nat} (h : off ≠ GLB_INTERLOCK.band.off) :
    (s.bandMark t band).reg off = s.reg off := by
  unfold State.bandMark
  split
  · exact s.reg_setFld_other _ _ off h
  · rfl

theorem State.replay_waits (s : State) {t : Nat} (h : s.replayDue t = false) : s.replay t = s := by
  unfold State.replay
  extract_lets x
  rw [h, if_neg Bool.false_ne_true]

/-- A replay counts, and delivers its window. -/
theorem State.replay_eq (s : State) {t : Nat} {w : Win} (due : s.replayDue t = true) (h : (s.tile t).firstIn .replaying = some w) :
    ∃ y sat marks, s.replay t = (((((s.draw 512).bump (TILE_OVF_STAT.replays.on t)).deliverWin t w y sat marks).ovfSaturated t w sat).bandMark
      t (s.tile t).band).noteReplay t := by
  unfold State.replay
  extract_lets x
  rw [due, if_pos rfl, show x.firstIn .replaying = some w from h]
  exact ⟨_, _, _, rfl⟩

theorem State.replay_spec (s : State) {t : Nat} {w : Win} (due : s.replayDue t = true) (h : (s.tile t).firstIn .replaying = some w) :
    (∀ v ∈ ((s.replay t).tile t).wins, v.no ≠ w.no) ∧
      (s.replay t).fld (TILE_OVF_STAT.replays.on t) = min (s.fld (TILE_OVF_STAT.replays.on t) + 1) 65535 := by
  obtain ⟨y, sat, marks, e⟩ := s.replay_eq due h
  rw [e]
  have bumped := (s.draw 512).fld_bump_on (f := TILE_OVF_STAT.replays) (by decide) t (by decide) 1
  have tiles := State.tile_congr (State.bump_tiles (s.draw 512) (TILE_OVF_STAT.replays.on t) 1) t
  generalize (s.draw 512).bump (TILE_OVF_STAT.replays.on t) = u at bumped tiles
  have left := u.deliverWin_tile t w y sat marks
  have counted := u.deliverWin_replays t w y sat marks
  generalize u.deliverWin t w y sat marks = v at left counted
  have units := (State.UnitsKept.ovfSaturated v t w sat).trans (.bandMark _ t (s.tile t).band)
  have claims := State.noteReplay_moves ((v.ovfSaturated t w sat).bandMark t (s.tile t).band) t
  refine ⟨?_, ?_⟩
  · rw [State.tile_congr (claims.tiles.trans units.1), left]
    exact Tile.no_of_mem_deliver _ w y _
  · rw [State.fld_congr _ (claims.reg (Fld.on_off_ne_below (by decide) t)),
      State.fld_congr _ (State.bandMark_reg _ t _ (Fld.on_off_ne_below (by decide) t)),
      State.fld_congr _ (v.ovfSaturated_reg t w sat (Fld.on_off_ne_on (by decide) t)), counted]
    exact bumped

/-- Settles O2: the conversion, the decision over its three cases, and the replay. -/
theorem windowsConvertAndLeave : Obligations.WindowsConvertAndLeave := by
  intro s t w
  refine ⟨fun first => ?_, fun none => congrArg Host.Outcome.next (s.windowEnd_none none),
    fun first => ⟨fun rails can => ⟨_, rfl, s.overflowDecision_replays first rails can⟩,
      fun rails cannot => ⟨_, rfl, s.overflowDecision_saturates first rails cannot⟩,
      fun none => ⟨_, rfl, s.overflowDecision_leaves first none⟩⟩,
    fun first => ⟨fun due => ⟨_, rfl, s.replay_spec due first⟩, fun early => congrArg Host.Outcome.next (s.replay_waits early)⟩⟩
  obtain ⟨ended, converted⟩ := s.windowEnd_spec first
  exact ⟨_, rfl, ended, _, converted, rfl, rfl, s.convertedWin_codes t w⟩

end Sys2Proof.Machine
end

section
/-! SUPPORT. The hold planes of a tile: an image as it arrives, a load's start and end, the swap and the hold limit (R48 to R53, R81, R144,
R184). -/

namespace Sys2Proof.Machine

/-! ### The bytes of an image (R184) -/

/-- A table made of the bytes of a list holds each at its place. -/
theorem Tab.get_zipIdx (l : List Byte) (n k : Nat) :
    Tab.get dZero ((l.zipIdx n).filterMap fun p => if p.1 = 0 then none else some (p.2, p.1)) k = if n ≤ k then l.getD (k - n) 0 else 0 := by
  induction l generalizing n with
  | nil => exact (ite_self 0).symm
  | cons b l ih =>
    rw [List.zipIdx_cons, List.filterMap_cons]
    have rest : n ≠ k → (if n + 1 ≤ k then l.getD (k - (n + 1)) 0 else 0) = if n ≤ k then (b :: l).getD (k - n) 0 else 0 := by
      intro other
      by_cases h : n + 1 ≤ k
      · rw [if_pos h, if_pos (Nat.le_of_succ_le h), show k - n = k - (n + 1) + 1 by omega, List.getD_cons_succ]
      · rw [if_neg h, if_neg (by omega)]
    by_cases zero : b = 0
    · dsimp only
      rw [if_pos zero, ih]
      by_cases here : n = k
      · subst here
        rw [if_neg (by omega), if_pos (Nat.le_refl n), Nat.sub_self, List.getD_cons_zero, zero]
      · exact rest here
    · dsimp only
      rw [if_neg zero]
      by_cases here : n = k
      · subst here
        simp [Tab.get]
      · exact ((if_neg here).trans (ih (n + 1))).trans (rest here)

/-- An element of pieces of one length laid end to end. -/
theorem getD_flatMap_range {α : Type} (f : Nat → List α) {n : Nat} (each : ∀ i, (f i).length = n) (m : Nat) {k : Nat} (h : k < m * n) (d : α) :
    ((List.range m).flatMap f).getD k d = (f (k / n)).getD (k % n) d := by
  induction m with
  | zero => exact absurd h (by omega)
  | succ m ih =>
    have length : ((List.range m).flatMap f).length = m * n := by
      rw [length_flatMap_const _ f n fun i _ => each i, List.length_range]
    rw [List.range_succ, List.flatMap_append, List.flatMap_singleton]
    by_cases front : k < m * n
    · rw [List.getD_append _ _ _ _ (by omega), ih front]
    · have place : k / n = m ∧ k % n = k - m * n := by
        rw [Nat.succ_mul] at h
        have quotient : k / n = m := Nat.div_eq_of_lt_le (Nat.not_lt.1 front) (by rw [Nat.succ_mul]; exact h)
        exact ⟨quotient, by rw [Nat.mod_eq_sub_mul_div, quotient, Nat.mul_comm]⟩
      rw [List.getD_append_right _ _ _ _ (by omega), length, place.1, place.2]

/-- What stage memory delivers does not hang on who is served next. -/
theorem State.blockAt_arb (s : State) (arb : Tab Nat) (a : Nat) : State.blockAt { s with arb := arb } a = s.blockAt a := rfl

theorem State.blockAt_length (s : State) (a : Nat) : (s.blockAt a).data.length = 64 := by
  unfold State.blockAt
  split
  · rw [List.length_map, List.length_range]
  · rw [List.length_map, List.length_range]

/-- The bytes that an image's read delivers, block by block. -/
theorem State.readImage_bytes (s : State) (a : Nat) {k : Nat} (h : k < imageSize) :
    Tab.get dZero (s.readImage a).1 k = (s.blockAt (a + 64 * (k / 64))).data.getD (k % 64) 0 := by
  have read : (s.readImage a).1 = (((List.range 1040).flatMap fun i => (s.blockAt (a + 64 * i)).data).zipIdx 0).filterMap
      fun p => if p.1 = 0 then none else some (p.2, p.1) := by
    simp only [State.readImage, List.flatMap_map]
  rw [read, Tab.get_zipIdx, if_pos (Nat.zero_le k), Nat.sub_zero]
  exact getD_flatMap_range (fun i => (s.blockAt (a + 64 * i)).data) (fun i => s.blockAt_length _) 1040 h 0

theorem Tile.buf_setBuf (x : Tile) (i : Nat) (v : ImgBuf) : (x.setBuf i v).buf i = v := by
  unfold Tile.setBuf Tile.buf
  by_cases first : i = 0
  · rw [if_pos first, if_pos first]
  · rw [if_neg first, if_neg first]

/-! ### IMAGE_FETCH (R184) -/

theorem State.imageFetch_fills (s : State) {t i : Nat} {l : Load} (next : nextFetch (s.tile t).loadQ = some l)
    (buffer : (s.tile t).pickBuf (s.active t) = some i)
    (slots : s.rangeSlots l.addr imageSize readKinds ((s.bay (t / 4)).job l.job).cls = true) :
    ∃ m, ((s.imageFetch t).tile t).buf i = ⟨l.stamp, (s.readImage l.addr).1, m, true, true, none⟩ := by
  unfold State.imageFetch
  extract_lets x
  rw [show nextFetch x.loadQ = some l from next]
  dsimp -zeta only
  rw [show x.pickBuf (s.active t) = some i from buffer]
  dsimp -zeta only
  rw [if_pos slots]
  extract_lets r v q y
  rw [State.tile_setTile_same]
  exact ⟨r.2.1, x.buf_setBuf i v⟩

theorem State.imageFetch_none (s : State) {t : Nat} (h : nextFetch (s.tile t).loadQ = none) : s.imageFetch t = s := by
  unfold State.imageFetch
  extract_lets x
  rw [show nextFetch x.loadQ = none from h]

theorem State.fetchClaim_none (s : State) {t : Nat} (h : nextFetch (s.tile t).loadQ = none) : s.fetchClaim t = none := by
  unfold State.fetchClaim State.fetching
  rw [h]
  rfl

theorem State.grantTo_spec (s : State) (c : Option Claim) : ∃ a, s.grantTo c = { s with arb := a } := by
  cases c with
  | none => exact ⟨s.arb, rfl⟩
  | some c => exact ⟨_, rfl⟩

theorem exec_imageFetch (s : State) (t : TileId) :
    exec (.imageFetch t) s =
      .next (if s.grantsOpt s.claims (s.fetchClaim t) then (s.grantTo (s.fetchClaim t)).imageFetch t else s) := rfl

theorem exec_imageFetch_granted (s : State) {t : TileId} {i : Nat} {l : Load} (next : nextFetch (s.tile t).loadQ = some l)
    (buffer : (s.tile t).pickBuf (s.active t) = some i)
    (slots : s.rangeSlots l.addr imageSize readKinds ((s.bay (t / 4)).job l.job).cls = true)
    (granted : s.grantsOpt s.claims (s.fetchClaim t) = true) :
    ∃ u, exec (.imageFetch t) s = .next u ∧ ((u.tile t).buf i).full = true ∧ ((u.tile t).buf i).stamp = l.stamp ∧
      ∀ k, k < imageSize → Tab.get dZero ((u.tile t).buf i).bytes k = (s.blockAt (l.addr + 64 * (k / 64))).data.getD (k % 64) 0 := by
  obtain ⟨a, arb⟩ := s.grantTo_spec (s.fetchClaim t)
  obtain ⟨m, filled⟩ := State.imageFetch_fills { s with arb := a } next buffer slots
  rw [exec_imageFetch, if_pos granted, arb]
  refine ⟨_, rfl, ?_⟩
  rw [filled]
  refine ⟨rfl, rfl, fun k inside => ?_⟩
  rw [State.readImage_bytes _ _ inside, s.blockAt_arb]

theorem exec_imageFetch_waits (s : State) (t : TileId)
    (h : nextFetch (s.tile t).loadQ = none ∨ s.grantsOpt s.claims (s.fetchClaim t) = false) : exec (.imageFetch t) s = .next s := by
  rw [exec_imageFetch]
  refine congrArg Host.Outcome.next ?_
  rcases h with idle | refused
  · rw [s.fetchClaim_none idle]
    exact s.imageFetch_none idle
  · rw [refused, if_neg Bool.false_ne_true]

/-! ### PLANE_LOAD_START (R48, R49, R81) -/

section
variable (s : State) {t : Nat} {l : Load} {q : List Load} (first : (s.tile t).loadQ = l :: q)
include first

theorem State.planeLoadStart_waits (h : (s.bay (t / 4)).paused = true ∨ (s.tile t).mayStart l = false) : s.planeLoadStart t = s := by
  unfold State.planeLoadStart
  extract_lets x
  rw [show x.loadQ = l :: q from first]
  exact if_pos (h.imp id fun no => by rw [no]; rfl)

section
variable (runs : (s.bay (t / 4)).paused = false) (may : (s.tile t).mayStart l = true)
include runs may

/-- The first load, when it may start. -/
theorem State.planeLoadStart_eq :
    s.planeLoadStart t =
      if l.target (s.active t) = s.active t then s.strandFault (t / 4) l.strand 4 l.pc.toNat
      else if !l.zero && (List.range 512).any (fun r => badHdr (((s.tile t).buf l.buf).hdrWord r)) then
        s.strandFault (t / 4) l.strand 5 l.pc.toNat
      else s.startLoad t l := by
  unfold State.planeLoadStart
  extract_lets x
  rw [show x.loadQ = l :: q from first]
  exact if_neg (by simp [runs, x, may])

theorem State.planeLoadStart_active (active : l.target (s.active t) = s.active t) :
    s.planeLoadStart t = s.strandFault (t / 4) l.strand 4 l.pc.toNat := by
  rw [s.planeLoadStart_eq first runs may, if_pos active]

theorem State.planeLoadStart_badHeader (idle : l.target (s.active t) ≠ s.active t) (image : l.zero = false)
    (bad : ∃ r, r < 512 ∧ badHdr (((s.tile t).buf l.buf).hdrWord r) = true) :
    s.planeLoadStart t = s.strandFault (t / 4) l.strand 5 l.pc.toNat := by
  obtain ⟨r, row, bad⟩ := bad
  rw [s.planeLoadStart_eq first runs may, if_neg idle, image, List.any_eq_true.2 ⟨r, List.mem_range.2 row, bad⟩]
  exact if_pos rfl

theorem State.planeLoadStart_begins (idle : l.target (s.active t) ≠ s.active t)
    (good : l.zero = true ∨ ∀ r, r < 512 → badHdr (((s.tile t).buf l.buf).hdrWord r) = false) :
    s.planeLoadStart t = s.startLoad t l := by
  rw [s.planeLoadStart_eq first runs may, if_neg idle, if_neg]
  rw [Bool.and_eq_true, Bool.not_eq_true', List.any_eq_true]
  rintro ⟨image, r, row, bad⟩
  rcases good with zero | good
  · exact Bool.false_ne_true (image.symm.trans zero)
  · exact Bool.false_ne_true ((good r (List.mem_range.1 row)).symm.trans bad)

end

end

theorem State.strandFault_loading (s : State) (t b j code pc : Nat) : ((s.strandFault b j code pc).tile t).loading = (s.tile t).loading :=
  (s.strandFault_work b j code pc t).loading

/-! ### The start of a load (R48) -/

theorem State.recordLoad_tiles (s : State) (t clamps : Nat) : (s.recordLoad t clamps).tiles = s.tiles := by
  unfold State.recordLoad
  extract_lets d
  rw [State.setFld_tiles, State.setSat_tiles]

/-- A plane of zero codes holds no code. -/
theorem State.makePlane_zeros (s : State) (t : Nat) (hdr : Nat → RowHdr) (image : Mark) :
    (s.makePlane t (fun _ => 0) hdr image true).1.zeros = true ∧ (s.makePlane t (fun _ => 0) hdr image true).1.codes = [] := by
  unfold State.makePlane
  extract_lets x ds raw clamps dac cs hs sums combs range
  dsimp -zeta only
  exact ⟨rfl, List.filterMap_eq_nil_iff.2 fun k _ => if_pos rfl⟩

/-- The plane that a load makes, with its clamped rings. -/
def State.loadPlane (s : State) (t : Nat) (l : Load) : Plane × Nat :=
  let v := (s.tile t).buf l.buf
  if l.zero then s.makePlane t (fun _ => 0) (fun _ => ⟨0, 0⟩) none true
  else s.makePlane t (fun k => Tab.get dZero v.bytes (1024 + k))
    (fun k => ⟨BitVec.ofNat 3 (v.hdrWord k), BitVec.ofNat 4 (v.hdrWord k / 16)⟩) v.mark false

/-- A load of the queue as its start leaves it, where it is the one that starts. -/
def Load.startedAs (y l : Load) (plane : Bool) : Load := if y.stamp = l.stamp then { y with phase := 2, plane := plane } else y

theorem State.tile_startLoad (s : State) (t : Nat) (l : Load) :
    (s.startLoad t l).tile t = { s.tile t with
      loadQ := (s.tile t).loadQ.map fun y => y.startedAs l (l.target (s.active t)), loading := some (s.loadPlane t l).1 } := by
  unfold State.startLoad
  extract_lets x v r q
  rw [State.tile_congr ((State.draw_tiles _ 1).trans (State.recordLoad_tiles _ t r.2)), State.tile_setTile_same]
  rfl

theorem State.startLoad_spec (s : State) {t : Nat} {l : Load} (m : l ∈ (s.tile t).loadQ) :
    ((s.startLoad t l).tile t).loading.isSome = true ∧ (∃ y ∈ ((s.startLoad t l).tile t).loadQ, y.stamp = l.stamp ∧ y.phase = 2) ∧
      (l.zero = true → ∀ p, ((s.startLoad t l).tile t).loading = some p → p.zeros = true ∧ p.codes = []) := by
  rw [s.tile_startLoad]
  refine ⟨rfl, ⟨l.startedAs l _, List.mem_map_of_mem m, ?_⟩, fun zero p loads => ?_⟩
  · unfold Load.startedAs
    rw [if_pos rfl]
    exact ⟨rfl, rfl⟩
  · have made : s.loadPlane t l = s.makePlane t (fun _ => 0) (fun _ => ⟨0, 0⟩) none true := if_pos zero
    rw [← Option.some.inj loads, made]
    exact s.makePlane_zeros t _ none

/-! ### PLANE_LOAD_VALID (R48) -/

theorem State.jobDone_tiles (s : State) (b n : Nat) : (s.jobDone b n).tiles = s.tiles := by
  obtain ⟨y, claims⟩ := s.jobDone_spec b n
  exact claims.tiles
theorem State.jobDone_reg (s : State) (b n : Nat) {off : Nat} (h : off ≠ GLB_FLT_PTR.wr.off) : (s.jobDone b n).reg off = s.reg off := by
  obtain ⟨y, claims⟩ := s.jobDone_spec b n
  exact claims.reg h

theorem Tile.planeOf_setPlane (x : Tile) (b : Bool) (p : Plane) : (x.setPlane b p).planeOf b = p := by
  cases b with
  | false => rfl
  | true => rfl

theorem State.planeLoadValid_spec (s : State) {t : Nat} {l : Load} {p : Plane} (writes : (s.tile t).loadQ.find? (·.phase == 2) = some l)
    (loads : (s.tile t).loading = some p) :
    ((s.planeLoadValid t).tile t).loading = none ∧ ((s.planeLoadValid t).tile t).planeOf l.plane = { p with settled := s.tick } := by
  unfold State.planeLoadValid
  extract_lets x
  rw [show x.loadQ.find? (·.phase == 2) = some l from writes, show x.loading = some p from loads]
  dsimp -zeta only
  extract_lets x1 x2 s1
  have set : s1.tile t = x2 := (State.tile_congr (State.setFlag_tiles _ _ _) t).trans (s.tile_setTile_same t x2)
  have work := s1.settle_work t
  rw [State.tile_congr (State.jobDone_tiles _ _ _), work.loading, work.planeOf, set]
  exact ⟨rfl, x.planeOf_setPlane l.plane _⟩

/-! ### PLANE_SWAP and HOLD_LIMIT_EXPIRY (R50, R53, R144) -/

theorem State.active_flipPlane (s : State) (t : Nat) : (s.flipPlane t).active t = !s.active t := by
  unfold State.flipPlane State.active
  extract_lets s1
  have stale := s1.flag_setFld_on_beside (f := TILE_PLANE_STAT.stale) (g := TILE_PLANE_STAT.active) (by decide) t (by decide)
    (s1.pastHold t).toNat
  have valid := State.flag_setFld_on_beside (s.setFlag (TILE_PLANE_STAT.active.on t) (!s.active t)) (f := TILE_PLANE_STAT.idle_valid)
    (g := TILE_PLANE_STAT.active) (by decide) t (by decide) false.toNat
  exact (stale.trans valid).trans (s.flag_setFlag_on (f := TILE_PLANE_STAT.active) (by decide) t _)

section
variable (s : State) {t st job : Nat} {rest : List WinEntry} (head : (s.tile t).winQ = .psw st job :: rest)
include head

theorem State.planeSwap_flips (valid : (s.tile t).loadQ.any (·.stamp < st) = false) (boundary : (s.tile t).boundary = true)
    (runs : (s.bay (t / 4)).paused = false) : (s.planeSwap t).active t = !s.active t := by
  unfold State.planeSwap
  extract_lets x
  rw [show x.winQ = .psw st job :: rest from head]
  dsimp -zeta only
  rw [if_neg (by simp [x, valid, boundary, runs])]
  have flipped := State.active_flipPlane (s.setTile t { x with winQ := rest }) t
  have aside : (TILE_PLANE_STAT.active.on t).off ≠ scaleOff t := Fld.on_off_ne_on (g := TILE_SCALE.s_m) (by decide) t
  rw [State.active, State.flag_congr _ (State.jobDone_reg _ _ _ (Fld.on_off_ne_below (by decide) t)),
    State.flag_congr _ (State.settle_reg _ t aside)]
  exact flipped

theorem State.planeSwap_waits
    (h : (s.tile t).loadQ.any (·.stamp < st) = true ∨ (s.tile t).boundary = false ∨ (s.bay (t / 4)).paused = true) : s.planeSwap t = s := by
  unfold State.planeSwap
  extract_lets x
  rw [show x.winQ = .psw st job :: rest from head]
  dsimp -zeta only
  exact if_pos (h.imp id fun h => h.imp (fun no => by rw [show x.boundary = false from no]; rfl) id)

end

theorem exec_holdLimitExpiry (s : State) (t : TileId) :
    exec (.holdLimitExpiry t) s = .next (if s.pastHold t then s.setFlag (TILE_PLANE_STAT.stale.on t) true else s) := rfl

/-- Settles O6: the fetch, the start and the end of a load, the swap and the hold limit, each by its lemma above. -/
theorem planesLoadSwapAndAge : Obligations.PlanesLoadSwapAndAge := by
  refine ⟨fun s t l => ⟨fun i next buffer slots granted => exec_imageFetch_granted s next buffer slots granted, exec_imageFetch_waits s t,
      fun q first waits => congrArg Host.Outcome.next (s.planeLoadStart_waits first waits),
      fun q first runs may => ⟨fun active => ?active, fun idle image bad => ?badHeader, fun idle good => ?begins⟩,
      fun p writes loads => ⟨_, rfl, s.planeLoadValid_spec writes loads⟩⟩,
    fun s t => ⟨fun st job rest head => ⟨fun valid boundary runs => ⟨_, rfl, s.planeSwap_flips head valid boundary runs⟩,
      fun waits => congrArg Host.Outcome.next (s.planeSwap_waits head waits)⟩, fun old => ?stale, fun young => ?fresh⟩⟩
  case active =>
    obtain ⟨state, fault⟩ := s.strandFault_strand (t / 4) l.strand 4 l.pc.toNat
    exact ⟨_, congrArg Host.Outcome.next (s.planeLoadStart_active first runs may active), state, fault, s.strandFault_loading t _ _ _ _⟩
  case badHeader =>
    obtain ⟨state, fault⟩ := s.strandFault_strand (t / 4) l.strand 5 l.pc.toNat
    exact ⟨_, congrArg Host.Outcome.next (s.planeLoadStart_badHeader first runs may idle image bad), state, fault,
      s.strandFault_loading t _ _ _ _⟩
  case begins =>
    exact ⟨_, congrArg Host.Outcome.next (s.planeLoadStart_begins first runs may idle good),
      s.startLoad_spec (first ▸ List.mem_cons_self)⟩
  case stale =>
    have past : s.pastHold t = true := decide_eq_true old
    rw [exec_holdLimitExpiry, if_pos past]
    exact ⟨_, rfl, s.flag_setFlag_on (f := TILE_PLANE_STAT.stale) (by decide) t true⟩
  case fresh =>
    have held : s.pastHold t = false := decide_eq_false (Nat.not_le.2 young)
    rw [exec_holdLimitExpiry, held, if_neg Bool.false_ne_true]

end Sys2Proof.Machine
end

section
/-! SUPPORT. The issue of a window: what holds it back, what faults its strand, what it takes and starts (R55, R88, R103, R140, R141, R161). -/

namespace Sys2Proof.Machine

/-! ### The state in which a window starts (R112, R120) -/

theorem State.PewterMoved.active {s u : State} {t : Nat} (h : s.PewterMoved t u) : u.active t = s.active t :=
  State.flag_congr _ (h.2 _ (Fld.on_off_ne_on (by decide) t) (Fld.on_off_ne_on (by decide) t))

theorem State.PewterMoved.scale {s u : State} {t : Nat} (h : s.PewterMoved t u) : u.reg (scaleOff t) = s.reg (scaleOff t) :=
  h.2 (TILE_SCALE.s_m.on t).off (Fld.on_off_ne_on (by decide) t) (Fld.on_off_ne_on (by decide) t)

/-- The state in which a window starts: its bay's activity is reported, and its entry's remote entry is reserved where the order asks for
it. -/
def State.beforeWindow (s : State) (t wl entry pos : Nat) : State :=
  let s0 := s.reportActivity (t / 4) wl
  if s0.compat then s0 else s0.reserveRemote t entry pos

theorem State.beforeWindow_moves (s : State) (t wl entry pos : Nat) : s.PewterMoved t (s.beforeWindow t wl entry pos) := by
  unfold State.beforeWindow
  extract_lets s0
  have reported : s.PewterMoved t s0 := .of_regs t (State.modBay_tiles s _ _) (State.modBay_regs s _ _)
  exact .ite (fun _ => reported) fun _ => reported.trans (s0.reserveRemote_moves t entry pos)

/-! ### The start of a window (R55, R88, R161) -/

theorem Tile.openGroup_work (x : Tile) (pos strand : Nat) (pc : BitVec 14) (entry wl : Nat) (plane : Bool) (scale : Word) (role : Role) :
    x.SameWork (x.openGroup pos strand pc entry wl plane scale role) := ⟨rfl, rfl, rfl, rfl, rfl, rfl⟩

/-- A window of length `wl` for `entry` has started with the blocks `a` and `b`: the tile counts it, its blocks are gone from the input
buffer, and it integrates on the plane and with the scale word of the moment. -/
structure State.Started (s : State) (t wl entry : Nat) (a b : Block) (inbuf : List InBlock) (u : State) : Prop where
  counted : (u.tile t).started = (s.tile t).started + 1
  taken   : (u.tile t).inbuf = inbuf
  window  : ∃ w ∈ (u.tile t).wins, w.no = (s.tile t).started + 1 ∧ w.wl = wl ∧ w.entry = entry ∧ w.inputs = a.data ++ b.data ∧
    w.plane = s.active t ∧ w.scale = s.reg (scaleOff t) ∧ w.phase = .integrating

theorem State.startWindow_starts (s : State) (t pos job strand wl entry estep left : Nat) (role : Role) (pl : BitVec 2) (pc : BitVec 14)
    (iq : Nat) (rest : List WinEntry) (a b : Block) (inbuf : List InBlock) :
    s.Started t wl entry a b inbuf (s.startWindow t pos job strand wl entry estep left role pl pc iq rest a b inbuf) := by
  have moved := s.beforeWindow_moves t wl entry pos
  unfold State.startWindow
  extract_lets s0 s1 x plane scale r joined x0 x1 gid n groups seed d w passed winQ x2
  have before : s.PewterMoved t s1 := moved
  have started : x1.started = (s.tile t).started := by
    have work : x.SameWork x1 := by
      unfold x1
      split
      · exact .refl x
      · exact Tile.SameWork.trans (y := x0) ⟨rfl, rfl, rfl, rfl, rfl, rfl⟩ (x0.openGroup_work _ _ _ _ _ _ _ _)
    exact work.started.trans (before.1 t).started
  have settled := State.settle_work (s1.setTile t x2) t
  rw [State.tile_setTile_same] at settled
  refine ⟨settled.started.trans (congrArg (· + 1) started), settled.inbuf, w, ?_, congrArg (· + 1) started, rfl, rfl, rfl, before.active,
    before.scale, rfl⟩
  rw [settled.wins]
  exact List.mem_append_right _ (List.mem_singleton_self w)

/-! ### WINDOW_ISSUE (R161) -/

section
variable (s : State) (t : TileId) {pos job strand wl entry estep left iq : Nat} {role : Role} {pl : BitVec 2} {pc : BitVec 14}
  {begun : Bool} {rest : List WinEntry}

theorem State.windowIssue_held (h : s.tileHeld t = true ∨ (s.tile t).scaleBad = true ∨ (s.tile t).mayLeave = false) :
    s.windowIssue t = s := by
  unfold State.windowIssue
  extract_lets x
  exact if_pos (h.imp id fun h => h.imp id fun no => by rw [show x.mayLeave = false from no]; rfl)

variable (head : (s.tile t).winQ = .win pos job strand wl entry estep left iq role pl pc begun :: rest) (free : s.tileHeld t = false)
  (good : (s.tile t).scaleBad = false) (may : (s.tile t).mayLeave = true)
include head free good may

theorem State.windowIssue_faults {code : Nat} (fault : s.winFault t entry pl role begun = some code) :
    s.windowIssue t = s.strandFault (t / 4) strand code pc.toNat := by
  unfold State.windowIssue
  dsimp only
  rw [if_neg (by simp [free, good, may]), head]
  dsimp only
  rw [fault]

variable (sound : s.winFault t entry pl role begun = none)
include sound

/-- A window that no check faults takes its inputs and starts where it has room. -/
theorem State.windowIssue_sound :
    s.windowIssue t = (takeInputs iq (s.tile t).inbuf).elim s fun p =>
      if s.windowRoom t pos entry wl role then s.startWindow t pos job strand wl entry estep left role pl pc iq rest p.1 p.2.1 p.2.2 else s := by
  unfold State.windowIssue
  dsimp only
  rw [if_neg (by simp [free, good, may]), head]
  dsimp only
  rw [sound]
  cases takeInputs iq (s.tile t).inbuf with
  | none => rfl
  | some p => rfl

theorem State.windowIssue_starved (none : takeInputs iq (s.tile t).inbuf = none) : s.windowIssue t = s := by
  rw [s.windowIssue_sound t head free good may sound, none, Option.elim_none]

variable {a b : Block} {inbuf : List InBlock} (inputs : takeInputs iq (s.tile t).inbuf = some (a, b, inbuf))
include inputs

theorem State.windowIssue_crowded (full : s.windowRoom t pos entry wl role = false) : s.windowIssue t = s := by
  rw [s.windowIssue_sound t head free good may sound, inputs, Option.elim_some]
  exact if_neg (full ▸ Bool.false_ne_true)

theorem State.windowIssue_starts (room : s.windowRoom t pos entry wl role = true) :
    s.windowIssue t = s.startWindow t pos job strand wl entry estep left role pl pc iq rest a b inbuf := by
  rw [s.windowIssue_sound t head free good may sound, inputs, Option.elim_some]
  exact if_pos room

end

/-- Settles O1: the waits, the fault and the start of the window at the head of a queue. -/
theorem windowIssues : Obligations.WindowIssues := by
  intro s t pos job strand wl entry estep left iq role pl pc begun rest head
  refine ⟨fun held => congrArg Host.Outcome.next (s.windowIssue_held t held), fun free good may => ⟨fun code fault => ?faults,
    fun sound => ⟨fun a b inbuf inputs => ⟨fun room => ?starts, fun full =>
      congrArg Host.Outcome.next (s.windowIssue_crowded t head free good may sound inputs full)⟩,
      fun none => congrArg Host.Outcome.next (s.windowIssue_starved t head free good may sound none)⟩⟩⟩
  case faults =>
    obtain ⟨state, recorded⟩ := s.strandFault_strand (t / 4) strand code pc.toNat
    have work := s.strandFault_work (t / 4) strand code pc.toNat t
    exact ⟨_, congrArg Host.Outcome.next (s.windowIssue_faults t head free good may fault), state, recorded, work.wins, work.started⟩
  case starts =>
    obtain ⟨counted, taken, window⟩ := s.startWindow_starts t pos job strand wl entry estep left role pl pc iq rest a b inbuf
    exact ⟨_, congrArg Host.Outcome.next (s.windowIssue_starts t head free good may sound inputs room), counted, taken, window⟩

end Sys2Proof.Machine
end

section
/-! SUPPORT. The issue of an instruction that nothing holds back, and what the tile instructions put into the window queues (R137, R139,
R144 to R146, R159, R160). -/

namespace Sys2Proof.Machine

/-! ### The issue of an instruction (R137, R159) -/

/-- Of the registers, the tiles' chain configurations alone bear on the fault of an instruction. -/
theorem State.faultOf_setFld (s : State) {f : Fld} (away : ∀ t, (TILE_CHAIN_CFG.act.on t).off ≠ f.off) (v b j : Nat) (r : SeqRun)
    (i : SInstr) : (s.setFld f v).faultOf b j r i = s.faultOf b j r i := by
  cases i with
  | drn k entry cnt fmt rnd clr sh dst addr tst trow ev =>
    have chain : ∀ t, (s.setFld f v).reg (TILE_CHAIN_CFG.act.on t).off = s.reg (TILE_CHAIN_CFG.act.on t).off := fun t =>
      s.reg_setFld_other f v _ (away t)
    have last : ∀ t, (s.setFld f v).chainEnd t = s.chainEnd t := fun t => by
      unfold State.chainEnd State.chainAct State.chainPos State.chainLen
      rw [State.flag_congr _ (chain t), State.fld_congr (TILE_CHAIN_CFG.pos.on t) (chain t),
        State.fld_congr (TILE_CHAIN_CFG.len.on t) (chain t)]
    unfold State.faultOf
    dsimp only
    rw [last, State.flag_congr (TILE_CHAIN_CFG.rout.on _) (chain _)]
    rfl
  | _ => rfl

theorem State.faultOf_issueCount (s : State) (b j : Nat) (r : SeqRun) (i : SInstr) :
    (s.wrapInc (BAY_ISSUE_CNT.count.on b)).faultOf b j r i = s.faultOf b j r i :=
  s.faultOf_setFld (fun t => by simp only [Fld.on, TILE_CHAIN_CFG.act, BAY_ISSUE_CNT.count]; omega) _ b j r i

theorem State.strand_wrapInc (s : State) (f : Fld) (n b j : Nat) : (s.wrapInc f n).strand b j = s.strand b j := rfl

/-- The state that an instruction's effect finds when it issues: the bay has counted it, and the strand is past it. -/
def State.atIssue (s : State) (b j : Nat) (i : SInstr) : State :=
  (s.wrapInc (BAY_ISSUE_CNT.count.on b)).setStrand b j { (s.strand b j).past false i with waitFrom := some s.tick }

theorem State.issue_sound (s : State) {b j : Nat} {r : SeqRun} {i : SInstr} (sound : s.faultOf b j r i = none) (free : Bool) :
    s.issue b j r i false free = (s.atIssue b j i).effect b j (s.strand b j).pc.toNat r free i := by
  unfold State.issue
  dsimp only
  rw [s.faultOf_issueCount, sound, State.strand_wrapInc, State.wrapInc_tick]
  dsimp only [State.atIssue]

/-- The row of an instruction that may issue, its word read without an error, is the instruction's effect. -/
theorem State.strandRow_issues {s : State} {b j : Nat} {r : SeqRun} {i : SInstr} (may : s.mayIssue b j r i) {mine : SInstr → Bool}
    (own : mine i = true) (free : Bool) :
    s.strandRow b j .clean free mine = (s.atIssue b j i).effect b j (s.strand b j).pc.toNat r free i := by
  obtain ⟨next, sound, met, wins⟩ := may
  rw [← s.issue_sound sound free]
  unfold State.strandRow
  simp only [next, ite_self, State.imemEcc, reduceCtorEq, if_false, own, Bool.not_true, Bool.false_eq_true, Option.map_some, sound,
    met, Option.isNone_none, Option.isSome_none, Bool.and_false, wins, if_true]

/-! ### Entries of a window queue (R160) -/

/-- What is no scale word stays in a window queue when the scale words at its head take effect. -/
theorem mem_leadScale_of_not_ssc {v : Word} {q : List WinEntry} {e : WinEntry} (h : e ∈ q) (work : ∀ st w, e ≠ .ssc st w) :
    e ∈ (leadScale v q).2 := by
  fun_induction leadScale v q with
  | case1 v st w rest ih => exact ih ((List.mem_cons.1 h).resolve_left (work st w))
  | case2 v q other => exact h

/-- A scale word in a window queue stays there, or the queue's head takes effect up to it and on. -/
theorem leadScale_append_ssc (v : Word) (q rest : List WinEntry) (st : Nat) (w : Word) :
    WinEntry.ssc st w ∈ (leadScale v (q ++ .ssc st w :: rest)).2 ∨ leadScale v (q ++ .ssc st w :: rest) = leadScale w rest := by
  induction q generalizing v with
  | nil => exact .inr rfl
  | cons e q ih =>
    have stands : WinEntry.ssc st w ∈ (e :: q) ++ .ssc st w :: rest := List.mem_append_right _ List.mem_cons_self
    cases e with
    | ssc _ v' => exact ih v'
    | win => exact .inl stands
    | psw => exact .inl stands
    | ccf => exact .inl stands

/-- Held requests join a window queue behind what stands in it, and bring no scale word. -/
theorem Tile.admitHeld_winQ (x : Tile) : ∃ rest, x.admitHeld.winQ = x.winQ ++ rest ∧ ∀ v, leadScale v rest = (v, rest) := by
  unfold Tile.admitHeld
  extract_lets x1
  have same : x1.winQ = x.winQ := by
    unfold x1
    split
    · rfl
    · rfl
  split
  · exact ⟨[.psw x1.stamp 0], congrArg (· ++ _) same, fun _ => rfl⟩
  · exact ⟨[], same.trans (List.append_nil _).symm, fun _ => rfl⟩

theorem Tile.mem_rested {x : Tile} {e : WinEntry} (h : e ∈ x.winQ) (work : ∀ st w, e ≠ .ssc st w) (v : Word) :
    e ∈ (x.rested v).winQ := by
  obtain ⟨rest, queue, -⟩ := x.admitHeld_winQ
  exact mem_leadScale_of_not_ssc (queue ▸ List.mem_append_left rest h) work

theorem State.settle_winQ (s : State) (t : Nat) :
    ((s.settle t).tile t).winQ = (leadScale (s.reg (scaleOff t)) (s.tile t).admitHeld.winQ).2 :=
  congrArg Tile.winQ (s.tile_settle t)

theorem State.settle_tile_other (s : State) {t k : Nat} (h : k ≠ t) : (s.settle t).tile k = s.tile k := by
  unfold State.settle
  dsimp only
  split
  · rw [s.tile_setTile, if_neg h]
  · exact (s.tile_setTile t k _).trans (if_neg h)

/-- Scale words that leave the head of the window queue leave the last of them in TILE_SCALE. -/
theorem State.settle_scale (s : State) (t : Nat)
    (h : (leadScale (s.reg (scaleOff t)) (s.tile t).admitHeld.winQ).2.length ≠ (s.tile t).admitHeld.winQ.length) :
    (s.settle t).reg (scaleOff t) = (leadScale (s.reg (scaleOff t)) (s.tile t).admitHeld.winQ).1 &&& 0xFF00FFFF := by
  unfold State.settle
  dsimp only
  rw [if_neg h, State.reg_setReg_same]

/-! ### An entry that joins a window queue (R139, R144 to R146) -/

/-- A tile whose window queue has taken an entry, before the queue comes to rest. -/
def Tile.pushed (x : Tile) (mk : Nat → WinEntry) : Tile := { x with winQ := x.winQ ++ [mk x.stamp], stamp := x.stamp + 1 }

section
variable (s : State) {t k : Nat} (mk : Nat → WinEntry)

theorem State.pushWin_tile : (s.pushWin t mk).tile t = ((s.tile t).pushed mk).rested (s.reg (scaleOff t)) := by
  unfold State.pushWin
  rw [State.tile_settle, State.tile_modTile_same]
  rfl

theorem State.pushWin_tile_other (h : k ≠ t) : (s.pushWin t mk).tile k = s.tile k :=
  (State.settle_tile_other _ h).trans ((s.tile_setTile t k _).trans (if_neg h))

theorem State.pushWin_reg {off : Nat} (h : off ≠ scaleOff t) : (s.pushWin t mk).reg off = s.reg off := State.settle_reg _ t h

/-- A new entry that is no scale word stands in its tile's queue. -/
theorem State.mem_pushWin (work : ∀ n st w, mk n ≠ .ssc st w) : ∃ st, mk st ∈ ((s.pushWin t mk).tile t).winQ := by
  rw [s.pushWin_tile]
  exact ⟨_, Tile.mem_rested (List.mem_append_right _ (List.mem_singleton_self _)) (work _) _⟩

/-- A new entry leaves in every queue what is no scale word. -/
theorem State.mem_pushWin_of_mem {e : WinEntry} (h : e ∈ (s.tile k).winQ) (work : ∀ st w, e ≠ .ssc st w) :
    e ∈ ((s.pushWin t mk).tile k).winQ := by
  by_cases same : k = t
  · subst same
    rw [s.pushWin_tile]
    exact Tile.mem_rested (List.mem_append_left _ h) work _
  · rw [s.pushWin_tile_other mk same]
    exact h

end

/-- A fold over a list brings about for each member what its own step does and every step keeps. -/
theorem foldl_establishes {σ α : Type} (P : α → σ → Prop) (f : σ → α → σ) (does : ∀ s a, P a (f s a))
    (keeps : ∀ s a x, P a s → P a (f s x)) {l : List α} {a : α} (h : a ∈ l) (s : σ) : P a (l.foldl f s) := by
  obtain ⟨before, after, rfl⟩ := List.append_of_mem h
  rw [List.foldl_append, List.foldl_cons]
  exact List.foldlRecOn after f (does _ a) fun u held x _ => keeps u a x held

/-- Entries that are no scale words, put into queues one after another, all stand in their tiles' queues. -/
theorem State.mem_foldl_pushWin (s : State) {α : Type} (tileOf : α → Nat) (mk : α → Nat → WinEntry)
    (work : ∀ x n st w, mk x n ≠ .ssc st w) {l : List α} {a : α} (h : a ∈ l) :
    ∃ st, mk a st ∈ ((l.foldl (fun u x => u.pushWin (tileOf x) (mk x)) s).tile (tileOf a)).winQ :=
  foldl_establishes (fun x u => ∃ st, mk x st ∈ (u.tile (tileOf x)).winQ) _ (fun u x => u.mem_pushWin (mk x) (work x))
    (fun u a x ⟨st, stands⟩ => ⟨st, u.mem_pushWin_of_mem (mk x) stands (work a st)⟩) h s

/-! ### Scale words (R87, R145) -/

/-- A scale word waits in a tile's window queue, or is the tile's scale word, its reserved bits zero. -/
def State.ScaleTaken (s : State) (t : Nat) (w : Word) : Prop :=
  (∃ st, WinEntry.ssc st w ∈ (s.tile t).winQ) ∨ s.reg (scaleOff t) = w &&& 0xFF00FFFF

theorem State.pushWin_scaleTaken (s : State) (t : Nat) (w : Word) : (s.pushWin t fun st => .ssc st w).ScaleTaken t w := by
  let u := s.modTile t fun x => x.pushed fun st => .ssc st w
  obtain ⟨rest, queue, still⟩ := (u.tile t).admitHeld_winQ
  have pushed : (u.tile t).admitHeld.winQ = (s.tile t).winQ ++ .ssc (s.tile t).stamp w :: rest := by
    rw [queue, State.tile_modTile_same]
    exact List.append_assoc _ _ _
  have taken := leadScale_append_ssc (u.reg (scaleOff t)) (s.tile t).winQ rest (s.tile t).stamp w
  rw [← pushed, still] at taken
  rcases taken with stands | gone
  · rw [← State.settle_winQ] at stands
    exact .inl ⟨_, stands⟩
  · refine .inr ((u.settle_scale t ?_).trans (congrArg (fun q : Word × List WinEntry => q.1 &&& 0xFF00FFFF) gone))
    rw [gone, pushed]
    simp only [List.length_append, List.length_cons]
    omega

/-- The same word, put into whatever queue, leaves it taken where it was. -/
theorem State.ScaleTaken.pushWin {s : State} {k : Nat} {w : Word} (h : s.ScaleTaken k w) (t : Nat) :
    (s.pushWin t fun st => .ssc st w).ScaleTaken k w := by
  by_cases same : k = t
  · rw [same]
    exact s.pushWin_scaleTaken t w
  · have away : scaleOff k ≠ scaleOff t := by
      unfold scaleOff
      omega
    unfold State.ScaleTaken
    rw [s.pushWin_tile_other _ same, s.pushWin_reg _ away]
    exact h

/-! ### The effects of the tile instructions -/

section
variable (s : State) (b j pc : Nat) (r : SeqRun) (free : Bool) {m k : Nat} {ev : Option (BitVec 9)}

theorem State.effect_win {n : Nat} (named : (maskList 4 m)[n]? = some k) (here : BitVec 14) (wl role pl entry : Nat)
    (estep : Int) (cnt iq : Nat) (shr : Bool) :
    ∃ st job, WinEntry.win st job j wl entry (estep % 1024).toNat (cnt + 1) (if shr then iq else iq + n) (roleOf role)
      (BitVec.ofNat 2 pl) here false ∈
        ((s.effect b j here.toNat r free (.win m wl role pl entry estep cnt iq shr ev)).tile (4 * b + k)).winQ := by
  have placed : (k, n) ∈ (maskList 4 m).zipIdx := List.mk_mem_zipIdx_iff_getElem?.2 named
  have some_tile : ¬ (maskList 4 m).isEmpty = true := by simpa using List.ne_nil_of_mem (List.mem_of_getElem? named)
  unfold State.effect
  dsimp only
  rw [if_neg some_tile, BitVec.ofNat_toNat, BitVec.setWidth_eq]
  let job := s.newJob b (maskList 4 m).length ev j here.toNat (s.strand b j).cls
  obtain ⟨st, stands⟩ := job.2.mem_foldl_pushWin (fun x => 4 * b + x.1)
    (fun x st => .win st job.1 j wl entry (estep % 1024).toNat (cnt + 1) (if shr then iq else iq + x.2) (roleOf role)
      (BitVec.ofNat 2 pl) here false) (fun _ _ _ _ => nofun) placed
  exact ⟨st, job.1, stands⟩

theorem State.effect_psw (named : k ∈ maskList 4 m) :
    ∃ st job, WinEntry.psw st job ∈ ((s.effect b j pc r free (.psw m ev)).tile (4 * b + k)).winQ := by
  have some_tile : ¬ (maskList 4 m).isEmpty = true := by simpa using List.ne_nil_of_mem named
  unfold State.effect
  dsimp only
  rw [if_neg some_tile]
  let job := s.newJob b (maskList 4 m).length ev j pc (s.strand b j).cls
  obtain ⟨st, stands⟩ := job.2.mem_foldl_pushWin (fun x => 4 * b + x) (fun _ st => .psw st job.1) (fun _ _ _ _ => nofun) named
  exact ⟨st, job.1, stands⟩

theorem State.effect_ssc (named : k ∈ maskList 4 m) (w c : Word) : (s.effect b j pc r free (.ssc m w c)).ScaleTaken (4 * b + k) w :=
  foldl_establishes (fun k u => State.ScaleTaken u (4 * b + k) w) _ (fun u k => u.pushWin_scaleTaken (4 * b + k) w)
    (fun _ _ x taken => taken.pushWin (4 * b + x)) named s

theorem State.effect_ccf {head len : Nat} (named : k ∈ chainTiles b head len) (rin rout dis : Bool) (tmo wgr : Nat) :
    ∃ st, WinEntry.ccf st head len rin rout dis (BitVec.ofNat 8 tmo) (BitVec.ofNat 6 wgr) ∈
      ((s.effect b j pc r free (.ccf head len rin rout dis tmo wgr)).tile (4 * b + k)).winQ :=
  s.mem_foldl_pushWin (fun x => 4 * b + x)
    (fun _ st => .ccf st head len rin rout dis (BitVec.ofNat 8 tmo) (BitVec.ofNat 6 wgr)) (fun _ _ _ _ => nofun) named

end

/-! ### The statement -/

/-- Settles O9: each instruction that may issue is its effect, and each effect queues its entries. -/
theorem tileInstructionsQueue : Obligations.TileInstructionsQueue := by
  intro s b j r m ev
  have issues {i : SInstr} {mine : SInstr → Bool} (may : s.mayIssue b j r i) (own : mine i = true) :=
    congrArg (Host.Outcome.next (φ := Fault) (ρ := Refusal)) (State.strandRow_issues may own false)
  refine ⟨fun wl role pl entry estep cnt iq shr may => ⟨_, issues may rfl, fun n k named => ?win⟩,
    fun may => ⟨_, issues may rfl, fun k named => ?psw⟩, fun w may => ⟨_, issues may rfl, fun k named => ?ssc⟩,
    fun head len rin rout dis tmo wgr may => ⟨_, issues may rfl, fun k named => ?ccf⟩⟩
  case win => exact State.effect_win _ b j r false named (s.strand b j).pc wl role pl entry estep cnt iq shr
  case psw => exact State.effect_psw _ b j _ r false named
  case ssc => exact State.effect_ssc _ b j _ r false named w _
  case ccf => exact State.effect_ccf _ b j _ r false named rin rout dis tmo wgr

end Sys2Proof.Machine
end

section
/-! SUPPORT. Updates of a group: the exact sums, their floors and ceilings at an exponent, and the search of the exponent (R107 to R110). -/

namespace Sys2Proof.Machine

/-! ### The common exponent of a group and its partials (R107) -/

theorem baseExp_le (e : Int) (es : List Int) : baseExp e es ≤ e ∧ ∀ x ∈ es, baseExp e es ≤ x := by
  unfold baseExp
  induction es generalizing e with
  | nil => exact ⟨Int.le_refl e, nofun⟩
  | cons a es ih =>
    obtain ⟨start, each⟩ := ih (if a < e then a else e)
    have least : (if a < e then a else e) ≤ e ∧ (if a < e then a else e) ≤ a := by
      split <;> omega
    exact ⟨start.trans least.1, List.forall_mem_cons.2 ⟨start.trans least.2, each⟩⟩

/-- The exact sum of a row's old value and its partial. -/
def rowSum (m : List Int) (e : Int) (p es : List Int) (r : Nat) : Rat :=
  (m.getD r 0 : Rat) * (2 : Rat) ^ e + (p.getD r 0 : Rat) * (2 : Rat) ^ es.getD r 0

theorem two_pow_toNat_mul {b e : Int} (h : b ≤ e) : ((2 : Rat) ^ (e - b).toNat) * (2 : Rat) ^ b = (2 : Rat) ^ e := by
  rw [← zpow_natCast, Int.toNat_of_nonneg (Int.sub_nonneg.2 h), ← zpow_add₀ two_ne_zero, Int.sub_add_cancel]

theorem exactSums_getD (b : Int) (m : List Int) (e : Int) (p es : List Int) {r : Nat} (h : r < 16) :
    (exactSums b m e p es).getD r 0 = m.getD r 0 * 2 ^ (e - b).toNat + p.getD r 0 * 2 ^ (es.getD r 0 - b).toNat := by
  simp [exactSums, h]

/-- The sums at the common exponent are the exact ones. -/
theorem exactSums_eq_rowSum {m p es : List Int} {e : Int} (partials : p.length ≤ es.length) {r : Nat} (h : r < 16) :
    (((exactSums (baseExp e es) m e p es).getD r 0 : Int) : Rat) * (2 : Rat) ^ baseExp e es = rowSum m e p es r := by
  obtain ⟨old, each⟩ := baseExp_le e es
  generalize baseExp e es = b at old each
  have added : (p.getD r 0 : Rat) * (2 : Rat) ^ (es.getD r 0 - b).toNat * (2 : Rat) ^ b =
      (p.getD r 0 : Rat) * (2 : Rat) ^ es.getD r 0 := by
    by_cases here : r < es.length
    · have member : es.getD r 0 ∈ es := by simp [here]
      rw [mul_assoc, two_pow_toNat_mul (each _ member)]
    · have nothing : p.getD r 0 = 0 := by simp [show p.length ≤ r by omega]
      rw [nothing, Int.cast_zero, zero_mul, zero_mul, zero_mul]
  rw [exactSums_getD b m e p es h]
  push_cast
  rw [add_mul, added, mul_assoc, two_pow_toNat_mul old, rowSum]

/-! ### Floor, ceiling and rounding at an exponent (R107, R108) -/

section
variable {s b e : Int} (h : b ≤ e)
include h

theorem value_at : (s : Rat) * (2 : Rat) ^ b / (2 : Rat) ^ e = (s : Rat) / ((2 ^ (e - b).toNat : Nat) : Rat) := by
  have below : (2 : Rat) ^ b ≠ 0 := zpow_ne_zero b two_ne_zero
  rw [← two_pow_toNat_mul h, mul_div_mul_right _ _ below, Nat.cast_pow, Nat.cast_ofNat]

theorem floorAt_eq_floor : floorAt s b e = ((s : Rat) * (2 : Rat) ^ b / (2 : Rat) ^ e).floor := by
  have floor := Rat.floor_intCast_div_natCast s (2 ^ (e - b).toNat)
  rw [← value_at h, Nat.cast_pow] at floor
  refine Eq.trans ?_ floor.symm
  unfold floorAt
  split
  · rw [show b = e by omega, Int.sub_self, Int.toNat_zero, pow_zero, pow_zero, Int.mul_one, Int.ediv_one]
  · rfl

/-- The remainder of the division is its fraction, in units of the common exponent. -/
theorem remAt_eq_fraction :
    ((remAt s b e : Int) : Rat) =
      ((s : Rat) * (2 : Rat) ^ b / (2 : Rat) ^ e - (((s : Rat) * (2 : Rat) ^ b / (2 : Rat) ^ e).floor : Int)) * (2 : Rat) ^ (e - b).toNat := by
  have positive : (2 : Rat) ^ (e - b).toNat ≠ 0 := pow_ne_zero _ two_ne_zero
  have whole : s = floorAt s b e * 2 ^ (e - b).toNat + remAt s b e := by
    unfold floorAt remAt
    split
    · rw [show b = e by omega, Int.sub_self, Int.toNat_zero, pow_zero, Int.mul_one, Int.mul_one, Int.add_zero]
    · rw [Int.mul_comm, Int.mul_ediv_add_emod]
  rw [← floorAt_eq_floor h, value_at h, sub_mul, Nat.cast_pow, Nat.cast_ofNat, div_mul_cancel₀ _ positive]
  have cast := congrArg (Int.cast (R := Rat)) whole
  push_cast at cast
  linarith

theorem ceilAt_eq_ceil : ceilAt s b e = ((s : Rat) * (2 : Rat) ^ b / (2 : Rat) ^ e).ceil := by
  have positive : (0 : Rat) < (2 : Rat) ^ (e - b).toNat := pow_pos two_pos _
  have fraction := remAt_eq_fraction (s := s) h
  unfold ceilAt
  rw [floorAt_eq_floor h]
  generalize (s : Rat) * (2 : Rat) ^ b / (2 : Rat) ^ e = v at fraction
  change _ = (v - (⌊v⌋ : Int)) * _ at fraction
  have ceil : v.ceil = ⌈v⌉ := Rat.ceil_eq_neg_floor_neg v
  change ⌊v⌋ + _ = _
  rw [ceil, eq_comm]
  split
  · next exact_ =>
    rw [exact_, Int.cast_zero, zero_eq_mul, or_iff_left positive.ne', sub_eq_zero] at fraction
    rw [fraction]
    simp
  · next rest =>
    have above : (⌊v⌋ : Rat) ≠ v := fun same => rest <| by
      rw [same, sub_self, zero_mul] at fraction
      exact_mod_cast fraction
    rw [Int.ceil_eq_iff]
    push_cast
    exact ⟨by linarith [(Int.floor_le v).lt_of_ne above], (Int.lt_floor_add_one v).le⟩

/-- A row's rounding: its floor, or one more when its fraction exceeds the row's number. -/
theorem stochAt_eq (r : Nat) :
    stochAt s b e r =
      let v := (s : Rat) * (2 : Rat) ^ b / (2 : Rat) ^ e
      if (r : Rat) < (v - v.floor) * 2 ^ 24 then v.floor + 1 else v.floor := by
  have positive : (0 : Rat) < (2 : Rat) ^ (e - b).toNat := pow_pos two_pos _
  have fraction := remAt_eq_fraction (s := s) h
  unfold stochAt
  rw [floorAt_eq_floor h]
  generalize (s : Rat) * (2 : Rat) ^ b / (2 : Rat) ^ e = v at fraction
  have exceeds : r * (2 : Int) ^ (e - b).toNat < remAt s b e * 2 ^ 24 ↔ (r : Rat) < (v - v.floor) * 2 ^ 24 := by
    rw [← Int.cast_lt (R := Rat)]
    push_cast
    rw [fraction, mul_right_comm, mul_lt_mul_iff_left₀ positive]
    norm_num
  dsimp only
  simp only [exceeds]
  split
  · rfl
  · exact Int.add_zero _

end

/-- The floor and the ceiling of a row lie on either side of its rounding. -/
theorem stochAt_between (s b e : Int) (r : Nat) : floorAt s b e ≤ stochAt s b e r ∧ stochAt s b e r ≤ ceilAt s b e := by
  have scaled : (0 : Int) ≤ r * (2 : Int) ^ (e - b).toNat := by positivity
  unfold stochAt ceilAt
  split <;> split <;> omega

/-! ### The search of the exponent (R107) -/

/-- Every row of a group fits at an exponent. -/
def allFit (b : Int) (l : List Int) (e : Int) : Bool := l.all (fitsAt b e)

theorem searchExp_spec (n : Nat) (b e : Int) (l : List Int) :
    e ≤ searchExp n b e l ∧ searchExp n b e l ≤ e + n ∧ (∀ k, e ≤ k → k < searchExp n b e l → allFit b l k = false) ∧
      (allFit b l (searchExp n b e l) = true ∨ searchExp n b e l = e + n) := by
  induction n generalizing e with
  | zero => exact ⟨Int.le_refl e, by simp [searchExp], fun k lo hi => absurd hi (Int.not_lt.2 lo), .inr (by simp [searchExp])⟩
  | succ n ih =>
    unfold searchExp
    split
    · next fits => exact ⟨Int.le_refl e, by omega, fun k lo hi => absurd hi (Int.not_lt.2 lo), .inl fits⟩
    · next misfit =>
      obtain ⟨low, high, below, ends⟩ := ih (e + 1)
      refine ⟨by omega, by omega, fun k lo hi => ?_, ends.imp_right fun last => by omega⟩
      rcases eq_or_lt_of_le lo with rfl | lt
      · exact Bool.eq_false_iff.2 misfit
      · exact below k lt hi

theorem clampI_inside {v lo hi : Int} (low : lo ≤ v) (high : v ≤ hi) : clampI v lo hi = v := by
  rw [clampI, if_neg (Int.not_lt.2 low), if_neg (Int.not_lt.2 high)]

/-! ### The result of an update (R107 to R109) -/

section
variable (g : GroupVal) (p es : List Int) (mark : Mark) (rhos : List Nat)

/-- The new exponent of a group. -/
def newExp : Int := searchExp (127 - g.e).toNat (baseExp g.e es) g.e (exactSums (baseExp g.e es) g.m g.e p es)

/-- The rounded mantissa of a row, before it is clamped. -/
def rounded (r : Nat) : Int :=
  stochAt ((exactSums (baseExp g.e es) g.m g.e p es).getD r 0) (baseExp g.e es) (newExp g p es) (rhos.getD r 0)

/-- A row's rounded mantissa lies outside the range. -/
def Saturates : Prop := ∃ r, r < 16 ∧ (rounded g p es rhos r < -(2 ^ 39) ∨ 2 ^ 39 - 1 < rounded g p es rhos r)

theorem groupUpdate_m {r : Nat} (h : r < 16) :
    (groupUpdate g p es mark rhos).1.m.getD r 0 = clampI (rounded g p es rhos r) (-(2 ^ 39)) (2 ^ 39 - 1) := by
  have row : (groupUpdate g p es mark rhos).1.m =
      ((List.range 16).map fun i => rounded g p es rhos i).map fun x => clampI x mantMin mantMax := rfl
  rw [row]
  simp [h, mantMin, mantMax]

theorem groupUpdate_sat : (groupUpdate g p es mark rhos).2 = true ↔ Saturates g p es rhos := by
  have any : (groupUpdate g p es mark rhos).2 =
      ((List.range 16).map fun i => rounded g p es rhos i).any fun x => x < mantMin || mantMax < x := rfl
  rw [any, List.any_map, List.any_eq_true]
  refine exists_congr fun r => ?_
  rw [List.mem_range, Function.comp_apply, Bool.or_eq_true, decide_eq_true_iff, decide_eq_true_iff, mantMin, mantMax]

theorem groupUpdate_mark :
    (groupUpdate g p es mark rhos).1.mark =
      Mark.first g.mark (Mark.lower mark (if (groupUpdate g p es mark rhos).2 then some 2 else none)) := rfl

/-- A group that saturates is marked, with reason 2 if no mark stood or came. -/
theorem groupUpdate_marks (h : (groupUpdate g p es mark rhos).2 = true) :
    (groupUpdate g p es mark rhos).1.mark.isSome = true ∧
      (g.mark = none → mark = none → (groupUpdate g p es mark rhos).1.mark = some 2) := by
  rw [groupUpdate_mark, if_pos h]
  refine ⟨?_, fun old carried => by rw [old, carried]; rfl⟩
  cases g.mark with
  | some a => rfl
  | none =>
    cases mark with
    | none => rfl
    | some c =>
      unfold Mark.first Mark.lower
      dsimp only
      split <;> rfl

variable {g p es mark rhos}

section
variable (partials : p.length ≤ es.length)
include partials

theorem rounded_eq (low : g.e ≤ newExp g p es) {r : Nat} (h : r < 16) :
    rounded g p es rhos r =
      let v := rowSum g.m g.e p es r / (2 : Rat) ^ newExp g p es
      if (rhos.getD r 0 : Rat) < (v - v.floor) * 2 ^ 24 then v.floor + 1 else v.floor := by
  unfold rounded
  rw [stochAt_eq ((baseExp_le g.e es).1.trans low), exactSums_eq_rowSum partials h]

theorem allFit_iff {e : Int} (low : g.e ≤ e) :
    allFit (baseExp g.e es) (exactSums (baseExp g.e es) g.m g.e p es) e = true ↔
      ∀ r, r < 16 → -(2 ^ 39) ≤ (rowSum g.m g.e p es r / (2 : Rat) ^ e).floor ∧
        (rowSum g.m g.e p es r / (2 : Rat) ^ e).ceil ≤ 2 ^ 39 - 1 := by
  have common := (baseExp_le g.e es).1.trans low
  have rows : allFit (baseExp g.e es) (exactSums (baseExp g.e es) g.m g.e p es) e = true ↔
      ∀ r, r < 16 → fitsAt (baseExp g.e es) e ((exactSums (baseExp g.e es) g.m g.e p es).getD r 0) = true := by
    unfold allFit exactSums
    rw [List.all_map, List.all_eq_true]
    refine forall_congr' fun r => ?_
    rw [List.mem_range]
    refine imp_congr_right fun h => ?_
    simp [h]
  rw [rows]
  refine forall_congr' fun r => imp_congr_right fun h => ?_
  unfold fitsAt
  rw [Bool.and_eq_true, decide_eq_true_iff, decide_eq_true_iff, floorAt_eq_floor common, ceilAt_eq_ceil common,
    exactSums_eq_rowSum partials h, mantMin, mantMax]

end

/-- Where every row fits, none saturates. -/
theorem rounded_inside
    (fit : allFit (baseExp g.e es) (exactSums (baseExp g.e es) g.m g.e p es) (newExp g p es) = true) {r : Nat} (h : r < 16) :
    -(2 ^ 39) ≤ rounded g p es rhos r ∧ rounded g p es rhos r ≤ 2 ^ 39 - 1 := by
  have row : (exactSums (baseExp g.e es) g.m g.e p es).getD r 0 ∈ exactSums (baseExp g.e es) g.m g.e p es := by
    rw [exactSums_getD _ _ _ _ _ h]
    exact List.mem_map.2 ⟨r, List.mem_range.2 h, rfl⟩
  have range := List.all_eq_true.1 fit _ row
  unfold fitsAt at range
  rw [Bool.and_eq_true, decide_eq_true_iff, decide_eq_true_iff] at range
  obtain ⟨down, up⟩ := stochAt_between ((exactSums (baseExp g.e es) g.m g.e p es).getD r 0) (baseExp g.e es) (newExp g p es)
    (rhos.getD r 0)
  exact ⟨range.1.trans down, up.trans range.2⟩

end

/-- Settles O3: the search gives the exponent, and each row its floor or one more. -/
theorem groupUpdateIsExact : Obligations.GroupUpdateIsExact := by
  intro g p es mark rhos top partials
  extract_lets x sum fits near
  obtain ⟨low, high, below, ends⟩ :=
    searchExp_spec (127 - g.e).toNat (baseExp g.e es) g.e (exactSums (baseExp g.e es) g.m g.e p es)
  change g.e ≤ newExp g p es at low
  have last : g.e + ((127 - g.e).toNat : Int) = 127 := by omega
  rw [last] at high ends
  have fit (e : Int) (k : g.e ≤ e) : allFit (baseExp g.e es) (exactSums (baseExp g.e es) g.m g.e p es) e = true ↔ fits e := allFit_iff partials k
  have rows (r : Nat) (h : r < 16) : rounded g p es rhos r = near r := rounded_eq partials low h
  have sat : (groupUpdate g p es mark rhos).2 = true ↔ ∃ r, r < 16 ∧ (near r < -(2 ^ 39) ∨ 2 ^ 39 - 1 < near r) := by
    rw [groupUpdate_sat]
    exact exists_congr fun r => and_congr_right fun h => by rw [rows r h]
  have mant (r : Nat) (h : r < 16) : x.m.getD r 0 = clampI (near r) (-(2 ^ 39)) (2 ^ 39 - 1) := by
    rw [← rows r h]
    exact groupUpdate_m g p es mark rhos h
  refine ⟨low, high, fun e lo hi fitting => ?below, ends.imp_left (fit _ low).1, mant, fun inner r h => ?inner, ?ovf,
    fun saturates => groupUpdate_marks g p es mark rhos (sat.2 saturates)⟩
  case below => exact Bool.false_ne_true ((below e lo hi).symm.trans ((fit e lo).2 fitting))
  case inner =>
    obtain ⟨down, up⟩ := rounded_inside (rhos := rhos) (ends.resolve_right inner) h
    rw [mant r h, ← rows r h, clampI_inside down up]
  case ovf =>
    rw [← sat]
    exact Bool.or_eq_true_iff

end Sys2Proof.Machine
end

section
/-! SUPPORT. Entries of Pewter: what a group reads as once it is written or its entry cleared, and what an update of an entry leaves
(R102, R105, R107). -/

namespace Sys2Proof.Machine

/-! ### Groups and entries (R102, R105) -/

/-- A table cut down by its numbers. -/
theorem Tab.get_filter {α : Type} (d : Nat → α) (t : Tab α) (f : Nat → Bool) (k : Nat) :
    Tab.get d (t.filter fun p => f p.1) k = if f k = true then Tab.get d t k else d k := by
  induction t with
  | nil => simp
  | cons p t ih =>
    obtain ⟨i, w⟩ := p
    rw [List.filter_cons]
    by_cases keep : f i = true
    · rw [if_pos keep]
      by_cases here : i = k
      · subst here
        simp [Tab.get, keep]
      · simp [Tab.get, here, ih]
    · rw [if_neg keep, ih]
      by_cases here : i = k
      · subst here
        rw [if_neg keep, if_neg keep]
      · simp [Tab.get, here]

/-- Two contents of a tile agree but for the entries of its Pewter. -/
def Tile.EntriesMoved (x y : Tile) : Prop := ∃ m w, y = { x with mant := m, gword := w }

theorem Tile.EntriesMoved.refl (x : Tile) : x.EntriesMoved x := ⟨x.mant, x.gword, rfl⟩
theorem Tile.EntriesMoved.trans {x y z : Tile} (h : x.EntriesMoved y) (k : y.EntriesMoved z) : x.EntriesMoved z := by
  obtain ⟨m, w, rfl⟩ := h
  obtain ⟨m', w', rfl⟩ := k
  exact ⟨m', w', rfl⟩
theorem Tile.EntriesMoved.foldl {α : Type} (f : Tile → α → Tile) (step : ∀ x a, Tile.EntriesMoved x (f x a)) (l : List α) (x : Tile) :
    x.EntriesMoved (l.foldl f x) := by
  induction l generalizing x with
  | nil => exact .refl x
  | cons a l ih => exact (step x a).trans (ih _)

/-- The first `n` rows of a group put one after another. -/
theorem Tile.get_foldl_setMant (x : Tile) (e r : Nat) (m : List Int) (n k : Nat) :
    Tab.get dZero ((List.range n).foldl (fun y i => Tile.setMant y e (r + i) (m.getD i 0)) x).mant k =
      if 512 * e + r ≤ k ∧ k < 512 * e + r + n then m.getD (k - (512 * e + r)) 0 else Tab.get dZero x.mant k := by
  induction n with
  | zero => rw [if_neg (by omega)]; rfl
  | succ n ih =>
    rw [List.range_succ, List.foldl_append, List.foldl_cons, List.foldl_nil, Tile.setMant, Tab.get_set, ih]
    by_cases last : k = 512 * e + (r + n)
    · rw [if_pos last, if_pos (by omega), show k - (512 * e + r) = n by omega]
    · rw [if_neg last]
      refine if_congr ?_ rfl rfl
      omega

section
variable (x : Tile) (e g : Nat) (v : GroupVal)

theorem Tile.setGroupVal_entries : x.EntriesMoved (x.setGroupVal e g v) := by
  unfold Tile.setGroupVal
  extract_lets y
  exact Tile.EntriesMoved.trans (y := y) ⟨x.mant, _, rfl⟩ (.foldl _ (fun z i => ⟨_, z.gword, rfl⟩) _ y)

theorem Tile.setGroupVal_mant (k : Nat) :
    Tab.get dZero (x.setGroupVal e g v).mant k =
      if 512 * e + 16 * g ≤ k ∧ k < 512 * e + 16 * g + 16 then v.m.getD (k - (512 * e + 16 * g)) 0 else Tab.get dZero x.mant k := by
  unfold Tile.setGroupVal
  extract_lets y
  exact y.get_foldl_setMant e (16 * g) v.m 16 k

theorem Tile.setGroupVal_gword : (x.setGroupVal e g v).gword = Tab.set dGroupWord x.gword (32 * e + g) ⟨v.mark, v.ovf, v.e⟩ := by
  unfold Tile.setGroupVal
  extract_lets y
  exact List.foldlRecOn (motive := fun z : Tile => z.gword = y.gword) (List.range 16) _ rfl fun z same i _ => same

end

/-- A tile with some groups of an entry put. -/
def Tile.setGroups (x : Tile) (e : Nat) (f : Nat → Option GroupVal) : Tile :=
  (List.range 32).foldl (fun y g => match f g with
    | some v => y.setGroupVal e g v
    | none => y) x

section
variable (x : Tile) (e : Nat) (f : Nat → Option GroupVal)

theorem Tile.setGroups_entries : x.EntriesMoved (x.setGroups e f) :=
  .foldl _ (fun y g => by
    split
    · exact y.setGroupVal_entries e g _
    · exact .refl y) _ x

/-- What a group alone settles, its own put settles, and no other. -/
theorem Tile.read_setGroups {β : Type} (read : Tile → β) (out : GroupVal → β) {g : Nat} (h : g < 32)
    (own : ∀ y v, read (Tile.setGroupVal y e g v) = out v) (other : ∀ y k v, k ≠ g → read (Tile.setGroupVal y e k v) = read y) :
    read (x.setGroups e f) = (f g).elim (read x) out := by
  have step : ∀ (y : Tile) (k : Nat), read (match f k with | some v => y.setGroupVal e k v | none => y) =
      if k = g then (f g).elim (read y) out else read y := fun y k => by
    by_cases same : k = g
    · subst same
      rw [if_pos rfl]
      cases f k with
      | some v => exact own y v
      | none => rfl
    · rw [if_neg same]
      cases f k with
      | some v => exact other y k v same
      | none => rfl
  have fold : ∀ (l : List Nat) (y : Tile), l.Nodup →
      read (l.foldl (fun y k => match f k with | some v => y.setGroupVal e k v | none => y) y) =
        if g ∈ l then (f g).elim (read y) out else read y := by
    intro l
    induction l with
    | nil => exact fun y _ => rfl
    | cons k l ih =>
      intro y distinct
      obtain ⟨fresh, rest⟩ := List.nodup_cons.1 distinct
      rw [List.foldl_cons, ih _ rest, step]
      by_cases same : k = g
      · subst same
        rw [if_neg fresh, if_pos rfl, if_pos List.mem_cons_self]
      · rw [if_neg same]
        exact if_congr (by simp [Ne.symm same]) rfl rfl
  exact (fold (List.range 32) x List.nodup_range).trans (if_pos (List.mem_range.2 h))

variable {g : Nat} (h : g < 32)
include h

theorem Tile.setGroups_gword :
    Tab.get dGroupWord (x.setGroups e f).gword (32 * e + g) =
      (f g).elim (Tab.get dGroupWord x.gword (32 * e + g)) fun v => ⟨v.mark, v.ovf, v.e⟩ :=
  x.read_setGroups e f (fun y => Tab.get dGroupWord y.gword (32 * e + g)) _ h
    (fun y v => by rw [y.setGroupVal_gword, Tab.get_set_same])
    fun y k v away => by rw [y.setGroupVal_gword, Tab.get_set_other _ _ _ _ _ (by omega)]

theorem Tile.setGroups_mant {i : Nat} (k : i < 16) :
    Tab.get dZero (x.setGroups e f).mant (512 * e + 16 * g + i) =
      (f g).elim (Tab.get dZero x.mant (512 * e + 16 * g + i)) fun v => v.m.getD i 0 :=
  x.read_setGroups e f (fun y => Tab.get dZero y.mant (512 * e + 16 * g + i)) _ h
    (fun y v => by rw [y.setGroupVal_mant, if_pos (by omega), Nat.add_sub_cancel_left])
    fun y k v away => by rw [y.setGroupVal_mant, if_neg (by omega)]

end

theorem Tile.clearEntry_mant (x : Tile) (e : Nat) {k : Nat} (h : k < 512) : Tab.get dZero (x.clearEntry e).mant (512 * e + k) = 0 := by
  have inside : ((512 * e + k) / 512 != e) = false := by
    rw [show (512 * e + k) / 512 = e by omega]
    exact bne_self_eq_false e
  exact (Tab.get_filter dZero x.mant (fun n => n / 512 != e) _).trans (if_neg (by simp [inside]))

theorem Tile.clearEntry_gword (x : Tile) (e : Nat) {g : Nat} (h : g < 32) :
    Tab.get dGroupWord (x.clearEntry e).gword (32 * e + g) = GroupWord.cleared := by
  have inside : ((32 * e + g) / 32 != e) = false := by
    rw [show (32 * e + g) / 32 = e by omega]
    exact bne_self_eq_false e
  exact (Tab.get_filter dGroupWord x.gword (fun n => n / 32 != e) _).trans (if_neg (by simp [inside]))

/-- A cleared entry's groups are cleared groups. -/
theorem Tile.clearEntry_groups (x : Tile) (e : Nat) :
    (List.range 32).map ((x.clearEntry e).groupVal e) = List.replicate 32 GroupVal.cleared := by
  rw [List.eq_replicate_iff]
  refine ⟨by simp, fun v listed => ?_⟩
  obtain ⟨g, small, rfl⟩ := List.mem_map.1 listed
  rw [List.mem_range] at small
  have zeros : (List.range 16).map (fun i => Tab.get dZero (x.clearEntry e).mant (512 * e + 16 * g + i)) = List.replicate 16 0 := by
    rw [List.eq_replicate_iff]
    refine ⟨by simp, fun m row => ?_⟩
    obtain ⟨i, low, rfl⟩ := List.mem_map.1 row
    rw [List.mem_range] at low
    rw [Nat.add_assoc]
    exact x.clearEntry_mant e (by omega)
  unfold Tile.groupVal
  rw [zeros, x.clearEntry_gword e small]
  rfl

/-! ### Updates of an entry (R107) -/

/-- Between two states the tiles moved, and marks that are counted and registers. -/
def State.EntriesMoved (s u : State) : Prop := ∃ y x g, u = { s with tiles := y, faults := x, regs := g }

theorem State.EntriesMoved.refl (s : State) : s.EntriesMoved s := ⟨s.tiles, s.faults, s.regs, rfl⟩
theorem State.EntriesMoved.trans {s t u : State} (h : s.EntriesMoved t) (k : t.EntriesMoved u) : s.EntriesMoved u := by
  obtain ⟨y, x, g, rfl⟩ := h
  obtain ⟨y', x', g', rfl⟩ := k
  exact ⟨y', x', g', rfl⟩
theorem State.EntriesMoved.setTile (s : State) (t : Nat) (x : Tile) : s.EntriesMoved (s.setTile t x) := ⟨_, s.faults, s.regs, rfl⟩

/-- Between two states marks that are counted moved, and registers. -/
def State.CountsMoved (s u : State) : Prop := ∃ x g, u = { s with faults := x, regs := g }

theorem State.CountsMoved.refl (s : State) : s.CountsMoved s := ⟨s.faults, s.regs, rfl⟩
theorem State.CountsMoved.trans {s t u : State} (h : s.CountsMoved t) (k : t.CountsMoved u) : s.CountsMoved u := by
  obtain ⟨x, g, rfl⟩ := h
  obtain ⟨x', g', rfl⟩ := k
  exact ⟨x', g', rfl⟩
theorem State.CountsMoved.setFld (s : State) (f : Fld) (v : Nat) : s.CountsMoved (s.setFld f v) := ⟨s.faults, _, rfl⟩
theorem State.CountsMoved.countMark (s : State) (r n : Nat) : s.CountsMoved (s.countMark r n) := ⟨_, s.regs, rfl⟩
theorem State.CountsMoved.ite {s u v : State} {c : Prop} [Decidable c] (h : s.CountsMoved u) (k : s.CountsMoved v) :
    s.CountsMoved (if c then u else v) := iteInduction (motive := s.CountsMoved) (fun _ => h) fun _ => k
theorem State.CountsMoved.foldl {α : Type} (f : State → α → State) (step : ∀ u x, State.CountsMoved u (f u x)) (l : List α) (s : State) :
    s.CountsMoved (l.foldl f s) := foldl_does State.CountsMoved .refl (fun _ _ _ => .trans) f step l s
theorem State.CountsMoved.tiles {s u : State} (h : s.CountsMoved u) : u.tiles = s.tiles := by
  obtain ⟨x, g, rfl⟩ := h
  rfl
theorem State.CountsMoved.entries {s u : State} (h : s.CountsMoved u) : s.EntriesMoved u := by
  obtain ⟨x, g, rfl⟩ := h
  exact ⟨s.tiles, x, g, rfl⟩

/-- A group whose step saturates, counted and shown as the latest. -/
theorem State.showSat_counts (s : State) (t e g n : Nat) :
    s.CountsMoved ((((s.bump (TILE_PEW_STAT.sats.on t) n).setFlag (TILE_PEW_LAST.valid.on t) true).setFld
      (TILE_PEW_LAST.group.on t) g).setFld (TILE_PEW_LAST.entry.on t) e) :=
  (((State.CountsMoved.setFld s _ _).trans (.setFld _ _ _)).trans (.setFld _ _ _)).trans (.setFld _ _ _)

theorem State.countSteps_counts (s : State) (t e : Nat) (l : List GroupStep) (marks : List (Option CMark)) :
    s.CountsMoved (s.countSteps t e l marks) := by
  unfold State.countSteps
  refine .trans (.ite (.setFld s _ _) (.refl s)) (.foldl _ (fun u g => ?_) _ _)
  dsimp only
  split
  · exact .refl u
  · next x _ =>
    have sat := u.showSat_counts t e g 1
    generalize State.setFld _ (TILE_PEW_LAST.entry.on t) e = w at sat
    have marked : u.CountsMoved (if x.sat then if x.old.ovf then w else w.countMark 2 else u) :=
      .ite (.ite sat (sat.trans (.countMark w 2 1))) (.refl u)
    generalize (if x.sat = true then _ else u) = v at marked
    split
    · exact .ite (marked.trans (.countMark v _ 1)) marked
    · exact marked

/-- The steps of an update that adds partials to an entry of a tile. -/
def Tile.steps (x : Tile) (t e : Nat) (p ex : List Int) (marks : List (Option CMark)) (ovfs : List Bool) (gen : BitVec 64) :
    List GroupStep := groupSteps ((List.range 32).map (x.groupVal e)) p ex marks ovfs gen (updateKey t)

section
variable (s : State) (t e : Nat) (p ex : List Int) (marks : List (Option CMark)) (ovfs : List Bool) (gen : BitVec 64)

theorem State.addToEntry_counts :
    (s.setTile t ((s.tile t).setGroups e fun g => ((s.tile t).steps t e p ex marks ovfs gen)[g]?.map (·.new))).CountsMoved
      (s.addToEntry t e p ex marks ovfs gen) := by
  unfold State.addToEntry
  extract_lets x l y
  have groups : y = x.setGroups e fun g => l[g]?.map (·.new) := by
    unfold y Tile.setGroups
    congr 1
    funext z g
    dsimp only
    cases l[g]? with
    | some step => rfl
    | none => rfl
  rw [groups]
  exact State.countSteps_counts _ t e l marks

/-- An update puts the groups of its entry. -/
theorem State.addToEntry_tile :
    (s.addToEntry t e p ex marks ovfs gen).tile t =
      (s.tile t).setGroups e fun g => ((s.tile t).steps t e p ex marks ovfs gen)[g]?.map (·.new) := by
  rw [State.tile_congr (s.addToEntry_counts t e p ex marks ovfs gen).tiles, State.tile_setTile_same]

theorem State.addToEntry_entries : s.EntriesMoved (s.addToEntry t e p ex marks ovfs gen) :=
  (State.EntriesMoved.setTile s t _).trans (s.addToEntry_counts t e p ex marks ovfs gen).entries

/-- Each group of the entry is as its step leaves it. -/
theorem State.addToEntry_group {g : Nat} {z : GroupStep} (step : ((s.tile t).steps t e p ex marks ovfs gen)[g]? = some z) :
    (((s.addToEntry t e p ex marks ovfs gen).tile t).groupVal e g).mark = z.new.mark ∧
      (((s.addToEntry t e p ex marks ovfs gen).tile t).groupVal e g).e = z.new.e ∧
      ∀ i, i < 16 → Tab.get dZero ((s.addToEntry t e p ex marks ovfs gen).tile t).mant (512 * e + 16 * g + i) = z.new.m.getD i 0 := by
  have small : g < 32 := by
    have listed := (List.getElem?_eq_some_iff.1 step).1
    simpa [Tile.steps, groupSteps] using listed
  rw [State.addToEntry_tile]
  have word := (s.tile t).setGroups_gword e (fun g => ((s.tile t).steps t e p ex marks ovfs gen)[g]?.map (·.new)) small
  rw [step] at word
  refine ⟨congrArg GroupWord.mark word, congrArg GroupWord.e word, fun i row => ?_⟩
  rw [Tile.setGroups_mant _ e _ small row, step]
  rfl

end

/-! ### PEWTER_UPDATE (R107, R128) -/

theorem State.jobsDone_tiles (s : State) (b : Nat) (l : List Nat) : (s.jobsDone b l).tiles = s.tiles :=
  List.foldlRecOn (motive := fun u : State => u.tiles = s.tiles) l _ rfl fun u same n _ => (u.jobDone_tiles b n).trans same

theorem State.pewterUpdate_none (s : State) {t : Nat} (h : (s.tile t).updQ.find? (s.updReady t) = none) : s.pewterUpdate t = s := by
  unfold State.pewterUpdate
  rw [h]

/-- The tile once an update is out of its queue and applied. -/
theorem State.pewterUpdate_tile (s : State) {t : Nat} {u : Update} (h : (s.tile t).updQ.find? (s.updReady t) = some u) :
    (s.pewterUpdate t).tile t =
      ((s.modTile t fun x => { x with updQ := x.updQ.filter (·.gid != u.gid) }).addToEntry t u.entry u.p u.e u.marks u.ovfs u.gen).tile t := by
  unfold State.pewterUpdate
  rw [h]
  exact State.tile_congr (State.jobsDone_tiles _ _ _) t

/-- Settles O4: the update that is ready leaves the queue, and its steps are put in its entry. -/
theorem updateIsApplied : Obligations.UpdateIsApplied := by
  intro s t
  refine ⟨fun u ready => ⟨_, rfl, ?queue, fun g x step => ?groups⟩, fun none => congrArg Host.Outcome.next (s.pewterUpdate_none none)⟩
  case queue =>
    rw [s.pewterUpdate_tile ready, State.addToEntry_tile, State.tile_modTile_same]
    obtain ⟨m, w, same⟩ := Tile.setGroups_entries { s.tile t with updQ := (s.tile t).updQ.filter (·.gid != u.gid) } u.entry fun g =>
      (Tile.steps { s.tile t with updQ := (s.tile t).updQ.filter (·.gid != u.gid) } t u.entry u.p u.e u.marks u.ovfs u.gen)[g]?.map (·.new)
    rw [same]
  case groups =>
    rw [s.pewterUpdate_tile ready]
    refine State.addToEntry_group _ t u.entry u.p u.e u.marks u.ovfs u.gen ?_
    rw [State.tile_modTile_same]
    exact step

end Sys2Proof.Machine
end

section
/-! SUPPORT. The Pewter map: what an 8-byte access reads, writes and waits for (R129 to R131, R206). -/

namespace Sys2Proof.Machine

/-! ### A row word that is written (R130) -/

/-- The signed number that the bits of a word spell. -/
theorem signed_bits (v : BitVec 64) (lo n : Nat) : signed (n + 1) (bits v.toNat (lo + n) lo) = (v.extractLsb' lo (n + 1)).toInt := by
  have field : bits v.toNat (lo + n) lo % 2 ^ (n + 1) = (v.extractLsb' lo (n + 1)).toNat := by
    rw [BitVec.extractLsb'_toNat, Nat.shiftRight_eq_div_pow, bits, Nat.add_sub_cancel_left, Nat.mod_mod]
  have half : (v.extractLsb' lo (n + 1)).toNat < 2 ^ n ↔ 2 * (v.extractLsb' lo (n + 1)).toNat < 2 ^ (n + 1) := by
    rw [Nat.pow_succ]
    omega
  unfold signed
  rw [field, BitVec.toInt_eq_toNat_cond, Nat.add_sub_cancel]
  exact (if_congr half rfl (by push_cast; rfl))

section
variable (x : Tile) (e r : Nat)

theorem Tile.mapWrite_mant (w : Nat) : (x.mapWrite e r w).mant = Tab.set dZero x.mant (512 * e + r) (signed 40 (bits w 39 0)) := by
  unfold Tile.mapWrite
  dsimp only
  split
  · rfl
  · rfl

theorem Tile.mapWrite_exponent (w : Nat) (first : r % 16 = 0) :
    (Tab.get dGroupWord (x.mapWrite e r w).gword (32 * e + r / 16)).e = signed 8 (bits w 47 40) := by
  unfold Tile.mapWrite
  dsimp only
  rw [if_pos first, Tab.get_set_same]

theorem Tile.carryMark_exponent (g : Nat) (m : Mark) :
    (Tab.get dGroupWord (x.carryMark e g m).gword (32 * e + g)).e = (Tab.get dGroupWord x.gword (32 * e + g)).e := by
  unfold Tile.carryMark
  dsimp only
  rw [Tab.get_set_same]

end

/-! ### PEWTER_MAP_ACCESS -/

theorem State.droppedWrite_tiles (s : State) (unit : Nat) (i : ScoreId) (a : Nat) : (s.droppedWrite unit i a).tiles = s.tiles :=
  s.raise_tiles _

theorem State.markCount_countMark (s : State) (r n : Nat) :
    (s.countMark r n).markCount r = BitVec.ofNat 32 (min ((s.markCount r).toNat + n) (2 ^ 32 - 1)) := Tab.get_set_same _ _ r _

section
variable (s : State) (t off : Nat) (m : Mark)

theorem State.mapAccess_waits (r : MapRequester) (wr : Option (BitVec 64))
    (h : off % 8 ≠ 0 ∨ s.mapBusy t (off / 0x1000) = true ∨ (r = .aperture ∧ s.mapClaimed t = true)) :
    s.mapAccess r t off wr m = s := by
  unfold State.mapAccess
  dsimp only
  exact if_pos h

variable {off} (aligned : off % 8 = 0) (free : s.mapBusy t (off / 0x1000) = false)
include aligned free

theorem State.mapAccess_served {r : MapRequester} (h : r = .aperture → s.mapClaimed t = false) :
    ¬(off % 8 ≠ 0 ∨ s.mapBusy t (off / 0x1000) = true ∨ (r = .aperture ∧ s.mapClaimed t = true)) := by
  rintro (odd | busy | ⟨aperture, claimed⟩)
  · exact odd aligned
  · exact Bool.false_ne_true (free.symm.trans busy)
  · exact Bool.false_ne_true ((h aperture).symm.trans claimed)

theorem State.mapAccess_read (i : ScoreId) :
    s.mapAccess (.stream i) t off none m =
      if s.mapOpen t (off / 0x1000) i then s.aperGive (leBytes 8 ((s.tile t).mapWord (off / 0x1000) (off % 0x1000 / 8)))
      else s.refusedRead.2.aperGive (leBytes 8 0) := by
  unfold State.mapAccess
  dsimp only
  exact if_neg (s.mapAccess_served t aligned free (r := .stream i) nofun)

theorem State.mapAccess_write (i : ScoreId) (v : BitVec 64) :
    s.mapAccess (.stream i) t off (some v) m =
      if s.mapOpen t (off / 0x1000) i then
        s.setTile t (((s.tile t).mapWrite (off / 0x1000) (off % 0x1000 / 8) v.toNat).carryMark (off / 0x1000) (off % 0x1000 / 8 / 16) m)
      else s.droppedWrite 0xFFFF i (0x18000000 + 0x400000 * t + off) := by
  unfold State.mapAccess
  dsimp only
  exact if_neg (s.mapAccess_served t aligned free (r := .stream i) nofun)

theorem State.mapAccess_aperture (unclaimed : s.mapClaimed t = false) (wr : Option (BitVec 64)) :
    s.mapAccess .aperture t off wr m =
      if wr.isSome then s.droppedWrite 0xFFFF 0 (0x18000000 + 0x400000 * t + off)
      else if s.mapVisible t then s.aperGive (leBytes 8 ((s.tile t).mapWord (off / 0x1000) (off % 0x1000 / 8)))
      else s.refusedRead.2.aperGive (leBytes 8 0) := by
  unfold State.mapAccess
  dsimp only
  rw [if_neg (s.mapAccess_served t aligned free fun _ => unclaimed)]
  cases wr with
  | none => rfl
  | some v => rfl

/-- A write of the score that the entry is bound to puts the row's mantissa, and with the first row the group's exponent. -/
theorem State.mapAccess_puts {i : ScoreId} (own : s.mapOpen t (off / 0x1000) i = true) (v : BitVec 64) :
    let e := off / 0x1000
    let row := off % 0x1000 / 8
    let u := s.mapAccess (.stream i) t off (some v) m
    Tab.get dZero (u.tile t).mant (512 * e + row) = (v.setWidth 40).toInt ∧
      (∀ k, k ≠ 512 * e + row → Tab.get dZero (u.tile t).mant k = Tab.get dZero (s.tile t).mant k) ∧
      (row % 16 = 0 → ((u.tile t).groupVal e (row / 16)).e = (v.extractLsb' 40 8).toInt) ∧ u.link = s.link := by
  intro e row u
  have put : u = s.setTile t (((s.tile t).mapWrite e row v.toNat).carryMark e (row / 16) m) :=
    (s.mapAccess_write t m aligned free i v).trans (if_pos own)
  rw [put, State.tile_setTile_same]
  have mant : (((s.tile t).mapWrite e row v.toNat).carryMark e (row / 16) m).mant =
      Tab.set dZero (s.tile t).mant (512 * e + row) (signed 40 (bits v.toNat 39 0)) := (s.tile t).mapWrite_mant e row v.toNat
  rw [mant]
  refine ⟨?_, fun k away => Tab.get_set_other _ _ _ _ _ away, fun first => ?_, rfl⟩
  · rw [Tab.get_set_same, signed_bits v 0 39]
    exact congrArg BitVec.toInt (BitVec.setWidth_eq_extractLsb' (by decide)).symm
  · rw [← signed_bits v 40 7, ← (s.tile t).mapWrite_exponent e row v.toNat first]
    exact Tile.carryMark_exponent _ e (row / 16) m

end

/-- Settles O17: an access that waits, and one that is served by who makes it. -/
theorem mapAccesses : Obligations.MapAccesses := by
  intro s t off m e row
  refine ⟨fun r wr waits => congrArg Host.Outcome.next (s.mapAccess_waits t off.toNat m r wr waits), fun aligned free =>
    ⟨fun i own => ⟨⟨_, rfl, ?shown⟩, fun v => ⟨_, rfl, s.mapAccess_puts t m aligned free own v⟩⟩,
      fun i other => ⟨⟨_, rfl, ?refused⟩, fun v => ⟨_, rfl, ?dropped⟩⟩,
      fun unclaimed => ⟨⟨_, rfl, ?aperture⟩, fun v => ⟨_, rfl, ?unwritten⟩⟩⟩⟩
  case shown =>
    rw [s.mapAccess_read t m aligned free i, if_pos own]
    exact ⟨rfl, rfl⟩
  case refused =>
    rw [s.mapAccess_read t m aligned free i, other, if_neg Bool.false_ne_true]
    exact ⟨rfl, rfl, s.markCount_countMark 15 1⟩
  case dropped =>
    rw [s.mapAccess_write t m aligned free i v, other, if_neg Bool.false_ne_true]
    exact s.droppedWrite_tiles _ _ _
  case aperture =>
    rw [s.mapAccess_aperture t m aligned free unclaimed none]
    cases s.mapVisible t with
    | true => exact ⟨rfl, rfl⟩
    | false => exact ⟨rfl, rfl⟩
  case unwritten =>
    rw [s.mapAccess_aperture t m aligned free unclaimed (some v)]
    exact s.droppedWrite_tiles _ _ _

end Sys2Proof.Machine
end

section
/-! SUPPORT. Remote entries and drains: what a remote entry that is added leaves of its tile, when a drain is released, what its read takes
off it and where the drained entry goes (R105, R120, R124 to R128, R148). -/

namespace Sys2Proof.Machine

/-! ### Remote entries (R112, R120) -/

/-- Two contents of a tile agree but for the entries of its Pewter and its remote entries. -/
def Tile.RemoteMoved (x y : Tile) : Prop := ∃ m w r, y = { x with mant := m, gword := w, remote := r }

theorem Tile.RemoteMoved.refl (x : Tile) : x.RemoteMoved x := ⟨x.mant, x.gword, x.remote, rfl⟩
theorem Tile.RemoteMoved.trans {x y z : Tile} (h : x.RemoteMoved y) (k : y.RemoteMoved z) : x.RemoteMoved z := by
  obtain ⟨m, w, r, rfl⟩ := h
  obtain ⟨m', w', r', rfl⟩ := k
  exact ⟨m', w', r', rfl⟩
theorem Tile.RemoteMoved.drainQ {x y : Tile} (h : x.RemoteMoved y) : y.drainQ = x.drainQ := by
  obtain ⟨m, w, r, rfl⟩ := h
  rfl
theorem Tile.EntriesMoved.remote {x y : Tile} (h : x.EntriesMoved y) : x.RemoteMoved y := by
  obtain ⟨m, w, rfl⟩ := h
  exact ⟨m, w, x.remote, rfl⟩

/-- The state in which a remote entry is added: its target cleared, but in the Yellia 2 order (R120, R123). -/
def State.beforeRemote (s : State) (t e : Nat) : State := if s.compat then s else s.modTile t (·.clearEntry e)

theorem State.beforeRemote_tile (s : State) (t e : Nat) : (s.tile t).EntriesMoved ((s.beforeRemote t e).tile t) := by
  unfold State.beforeRemote
  split
  · exact .refl _
  · rw [State.tile_modTile_same]
    exact ⟨_, _, rfl⟩

theorem State.beforeRemote_entries (s : State) (t e : Nat) : s.EntriesMoved (s.beforeRemote t e) := by
  unfold State.beforeRemote
  split
  · exact .refl s
  · exact .setTile s t _

section
variable (s : State) (t e : Nat) (bs : List Block) (gen : BitVec 64)

theorem State.remoteAdd_eq :
    s.remoteAdd t e bs gen =
      (s.beforeRemote t e).addToEntry t e ((rowWords bs).map fun v => signed 40 (bits v 39 0))
        ((rowWords bs).map fun v => signed 8 (bits v 47 40)) ((List.range 32).map (remoteMark bs (rowWords bs)))
        ((List.range 32).map fun g => inMask ((rowWords bs).getD (16 * g) 0) 48) gen := rfl

theorem State.remoteAdd_tile : (s.tile t).EntriesMoved ((s.remoteAdd t e bs gen).tile t) := by
  rw [s.remoteAdd_eq, State.addToEntry_tile]
  exact (s.beforeRemote_tile t e).trans (Tile.setGroups_entries _ e _)

theorem State.remoteAdd_entries : s.EntriesMoved (s.remoteAdd t e bs gen) := by
  rw [s.remoteAdd_eq]
  exact (s.beforeRemote_entries t e).trans (State.addToEntry_entries _ t e _ _ _ _ gen)

end

theorem Tile.rounds_setRounds (x : Tile) (e : Nat) (v : Rounds) : (x.setRounds e v).rounds e = v := Tab.get_set_same _ _ e v

/-- The first remote entry that is due counts as done. -/
def Rounds.finish (v : Rounds) (r : Remote) : Rounds :=
  ⟨v.due.map fun w => if w.pos = r.pos then { w with done := true } else w, v.held.drop 64⟩

theorem Rounds.done_of_mem_finish {v : Rounds} {r x : Remote} (m : x ∈ (v.finish r).due) (same : x.pos = r.pos) : x.done = true := by
  obtain ⟨w, -, rfl⟩ := List.mem_map.1 m
  by_cases here : w.pos = r.pos
  · rw [if_pos here]
  · rw [if_neg here] at same
    exact absurd same here

section
variable (s : State) (t e : Nat)

theorem State.addArrived_none (h : ((s.tile t).rounds e).due.find? (fun r => !r.done) = none) : s.addArrived t e = s := by
  unfold State.addArrived
  extract_lets x v
  rw [show v.due.find? (fun r => !r.done) = none from h]

theorem State.addArrived_part (h : ((s.tile t).rounds e).held.length < 64) : s.addArrived t e = s := by
  unfold State.addArrived
  extract_lets x v
  split
  · rfl
  · exact if_neg fun whole => absurd h (Nat.not_lt.2 whole.1)

theorem State.addArrived_adds {r : Remote} (due : ((s.tile t).rounds e).due.find? (fun r => !r.done) = some r)
    (whole : 64 ≤ ((s.tile t).rounds e).held.length) (opened : (s.tile t).roundOpen e r = true) :
    s.addArrived t e =
      (s.modTile t fun x => x.setRounds e ((x.rounds e).finish r)).remoteAdd t e (((s.tile t).rounds e).held.take 64) r.gen := by
  unfold State.addArrived
  extract_lets x v
  rw [show v.due.find? (fun r => !r.done) = some r from due]
  exact if_pos ⟨whole, opened⟩

/-- Remote entries that have arrived are added, or nothing happens. -/
theorem State.addArrived_cases :
    s.addArrived t e = s ∨ ∃ v bs gen, s.addArrived t e = (s.modTile t fun x => x.setRounds e v).remoteAdd t e bs gen := by
  unfold State.addArrived
  extract_lets x v
  split
  · exact .inl rfl
  · split
    · exact .inr ⟨_, _, _, rfl⟩
    · exact .inl rfl

theorem State.addArrived_tile : (s.tile t).RemoteMoved ((s.addArrived t e).tile t) := by
  rcases s.addArrived_cases t e with same | ⟨v, bs, gen, added⟩
  · rw [same]
    exact .refl _
  · rw [added]
    have put := (State.remoteAdd_tile (s.modTile t fun x => x.setRounds e v) t e bs gen).remote
    rw [State.tile_modTile_same] at put
    exact Tile.RemoteMoved.trans ⟨_, _, _, rfl⟩ put

theorem State.addArrived_entries : s.EntriesMoved (s.addArrived t e) := by
  rcases s.addArrived_cases t e with same | ⟨v, bs, gen, added⟩
  · rw [same]
    exact .refl s
  · rw [added]
    exact (State.EntriesMoved.setTile s t _).trans (State.remoteAdd_entries _ t e bs gen)

end

/-! ### DRAIN_RELEASE (R112, R127) -/

/-- A drain that may have got generator states. -/
def Drain.Positioned (d d' : Drain) : Prop := ∃ n, d' = { d with gens := n }

theorem Drain.Positioned.trans {d d' d'' : Drain} (h : d.Positioned d') (k : d'.Positioned d'') : d.Positioned d'' := by
  obtain ⟨n, rfl⟩ := h
  obtain ⟨n', rfl⟩ := k
  exact ⟨n', rfl⟩

theorem assignDrains_positions (pos : Nat) (g : BitVec 64) (q : List Drain) : List.Forall₂ Drain.Positioned q (assignDrains pos g q).2 := by
  induction q generalizing g with
  | nil => exact .nil
  | cons d q ih =>
    unfold assignDrains
    split
    · exact .cons ⟨_, rfl⟩ (ih _)
    · exact .cons ⟨d.gens, rfl⟩ (ih _)

theorem assignDrains_cons {pos : Nat} {g : BitVec 64} {d : Drain} {q : List Drain} :
    ∃ d' q', (assignDrains pos g (d :: q)).2 = d' :: q' ∧ d.Positioned d' := by
  have each := assignDrains_positions pos g (d :: q)
  generalize (assignDrains pos g (d :: q)).2 = l at each
  cases each with
  | cons head _ => exact ⟨_, _, rfl, head⟩

theorem State.reserveRemote_drains (s : State) {t : Nat} {d : Drain} {q : List Drain} (first : (s.tile t).drainQ = d :: q) (e pos : Nat) :
    ∃ d' q', ((s.reserveRemote t e pos).tile t).drainQ = d' :: q' ∧ d.Positioned d' := by
  unfold State.reserveRemote
  extract_lets x a g v
  split
  · rw [(State.addArrived_tile _ t e).drainQ, State.tile_setTile_same]
    have queue : a.2 = (assignDrains pos x.gen (d :: q)).2 := congrArg (fun l => (assignDrains pos x.gen l).2) first
    obtain ⟨d', q', e, positioned⟩ := assignDrains_cons (pos := pos) (g := x.gen) (d := d) (q := q)
    exact ⟨d', q', queue.trans e, positioned⟩
  · exact ⟨d, q, first, d.gens, rfl⟩

section
variable (s : State) {t : Nat} {d : Drain} {q : List Drain} (first : (s.tile t).drainQ = d :: q)
include first

theorem State.drainRelease_waits
    (h : (s.bay (t / 4)).paused = true ∨ (s.tile t).drainClear d (s.tileFaulted t) = false) : s.drainRelease t = s := by
  unfold State.drainRelease
  rw [first]
  refine if_pos (.inr (h.imp_right fun blocked => .inl ?_))
  rw [blocked]
  rfl

/-- A drain that nothing holds back is released. -/
theorem State.drainRelease_releases (new : d.released = false) (runs : (s.bay (t / 4)).paused = false)
    (clear : (s.tile t).drainClear d (s.tileFaulted t) = true) (gen : (s.tile t).drainGen d = true)
    (none : (s.reserveRemote t d.entry d.stamp).remotePending t d.entry d.stamp = false) :
    ∃ d' q', ((s.drainRelease t).tile t).drainQ = d' :: q' ∧ d'.released = true ∧ d'.entry = d.entry := by
  obtain ⟨d1, q1, queued, positioned⟩ := s.reserveRemote_drains first d.entry d.stamp
  unfold State.drainRelease
  rw [first]
  dsimp only
  rw [new, runs, clear, gen, if_neg (by simp), none, if_neg Bool.false_ne_true, State.tile_modTile_same, queued]
  obtain ⟨d2, q2, assigned, again⟩ := assignDrains_cons (pos := d.stamp + 1)
    (g := ((s.reserveRemote t d.entry d.stamp).tile t).gen) (d := d1) (q := q1)
  rw [assigned]
  obtain ⟨n, rfl⟩ := positioned.trans again
  exact ⟨_, q2, rfl, rfl, rfl⟩

end

/-! ### The drained entry (R105, R120, R126) -/

theorem Tile.afterDrain_remote (x : Tile) (d : Drain) (l : List DrainedGroup) : x.RemoteMoved (x.afterDrain d l) := by
  unfold Tile.afterDrain
  split
  · exact ⟨_, _, _, rfl⟩
  · refine Tile.EntriesMoved.remote (.foldl _ (fun y g => ?_) _ x)
    split
    · exact y.setGroupVal_entries _ _ _
    · exact .refl y

/-- A drain that clears its entry leaves zeros there, and of its rounds the later ones. -/
theorem Tile.afterDrain_clears (x : Tile) {d : Drain} (h : d.clr = true) (l : List DrainedGroup) :
    (∀ r, r < 512 → Tab.get dZero (x.afterDrain d l).mant (512 * d.entry + r) = 0) ∧
      ((x.afterDrain d l).rounds d.entry).due = (x.rounds d.entry).due.filter fun r => d.stamp < r.pos := by
  unfold Tile.afterDrain
  rw [if_pos h]
  exact ⟨fun r row => x.clearEntry_mant d.entry row, congrArg Rounds.due (Tile.rounds_setRounds _ d.entry _)⟩

/-- The rest of a drain behind an entry that has been read. -/
def Drain.rest (d : Drain) : Drain :=
  { d with
    entry := (d.entry + 1) % 1024, left := d.left - 1, gens := d.gens.drop 1, first := false, released := false
    addr := if d.dst = 0 then d.addr + drainBytes d.fmt.toNat else d.addr }

theorem Tile.nextDrain_eq (x : Tile) (d : Drain) :
    x.nextDrain d = { x with drainQ := if d.left ≤ 1 then x.drainQ.drop 1 else d.rest :: x.drainQ.drop 1 } := by
  unfold Tile.nextDrain
  split
  · rfl
  · rfl

theorem State.recordTest_spec (s : State) (b : Nat) (d : Drain) (l : List DrainedGroup) :
    ∃ y, s.recordTest b d l = { s with bays := y } := by
  unfold State.recordTest
  split
  · split
    · exact ⟨s.bays, rfl⟩
    · exact ⟨_, rfl⟩
  · exact ⟨s.bays, rfl⟩

/-- The groups of an entry as a drain converts them. -/
def State.drainedGroups (s : State) (t : Nat) (d : Drain) : List DrainedGroup :=
  (List.range 32).map fun g => drainGroup d t (d.gens.headD 0) ((s.tile t).groupVal d.entry g) g

/-- A tile whose first drain has read an entry. -/
def State.drainedTile (s : State) (t : Nat) (d : Drain) : Tile := ((s.tile t).afterDrain d (s.drainedGroups t d)).nextDrain d

/-- The state in which a drained entry is delivered. -/
def State.drained (s : State) (t : Nat) (d : Drain) : State :=
  ((((s.setTile t (s.drainedTile t d)).addArrived t d.entry).countMark 7 (convMarks (s.drainedGroups t d))).recordTest (t / 4) d
    (s.drainedGroups t d))

section
variable (s : State) (t : Nat) (d : Drain)

theorem State.drained_spec :
    let u := (s.setTile t (s.drainedTile t d)).addArrived t d.entry
    (s.drained t d).tiles = u.tiles ∧ (s.drained t d).regs = u.regs ∧ (s.drained t d).stage = u.stage ∧ (s.drained t d).scores = u.scores := by
  unfold State.drained
  generalize (s.setTile t (s.drainedTile t d)).addArrived t d.entry = u
  obtain ⟨y, recorded⟩ := (u.countMark 7 (convMarks (s.drainedGroups t d))).recordTest_spec (t / 4) d (s.drainedGroups t d)
  rw [recorded]
  exact ⟨rfl, rfl, rfl, rfl⟩

theorem State.drained_keeps : (s.drained t d).stage = s.stage ∧ (s.drained t d).scores = s.scores := by
  obtain ⟨-, -, stage, scores⟩ := s.drained_spec t d
  obtain ⟨y, x, g, e⟩ := (State.EntriesMoved.setTile s t (s.drainedTile t d)).trans (State.addArrived_entries _ t d.entry)
  rw [stage, scores, e]
  exact ⟨rfl, rfl⟩

theorem State.drained_tile : (s.drained t d).tile t = ((s.setTile t (s.drainedTile t d)).addArrived t d.entry).tile t :=
  State.tile_congr (s.drained_spec t d).1 t

theorem State.drained_queue {q : List Drain} (first : (s.tile t).drainQ = d :: q) :
    ((s.drained t d).tile t).drainQ = if d.left ≤ 1 then q else d.rest :: q := by
  rw [s.drained_tile, (State.addArrived_tile _ t d.entry).drainQ, State.tile_setTile_same, State.drainedTile, Tile.nextDrain_eq]
  dsimp only
  rw [((s.tile t).afterDrain_remote d _).drainQ, first, List.drop_one, List.tail_cons]

theorem State.drained_cleared (clears : d.clr = true) (last : ∀ r ∈ ((s.tile t).rounds d.entry).due, r.pos ≤ d.stamp) {r : Nat}
    (row : r < 512) :
    Tab.get dZero ((s.drained t d).tile t).mant (512 * d.entry + r) = 0 := by
  obtain ⟨zeros, due⟩ := (s.tile t).afterDrain_clears clears (s.drainedGroups t d)
  have tile : s.drainedTile t d = _ := Tile.nextDrain_eq _ d
  have none : (s.drainedTile t d).rounds d.entry = ((s.tile t).afterDrain d (s.drainedGroups t d)).rounds d.entry := by
    rw [tile]
    rfl
  have none_due : ((s.drainedTile t d).rounds d.entry).due = [] := by
    rw [none, due, List.filter_eq_nil_iff]
    exact fun r m later => absurd (last r m) (Nat.not_le.2 (of_decide_eq_true later))
  rw [s.drained_tile, State.addArrived_none _ t d.entry (by rw [State.tile_setTile_same, none_due]; rfl), State.tile_setTile_same, tile]
  exact zeros r row

theorem State.drained_reg {off : Nat} (h : off ≠ (TILE_PEW_STAT.raises.on t).off) (k : off ≠ (TILE_PEW_LAST.valid.on t).off) :
    (s.drained t d).reg off = s.reg off := by
  obtain ⟨-, regs, -, -⟩ := s.drained_spec t d
  rw [State.reg_congr regs off]
  exact (State.addArrived_moves (s.setTile t (s.drainedTile t d)) t d.entry).2 off h k

end

end Sys2Proof.Machine
end

section
/-! SUPPORT. The delivery of a drained entry: its blocks in stage memory, and what a buffer, a chain hop or a strand's fault leaves alone
(R124, R148, R149, R172). -/

namespace Sys2Proof.Machine

/-! ### What a strand's fault leaves of the tiles and registers (R172) -/

/-- Two contents of a tile agree in what a stop of its sequence leaves: its drains, its entries and the words of its chain. -/
structure Tile.SameStore (x y : Tile) : Prop where
  drainQ  : y.drainQ = x.drainQ
  mant    : y.mant = x.mant
  chainIn : y.chainIn = x.chainIn

theorem Tile.SameStore.refl (x : Tile) : x.SameStore x := ⟨rfl, rfl, rfl⟩
theorem Tile.SameStore.trans {x y z : Tile} (h : x.SameStore y) (k : y.SameStore z) : x.SameStore z :=
  ⟨k.drainQ.trans h.drainQ, k.mant.trans h.mant, k.chainIn.trans h.chainIn⟩

/-- Between two states no tile's drains, entries or chain words moved. -/
def State.StoreKept (s u : State) : Prop := ∀ k, (s.tile k).SameStore (u.tile k)

theorem State.StoreKept.refl (s : State) : s.StoreKept s := fun _ => .refl _
theorem State.StoreKept.trans {s t u : State} (h : s.StoreKept t) (k : t.StoreKept u) : s.StoreKept u := fun n => (h n).trans (k n)
theorem State.StoreKept.of_tiles {s u : State} (h : u.tiles = s.tiles) : s.StoreKept u := fun k => by
  rw [State.tile_congr h]
  exact .refl _
theorem State.StoreKept.modTile (s : State) (t : Nat) (f : Tile → Tile) (h : (s.tile t).SameStore (f (s.tile t))) :
    s.StoreKept (s.modTile t f) := fun k => by
  unfold State.modTile
  rw [s.tile_setTile]
  split
  · next same => exact same ▸ h
  · exact .refl _
theorem State.StoreKept.foldl {α : Type} (f : State → α → State) (step : ∀ u x, State.StoreKept u (f u x)) (l : List α) (s : State) :
    s.StoreKept (l.foldl f s) := foldl_does State.StoreKept .refl (fun _ _ _ => .trans) f step l s

theorem State.stopSeq_store (s : State) (b : Nat) (c : Cls) : s.StoreKept (s.stopSeq b c) := by
  unfold State.stopSeq
  split
  · exact .refl s
  · refine State.StoreKept.trans (.of_tiles (State.modBay_tiles s b _)) (.foldl _ (fun u k => ?_) _ _)
    have dropped := State.StoreKept.foldl (fun u n => u.dropJob b n) (fun u n => .of_tiles (State.modBay_tiles u b _))
      (u.tile (4 * b + k)).discarded u
    exact dropped.trans (.modTile _ _ _ ⟨rfl, rfl, rfl⟩)

theorem State.strandFault_store (s : State) (b j code pc : Nat) : s.StoreKept (s.strandFault b j code pc) :=
  (s.stopSeq_store b _).trans (.of_tiles (s.strandFault_units b j code pc).1)

/-- The state with the registers that a strand's fault shows. -/
def State.showFault (s : State) (b j code pc : Nat) (c : Cls) : State :=
  ((((s.setFlag ((if c = .assured then BAY_SEQ_STAT.a_flt else BAY_SEQ_STAT.s_flt).on b) true).setFlag (BAY_FAULT.valid.on b) true).setFld
    (BAY_FAULT.strand.on b) j).setFld (BAY_FAULT.code.on b) code).setFld (BAY_FAULT.pc.on b) pc

theorem State.strandFault_regs (s : State) (b j code pc : Nat) {off : Nat} (h : off ≠ GLB_FLT_PTR.wr.off) :
    (s.strandFault b j code pc).reg off = (s.showFault b j code pc (s.strand b j).cls).reg off := by
  obtain ⟨y, t, stopped⟩ := s.stopSeq_moves b (s.strand b j).cls
  unfold State.strandFault
  dsimp only
  obtain ⟨-, -, -, -, -, -, raised⟩ := State.raise_spec
    (((((((s.stopSeq b (s.strand b j).cls).faultStrand b j code).setFlag
      ((if (s.strand b j).cls = .assured then BAY_SEQ_STAT.a_flt else BAY_SEQ_STAT.s_flt).on b) true).setFlag (BAY_FAULT.valid.on b) true).setFld
      (BAY_FAULT.strand.on b) j).setFld (BAY_FAULT.code.on b) code).setFld (BAY_FAULT.pc.on b) pc)
    { cls := 1, code := code, act := 3, score := s.bayScore b, unit := 64 * b + j, arg0 := pc }
  refine (raised off h).trans ?_
  rw [stopped]
  rfl

section
variable (s : State) (b j code pc : Nat)

/-- A strand's fault shows in registers of its bay. -/
theorem State.strandFault_reg_above {off : Nat} (h : 0x100020 + b * 0x10000 ≤ off) :
    (s.strandFault b j code pc).reg off = s.reg off := by
  have other : ∀ (u : State) (f : Fld) (n : Nat), f.off < 0x100020 → (u.setFld (f.on b) n).reg off = u.reg off := fun u f n low =>
    u.reg_setFld_other _ n off (by simp only [Fld.on]; omega)
  rw [s.strandFault_regs b j code pc (by simp only [GLB_FLT_PTR.wr]; omega)]
  unfold State.showFault State.setFlag
  rw [other _ BAY_FAULT.pc _ (by decide), other _ BAY_FAULT.code _ (by decide), other _ BAY_FAULT.strand _ (by decide),
    other _ BAY_FAULT.valid _ (by decide)]
  split
  · exact other _ BAY_SEQ_STAT.a_flt _ (by decide)
  · exact other _ BAY_SEQ_STAT.s_flt _ (by decide)

theorem State.strandFault_code (h : code < 16) : (s.strandFault b j code pc).fld (BAY_FAULT.code.on b) = code := by
  rw [State.fld_congr _ (s.strandFault_regs b j code pc (Fld.on_off_ne_below (by decide) b))]
  unfold State.showFault
  rw [State.fld_setFld_on_beside _ (f := BAY_FAULT.pc) (g := BAY_FAULT.code) (by decide) b (by decide),
    State.fld_setFld_on _ (f := BAY_FAULT.code) (by decide) b]
  exact Nat.mod_eq_of_lt h

end

/-! ### Blocks written one behind another (R124, R193, R194) -/

/-- Between two states stage memory moved, or a write was dropped. -/
def State.StageMoved (s u : State) : Prop :=
  ∃ g x r m n, u = { s with stage := g, faults := x, regs := r, cmd := { s.cmd with msix := m, sent := n } } ∧
    ∀ off, off ≠ GLB_FLT_PTR.wr.off → u.reg off = s.reg off

theorem State.StageMoved.refl (s : State) : s.StageMoved s := ⟨s.stage, s.faults, s.regs, s.cmd.msix, s.cmd.sent, rfl, fun _ _ => rfl⟩
theorem State.StageMoved.trans {s t u : State} (h : s.StageMoved t) (k : t.StageMoved u) : s.StageMoved u := by
  obtain ⟨g, x, r, m, n, rfl, regs⟩ := h
  obtain ⟨g', x', r', m', n', rfl, regs'⟩ := k
  exact ⟨g', x', r', m', n', rfl, fun off o => (regs' off o).trans (regs off o)⟩

theorem State.droppedWrite_moves (s : State) (q : Nat) (i : ScoreId) (a : Nat) : s.StageMoved (s.droppedWrite q i a) := by
  obtain ⟨x, r, m, n, e, -, regs⟩ := s.raise_spec { cls := 3, code := 3, score := i, unit := q, arg0 := a }
  exact ⟨s.stage, x, r, m, n, e, regs⟩

theorem State.droppedWrite_stage (s : State) (q : Nat) (i : ScoreId) (a : Nat) : (s.droppedWrite q i a).stage = s.stage :=
  Part.kept_raise .stage s _ (by decide) (by decide) (by decide)

theorem State.writeBlock_moves (s : State) (a : Nat) (x : Block) : s.StageMoved (s.writeBlock a x) := by
  obtain ⟨b, f, c, e⟩ := s.writeBlock_spec a x
  rw [e]
  exact ⟨_, s.faults, s.regs, s.cmd.msix, s.cmd.sent, rfl, fun _ _ => rfl⟩

theorem State.putBlock_moves (s : State) (q a : Nat) (x : Block) : s.StageMoved (s.putBlock q a x) := by
  unfold State.putBlock
  split
  · exact s.droppedWrite_moves q _ a
  · exact s.writeBlock_moves a x

theorem State.stageByte_putBlock_outside (s : State) (q a : Nat) (x : Block) {n : Nat} (h : n < a ∨ a + x.data.length ≤ n) :
    (s.putBlock q a x).stageByte n = s.stageByte n := by
  unfold State.putBlock
  split
  · unfold State.stageByte
    rw [s.droppedWrite_stage]
  · rw [s.stageByte_writeBlock, if_neg (by omega)]

theorem State.writeBlocks_moves (s : State) (a : Nat) (l : List Block) : s.StageMoved (s.writeBlocks a l) := by
  induction l generalizing s a with
  | nil => exact .refl s
  | cons x l ih => exact (s.putBlock_moves 0xFFFF a x).trans (ih _ (a + 64))

theorem State.stageByte_writeBlocks_outside (s : State) (a : Nat) (l : List Block) (short : ∀ x ∈ l, x.data.length ≤ 64) {n : Nat}
    (h : n < a ∨ a + 64 * l.length ≤ n) : (s.writeBlocks a l).stageByte n = s.stageByte n := by
  induction l generalizing s a with
  | nil => rfl
  | cons x l ih =>
    obtain ⟨head, rest⟩ := List.forall_mem_cons.1 short
    rw [List.length_cons] at h
    exact (ih _ (a + 64) rest (by omega)).trans (s.stageByte_putBlock_outside 0xFFFF a x (by omega))

theorem State.stageByte_writeBlocks_inside (s : State) (a : Nat) (l : List Block) (full : ∀ x ∈ l, x.data.length = 64)
    (none : ∀ k, s.holdsDesc (a + 64 * k) = false) {n : Nat} (h : a ≤ n ∧ n < a + 64 * l.length) :
    (s.writeBlocks a l).stageByte n = (l.flatMap (·.data)).getD (n - a) 0 := by
  induction l generalizing s a with
  | nil => exact absurd h.2 (by simp; omega)
  | cons x l ih =>
    obtain ⟨head, rest⟩ := List.forall_mem_cons.1 full
    have written : s.putBlock 0xFFFF a x = s.writeBlock a x := if_neg (by simpa using none 0)
    rw [List.length_cons] at h
    rw [State.writeBlocks, written, List.flatMap_cons]
    by_cases first : n < a + 64
    · rw [State.stageByte_writeBlocks_outside _ (a + 64) l (fun y m => (rest y m).le) (.inl first), s.stageByte_writeBlock,
        if_pos (by omega), List.getD_append _ _ _ _ (by omega)]
    · have later : ∀ k, (s.writeBlock a x).holdsDesc (a + 64 + 64 * k) = false := fun k => by
        obtain ⟨g, y, r, m, v, e, -⟩ := s.writeBlock_moves a x
        rw [e, show a + 64 + 64 * k = a + 64 * (k + 1) by omega]
        exact none (k + 1)
      rw [ih _ (a + 64) rest later (by omega), List.getD_append_right _ _ _ _ (by omega), head, show n - (a + 64) = n - a - 64 by omega]

/-! ### The blocks of a drained entry (R124) -/

/-- Pieces of 64 bytes put together again. -/
theorem flatMap_pieces (bs : List Byte) (n : Nat) : ((List.range n).flatMap fun i => (bs.drop (64 * i)).take 64) = bs.take (64 * n) := by
  induction n with
  | zero => rfl
  | succ n ih =>
    rw [List.range_succ, List.flatMap_append, ih, List.flatMap_singleton, ← List.take_add]
    rfl

/-- The bytes of an entry's converted rows. -/
def drainedBytes (l : List DrainedGroup) : List Byte := l.flatMap fun g => g.rows.flatMap (·.1)

theorem length_drainBlocks (fmt : Nat) (l : List DrainedGroup) : (drainBlocks fmt l).length = drainBytes fmt / 64 := by
  simp [drainBlocks]

theorem data_of_mem_drainBlocks {fmt : Nat} {l : List DrainedGroup} {x : Block} (m : x ∈ drainBlocks fmt l) :
    ∃ i, i < drainBytes fmt / 64 ∧ x.data = ((drainedBytes l).drop (64 * i)).take 64 := by
  obtain ⟨i, row, rfl⟩ := List.mem_map.1 m
  exact ⟨i, List.mem_range.1 row, rfl⟩

theorem flatMap_drainBlocks (fmt : Nat) (l : List DrainedGroup) :
    (drainBlocks fmt l).flatMap (·.data) = (drainedBytes l).take (64 * (drainBytes fmt / 64)) := by
  rw [← flatMap_pieces]
  exact List.flatMap_map _ _ _

theorem drainBytes_whole (fmt : Nat) : 64 * (drainBytes fmt / 64) = drainBytes fmt := by
  unfold drainBytes
  split_ifs <;> rfl

theorem length_convertRow {fmt : Nat} (h : fmt ≤ 4) (stoch : Bool) (k : Int) (g : GroupVal) (m : Int) (r : Nat) :
    (convertRow fmt stoch k g m r).1.length = drainBytes fmt / 512 := by
  unfold convertRow drainBytes
  interval_cases fmt <;> exact leBytes_length _ _

/-- A drained entry has the bytes of its format. -/
theorem State.length_drainedBytes (s : State) (t : Nat) (d : Drain) (h : d.fmt.toNat ≤ 4) :
    (drainedBytes (s.drainedGroups t d)).length = drainBytes d.fmt.toNat := by
  have whole : 32 * (16 * (drainBytes d.fmt.toNat / 512)) = drainBytes d.fmt.toNat := by
    unfold drainBytes
    split_ifs <;> rfl
  rw [drainedBytes, length_flatMap_const _ _ (16 * (drainBytes d.fmt.toNat / 512)), State.drainedGroups, List.length_map, List.length_range,
    whole]
  intro z listed
  obtain ⟨g, -, rfl⟩ := List.mem_map.1 listed
  unfold drainGroup
  dsimp only
  rw [length_flatMap_const _ _ (drainBytes d.fmt.toNat / 512), List.length_map, List.length_range]
  intro row from_
  obtain ⟨i, -, rfl⟩ := List.mem_map.1 from_
  exact length_convertRow h _ _ _ _ _

section
variable (s u : State) (t : Nat) (d : Drain)

theorem State.drainBlocks_outside {n : Nat} (h : n < d.addr ∨ d.addr + drainBytes d.fmt.toNat ≤ n) :
    (u.writeBlocks d.addr (drainBlocks d.fmt.toNat (s.drainedGroups t d))).stageByte n = u.stageByte n := by
  refine u.stageByte_writeBlocks_outside d.addr _ (fun x m => ?_) ?_
  · obtain ⟨i, -, data⟩ := data_of_mem_drainBlocks m
    rw [data]
    exact List.length_take_le _ _
  · rw [length_drainBlocks, drainBytes_whole]
    exact h

/-- A drained entry stands in stage memory as its rows were converted. -/
theorem State.drainBlocks_inside (h : d.fmt.toNat ≤ 4) (none : ∀ k, u.holdsDesc (d.addr + 64 * k) = false) :
    (u.writeBlocks d.addr (drainBlocks d.fmt.toNat (s.drainedGroups t d))).stageBytesAt d.addr (drainBytes d.fmt.toNat) =
      drainedBytes (s.drainedGroups t d) := by
  have bytes := s.length_drainedBytes t d h
  have full : ∀ x ∈ drainBlocks d.fmt.toNat (s.drainedGroups t d), x.data.length = 64 := fun x m => by
    obtain ⟨i, low, data⟩ := data_of_mem_drainBlocks m
    have whole := drainBytes_whole d.fmt.toNat
    rw [data, List.length_take, List.length_drop, bytes]
    omega
  have all : (drainBlocks d.fmt.toNat (s.drainedGroups t d)).flatMap (·.data) = drainedBytes (s.drainedGroups t d) := by
    rw [flatMap_drainBlocks, drainBytes_whole, ← bytes, List.take_length]
  rw [← bytes]
  refine State.stageBytesAt_eq _ d.addr _ fun n inside => ?_
  rw [bytes] at inside
  rw [u.stageByte_writeBlocks_inside d.addr _ full none (by rw [length_drainBlocks, drainBytes_whole]; exact inside), all]

end

end Sys2Proof.Machine
end

section
/-! SUPPORT. DRAIN_READ_END: the state that the read of an entry leaves (R105, R124, R127, R128, R148, R163, R262). -/

namespace Sys2Proof.Machine

/-! ### The destinations of a drain (R148, R149) -/

/-- Between two states tiles kept what a stop leaves, and the registers from the tiles' on stand as they did. -/
def State.Delivered (s u : State) : Prop := s.StoreKept u ∧ ∀ off, 0x200000 ≤ off → u.reg off = s.reg off

theorem State.Delivered.refl (s : State) : s.Delivered s := ⟨.refl s, fun _ _ => rfl⟩
theorem State.Delivered.trans {s t u : State} (h : s.Delivered t) (k : t.Delivered u) : s.Delivered u :=
  ⟨h.1.trans k.1, fun off o => (k.2 off o).trans (h.2 off o)⟩
theorem State.StageMoved.delivered {s u : State} (h : s.StageMoved u) : s.Delivered u := by
  obtain ⟨g, x, r, m, n, rfl, regs⟩ := h
  exact ⟨.of_tiles rfl, fun off o => regs off (by simp only [GLB_FLT_PTR.wr]; omega)⟩

theorem State.bufArrive_delivered (s : State) (n res : Nat) (b : Block) : s.Delivered (s.bufArrive n res b) := by
  unfold State.bufArrive
  extract_lets v s1 y
  refine State.Delivered.trans (t := s1) (s.putBlock_moves 0xFFFF _ b).delivered ?_
  split
  · exact ⟨.of_tiles rfl, fun _ _ => rfl⟩
  · exact ⟨.of_tiles rfl, fun _ _ => rfl⟩

theorem State.bufPut_delivered (s : State) (n : Nat) (l : List Block) : s.Delivered (s.bufPut n l) :=
  foldl_does State.Delivered .refl (fun _ _ _ => .trans) _ (fun u b => u.bufArrive_delivered n 0 b) l s

theorem State.strandFault_delivered (s : State) {b : Nat} (h : b < 16) (j code pc : Nat) : s.Delivered (s.strandFault b j code pc) :=
  ⟨s.strandFault_store b j code pc, fun _ o => s.strandFault_reg_above b j code pc (by omega)⟩

theorem State.sendHop_spec (s : State) (t e : Nat) (l : List Block) : ∃ f, s.sendHop t e l = { s with fab := f } := by
  unfold State.sendHop
  split
  · exact ⟨s.fab, rfl⟩
  · exact ⟨_, rfl⟩

theorem State.deliverDrain_delivered (s : State) {t : Nat} (h : t < 32) (d : Drain) (l : List Block) : s.Delivered (s.deliverDrain t d l) := by
  unfold State.deliverDrain
  extract_lets j
  split
  · exact (s.writeBlocks_moves d.addr l).delivered
  · split
    · split
      · exact s.bufPut_delivered _ l
      · exact s.strandFault_delivered (by omega) d.strand 14 _
    · obtain ⟨f, e⟩ := s.sendHop_spec t d.entry l
      rw [e]
      exact ⟨.of_tiles rfl, fun _ _ => rfl⟩

theorem State.deliverDrain_stage (s : State) (t : Nat) {d : Drain} (h : d.dst = 0) (l : List Block) :
    s.deliverDrain t d l = s.writeBlocks d.addr l := by
  unfold State.deliverDrain
  exact if_pos h

theorem State.deliverDrain_hop (s : State) (t : Nat) {d : Drain} (h : d.dst = 2) (l : List Block) : (s.deliverDrain t d l).stage = s.stage := by
  unfold State.deliverDrain
  extract_lets j
  rw [if_neg (by rw [h]; decide), if_neg (by rw [h]; decide)]
  obtain ⟨f, e⟩ := s.sendHop_spec t d.entry l
  rw [e]

theorem State.jobDone_stage (s : State) (b n : Nat) : (s.jobDone b n).stage = s.stage := by
  obtain ⟨y, c, x, g, m, v, e, -, -⟩ := s.jobDone_spec b n
  rw [e]

/-! ### The state that a read leaves -/

/-- The state in which an entry that has been read stands at its destination. -/
def State.drainDelivered (s : State) (t : Nat) (d : Drain) : State :=
  (s.drained t d).deliverDrain t d (drainBlocks d.fmt.toNat (s.drainedGroups t d))

/-- The state after the read of an entry, the last one of a drain or not. -/
def State.drainEnded (s : State) (t : Nat) (d : Drain) : State :=
  if d.left ≤ 1 then ((s.drainDelivered t d).bump (TILE_DRAIN_STAT.count.on t)).jobDone (t / 4) d.job else s.drainDelivered t d

section
variable (s : State) {t : Nat} (tile : t < 32) (d : Drain)

theorem State.drainEnded_units :
    (s.drainEnded t d).tiles = (s.drainDelivered t d).tiles ∧ (s.drainEnded t d).stage = (s.drainDelivered t d).stage := by
  unfold State.drainEnded
  generalize s.drainDelivered t d = u
  split
  · exact ⟨(State.jobDone_tiles _ _ _).trans (u.bump_tiles _ _), (State.jobDone_stage _ _ _).trans (u.bump_stage _ _)⟩
  · exact ⟨rfl, rfl⟩

/-- The last read counts the drain. -/
theorem State.drainEnded_counts (last : d.left ≤ 1) {n : Nat} (h : (s.drainDelivered t d).fld (TILE_DRAIN_STAT.count.on t) = n) :
    (s.drainEnded t d).fld (TILE_DRAIN_STAT.count.on t) = min (n + 1) 65535 := by
  unfold State.drainEnded
  rw [if_pos last, State.fld_congr _ (State.jobDone_reg _ _ _ (Fld.on_off_ne_below (by decide) t)),
    State.fld_bump_on _ (f := TILE_DRAIN_STAT.count) (by decide) t (by decide), h]

section
include tile

theorem State.drainEnded_store : ((s.drained t d).tile t).SameStore ((s.drainEnded t d).tile t) := by
  rw [State.tile_congr (s.drainEnded_units d).1]
  exact (State.deliverDrain_delivered (s.drained t d) tile d _).1 t

theorem State.drainDelivered_count :
    (s.drainDelivered t d).fld (TILE_DRAIN_STAT.count.on t) = s.fld (TILE_DRAIN_STAT.count.on t) := by
  have kept := (State.deliverDrain_delivered (s.drained t d) tile d (drainBlocks d.fmt.toNat (s.drainedGroups t d))).2
  refine State.fld_congr _ ((kept _ ?_).trans (s.drained_reg t d ?_ ?_))
  · simp only [Fld.on, TILE_DRAIN_STAT.count]
    omega
  · exact Fld.on_off_ne_on (by decide) t
  · exact Fld.on_off_ne_on (by decide) t

end

/-- A drain to stage memory writes its rows in its own range alone. -/
theorem State.drainEnded_stage (h : d.dst = 0) :
    (∀ a, (a < d.addr ∨ d.addr + drainBytes d.fmt.toNat ≤ a) → (s.drainEnded t d).stageByte a = s.stageByte a) ∧
      (d.fmt.toNat ≤ 4 → (∀ k, s.holdsDesc (d.addr + 64 * k) = false) →
        (s.drainEnded t d).stageBytesAt d.addr (drainBytes d.fmt.toNat) = drainedBytes (s.drainedGroups t d)) := by
  obtain ⟨stage, scores⟩ := s.drained_keeps t d
  have written : (s.drainEnded t d).stage =
      ((s.drained t d).writeBlocks d.addr (drainBlocks d.fmt.toNat (s.drainedGroups t d))).stage := by
    rw [(s.drainEnded_units d).2, State.drainDelivered, State.deliverDrain_stage _ t h]
  have byte (n : Nat) : (s.drainEnded t d).stageByte n =
      ((s.drained t d).writeBlocks d.addr (drainBlocks d.fmt.toNat (s.drainedGroups t d))).stageByte n := by
    unfold State.stageByte
    rw [written]
  have before (n : Nat) : (s.drained t d).stageByte n = s.stageByte n := by
    unfold State.stageByte
    rw [stage]
  have regions (n : Nat) : (s.drained t d).holdsDesc n = s.holdsDesc n := by
    unfold State.holdsDesc State.score State.granScore
    rw [scores]
  refine ⟨fun a out => ?_, fun fmt none => ?_⟩
  · rw [byte, s.drainBlocks_outside _ t d out, before]
  · unfold State.stageBytesAt
    rw [List.map_congr_left fun i _ => byte (d.addr + i)]
    exact s.drainBlocks_inside _ t d fmt fun k => (regions _).trans (none k)

theorem State.drainEnded_hop (h : d.dst = 2) : (s.drainEnded t d).stage = s.stage := by
  rw [(s.drainEnded_units d).2, State.drainDelivered, State.deliverDrain_hop _ t h, (s.drained_keeps t d).1]

end

/-! ### DRAIN_READ_END (R128, R163, R262) -/

theorem exec_drainReadEnd (s : State) (t : TileId) :
    exec (.drainReadEnd t) s = .next (if s.grantsOpt s.claims (s.drainClaim t) then (s.grantTo (s.drainClaim t)).drainReadEnd t else s) := rfl

section
variable (s : State) {t : TileId} {d : Drain} {q : List Drain} (first : (s.tile t).drainQ = d :: q)
include first

theorem exec_drainReadEnd_waits
    (h : d.released = false ∨ (s.bay (t / 4)).paused = true ∨ s.drainRoom t d = false ∨ s.grantsOpt s.claims (s.drainClaim t) = false) :
    exec (.drainReadEnd t) s = .next s := by
  rw [exec_drainReadEnd]
  by_cases granted : s.grantsOpt s.claims (s.drainClaim t) = true
  · have blocked : d.released = false ∨ (s.bay (t / 4)).paused = true ∨ s.drainRoom t d = false := by
      refine h.imp_right fun k => k.imp_right fun k => k.resolve_right ?_
      rw [granted]
      exact Bool.false_ne_true.symm
    have unclaimed : s.drainClaim t = none := by
      unfold State.drainClaim
      rw [first]
      exact if_neg (by rcases blocked with k | k | k <;> simp [k])
    have waits : s.drainReadEnd t = s := by
      unfold State.drainReadEnd
      rw [first]
      exact if_pos (by rcases blocked with k | k | k <;> simp [k])
    rw [if_pos granted, unclaimed]
    exact congrArg Host.Outcome.next waits
  · rw [if_neg granted]

theorem State.drainReadEnd_eq (released : d.released = true) (runs : (s.bay (t / 4)).paused = false) (room : s.drainRoom t d = true) :
    s.drainReadEnd t = s.drainEnded t d := by
  unfold State.drainReadEnd
  rw [first]
  dsimp only
  rw [released, runs, room, if_neg (by decide)]
  rfl

theorem exec_drainReadEnd_reads (released : d.released = true) (runs : (s.bay (t / 4)).paused = false) (room : s.drainRoom t d = true)
    (granted : s.grantsOpt s.claims (s.drainClaim t) = true) :
    ∃ a, exec (.drainReadEnd t) s = .next (State.drainEnded { s with arb := a } t d) := by
  obtain ⟨a, arb⟩ := s.grantTo_spec (s.drainClaim t)
  refine ⟨a, ?_⟩
  rw [exec_drainReadEnd, if_pos granted, arb]
  exact congrArg Host.Outcome.next (State.drainReadEnd_eq { s with arb := a } first released runs room)

end

/-- Settles O7: the release, and the read by its place in the drain and by its destination. -/
theorem drainsReadTheirEntry : Obligations.DrainsReadTheirEntry := by
  intro s t d q first
  refine ⟨fun new runs clear gen none => ⟨_, rfl, s.drainRelease_releases first new runs clear gen none⟩,
    fun waits => congrArg Host.Outcome.next (s.drainRelease_waits first waits), exec_drainReadEnd_waits s first,
    fun released runs room granted => ?_⟩
  obtain ⟨a, reads⟩ := exec_drainReadEnd_reads s first released runs room granted
  have store := State.drainEnded_store { s with arb := a } t.isLt d
  have queue : ((State.drainEnded { s with arb := a } t d).tile t).drainQ = if d.left ≤ 1 then q else d.rest :: q :=
    store.drainQ.trans (State.drained_queue _ t d first)
  refine ⟨fun last => ⟨_, reads, queue.trans (if_pos last), ?count⟩,
    fun more => ⟨_, reads, d.rest, queue.trans (if_neg (by omega)), rfl, rfl, rfl⟩,
    _, reads, fun clears final r row => ?cleared, State.drainEnded_stage { s with arb := a } d, State.drainEnded_hop { s with arb := a } d⟩
  case count => exact State.drainEnded_counts _ d last (State.drainDelivered_count { s with arb := a } t.isLt d)
  case cleared =>
    rw [store.mant]
    exact State.drained_cleared { s with arb := a } t d clears final row

end Sys2Proof.Machine
end

section
/-! SUPPORT. Chains: the steps of a chain word, the change of a tile's chain configuration, and the remote entry that does not come (R111,
R117 to R121, R146, R147). -/

namespace Sys2Proof.Machine

/-! ### Hops (R111, R118) -/

theorem nextTile_ne (t : Nat) : nextTile t ≠ t := by
  unfold nextTile
  omega

/-- The steps of a hop: the own group joins the groups of a word. -/
def State.hopSteps (s : State) (t : Nat) (olds : List GroupVal) (g : Group) : List GroupStep :=
  groupSteps olds g.p g.e g.marks (List.replicate 32 false) (genNext (s.tile t).hop) (hopKey t)

/-- The word that a hop gives. -/
def State.hopWord (s : State) (t : Nat) (olds : List GroupVal) (oldMarks : List (Option CMark)) (g : Group) : ChainWord :=
  stepsWord (s.chainHead t) (s.chainLen t) g.inst (s.hopSteps t olds g) oldMarks g.marks

/-- A tile whose own group has joined a word. -/
def Tile.hopped (x : Tile) : Tile := { x with hop := genNext x.hop, ownQ := x.ownQ.drop 1 }

/-- The update of a chain's end tile. -/
def Group.endUpdate (g : Group) (w : ChainWord) : Update :=
  ⟨g.gid, g.stamp, g.entry, true, w.m, (List.range 512).map fun r => w.e.getD (r / 16) 0, w.marks, w.ovfs, g.jobs, g.gen, g.inst⟩

section
variable (s : State) (t : Nat) (olds : List GroupVal) (oldMarks : List (Option CMark)) (g : Group)

/-- The word passes on in a state where only counts of the tile's updates have moved besides the tile. -/
theorem State.hop_eq :
    ∃ u, s.hop t olds oldMarks g = State.passWord u t (s.hopWord t olds oldMarks g) g ∧ u.tiles = (s.setTile t (s.tile t).hopped).tiles ∧
      ∀ off, off ≠ (TILE_PEW_STAT.raises.on t).off → off ≠ (TILE_PEW_LAST.valid.on t).off → u.reg off = s.reg off := by
  unfold State.hop
  extract_lets x gen l w s1
  refine ⟨_, rfl, ?_, ?_⟩
  · refine (State.CountsMoved.foldl _ (fun u i => ?_) _ s1).tiles
    split
    · exact .ite (.ite (u.showSat_counts t g.entry i 1) ((u.showSat_counts t g.entry i 1).trans (.countMark _ 2 1))) (.refl u)
    · exact .refl u
  · refine (State.PewterMoved.foldl t _ (fun u i => ?_) _ s1).2
    split
    · exact .ite (fun _ => .ite (fun _ => u.showSat_moves t g.entry i 1)
        fun _ => (u.showSat_moves t g.entry i 1).trans (.countMark t _ 2 1)) fun _ => .refl t u
    · exact .refl t u

variable {s t}

theorem State.passWord_end (u : State) (w : ChainWord) (h : u.chainEnd t = true) :
    u.passWord t w g = u.modTile t fun x => { x with updQ := x.updQ ++ [g.endUpdate w] } := if_pos h

theorem State.passWord_next (u : State) (w : ChainWord) (h : u.chainEnd t = false) (cross : u.mayCross t (nextTile t) = true) :
    (u.passWord t w g).tiles = (u.modTile (nextTile t) fun x => { x with chainIn := x.chainIn ++ [w] }).tiles := by
  unfold State.passWord
  rw [h, cross, if_neg Bool.false_ne_true, if_neg (by decide)]
  exact State.jobsDone_tiles _ _ _

/-- The chain's registers and the bays' scores lie apart from the counts of a tile's updates. -/
theorem State.chainEnd_congr {u : State}
    (h : ∀ off, off ≠ (TILE_PEW_STAT.raises.on t).off → off ≠ (TILE_PEW_LAST.valid.on t).off → u.reg off = s.reg off) :
    u.chainEnd t = s.chainEnd t := by
  have config := h (TILE_CHAIN_CFG.act.on t).off (Fld.on_off_ne_on (by decide) t) (Fld.on_off_ne_on (by decide) t)
  unfold State.chainEnd State.chainAct State.chainPos State.chainLen
  rw [State.flag_congr (TILE_CHAIN_CFG.act.on t) config, State.fld_congr (TILE_CHAIN_CFG.pos.on t) config,
    State.fld_congr (TILE_CHAIN_CFG.len.on t) config]

theorem State.mayCross_congr {u : State}
    (h : ∀ off, off ≠ (TILE_PEW_STAT.raises.on t).off → off ≠ (TILE_PEW_LAST.valid.on t).off → u.reg off = s.reg off) {a b : Nat}
    (low : a < 32) (low' : b < 32) : u.mayCross a b = s.mayCross a b := by
  have owner : ∀ c, c < 8 → u.bayScore c = s.bayScore c := fun c small => by
    unfold State.bayScore
    rw [State.fld_congr (GLB_BAY_OWNER.score.nth c) (h _ ?_ ?_)]
    all_goals
      simp only [Fld.on, Fld.nth, GLB_BAY_OWNER.score, TILE_PEW_STAT.raises, TILE_PEW_LAST.valid]
      omega
  unfold State.mayCross
  rw [owner _ (by omega), owner _ (by omega)]

/-- A hop before the end of its chain. -/
theorem State.hop_passes (low : t < 32) (inner : s.chainEnd t = false) (cross : s.mayCross t (nextTile t) = true) :
    (s.hop t olds oldMarks g).tile t = (s.tile t).hopped ∧
      ((s.hop t olds oldMarks g).tile (nextTile t)).chainIn = (s.tile (nextTile t)).chainIn ++ [s.hopWord t olds oldMarks g] := by
  obtain ⟨u, e, tiles, regs⟩ := s.hop_eq t olds oldMarks g
  have next := nextTile_ne t
  have small : nextTile t < 32 := Nat.mod_lt _ (by decide)
  have passed := u.passWord_next g (s.hopWord t olds oldMarks g) ((State.chainEnd_congr regs).trans inner)
    ((State.mayCross_congr regs low small).trans cross)
  rw [e, State.tile_congr passed, State.tile_congr passed, State.modTile, State.tile_setTile, State.tile_setTile_same,
    if_neg next.symm, State.tile_congr tiles, State.tile_congr tiles, State.tile_setTile_same, State.tile_setTile, if_neg next]
  exact ⟨rfl, rfl⟩

/-- A hop at the end of its chain. -/
theorem State.hop_ends (last : s.chainEnd t = true) :
    (s.hop t olds oldMarks g).tile t =
      { (s.tile t).hopped with updQ := (s.tile t).updQ ++ [g.endUpdate (s.hopWord t olds oldMarks g)] } := by
  obtain ⟨u, e, tiles, regs⟩ := s.hop_eq t olds oldMarks g
  rw [e, u.passWord_end g _ ((State.chainEnd_congr regs).trans last), State.tile_modTile_same, State.tile_congr tiles,
    State.tile_setTile_same]
  rfl

end

/-! ### CHAIN_STEP (R118, R119, R147) -/

section
variable (s : State) (t : Nat)

theorem State.chainStep_idle (empty : (s.tile t).chainIn = []) (own : (s.tile t).ownQ = []) : s.chainStep t = s := by
  unfold State.chainStep
  dsimp only
  rw [empty, own]

theorem State.chainStep_head {g : Group} {rest : List Group} (empty : (s.tile t).chainIn = []) (own : (s.tile t).ownQ = g :: rest)
    (act : s.chainAct t = true) (pos : s.chainPos t = 0) (room : (s.tile (nextTile t)).chainIn.length < 8)
    (remote : s.compat = true ∨ s.remotePending t g.entry g.stamp = false) :
    s.chainStep t = s.hop t (List.replicate 32 GroupVal.cleared) (List.replicate 32 none) g := by
  unfold State.chainStep
  dsimp only
  rw [empty, own]
  refine if_pos ?_
  rcases remote with compat | free
  · simp [act, pos, room, compat]
  · simp [act, pos, room, free]

theorem State.chainStep_joins {w : ChainWord} {g : Group} {rest : List ChainWord} {own : List Group} (word : (s.tile t).chainIn = w :: rest)
    (queue : (s.tile t).ownQ = g :: own) (act : s.chainAct t = true) (head : w.head = s.chainHead t) (len : w.len = s.chainLen t)
    (room : s.chainEnd t = true ∨ (s.tile (nextTile t)).chainIn.length < 8) :
    s.chainStep t = (s.setTile t { s.tile t with chainIn := rest }).hop t w.vals w.marks g := by
  have free : ¬(!s.chainEnd t && decide (8 ≤ (s.tile (nextTile t)).chainIn.length)) = true := by
    rcases room with last | room
    · simp [last]
    · simp [room]
  unfold State.chainStep
  dsimp only
  rw [word, queue]
  dsimp only
  rw [if_neg (by simp [act, head, len]), if_neg free]

theorem State.chainStep_mismatch {w : ChainWord} {rest : List ChainWord} (word : (s.tile t).chainIn = w :: rest)
    (other : s.chainAct t = false ∨ w.head ≠ s.chainHead t ∨ w.len ≠ s.chainLen t) : s.chainStep t = s.chainMismatch t := by
  unfold State.chainStep
  dsimp only
  rw [word]
  refine if_pos ?_
  rcases other with k | k | k <;> simp [k]

/-- A word of another configuration leaves, and faults the sequence that holds the tile. -/
theorem State.chainMismatch_spec :
    ((s.chainMismatch t).tile t).chainIn = (s.tile t).chainIn.drop 1 ∧
      ∀ r, s.holder t = some r → (s.chainMismatch t).fld (BAY_FAULT.code.on (t / 4)) = 9 := by
  have left : ((s.modTile t fun x => { x with chainIn := x.chainIn.drop 1 }).tile t).chainIn = (s.tile t).chainIn.drop 1 :=
    congrArg Tile.chainIn (s.tile_modTile_same t _)
  have same : (s.modTile t fun x => { x with chainIn := x.chainIn.drop 1 }).holder t = s.holder t := rfl
  unfold State.chainMismatch
  extract_lets s1
  rw [show s1.holder t = s.holder t from same]
  cases s.holder t with
  | none => exact ⟨left, nofun⟩
  | some r => exact ⟨(s1.strandFault_store _ _ 9 _ t).chainIn.trans left, fun _ _ => s1.strandFault_code _ _ 9 _ (by decide)⟩

end

/-! ### Fields of one register, set one after another -/

/-- Fields of a replicated register set to numbers. -/
def State.setFlds (s : State) (t : Nat) (l : List (Fld × Nat)) : State := l.foldl (fun u p => u.setFld (p.1.on t) p.2) s

theorem State.fld_setFlds_beside (s : State) (t : Nat) {f : Fld} (l : List (Fld × Nat)) (h : ∀ p ∈ l, p.1.Fits ∧ p.1.Beside f) :
    (s.setFlds t l).fld (f.on t) = s.fld (f.on t) := by
  induction l generalizing s with
  | nil => rfl
  | cons p l ih =>
    obtain ⟨⟨fits, apart⟩, rest⟩ := List.forall_mem_cons.1 h
    exact (ih _ rest).trans (s.fld_setFld_on_beside fits t apart p.2)

/-- Fields that lie beside each other each read as they were set. -/
theorem State.fld_setFlds (s : State) (t : Nat) {l : List (Fld × Nat)} (fits : ∀ p ∈ l, p.1.Fits)
    (apart : l.Pairwise fun p q => q.1.Beside p.1) {p : Fld × Nat} (m : p ∈ l) :
    (s.setFlds t l).fld (p.1.on t) = p.2 % 2 ^ (p.1.hi - p.1.lo + 1) := by
  obtain ⟨before, after, rfl⟩ := List.append_of_mem m
  have later := List.pairwise_cons.1 (List.pairwise_append.1 apart).2.1
  have set : s.setFlds t (before ++ p :: after) = ((s.setFlds t before).setFld (p.1.on t) p.2).setFlds t after := by
    unfold State.setFlds
    rw [List.foldl_append, List.foldl_cons]
  rw [set, State.fld_setFlds_beside _ t after fun q n => ⟨fits q (by simp [n]), later.1 q n⟩]
  exact State.fld_setFld_on _ (fits p m) t p.2

/-! ### CHAIN_CONFIGURATION_CHANGE (R117, R146) -/

/-- The fields of a chain configuration that a CCF puts in force. -/
def chainFields (t head len : Nat) (rin rout : Bool) (tmo : Byte) : List (Fld × Nat) :=
  let pos := (t + 32 - head) % 32
  [(TILE_CHAIN_CFG.act, 1), (TILE_CHAIN_CFG.rin, (rin && pos == 0).toNat), (TILE_CHAIN_CFG.rout, (rout && pos + 1 == len).toNat),
    (TILE_CHAIN_CFG.len, len - 1), (TILE_CHAIN_CFG.pos, pos), (TILE_CHAIN_CFG.head, head), (TILE_CHAIN_CFG.tmo, tmo.toNat)]

theorem chainFields_names (t head len : Nat) (rin rout : Bool) (tmo : Byte) :
    (chainFields t head len rin rout tmo).map Prod.fst =
      [TILE_CHAIN_CFG.act, TILE_CHAIN_CFG.rin, TILE_CHAIN_CFG.rout, TILE_CHAIN_CFG.len, TILE_CHAIN_CFG.pos, TILE_CHAIN_CFG.head,
        TILE_CHAIN_CFG.tmo] := rfl

theorem chainFields_place {t head len : Nat} {rin rout : Bool} {tmo : Byte} {p : Fld × Nat} (m : p ∈ chainFields t head len rin rout tmo) :
    p.1.Fits ∧ p.1.off = TILE_CHAIN_CFG.act.off := by
  have each : ∀ f ∈ (chainFields t head len rin rout tmo).map Prod.fst, f.Fits ∧ f.off = TILE_CHAIN_CFG.act.off := by
    rw [chainFields_names]
    decide
  exact each p.1 (List.mem_map_of_mem m)

theorem State.fld_chainFields (s : State) {t head len : Nat} {rin rout : Bool} {tmo : Byte} {p : Fld × Nat}
    (m : p ∈ chainFields t head len rin rout tmo) :
    (s.setFlds t (chainFields t head len rin rout tmo)).fld (p.1.on t) = p.2 % 2 ^ (p.1.hi - p.1.lo + 1) := by
  have apart : ((chainFields t head len rin rout tmo).map Prod.fst).Pairwise fun f g => g.Beside f := by
    rw [chainFields_names]
    decide
  exact s.fld_setFlds t (fun q n => (chainFields_place n).1) (List.pairwise_map.1 apart) m

theorem State.configureChain_takes (s : State) (t head len : Nat) (rin rout : Bool) (tmo : Byte) (wgr : BitVec 6) :
    s.configureChain t head len rin rout false tmo wgr =
      (s.setFlds t (chainFields t head len rin rout tmo)).modTile t fun x =>
        { x.dropRounds with wgr := wgr, inst := s.nextInst t head len } := by
  unfold State.configureChain
  extract_lets off pos s1 s2
  rw [if_neg Bool.false_ne_true]
  rfl

theorem State.configureChain_gives (s : State) {t head len : Nat} (rin rout : Bool) (tmo : Byte) (wgr : BitVec 6)
    (h : s.chainAct t = true ∧ s.chainHead t = head ∧ s.chainLen t = len) :
    s.configureChain t head len rin rout true tmo wgr =
      (s.setReg (TILE_CHAIN_CFG.act.on t).off (regReset (TILE_CHAIN_CFG.act.on t).off)).modTile t fun x => { x with remote := [] } := by
  unfold State.configureChain
  extract_lets off pos s1 s2
  rw [if_pos rfl, if_pos h]

theorem State.configureChain_other (s : State) {t head len : Nat} (rin rout : Bool) (tmo : Byte) (wgr : BitVec 6)
    (h : ¬(s.chainAct t = true ∧ s.chainHead t = head ∧ s.chainLen t = len)) :
    s.configureChain t head len rin rout true tmo wgr = s := by
  unfold State.configureChain
  extract_lets off pos s1 s2
  rw [if_pos rfl, if_neg h]

/-- At reset a tile stands in no chain. -/
theorem regReset_chain : ∀ t : TileId, bits (regReset (TILE_CHAIN_CFG.act.on t).off).toNat 31 31 = 0 := by decide

theorem Tile.admitHeld_wgr (x : Tile) : x.admitHeld.wgr = x.wgr := by
  unfold Tile.admitHeld
  extract_lets x1
  have first : x1.wgr = x.wgr := by
    unfold x1
    split
    · rfl
    · rfl
  split
  · exact first
  · exact first

theorem State.settle_wgr (s : State) (t : Nat) : ((s.settle t).tile t).wgr = (s.tile t).wgr := by
  rw [s.tile_settle]
  exact (s.tile t).admitHeld_wgr

/-- A settled tile shows the chain configuration that stood. -/
theorem State.settle_chain (s : State) (t : Nat) {off : Nat} (h : off = (TILE_CHAIN_CFG.act.on t).off) : (s.settle t).reg off = s.reg off := by
  refine s.settle_reg t ?_
  rw [h]
  simp only [Fld.on, TILE_CHAIN_CFG.act, scaleOff]
  omega

/-- A tile whose CCF has come to take effect. -/
def Tile.ccfTaken (x : Tile) (rest : List WinEntry) : Tile :=
  Tile.form { x with winQ := rest, groups := x.groups.map fun g => { g with closed := true } }

section
variable (s : State) {t st head len : Nat} {rin rout dis : Bool} {tmo : Byte} {wgr : BitVec 6} {rest : List WinEntry}
  (first : (s.tile t).winQ = .ccf st head len rin rout dis tmo wgr :: rest)
include first

theorem State.chainChange_waits (h : s.chainIdle t = false ∨ (s.bay (t / 4)).paused = true) : s.chainChange t = s := by
  unfold State.chainChange
  dsimp only
  rw [first]
  exact if_neg (by rcases h with k | k <;> simp [k])

theorem State.chainChange_eq (idle : s.chainIdle t = true) (runs : (s.bay (t / 4)).paused = false) :
    s.chainChange t =
      ((s.setTile t ((s.tile t).ccfTaken rest)).configureChain t head len rin rout dis tmo wgr).settle t := by
  unfold State.chainChange
  dsimp only
  rw [first]
  exact if_pos (by simp [idle, runs])

end

/-- A state whose TILE_CHAIN_CFG holds a configuration shows it. -/
theorem State.chain_of_fields {u : State} {t head len : Nat} {rin rout : Bool} {tmo : Byte}
    (shows : ∀ p ∈ chainFields t head len rin rout tmo, u.fld (p.1.on t) = p.2 % 2 ^ (p.1.hi - p.1.lo + 1)) (low : head < 32)
    (one : 1 ≤ len) (most : len ≤ 32) :
    u.chainAct t = true ∧ u.chainHead t = head ∧ u.chainLen t = len ∧ u.chainPos t = (t + 32 - head) % 32 ∧
      u.fld (TILE_CHAIN_CFG.tmo.on t) = tmo.toNat ∧ u.flag (TILE_CHAIN_CFG.rin.on t) = (rin && (t + 32 - head) % 32 == 0) ∧
      u.flag (TILE_CHAIN_CFG.rout.on t) = (rout && (t + 32 - head) % 32 + 1 == len) := by
  have bit (b : Bool) : (b.toNat % 2 ^ 1 != 0) = b := by
    cases b with
    | true => rfl
    | false => rfl
  simp only [chainFields, List.forall_mem_cons] at shows
  obtain ⟨act, rinBit, routBit, length, place, start, timeout, -⟩ := shows
  have short : (len - 1) % 32 + 1 = len := by omega
  exact ⟨congrArg (· != 0) act, start.trans (Nat.mod_eq_of_lt low), (congrArg (· + 1) length).trans short, place.trans (Nat.mod_mod _ 32),
    timeout.trans (Nat.mod_eq_of_lt tmo.isLt), (congrArg (· != 0) rinBit).trans (bit _), (congrArg (· != 0) routBit).trans (bit _)⟩

section
variable (s : State) (t : TileId) {head len : Nat} (rin rout : Bool) (tmo : Byte) (wgr : BitVec 6)

theorem State.fld_configured {p : Fld × Nat} (m : p ∈ chainFields t head len rin rout tmo) :
    ((s.configureChain t head len rin rout false tmo wgr).settle t).fld (p.1.on t) = p.2 % 2 ^ (p.1.hi - p.1.lo + 1) := by
  rw [State.fld_congr _ (State.settle_chain _ t.val (congrArg (· + t.val * 0x10000) (chainFields_place m).2)), s.configureChain_takes,
    State.fld_congr _ (State.reg_congr (State.modTile_regs _ _ _) _), s.fld_chainFields m]

theorem State.wgr_configured : (((s.configureChain t head len rin rout false tmo wgr).settle t).tile t).wgr = wgr := by
  rw [State.settle_wgr, s.configureChain_takes, State.tile_modTile_same]

/-- A configuration that is given up stands no longer. -/
theorem State.configured_gives (h : s.chainAct t = true ∧ s.chainHead t = head ∧ s.chainLen t = len) :
    ((s.configureChain t head len rin rout true tmo wgr).settle t).chainAct t = false := by
  rw [s.configureChain_gives rin rout tmo wgr h]
  unfold State.chainAct State.flag State.fld
  rw [State.settle_chain _ t.val rfl, State.reg_congr (State.modTile_regs _ _ _) _, s.reg_setReg_same]
  exact congrArg (· != 0) (regReset_chain t)

theorem State.configured_other (h : s.chainAct t = false ∨ s.chainHead t ≠ head ∨ s.chainLen t ≠ len) :
    let u := (s.configureChain t head len rin rout true tmo wgr).settle t
    u.chainAct t = s.chainAct t ∧ u.chainHead t = s.chainHead t ∧ u.chainLen t = s.chainLen t := by
  rw [s.configureChain_other rin rout tmo wgr (by rintro ⟨act, start, length⟩; rcases h with k | k | k <;> simp_all)]
  have kept := s.settle_chain t.val rfl
  intro u
  unfold State.chainAct State.chainHead State.chainLen
  exact ⟨State.flag_congr (TILE_CHAIN_CFG.act.on t) kept, State.fld_congr (TILE_CHAIN_CFG.head.on t) kept,
    congrArg (· + 1) (State.fld_congr (TILE_CHAIN_CFG.len.on t) kept)⟩

end

/-! ### REMOTE_CHAIN_TIMEOUT (R121) -/

/-- A group that is cleared and marked. -/
def GroupVal.missed : GroupVal := { GroupVal.cleared with mark := some 8 }

/-- A target whose remote entry has not come: cleared, its groups marked, and the entry done. -/
def Tile.missed (x : Tile) (e : Nat) (r : Remote) : Tile :=
  ((x.clearEntry e).setGroups e fun _ => some GroupVal.missed).setRounds e ((x.rounds e).finish r)

section
variable (s : State) {t e : Nat} {r : Remote} (due : ((s.tile t).rounds e).due.find? (fun x => !x.done) = some r)
include due

theorem State.remoteTimeout_early (h : s.tick < r.since + s.fld (TILE_CHAIN_CFG.tmo.on t)) : s.remoteTimeout t e = s := by
  unfold State.remoteTimeout
  dsimp only
  rw [due]
  refine if_neg fun overdue => ?_
  have passed := of_decide_eq_true (Bool.and_eq_true_iff.1 overdue).2
  exact absurd passed (Nat.not_le.2 h)

theorem State.remoteTimeout_misses (rin : s.flag (TILE_CHAIN_CFG.rin.on t) = true) (opened : (s.tile t).roundOpen e r = true)
    (h : r.since + s.fld (TILE_CHAIN_CFG.tmo.on t) ≤ s.tick) : (s.remoteTimeout t e).tile t = (s.tile t).missed e r := by
  unfold State.remoteTimeout
  extract_lets x v
  rw [show v.due.find? (fun x => !x.done) = some r from due]
  dsimp only
  rw [if_pos (by simp [rin, show x.roundOpen e r = true from opened, h]), State.tile_congr (State.raise_tiles _ _),
    State.tile_congr (State.countMark_tiles _ 8 32), State.tile_setTile_same]
  rfl

end

theorem Tile.setRounds_entries (x : Tile) (e : Nat) (v : Rounds) : (x.setRounds e v).mant = x.mant ∧ (x.setRounds e v).gword = x.gword :=
  ⟨rfl, rfl⟩

section
variable (x : Tile) (e : Nat) (r : Remote)

theorem Tile.missed_rounds : (x.missed e r).rounds e = (x.rounds e).finish r := Tile.rounds_setRounds _ e _

theorem Tile.missed_entry :
    (x.missed e r).mant = ((x.clearEntry e).setGroups e fun _ => some GroupVal.missed).mant ∧
      (x.missed e r).gword = ((x.clearEntry e).setGroups e fun _ => some GroupVal.missed).gword :=
  Tile.setRounds_entries _ e _

theorem Tile.missed_mark {g : Nat} (h : g < 32) : ((x.missed e r).groupVal e g).mark = some 8 := by
  unfold Tile.groupVal
  rw [(x.missed_entry e r).2, Tile.setGroups_gword _ e _ h]
  rfl

theorem Tile.missed_mant {k : Nat} (h : k < 512) : Tab.get dZero (x.missed e r).mant (512 * e + k) = 0 := by
  have row : 512 * e + k = 512 * e + 16 * (k / 16) + k % 16 := by omega
  rw [(x.missed_entry e r).1, row, Tile.setGroups_mant _ e _ (by omega) (Nat.mod_lt k (by decide))]
  exact List.getElem?_getD_replicate_default_eq (d := (0 : Int)) 16 (k % 16)

end

/-! ### The statement -/

/-- Settles O5: the steps of a word, the change of a configuration, and the timeout. -/
theorem chainsMoveChangeAndTimeOut : Obligations.ChainsMoveChangeAndTimeOut := by
  refine ⟨fun s t => ⟨?head, fun w g own rest word queue act head len => ⟨?inner, ?last⟩, ?mismatch,
      fun empty own => congrArg Host.Outcome.next (s.chainStep_idle t empty own)⟩,
    fun s t st head len rin rout dis tmo wgr rest first low one most => ⟨fun idle runs => ⟨?takes, ?gives, ?other⟩,
      fun waits => congrArg Host.Outcome.next (s.chainChange_waits first waits)⟩,
    fun s t e r due => ⟨fun rin opened passed => ⟨_, rfl, ?missed⟩,
      fun early => congrArg Host.Outcome.next (s.remoteTimeout_early due early)⟩⟩
  case head =>
    intro g rest empty own act pos inner cross room remote
    obtain ⟨tile, next⟩ := s.hop_passes (List.replicate 32 GroupVal.cleared) (List.replicate 32 none) g t.isLt inner cross
    rw [← s.chainStep_head t empty own act pos room remote] at tile next
    exact ⟨_, rfl, by rw [tile, Tile.hopped, own, List.drop_one, List.tail_cons], _, next, rfl, rfl, rfl⟩
  case inner =>
    intro inner cross room
    obtain ⟨tile, next⟩ := State.hop_passes (s := s.setTile t { s.tile t with chainIn := rest }) w.vals w.marks g t.isLt inner cross
    rw [← s.chainStep_joins t word queue act head len (.inr room)] at tile next
    rw [State.tile_setTile_same] at tile
    rw [s.tile_setTile, if_neg (nextTile_ne t)] at next
    exact ⟨_, rfl, by rw [tile, Tile.hopped, queue, List.drop_one, List.tail_cons], by rw [tile, Tile.hopped], _, next, by
      rw [State.hopWord, State.hopSteps, State.tile_setTile_same]
      rfl⟩
  case last =>
    intro last
    have tile := State.hop_ends (s := s.setTile t { s.tile t with chainIn := rest }) w.vals w.marks g last
    rw [← s.chainStep_joins t word queue act head len (.inl last), State.tile_setTile_same] at tile
    exact ⟨_, rfl, by rw [tile, Tile.hopped, queue, List.drop_one, List.tail_cons], by rw [tile, Tile.hopped], _, by rw [tile], rfl, by
      rw [Group.endUpdate, State.hopWord, State.hopSteps, State.tile_setTile_same]
      rfl⟩
  case mismatch =>
    intro w rest word other
    obtain ⟨left, code⟩ := s.chainMismatch_spec t
    rw [← s.chainStep_mismatch t word other] at left code
    exact ⟨_, rfl, by rw [left, word, List.drop_one, List.tail_cons], code⟩
  case takes =>
    rintro rfl
    have fields : ∀ p ∈ chainFields t head len rin rout tmo, _ := fun p m =>
      (s.setTile t ((s.tile t).ccfTaken rest)).fld_configured t rin rout tmo wgr m
    have group := (s.setTile t ((s.tile t).ccfTaken rest)).wgr_configured t (head := head) (len := len) rin rout tmo wgr
    rw [← s.chainChange_eq first idle runs] at fields group
    obtain ⟨act, start, length, pos, shown⟩ := State.chain_of_fields fields low one most
    exact ⟨_, rfl, act, start, length, pos, group, shown⟩
  case gives =>
    rintro rfl act start length
    have none := (s.setTile t ((s.tile t).ccfTaken rest)).configured_gives t rin rout tmo wgr ⟨act, start, length⟩
    rw [← s.chainChange_eq first idle runs] at none
    exact ⟨_, rfl, none⟩
  case other =>
    rintro rfl other
    have kept := (s.setTile t ((s.tile t).ccfTaken rest)).configured_other t rin rout tmo wgr other
    rw [← s.chainChange_eq first idle runs] at kept
    exact ⟨_, rfl, kept⟩
  case missed =>
    rw [s.remoteTimeout_misses due rin opened passed]
    refine ⟨fun x m same => ?_, fun g low => (s.tile t).missed_mark e r low, fun k low => (s.tile t).missed_mant e r low⟩
    rw [(s.tile t).missed_rounds e r] at m
    exact Rounds.done_of_mem_finish m same

end Sys2Proof.Machine
end

section
/-! SUPPORT. Messages that have arrived on a group: what is taken and answered, and the block that one reads or writes (R308, R315 to R317). -/

namespace Sys2Proof.Machine

/-! ### The group of a message that is applied (R308, R315) -/

/-- Between two states the first message of a group has been taken, and its flits' credits go back. -/
def State.Takes (s u : State) (p g : Nat) (m : Msg) : Prop :=
  (u.group p g).arrived = (s.group p g).arrived.drop 1 ∧ (u.group p g).owed = (s.group p g).owed + 1 + m.nfl.toNat

/-- Between two states a message has been answered. -/
def State.Answers (s u : State) (p g : Nat) (m : Msg) (type status : BitVec 8) (bs : List Block) : Prop :=
  ∃ x, (u.group p g).out = (s.group p g).out ++ [x] ∧ x.type = type ∧ x.status = status ∧ x.tag = m.tag ∧ x.dst = m.src ∧ x.blocks = bs

section
variable {s v : State} (p g : Nat) (m : Msg)

theorem State.applied_group :
    (s.applied p g m).group p g =
      { s.group p g with arrived := (s.group p g).arrived.drop 1, owed := (s.group p g).owed + 1 + m.nfl.toNat } :=
  s.group_setGroup_same p g _

theorem State.applied_takes (fab : v.fab = s.fab) : s.Takes (v.applied p g m) p g m := by
  unfold State.Takes
  rw [State.applied_group, State.group_congr fab]
  exact ⟨rfl, rfl⟩

theorem State.applied_out (fab : v.fab = s.fab) : ((v.applied p g m).group p g).out = (s.group p g).out := by
  rw [State.applied_group, State.group_congr fab]

theorem State.answer_group (type status : BitVec 8) (svc : BitVec 4) (bs : List Block) :
    ∃ x, (s.answer p g m type status svc bs).group p g = { s.group p g with out := (s.group p g).out ++ [x] } ∧ x.type = type ∧
      x.status = status ∧ x.tag = m.tag ∧ x.dst = m.src ∧ x.blocks = bs :=
  ⟨_, s.group_setGroup_same p g _, rfl, rfl, rfl, rfl, rfl⟩

theorem State.answer_spec (fab : v.fab = s.fab) (type status : BitVec 8) (svc : BitVec 4) (bs : List Block) :
    s.Takes ((v.applied p g m).answer p g m type status svc bs) p g m ∧
      s.Answers ((v.applied p g m).answer p g m type status svc bs) p g m type status bs := by
  obtain ⟨x, group, holds⟩ := State.answer_group (s := v.applied p g m) p g m type status svc bs
  obtain ⟨arrived, owed⟩ := State.applied_takes (s := s) (v := v) p g m fab
  unfold State.Takes State.Answers
  rw [group]
  exact ⟨⟨arrived, owed⟩, x, congrArg (· ++ [x]) (State.applied_out p g m fab), holds⟩

end

/-! ### Blocks in stage memory and GDDR7 (R176, R189) -/

/-- A block written stands in stage memory, and nothing else of it moved. -/
theorem State.writeBlock_stores (s : State) (a : Nat) (b : Block) :
    (s.writeBlock a b).stageBytesAt a b.data.length = b.data ∧ (s.writeBlock a b).stageMark a = b.mark ∧
      ∀ n, (n < a ∨ a + b.data.length ≤ n) → (s.writeBlock a b).stageByte n = s.stageByte n := by
  refine ⟨State.stageBytesAt_eq _ a b.data fun n inside => ?_, ?_, fun n outside => ?_⟩
  · rw [s.stageByte_writeBlock, if_pos inside]
  · obtain ⟨x, f, c, e⟩ := s.writeBlock_spec a b
    rw [e]
    exact Tab.get_set_same dMark s.stage.marks (a / 64) b.mark
  · rw [s.stageByte_writeBlock, if_neg (by omega)]

/-- Bytes put one behind another. -/
theorem Tab.get_foldl_zipIdx (l : List Byte) (a i k : Nat) (t : Tab Byte) :
    Tab.get dZero ((l.zipIdx i).foldl (fun t p => Tab.set dZero t (a + p.2) p.1) t) k =
      if a + i ≤ k ∧ k < a + i + l.length then l.getD (k - (a + i)) 0 else Tab.get dZero t k := by
  induction l generalizing i t with
  | nil =>
    rw [if_neg (by simp)]
    rfl
  | cons x l ih =>
    rw [List.zipIdx_cons, List.foldl_cons, ih, Tab.get_set, List.length_cons]
    by_cases here : k = a + i
    · rw [if_neg (by omega), if_pos here, if_pos (by omega), show k - (a + i) = 0 by omega, List.getD_cons_zero]
    · rw [if_neg here]
      by_cases later : a + (i + 1) ≤ k ∧ k < a + (i + 1) + l.length
      · rw [if_pos later, if_pos (by omega), show k - (a + i) = k - (a + (i + 1)) + 1 by omega, List.getD_cons_succ]
      · rw [if_neg later, if_neg (by omega)]

theorem Gddr.listMark_bytes (x : Gddr) (a : Nat) (m : Mark) : (x.listMark a m).bytes = x.bytes := by
  unfold Gddr.listMark
  cases m with
  | none => rfl
  | some r =>
    dsimp only
    split
    · rfl
    · rfl

theorem State.gddrWrite_byte (s : State) (a : Nat) (b : Block) {k : Nat} (h : k < b.data.length) :
    (s.gddrWrite a b).gByte (a + k) = b.data.getD k 0 := by
  unfold State.gByte State.gddrWrite
  rw [Gddr.listMark_bytes]
  refine (Tab.get_foldl_zipIdx b.data a 0 (a + k) _).trans ?_
  rw [if_pos (by omega), show a + k - (a + 0) = k by omega]

/-! ### The writes of a message (R188, R317) -/

section
variable (s : State)

theorem State.StageMoved.fab {u : State} (h : s.StageMoved u) : u.fab = s.fab := by
  obtain ⟨g, y, r, m, n, rfl, -⟩ := h
  rfl

theorem State.mapWriteBlock_fab (a : Nat) (x : Block) (i : ScoreId) (q : Nat) : (s.mapWriteBlock a x i q).fab = s.fab := by
  unfold State.mapWriteBlock
  extract_lets t e y
  split
  · exact s.setTile_fab t _
  · exact (s.droppedWrite_moves q i a).fab

theorem State.stageWrite_fab (a : Nat) (x : Block) (i : ScoreId) (q : Nat) : (s.stageWrite a x i q).fab = s.fab := by
  unfold State.stageWrite
  split
  · exact (s.putBlock_moves q a x).fab
  · split
    · exact s.mapWriteBlock_fab a x i q
    · exact (s.droppedWrite_moves q i a).fab

theorem State.gddrWrite_fab (a : Nat) (x : Block) : (s.gddrWrite a x).fab = s.fab := rfl

theorem State.gddrWriteLast_fab (a : Nat) (b : Block) (find : GddrFind) : (s.gddrWriteLast a b find).fab = s.fab := by
  unfold State.gddrWriteLast
  split
  · rw [State.gddrWrite_fab, apply_ite State.fab, State.countMark_fab, ite_self, State.bump_fab]
  · exact s.gddrWrite_fab a b

theorem State.gddrWriteTwice_fab (a : Nat) (b : Block) (e : GddrFind × GddrFind) : (s.gddrWriteTwice a b e).fab = s.fab := by
  unfold State.gddrWriteTwice
  split
  · rw [State.gddrWriteLast_fab, State.bump_fab]
  · exact s.gddrWrite_fab a b

variable {m : Msg} (l : List (GddrFind × GddrFind)) (one : m.nblk = 1)
include one

theorem msgAddrs_one : msgAddrs m = [m.addr.toNat] := by
  unfold msgAddrs
  rw [one]
  rfl

theorem State.writeMsg_one {b : Block} (data : m.blocks = [b]) (i : ScoreId) :
    s.writeMsg i m l =
      if m.gddr then s.gddrWriteTwice m.addr.toNat b (findAt l 0) else s.stageWrite m.addr.toNat b i 0xFFFF := by
  unfold State.writeMsg
  rw [msgAddrs_one one, data]
  rfl

theorem State.readMsg_one (i : ScoreId) :
    ∃ x : Block × State, s.readMsg i m l = ([x.1], x.2) ∧
      x = if m.gddr then s.gddrReadTwice m.addr.toNat (findAt l 0) else s.stageRead m.addr.toNat i := by
  unfold State.readMsg
  rw [msgAddrs_one one]
  exact ⟨_, rfl, rfl⟩

end

/-- Between two states a message's block has been stored, of a score in stage memory or in GDDR7. -/
def State.Stores (s u : State) (i : ScoreId) (m : Msg) (l : List (GddrFind × GddrFind)) (b : Block) : Prop :=
  (m.gddr = false → s.ownsStage m.addr.toNat i = true → s.holdsDesc m.addr.toNat = false →
    u.stageBytesAt m.addr.toNat b.data.length = b.data ∧ u.stageMark m.addr.toNat = b.mark ∧
      ∀ n, (n < m.addr.toNat ∨ m.addr.toNat + b.data.length ≤ n) → u.stageByte n = s.stageByte n) ∧
  (m.gddr = true → (findAt l 0).1.crcBad = false → ∀ k, k < b.data.length → u.gByte (m.addr.toNat + k) = b.data.getD k 0)

section
variable {s : State} {i : ScoreId} {m : Msg} {l : List (GddrFind × GddrFind)} {b : Block}

theorem State.Stores.congr {u v : State} (h : s.Stores u i m l b) (stage : v.stage = u.stage) (gddr : v.gddr = u.gddr) : s.Stores v i m l b := by
  obtain ⟨onStage, onGddr⟩ := h
  unfold State.Stores State.stageBytesAt State.stageMark State.stageByte State.gByte
  rw [stage, gddr]
  exact ⟨onStage, onGddr⟩

theorem State.writeMsg_stores (one : m.nblk = 1) (data : m.blocks = [b]) : s.Stores (s.writeMsg i m l) i m l b := by
  rw [s.writeMsg_one l one data i]
  refine ⟨fun stage own none => ?_, fun gddr clean k low => ?_⟩
  · have put : s.stageWrite m.addr.toNat b i 0xFFFF = s.writeBlock m.addr.toNat b := by
      unfold State.stageWrite State.putBlock
      rw [if_pos own, none, if_neg Bool.false_ne_true]
    rw [stage, if_neg Bool.false_ne_true, put]
    exact s.writeBlock_stores m.addr.toNat b
  · have put : s.gddrWriteTwice m.addr.toNat b (findAt l 0) = s.gddrWrite m.addr.toNat b := by
      unfold State.gddrWriteTwice
      rw [clean, if_neg Bool.false_ne_true]
    rw [gddr, if_pos rfl, put]
    exact s.gddrWrite_byte m.addr.toNat b low

theorem State.writeMsg_fab (one : m.nblk = 1) (data : m.blocks = [b]) : (s.writeMsg i m l).fab = s.fab := by
  rw [s.writeMsg_one l one data i]
  split
  · exact s.gddrWriteTwice_fab _ b _
  · exact s.stageWrite_fab _ b i _

end

/-! ### The reads of a message (R188, R317) -/

theorem State.CountsMoved.bump (s : State) (f : Fld) (n : Nat) : s.CountsMoved (s.bump f n) := .setFld s f _

theorem State.countRead_counts (s : State) (a : Nat) : s.CountsMoved (s.countRead a) := by
  unfold State.countRead
  extract_lets s1
  exact .ite (.ite ((State.CountsMoved.bump s _ _).trans (.countMark s1 9 1)) (.bump s _ _)) (.ite (.refl s) (.bump s _ _))

theorem State.stageRead_counts (s : State) (a : Nat) (i : ScoreId) : s.CountsMoved (s.stageRead a i).2 := by
  unfold State.stageRead State.mapReadBlock
  dsimp only
  split_ifs
  · exact s.countRead_counts a
  · exact .refl s
  · exact .countMark s 15 1
  · exact .countMark s 15 1

theorem State.gddrRead_counts (s : State) (a : Nat) (find : GddrFind) : s.CountsMoved (s.gddrRead a find).2 := by
  unfold State.gddrRead
  extract_lets data bad mark s1 s2
  split
  · exact .refl s
  · have first : s.CountsMoved s1 := .ite (.bump s _ _) (.ite (.bump s _ _) (.refl s))
    show s.CountsMoved s2
    unfold s2
    split
    · exact first.trans (.countMark s1 _ 1)
    · exact first

theorem State.gddrReadTwice_counts (s : State) (a : Nat) (e : GddrFind × GddrFind) : s.CountsMoved (s.gddrReadTwice a e).2 := by
  unfold State.gddrReadTwice
  split
  · exact (State.CountsMoved.bump s _ _).trans (State.gddrRead_counts _ a e.2)
  · exact s.gddrRead_counts a e.1

/-- A message of one block reads that block, and counts. -/
theorem State.readMsg_spec (s : State) {m : Msg} (l : List (GddrFind × GddrFind)) (one : m.nblk = 1) (i : ScoreId) :
    s.CountsMoved (s.readMsg i m l).2 ∧
      (m.gddr = false → s.ownsStage m.addr.toNat i = true → (s.readMsg i m l).1 = [s.blockAt m.addr.toNat]) ∧
      (m.gddr = true → (findAt l 0).1.crcBad = false → (s.readMsg i m l).1 = [(s.gddrRead m.addr.toNat (findAt l 0).1).1]) := by
  obtain ⟨x, read, e⟩ := s.readMsg_one l one i
  rw [read, e]
  refine ⟨?_, fun stage own => ?_, fun gddr clean => ?_⟩
  · split
    · exact s.gddrReadTwice_counts _ _
    · exact s.stageRead_counts _ i
  · rw [stage, if_neg Bool.false_ne_true, State.stageRead, if_pos own]
    rfl
  · rw [gddr, if_pos rfl, State.gddrReadTwice, clean, if_neg fun retried => Bool.false_ne_true retried.1]

end Sys2Proof.Machine
end

section
/-! SUPPORT. The commands that apply a message: a partner's write, read and service reply, the reply and the completion that a transfer waits
for, and the halves of a chain entry (R120, R308, R309, R316, R317). -/

namespace Sys2Proof.Machine

theorem State.Takes.congr {s u v : State} {p g : Nat} {m : Msg} (h : s.Takes u p g m) (fab : v.fab = u.fab) : s.Takes v p g m := by
  unfold State.Takes
  rw [State.group_congr fab]
  exact h

/-! ### A partner's accesses (R308, R316, R317) -/

section
variable (s : State) (p g : Nat) (m : Msg) (l : List (GddrFind × GddrFind))

theorem State.writeIn_idle (h : s.applies p g m 1 = false) : s.writeIn p g m l = s := by
  unfold State.writeIn
  rw [h]
  rfl

theorem State.readIn_idle (h : s.applies p g m 2 = false) : s.readIn p g m l = s := by
  unfold State.readIn
  rw [h]
  rfl

theorem State.serviceReplyIn_idle (h : s.applies p g m 6 = false) : s.serviceReplyIn p g m l = s := by
  unfold State.serviceReplyIn
  rw [h]
  rfl

/-! #### A target that is refused -/

section
variable (bad : s.targetStatus (s.group p g) m ≠ 0)
include bad

theorem State.writeIn_refuses (first : s.applies p g m 1 = true) :
    s.writeIn p g m l = (s.applied p g m).answer p g m 7 (s.targetStatus (s.group p g) m) 0 [] := by
  unfold State.writeIn
  extract_lets f st
  rw [first, Bool.not_true, if_neg Bool.false_ne_true]
  exact if_pos bad

theorem State.readIn_refuses (first : s.applies p g m 2 = true) :
    s.readIn p g m l = (s.applied p g m).answer p g m 3 (s.targetStatus (s.group p g) m) 0 [] := by
  unfold State.readIn
  extract_lets f st r
  rw [first, Bool.not_true, if_neg Bool.false_ne_true]
  exact if_pos bad

theorem State.serviceReplyIn_refuses (first : s.applies p g m 6 = true) : s.serviceReplyIn p g m l = s.applied p g m := by
  unfold State.serviceReplyIn
  extract_lets f
  rw [first, Bool.not_true, if_neg Bool.false_ne_true]
  exact if_pos bad

end

/-! #### A target that is accepted -/

section
variable (ok : s.targetStatus (s.group p g) m = 0)
include ok

theorem State.writeIn_accepts (first : s.applies p g m 1 = true) :
    s.writeIn p g m l =
      if s.msgReady p g m true then
        (((s.grantTo (s.msgClaim p g)).writeMsg (s.group p g).score m l).applied p g m).answer p g m 7 0 0 []
      else s := by
  unfold State.writeIn
  extract_lets f st
  rw [first, Bool.not_true, if_neg Bool.false_ne_true, if_neg (not_not_intro ok)]
  cases s.msgReady p g m true with
  | true => rfl
  | false => rfl

theorem State.readIn_accepts (first : s.applies p g m 2 = true) :
    s.readIn p g m l =
      if s.msgReady p g m false then
        (((s.grantTo (s.msgClaim p g)).readMsg (s.group p g).score m l).2.applied p g m).answer p g m 3 0 0
          ((s.grantTo (s.msgClaim p g)).readMsg (s.group p g).score m l).1
      else s := by
  unfold State.readIn
  extract_lets f st r
  rw [first, Bool.not_true, if_neg Bool.false_ne_true, if_neg (not_not_intro ok)]
  cases s.msgReady p g m false with
  | true => rfl
  | false => rfl

theorem State.serviceReplyIn_accepts (first : s.applies p g m 6 = true) :
    s.serviceReplyIn p g m l =
      if s.msgReady p g m true then ((s.grantTo (s.msgClaim p g)).writeMsg (s.group p g).score m l).applied p g m else s := by
  unfold State.serviceReplyIn
  extract_lets f
  rw [first, Bool.not_true, if_neg Bool.false_ne_true, if_neg (not_not_intro ok)]
  cases s.msgReady p g m true with
  | true => rfl
  | false => rfl

end

/-- GDDR7 alone settles what is read from it. -/
theorem State.gddrRead_congr {s u : State} (h : u.gddr = s.gddr) (a : Nat) (find : GddrFind) :
    (u.gddrRead a find).1 = (s.gddrRead a find).1 := by
  unfold State.gddrRead State.gSpanZero State.spanZero State.gMark State.gListed State.gOvf State.gByte
  rw [h]
  dsimp only
  rw [apply_ite Prod.fst, apply_ite Prod.fst]

/-- With its slot granted, a message's block is stored; the grant moves no memory and no group. -/
theorem State.grantedWrite (c : Option Claim) (i : ScoreId) {b : Block} (one : m.nblk = 1) (data : m.blocks = [b]) :
    s.Stores ((s.grantTo c).writeMsg i m l) i m l b ∧ ((s.grantTo c).writeMsg i m l).fab = s.fab := by
  obtain ⟨a, arb⟩ := s.grantTo_spec c
  rw [arb]
  exact ⟨State.writeMsg_stores (s := { s with arb := a }) one data, State.writeMsg_fab (s := { s with arb := a }) one data⟩

theorem State.grantedRead (c : Option Claim) (i : ScoreId) (one : m.nblk = 1) :
    let r := (s.grantTo c).readMsg i m l
    r.2.fab = s.fab ∧ r.2.stage = s.stage ∧ r.2.gddr = s.gddr ∧
      (m.gddr = false → s.ownsStage m.addr.toNat i = true → r.1 = [s.blockAt m.addr.toNat]) ∧
      (m.gddr = true → (findAt l 0).1.crcBad = false → r.1 = [(s.gddrRead m.addr.toNat (findAt l 0).1).1]) := by
  obtain ⟨a, arb⟩ := s.grantTo_spec c
  rw [arb]
  obtain ⟨⟨x, y, counts⟩, onStage, onGddr⟩ := State.readMsg_spec { s with arb := a } l one i
  refine ⟨?_, ?_, ?_, onStage, fun gddr clean => (onGddr gddr clean).trans ?_⟩
  · rw [counts]
  · rw [counts]
  · rw [counts]
  · rw [State.gddrRead_congr (s := s) (u := { s with arb := a }) rfl]

end

/-! ### The transfer that waits (R309) -/

section
variable (s : State) {p g : Nat} {m : Msg} {o : Outstanding} {i : Nat} {x : Transfer}

theorem State.replyIn_idle (h : s.applies p g m 3 = false) : s.replyIn p g m = s := by
  unfold State.replyIn
  rw [h]
  rfl

theorem State.completionIn_idle (h : s.applies p g m 7 = false) : s.completionIn p g m = s := by
  unfold State.completionIn
  rw [h]
  rfl

/-- Tiles changed one after another. -/
theorem State.foldl_modTile (f : Tile → Tile) {l : List Nat} (distinct : l.Nodup) :
    (∃ y, l.foldl (fun u t => u.modTile t f) s = { s with tiles := y }) ∧
      ∀ t, (l.foldl (fun u t => u.modTile t f) s).tile t = if t ∈ l then f (s.tile t) else s.tile t := by
  induction l generalizing s with
  | nil => exact ⟨⟨s.tiles, rfl⟩, fun t => rfl⟩
  | cons k l ih =>
    obtain ⟨fresh, rest⟩ := List.nodup_cons.1 distinct
    obtain ⟨⟨y, moved⟩, each⟩ := ih (s.modTile k f) rest
    refine ⟨⟨y, moved⟩, fun t => ?_⟩
    rw [List.foldl_cons, each, State.modTile, State.tile_setTile]
    by_cases here : t = k
    · subst here
      rw [if_neg fresh, if_pos rfl, if_pos List.mem_cons_self]
    · rw [if_neg here]
      exact if_congr (by simp [here]) rfl rfl

theorem Transfer.tiles_nodup (x : Transfer) : x.tiles.Nodup := by
  unfold Transfer.tiles
  split
  · exact List.Nodup.map (fun a b same => by omega) (List.nodup_range.filter _)
  · exact List.nodup_nil

/-- A block delivered to input buffers. -/
theorem State.deliverBlock_tiles (q lin : Nat) (b : Block) (dst : x.desc.dstSp = 3) :
    (∃ y, s.deliverBlock q x lin b = { s with tiles := y }) ∧
      ∀ t ∈ x.tiles, ((s.deliverBlock q x lin b).tile t).inbuf =
        (s.tile t).inbuf ++ [⟨if q < 256 then q % 32 else q - 256 + 32, b⟩] := by
  obtain ⟨moved, each⟩ := s.foldl_modTile
    (fun y => { y with inbuf := y.inbuf ++ [⟨if q < 256 then q % 32 else q - 256 + 32, b⟩], inRes := y.inRes - 1 }) x.tiles_nodup
  unfold State.deliverBlock
  rw [if_pos dst]
  exact ⟨moved, fun t m => by rw [each t, if_pos m]⟩

section
variable (place : s.xferOf o = some i) (stands : (s.queue o.q).xfers[i]? = some x)
include place stands

theorem State.refusedOf_eq : s.refusedOf o = x.refused := by
  unfold State.refusedOf
  rw [place, Option.bind_some, stands]

theorem State.xferDone_eq : s.xferDone o = s.putXfer o.q i { x with done := x.done + o.n } := by
  unfold State.xferDone
  rw [place]
  dsimp only
  rw [stands]

theorem State.xferDone_done : ((s.xferDone o).queue o.q).xfers[i]? = some { x with done := x.done + o.n } := by
  rw [s.xferDone_eq place stands, State.putXfer, State.queue_setQueue_same]
  exact List.getElem?_set_self (List.getElem?_eq_some_iff.1 stands).1

theorem State.deliverRead_one {b : Block} (one : o.n = 1) (held : x.refused = none) :
    s.deliverRead o [b] = (s.deliverBlock o.q x (o.lin + 0) b).xferDone o := by
  unfold State.deliverRead
  rw [place]
  dsimp only
  rw [stands]
  dsimp only
  rw [one, held]
  rfl

/-- The block that a read asked for stands in the input buffers of its transfer. -/
theorem State.deliverRead_delivers {b : Block} (one : o.n = 1) (held : x.refused = none) (dst : x.desc.dstSp = 3) :
    (s.deliverRead o [b]).fab = s.fab ∧ ((s.deliverRead o [b]).queue o.q).xfers[i]? = some { x with done := x.done + 1 } ∧
      ∀ t ∈ x.tiles, ((s.deliverRead o [b]).tile t).inbuf =
        (s.tile t).inbuf ++ [⟨if o.q < 256 then o.q % 32 else o.q - 256 + 32, b⟩] := by
  obtain ⟨⟨y, moved⟩, arrives⟩ := s.deliverBlock_tiles o.q (o.lin + 0) b dst
  have placed : (s.deliverBlock o.q x (o.lin + 0) b).xferOf o = some i := by
    rw [moved]
    exact place
  have standing : ((s.deliverBlock o.q x (o.lin + 0) b).queue o.q).xfers[i]? = some x := by
    rw [moved]
    exact stands
  have done := State.xferDone_done _ placed standing
  rw [s.deliverRead_one place stands one held]
  refine ⟨?_, by rw [done, one], fun t m => ?_⟩
  · rw [State.xferDone_eq _ placed standing, moved]
    rfl
  · rw [← arrives t m, State.xferDone_eq _ placed standing]
    rfl

theorem State.replyBusy_inputs (found : (s.group p g).reads.find? (·.tag == m.tag) = some o) (dst : x.desc.dstSp = 3) :
    s.replyBusy p g m = false := by
  unfold State.replyBusy
  rw [found]
  dsimp only
  rw [place, Option.bind_some, stands]
  dsimp only
  rw [dst]
  rfl

theorem State.replyIn_delivers (first : s.applies p g m 3 = true) (found : (s.group p g).reads.find? (·.tag == m.tag) = some o)
    (good : m.status = 0) (held : x.refused = none) (dst : x.desc.dstSp = 3) :
    s.replyIn p g m = ((s.applied p g m).dropRead p g o).deliverRead o m.blocks := by
  have waiting : ((s.applied p g m).group p g).reads.find? (·.tag == m.tag) = some o := by
    rw [State.applied_group]
    exact found
  have clean : ((s.applied p g m).dropRead p g o).refusedOf o = none := (State.refusedOf_eq _ place stands).trans held
  unfold State.replyIn
  rw [first, s.replyBusy_inputs place stands found dst, if_neg (by decide)]
  extract_lets s1
  rw [waiting]
  dsimp only
  rw [clean, if_neg (by decide), if_pos good]

omit place stands in
theorem State.completionIn_completes (first : s.applies p g m 7 = true) (found : (s.group p g).writes.find? (·.tag == m.tag) = some o)
    (good : m.status = 0) : s.completionIn p g m = ((s.applied p g m).dropWrite p g o).xferDone o := by
  have waiting : ((s.applied p g m).group p g).writes.find? (·.tag == m.tag) = some o := by
    rw [State.applied_group]
    exact found
  unfold State.completionIn
  rw [first, Bool.not_true, if_neg Bool.false_ne_true]
  extract_lets s1
  rw [waiting]
  dsimp only
  rw [good, if_neg (by decide)]

end

end

/-! ### Chain entries (R120) -/

section
variable (s : State) {p g : Nat} {m : Msg} {t : Nat}

theorem State.chainIn_idle (h : s.applies p g m 4 = false) : s.chainIn p g m = s := by
  unfold State.chainIn
  rw [h]
  rfl

theorem State.chainIn_unbound (first : s.applies p g m 4 = true)
    (h : (s.group p g).bound = false ∨ inMap m.addr.toNat = false ∨ (s.group p g).score = 0) : s.chainIn p g m = s.applied p g m := by
  unfold State.chainIn
  rw [first, Bool.not_true, if_neg Bool.false_ne_true]
  extract_lets f s1 a e
  exact if_pos (h.imp (fun k => by rw [k]; rfl) (Or.imp_left fun k => by rw [k]; rfl))

theorem State.applied_hopTile : (s.applied p g m).hopTile p g = s.hopTile p g := by
  unfold State.hopTile
  rw [State.applied_group]
  rfl

theorem State.chainIn_hops (first : s.applies p g m 4 = true) (tile : s.hopTile p g = some t) (bound : (s.group p g).bound = true)
    (map : inMap m.addr.toNat = true) (score : (s.group p g).score ≠ 0)
    (range : s.rangeScore t (mapEntry m.addr.toNat) = (s.group p g).score) :
    s.chainIn p g m = (s.applied p g m).hopPart t (mapEntry m.addr.toNat) (m.addr.toNat % 4096 == 0) m.blocks := by
  have here : ((s.applied p g m).hopTile p g).filter
      (fun t => (s.applied p g m).rangeScore t (mapEntry m.addr.toNat) == (s.group p g).score) = some t := by
    rw [s.applied_hopTile, tile]
    exact Option.filter_some_pos (beq_iff_eq.2 range)
  unfold State.chainIn
  rw [first, Bool.not_true, if_neg Bool.false_ne_true]
  extract_lets f s1 a e
  rw [if_neg (by simpa [f, a, bound, map] using score), here]

end

/-- The rounds of an entry with a half of a remote entry that has come. -/
def Rounds.joined (v : Rounds) (first : Bool) (bs : List Block) : Rounds := ⟨v.due, if first then bs else v.held ++ bs⟩

section
variable (s : State) (t e : Nat) (bs : List Block)

/-- A tile that keeps the half of a remote entry that has come. -/
def State.hopKept (first : Bool) : State := s.modTile t fun x => x.setRounds e (((s.tile t).rounds e).joined first bs)

theorem State.hopKept_rounds (first : Bool) : ((s.hopKept t e bs first).tile t).rounds e = ((s.tile t).rounds e).joined first bs := by
  rw [State.hopKept, State.tile_modTile_same, Tile.rounds_setRounds]

theorem State.hopKept_mant (first : Bool) : ((s.hopKept t e bs first).tile t).mant = (s.tile t).mant := by
  rw [State.hopKept, State.tile_modTile_same]
  rfl

/-- The first half of a remote entry waits for the second. -/
theorem State.hopPart_first (none : ((s.tile t).rounds e).held = []) (short : bs.length < 64) :
    s.hopPart t e true bs = s.hopKept t e bs true := by
  refine Eq.trans ?_ (State.addArrived_part (s.hopKept t e bs true) t e (by rw [s.hopKept_rounds]; exact short))
  unfold State.hopPart State.hopKept Rounds.joined
  extract_lets v whole held
  have kept : held = bs := by
    unfold held whole
    rw [if_pos rfl, show v.held = [] from none]
    rfl
  rw [kept]
  rfl

theorem State.hopPart_second (some : ((s.tile t).rounds e).held ≠ []) (part : ((s.tile t).rounds e).held.length < 64) :
    s.hopPart t e false bs = (s.hopKept t e bs false).addArrived t e := by
  unfold State.hopPart State.hopKept Rounds.joined
  extract_lets v whole held
  have filled : v.held.length ≠ whole := by
    have positive : 0 < v.held.length := List.length_pos_iff.2 some
    have short : v.held.length < 64 := part
    unfold whole
    omega
  have kept : held = v.held ++ bs := by
    unfold held
    rw [if_neg Bool.false_ne_true, if_neg filled]
  rw [kept]
  rfl

/-- A whole remote entry whose round is open is added to its target, which is cleared first. -/
theorem State.addArrived_entry {r : Remote} (due : ((s.tile t).rounds e).due.find? (fun x => !x.done) = some r)
    (held : ((s.tile t).rounds e).held = bs) (whole : bs.length = 64) (opened : (s.tile t).roundOpen e r = true)
    (order : s.compat = false) :
    let u := s.addArrived t e
    let w := rowWords bs
    ((u.tile t).rounds e).held = [] ∧ (∀ x ∈ ((u.tile t).rounds e).due, x.pos = r.pos → x.done = true) ∧
      ∀ k x, (groupSteps (List.replicate 32 GroupVal.cleared) (w.map fun v => signed 40 (bits v 39 0))
          (w.map fun v => signed 8 (bits v 47 40)) ((List.range 32).map (remoteMark bs w))
          ((List.range 32).map fun j => inMask (w.getD (16 * j) 0) 48) r.gen (updateKey t))[k]? = some x →
        ((u.tile t).groupVal e k).e = x.new.e ∧ ((u.tile t).groupVal e k).mark = x.new.mark ∧
          ∀ i, i < 16 → Tab.get dZero (u.tile t).mant (512 * e + 16 * k + i) = x.new.m.getD i 0 := by
  intro u w
  have added : u = (s.modTile t fun x => x.setRounds e ((x.rounds e).finish r)).remoteAdd t e bs r.gen := by
    refine (s.addArrived_adds t e due (by rw [held, whole]) opened).trans ?_
    rw [held, ← whole, List.take_length]
  generalize finished : (s.modTile t fun x => x.setRounds e ((x.rounds e).finish r)) = v at added
  have rounds : (u.tile t).rounds e = ((s.tile t).rounds e).finish r := by
    obtain ⟨m, g, moved⟩ := v.remoteAdd_tile t e bs r.gen
    rw [added, moved, ← finished, State.tile_modTile_same]
    exact Tile.rounds_setRounds _ e _
  have before : v.beforeRemote t e = v.modTile t (·.clearEntry e) := by
    rw [State.beforeRemote, if_neg]
    rw [← finished]
    exact fun yellia => Bool.false_ne_true (order.symm.trans yellia)
  rw [rounds]
  refine ⟨?_, fun x m same => Rounds.done_of_mem_finish m same, fun k x step => ?_⟩
  · show ((s.tile t).rounds e).held.drop 64 = []
    rw [held, ← whole, List.drop_length]
  · rw [added, v.remoteAdd_eq, before]
    obtain ⟨mark, exponent, mants⟩ := State.addToEntry_group (v.modTile t (·.clearEntry e)) t e
      (w.map fun v => signed 40 (bits v 39 0)) (w.map fun v => signed 8 (bits v 47 40)) ((List.range 32).map (remoteMark bs w))
      ((List.range 32).map fun j => inMask (w.getD (16 * j) 0) 48) r.gen (g := k) (z := x)
      (by rw [State.tile_modTile_same, Tile.steps, Tile.clearEntry_groups]; exact step)
    exact ⟨exponent, mark, mants⟩

theorem State.hopKept_roundOpen (first : Bool) (r : Remote) :
    ((s.hopKept t e bs first).tile t).roundOpen e r = (s.tile t).roundOpen e r := by
  have drains : ((s.hopKept t e bs first).tile t).drainQ = (s.tile t).drainQ := by
    rw [State.hopKept, State.tile_modTile_same]
    rfl
  unfold Tile.roundOpen
  rw [s.hopKept_rounds, drains]
  rfl

theorem State.hopKept_fab (first : Bool) : (s.hopKept t e bs first).fab = s.fab := rfl

theorem State.addArrived_fab : (s.addArrived t e).fab = s.fab := by
  obtain ⟨y, x, r, moved⟩ := s.addArrived_entries t e
  rw [moved]

end

/-! ### The commands together -/

section
variable (s : State) {p g : Nat} {m : Msg} (l : List (GddrFind × GddrFind)) {b : Block}

theorem State.writeIn_stores (first : s.applies p g m 1 = true) (ok : s.targetStatus (s.group p g) m = 0) (ready : s.msgReady p g m true = true)
    (one : m.nblk = 1) (data : m.blocks = [b]) :
    s.Stores (s.writeIn p g m l) (s.group p g).score m l b ∧ s.Takes (s.writeIn p g m l) p g m ∧
      s.Answers (s.writeIn p g m l) p g m 7 0 [] := by
  obtain ⟨stored, fab⟩ := s.grantedWrite m l (s.msgClaim p g) (s.group p g).score one data
  rw [s.writeIn_accepts p g m l ok first, if_pos ready]
  exact ⟨stored.congr rfl rfl, State.answer_spec p g m fab 7 0 0 []⟩

theorem State.readIn_reads (first : s.applies p g m 2 = true) (ok : s.targetStatus (s.group p g) m = 0)
    (ready : s.msgReady p g m false = true) (one : m.nblk = 1) :
    ∃ bs, s.Takes (s.readIn p g m l) p g m ∧ s.Answers (s.readIn p g m l) p g m 3 0 bs ∧ (s.readIn p g m l).stage = s.stage ∧
      (s.readIn p g m l).gddr.bytes = s.gddr.bytes ∧
      (m.gddr = false → s.ownsStage m.addr.toNat (s.group p g).score = true → bs = [s.blockAt m.addr.toNat]) ∧
      (m.gddr = true → (findAt l 0).1.crcBad = false → bs = [(s.gddrRead m.addr.toNat (findAt l 0).1).1]) := by
  obtain ⟨fab, stage, gddr, found⟩ := s.grantedRead m l (s.msgClaim p g) (s.group p g).score one
  rw [s.readIn_accepts p g m l ok first, if_pos ready]
  generalize (s.grantTo (s.msgClaim p g)).readMsg (s.group p g).score m l = r at *
  obtain ⟨takes, answers⟩ := State.answer_spec p g m fab 3 0 0 r.1
  exact ⟨r.1, takes, answers, stage, congrArg Gddr.bytes gddr, found⟩

theorem State.serviceReplyIn_stores (first : s.applies p g m 6 = true) (ok : s.targetStatus (s.group p g) m = 0)
    (ready : s.msgReady p g m true = true) (one : m.nblk = 1) (data : m.blocks = [b]) :
    s.Stores (s.serviceReplyIn p g m l) (s.group p g).score m l b ∧ s.Takes (s.serviceReplyIn p g m l) p g m ∧
      ((s.serviceReplyIn p g m l).group p g).out = (s.group p g).out := by
  obtain ⟨stored, fab⟩ := s.grantedWrite m l (s.msgClaim p g) (s.group p g).score one data
  rw [s.serviceReplyIn_accepts p g m l ok first, if_pos ready]
  exact ⟨stored.congr rfl rfl, State.applied_takes p g m fab, State.applied_out p g m fab⟩

/-- A message that is refused changes no memory. -/
theorem State.refused_spec (type status : BitVec 8) :
    let u := (s.applied p g m).answer p g m type status 0 []
    u.stage = s.stage ∧ u.gddr = s.gddr ∧ s.Takes u p g m ∧ s.Answers u p g m type status [] :=
  ⟨rfl, rfl, State.answer_spec p g m rfl type status 0 []⟩

variable {o : Outstanding} {i : Nat} {x : Transfer} (place : s.xferOf o = some i) (stands : (s.queue o.q).xfers[i]? = some x)
include place stands

theorem State.replyIn_fills (first : s.applies p g m 3 = true) (found : (s.group p g).reads.find? (·.tag == m.tag) = some o)
    (good : m.status = 0) (single : o.n = 1) (data : m.blocks = [b]) (dst : x.desc.dstSp = 3) (held : x.refused = none) :
    ((s.replyIn p g m).group p g).reads = (s.group p g).reads.erase o ∧
      ((s.replyIn p g m).queue o.q).xfers[i]? = some { x with done := x.done + 1 } ∧
      ∀ t ∈ x.tiles, ((s.replyIn p g m).tile t).inbuf =
        (s.tile t).inbuf ++ [⟨if o.q < 256 then o.q % 32 else o.q - 256 + 32, b⟩] := by
  obtain ⟨fab, done, arrives⟩ := State.deliverRead_delivers ((s.applied p g m).dropRead p g o) (b := b) place stands single held dst
  rw [s.replyIn_delivers place stands first found good held dst, data]
  refine ⟨?_, done, arrives⟩
  rw [State.group_congr fab, State.dropRead, State.group_setGroup_same, State.applied_group]

theorem State.completionIn_counts (first : s.applies p g m 7 = true) (found : (s.group p g).writes.find? (·.tag == m.tag) = some o)
    (good : m.status = 0) :
    ((s.completionIn p g m).group p g).writes = (s.group p g).writes.erase o ∧
      ((s.completionIn p g m).queue o.q).xfers[i]? = some { x with done := x.done + o.n } := by
  have done := State.xferDone_done ((s.applied p g m).dropWrite p g o) place stands
  have fab : (((s.applied p g m).dropWrite p g o).xferDone o).fab = ((s.applied p g m).dropWrite p g o).fab := by
    rw [State.xferDone_eq ((s.applied p g m).dropWrite p g o) place stands]
    rfl
  rw [s.completionIn_completes first found good]
  refine ⟨?_, done⟩
  rw [State.group_congr fab, State.dropWrite, State.group_setGroup_same, State.applied_group]

end

/-- Settles O32: each command by its equations, the memory by the block that it stores or reads. -/
theorem messagesAreApplied : Obligations.MessagesAreApplied := by
  intro s p g m l
  have taken : s.Takes (s.applied p g m) p g m := State.applied_takes p.val g.val m rfl
  refine ⟨fun b one ok =>
      ⟨fun first data => ⟨fun ready => ⟨_, rfl, s.writeIn_stores l first ok ready one data⟩,
          fun waits => congrArg Host.Outcome.next ((s.writeIn_accepts p g m l ok first).trans (if_neg (ne_true_of_eq_false waits)))⟩,
        fun first => ⟨fun ready => ?read,
          fun waits => congrArg Host.Outcome.next ((s.readIn_accepts p g m l ok first).trans (if_neg (ne_true_of_eq_false waits)))⟩,
        fun first data => ⟨fun ready => ⟨_, rfl, s.serviceReplyIn_stores l first ok ready one data⟩,
          fun waits => congrArg Host.Outcome.next
            ((s.serviceReplyIn_accepts p g m l ok first).trans (if_neg (ne_true_of_eq_false waits)))⟩⟩,
    fun bad => ⟨fun first => ⟨_, congrArg Host.Outcome.next (s.writeIn_refuses p g m l bad first), s.refused_spec 7 _⟩,
      fun first => ⟨_, congrArg Host.Outcome.next (s.readIn_refuses p g m l bad first), s.refused_spec 3 _⟩,
      fun first => ⟨_, congrArg Host.Outcome.next (s.serviceReplyIn_refuses p g m l bad first), rfl, rfl, taken,
        State.applied_out p.val g.val m rfl⟩⟩,
    fun o i x place stands good =>
      ⟨fun b first found single data dst held => ⟨_, rfl, s.replyIn_fills place stands first found good single data dst held⟩,
        fun first found => ⟨_, rfl, s.completionIn_counts place stands first found good⟩⟩,
    fun first => ⟨fun t tile bound map score range => ?chain,
      fun unbound => ⟨_, congrArg Host.Outcome.next (s.chainIn_unbound first unbound), taken, rfl⟩⟩,
    fun h => congrArg Host.Outcome.next (s.writeIn_idle p g m l h), fun h => congrArg Host.Outcome.next (s.readIn_idle p g m l h),
    fun h => congrArg Host.Outcome.next (s.replyIn_idle h), fun h => congrArg Host.Outcome.next (s.chainIn_idle h),
    fun h => congrArg Host.Outcome.next (s.serviceReplyIn_idle p g m l h),
    fun h => congrArg Host.Outcome.next (s.completionIn_idle h)⟩
  case read =>
    obtain ⟨bs, holds⟩ := s.readIn_reads l first ok ready one
    exact ⟨_, bs, rfl, holds⟩
  case chain =>
    have hops := s.chainIn_hops first tile bound map score range
    generalize start : mapEntry m.addr.toNat = e at *
    have same : (s.applied p g m).tile t = s.tile t := State.tile_congr (s.setGroup_tiles p g _) t
    have yellia : (s.applied p g m).compat = s.compat := rfl
    generalize s.applied p g m = v at *
    rw [← same]
    refine ⟨fun low none short => ?_, fun later some part whole => ?_⟩
    · rw [low, beq_self_eq_true, v.hopPart_first t e m.blocks none short] at hops
      refine ⟨_, congrArg Host.Outcome.next hops, taken.congr (v.hopKept_fab t e m.blocks true), ?_, v.hopKept_mant t e m.blocks true⟩
      rw [v.hopKept_rounds]
      rfl
    · rw [beq_eq_false_iff_ne.2 later, v.hopPart_second t e m.blocks some part] at hops
      have kept := v.hopKept_rounds t e m.blocks false
      have takes := taken.congr ((State.addArrived_fab _ t e).trans (v.hopKept_fab t e m.blocks false))
      refine ⟨fun none => ?_, fun r due opened order => ?_⟩
      · rw [State.addArrived_none _ t e (by rw [kept]; exact none)] at hops takes
        refine ⟨_, congrArg Host.Outcome.next hops, takes, ?_, v.hopKept_mant t e m.blocks false⟩
        rw [kept]
        rfl
      · exact ⟨_, congrArg Host.Outcome.next hops, takes, State.addArrived_entry _ t e _ (by rw [kept]; exact due)
          (by rw [kept]; rfl) whole ((v.hopKept_roundOpen t e m.blocks false r).trans opened) (yellia.trans order)⟩

end Sys2Proof.Machine
end

section
/-! SUPPORT. What an instruction that issues does beside its work: the bay's count, the strand's way on, and what its effect leaves of the
two; then the instructions that steer a strand and the event counters (R133, R137, R150 to R152, R155, R156, R159). -/

namespace Sys2Proof.Machine

/-! ### The state that an issue finds (R159) -/

/-- The strand past an instruction that issues. -/
def Strand.issued (x : Strand) (halted : Bool) (tick : Nat) (i : SInstr) : Strand := { x.past halted i with waitFrom := some tick }

/-- The state that an instruction's effect finds, the strand halted or not. -/
def State.issuing (s : State) (b j : Nat) (halted : Bool) (i : SInstr) : State :=
  (s.wrapInc (BAY_ISSUE_CNT.count.on b)).setStrand b j ((s.strand b j).issued halted s.tick i)

theorem State.bay_wrapInc (s : State) (f : Fld) (n b : Nat) : (s.wrapInc f n).bay b = s.bay b := rfl
theorem State.reg_setStrand (s : State) (b j : Nat) (x : Strand) (off : Nat) : (s.setStrand b j x).reg off = s.reg off := rfl

section
variable (s : State) (b j : Nat) (halted : Bool) (i : SInstr)

theorem State.issuing_strand : (s.issuing b j halted i).strand b j = (s.strand b j).issued halted s.tick i :=
  State.strand_setStrand_same _ b j _

theorem State.issuing_tiles : (s.issuing b j halted i).tiles = s.tiles := (State.modBay_tiles _ b _).trans (State.wrapInc_tiles s _ 1)
theorem State.issuing_stage : (s.issuing b j halted i).stage = s.stage := (State.modBay_stage _ b _).trans (State.wrapInc_stage s _ 1)
theorem State.issuing_strm : (s.issuing b j halted i).strm = s.strm := (State.modBay_strm _ b _).trans (State.wrapInc_strm s _ 1)
theorem State.issuing_scores : (s.issuing b j halted i).scores = s.scores := (State.modBay_scores _ b _).trans (State.wrapInc_scores s _ 1)

theorem State.issuing_reg {off : Nat} (h : off ≠ (BAY_ISSUE_CNT.count.on b).off) : (s.issuing b j halted i).reg off = s.reg off :=
  (State.reg_setStrand _ b j _ off).trans (s.reg_setFld_other _ _ off h)

theorem State.issuing_count : (s.issuing b j halted i).fld (BAY_ISSUE_CNT.count.on b) = (s.fld (BAY_ISSUE_CNT.count.on b) + 1) % 2 ^ 32 :=
  (State.fld_congr _ (State.reg_setStrand _ b j _ _)).trans (s.fld_setFld_on (f := BAY_ISSUE_CNT.count) (by decide) b _)

theorem State.issuing_bayScore : (s.issuing b j halted i).bayScore b = s.bayScore b := by
  have other : (GLB_BAY_OWNER.score.nth b).off ≠ (BAY_ISSUE_CNT.count.on b).off := by
    simp only [Fld.nth, Fld.on, GLB_BAY_OWNER.score, BAY_ISSUE_CNT.count]
    omega
  exact congrArg (BitVec.ofNat 16) (State.fld_congr _ (s.issuing_reg b j halted i other))

end

/-- The issue of a sound instruction, by its row or by a step of a halted strand, is the instruction's effect. -/
theorem State.issue_effect (s : State) {b j : Nat} {r : SeqRun} {i : SInstr} (sound : s.faultOf b j r i = none) (halted free : Bool) :
    s.issue b j r i halted free = (s.issuing b j halted i).effect b j (s.strand b j).pc.toNat r free i := by
  unfold State.issue
  dsimp only
  rw [s.faultOf_issueCount, sound, State.strand_wrapInc, State.wrapInc_tick]
  dsimp only [State.issuing, Strand.issued]

theorem State.atIssue_eq_issuing (s : State) (b j : Nat) (i : SInstr) : s.atIssue b j i = s.issuing b j false i := rfl

/-- The row of an instruction that may issue, its word read without an error, is the instruction's effect. -/
theorem State.strandRow_issues_issuing {s : State} {b j : Nat} {r : SeqRun} {i : SInstr} (may : s.mayIssue b j r i) {mine : SInstr → Bool}
    (own : mine i = true) (free : Bool) :
    s.strandRow b j .clean free mine = (s.issuing b j false i).effect b j (s.strand b j).pc.toNat r free i := by
  rw [State.strandRow_issues may own, s.atIssue_eq_issuing]

/-- Every instruction's command is one row of the sequencer. -/
theorem exec_row (i : SInstr) (b : BayId) (j : StrandId) (free : Bool) :
    ∃ (slot : Bool) (mine : SInstr → Bool), mine i = true ∧ ∀ (s : State) (e : Ecc),
      exec (i.row b j e free) s = .next (s.strandRow b j e slot mine) := by
  cases i <;> exact ⟨_, _, rfl, fun _ _ => rfl⟩

/-! ### Counters and the claims that a signal moves (R152, R232) -/

/-- Between two states claims moved and every counter of a score stands. -/
def State.CountersStand (s u : State) : Prop := s.ClaimsMoved u ∧ ∀ k, (u.score k).counters = (s.score k).counters

theorem State.CountersStand.refl (s : State) : s.CountersStand s := ⟨.refl s, fun _ => rfl⟩
theorem State.CountersStand.trans {s t u : State} (h : s.CountersStand t) (k : t.CountersStand u) : s.CountersStand u :=
  ⟨.trans _ _ _ h.1 k.1, fun i => (k.2 i).trans (h.2 i)⟩

theorem State.CountersStand.setPromise (s : State) (i : ScoreId) (n : Nat) (p : Promise) :
    s.CountersStand (s.setScore i ((s.score i).setPromise n p)) := ⟨s.setScore_moves i _, fun k => by
  rw [s.score_setScore]
  split
  · next same => rw [same]; rfl
  · rfl⟩

theorem State.CountersStand.raise (s : State) (f : FaultRec) : s.CountersStand (s.raise f) := by
  refine ⟨s.raise_moves f, fun k => ?_⟩
  obtain ⟨x, g, m, n, raised, -, -⟩ := s.raise_spec f
  rw [raised]
  rfl

theorem State.CountersStand.sendMsix (s : State) (v : Nat) : s.CountersStand (s.sendMsix v) := by
  refine ⟨s.sendMsix_moves v, fun k => ?_⟩
  obtain ⟨m, n, sent⟩ := s.sendMsix_spec v
  rw [sent]
  rfl

theorem State.CountersStand.setPromiseState (s : State) (i : ScoreId) (n : Nat) (st : BitVec 2) (cause : Nat) :
    s.CountersStand (s.setPromiseState i n st cause) := by
  unfold State.setPromiseState
  dsimp only
  split
  · exact .refl s
  · exact (CountersStand.setPromise s i n _).trans ((CountersStand.raise _ _).trans (.sendMsix _ 3))

theorem State.CountersStand.promiseBreak (s : State) (i : ScoreId) (n cause : Nat) : s.CountersStand (s.promiseBreak i n cause) := by
  unfold State.promiseBreak
  split
  · exact .refl s
  · exact .setPromiseState s i n 3 cause

theorem State.CountersStand.claimComplete (s : State) (i : ScoreId) (n : Nat) : s.CountersStand (s.claimComplete i n) := by
  unfold State.claimComplete
  dsimp only
  split
  · exact .refl s
  · split
    · exact (CountersStand.setPromise s i n _).trans (.promiseBreak _ i n _)
    · exact .setPromise s i n _

theorem State.CountersStand.claimsOf (s : State) (b : Nat) (i : ScoreId) (ev : Nat) : s.CountersStand (s.claimsOf b i ev) := by
  unfold State.claimsOf
  refine foldl_does State.CountersStand .refl (fun _ _ _ => .trans) _ (fun s x => ?_) _ s
  have first : s.CountersStand (if x.2.completion = ev && (decide (256 ≤ ev) || (s.claimBays i x.2).contains b)
      then s.claimComplete i x.1 else s) := by
    split
    · exact .claimComplete s i x.1
    · exact .refl s
  dsimp only
  split
  · exact first.trans (.setPromise _ i x.1 _)
  · exact first

/-- The count of an event counter, of a bay or of a score. -/
def State.countOf (s : State) (b : Nat) (i : ScoreId) (ev : Nat) : Nat :=
  if ev < 256 then (Tab.get dZero (s.bay b).events ev).toNat else ((s.score i).counter ev).toNat

section
variable (s : State) (b j : Nat) (i : ScoreId) (ev : Nat)

/-- Beyond the counter, a signal is a matter of claims, records and vectors. -/
theorem State.signal_stands (inc unit pc : Nat) :
    (s.setCounter b i ev (min (s.countOf b i ev + inc) 65535)).CountersStand (s.signal b i ev inc unit pc) := by
  unfold State.signal
  dsimp only
  generalize counted : s.setCounter b i ev (min (s.countOf b i ev + inc) 65535) = t
  rw [show (if ev < 256 then (Tab.get dZero (s.bay b).events ev).toNat else ((s.score i).counter ev).toNat) = s.countOf b i ev from rfl,
    counted]
  have full : t.CountersStand (if 65535 < s.countOf b i ev + inc then
      t.raise { cls := 1, code := 16, score := i, unit := unit, arg0 := pc, arg1 := ev } else t) := by
    split
    · exact .raise t _
    · exact .refl t
  refine full.trans ?_
  generalize (if 65535 < s.countOf b i ev + inc then _ else t) = v
  split
  · exact (CountersStand.sendMsix v _).trans (.claimsOf _ b i ev)
  · exact .claimsOf v b i ev

theorem State.CountersStand.countOf {s u : State} (h : s.CountersStand u) : u.countOf b i ev = s.countOf b i ev := by
  unfold State.countOf Score.counter
  rw [h.2, State.bay_congr h.1.bays]

theorem State.setCounter_strand (v : Nat) : (s.setCounter b i ev v).strand b j = s.strand b j := by
  unfold State.setCounter State.strand
  split
  · rw [s.bay_modBay_same]
    rfl
  · rfl

theorem State.setCounter_reg (v off : Nat) : (s.setCounter b i ev v).reg off = s.reg off := by
  unfold State.setCounter
  split <;> rfl

theorem State.countOf_setCounter {v : Nat} (h : v ≤ 65535) : (s.setCounter b i ev v).countOf b i ev = v := by
  have fits : (BitVec.ofNat 16 v).toNat = v := (BitVec.toNat_ofNat v 16).trans (Nat.mod_eq_of_lt (by omega))
  unfold State.setCounter State.countOf
  by_cases bay : ev < 256
  · rw [if_pos bay, if_pos bay, s.bay_modBay_same, Tab.get_set_same, fits]
  · rw [if_neg bay, if_neg bay, s.score_setScore_same]
    unfold Score.counter
    rw [Tab.get_set_same, fits]

theorem State.countOf_signal (inc unit pc : Nat) : (s.signal b i ev inc unit pc).countOf b i ev = min (s.countOf b i ev + inc) 65535 :=
  ((s.signal_stands b i ev inc unit pc).countOf b i ev).trans (s.countOf_setCounter b i ev (Nat.min_le_right _ _))

theorem State.signal_strand (inc unit pc : Nat) : (s.signal b i ev inc unit pc).strand b j = s.strand b j :=
  (congrArg (·.strand j) (State.bay_congr (s.signal_stands b i ev inc unit pc).1.bays b)).trans (s.setCounter_strand b j i ev _)

theorem State.signal_reg (inc unit pc : Nat) {off : Nat} (h : off ≠ GLB_FLT_PTR.wr.off) :
    (s.signal b i ev inc unit pc).reg off = s.reg off :=
  ((s.signal_stands b i ev inc unit pc).1.reg h).trans (s.setCounter_reg b i ev _ off)

end

end Sys2Proof.Machine
end

section
/-! SUPPORT. The instructions that steer a strand and the event counters (R133, R137, R150, R152, R155, R156, R159). -/

namespace Sys2Proof.Machine

section
variable (s : State) (b j : Nat) (halted : Bool)

theorem State.issuing_counter (i : SInstr) (ev : Nat) : (s.issuing b j halted i).counter b ev = s.counter b ev := by
  have same : ((s.issuing b j halted i).bay b).events = (s.bay b).events := by
    unfold State.issuing State.setStrand
    rw [State.bay_modBay_same, State.bay_wrapInc]
    rfl
  unfold State.counter
  rw [s.issuing_bayScore, same, State.score_congr (s.issuing_scores b j halted i)]

/-- A row that issues an instruction counts it. -/
theorem State.issuing_counted {t : State} (i : SInstr) (h : t.reg (BAY_ISSUE_CNT.count.on b).off =
    (s.issuing b j halted i).reg (BAY_ISSUE_CNT.count.on b).off) :
    t.fld (BAY_ISSUE_CNT.count.on b) = (s.fld (BAY_ISSUE_CNT.count.on b) + 1) % 2 ^ 32 :=
  (State.fld_congr _ h).trans (s.issuing_count b j halted i)

end

theorem issueCount_ne_fltPtr (b : Nat) : (BAY_ISSUE_CNT.count.on b).off ≠ GLB_FLT_PTR.wr.off := Fld.on_off_ne_below (by decide) b

/-! ### Effects (R150, R152, R155, R156) -/

section
variable (s : State) (b j : Nat) (pc : BitVec 14) (r : SeqRun) (free : Bool)

theorem State.effect_loop (cm1 last : Nat) :
    (s.effect b j pc.toNat r free (.loop cm1 last)).strand b j =
      { s.strand b j with loops := ⟨pc + 1, BitVec.ofNat 14 last, cm1⟩ :: (s.strand b j).loops } := by
  have next : BitVec.ofNat 14 (pc.toNat + 1) = pc + 1 := by
    apply BitVec.eq_of_toNat_eq
    rw [BitVec.toNat_ofNat, BitVec.toNat_add]
    rfl
  unfold State.effect
  dsimp only
  rw [State.strand_setStrand_same, next]

theorem State.effect_loop_reg (cm1 last off : Nat) : (s.effect b j pc.toNat r free (.loop cm1 last)).reg off = s.reg off := rfl

theorem State.effect_endStrand :
    (s.effect b j pc.toNat r free .endStrand).strand b j = { s.strand b j with state := .idle } := State.strand_setStrand_same s b j _

theorem State.effect_endStrand_reg (off : Nat) : (s.effect b j pc.toNat r free .endStrand).reg off = s.reg off := rfl

theorem State.effect_brt_pc (cond tgt : Nat) :
    ((s.effect b j pc.toNat r free (.brt cond tgt)).strand b j).pc =
      if branchTaken cond (s.strand b j).neg (s.strand b j).zero (s.strand b j).pep = true then BitVec.ofNat 14 tgt
      else (s.strand b j).pc := by
  unfold State.effect
  dsimp only
  split
  · rw [State.strand_setStrand_same]
  · rfl

theorem State.effect_brt_reg (cond tgt off : Nat) : (s.effect b j pc.toNat r free (.brt cond tgt)).reg off = s.reg off := by
  unfold State.effect
  dsimp only
  split <;> rfl

/-- An EVS counts up; its strand goes on. -/
theorem State.effect_evs (h : b < 8) (ev inc : Nat) :
    (s.effect b j pc.toNat r free (.evs ev inc)).reg (BAY_ISSUE_CNT.count.on b).off = s.reg (BAY_ISSUE_CNT.count.on b).off ∧
    (s.effect b j pc.toNat r free (.evs ev inc)).counter b ev = min (s.counter b ev + inc) 65535 ∧
    (s.effect b j pc.toNat r free (.evs ev inc)).strand b j = s.strand b j := by
  have owner : (GLB_BAY_OWNER.score.nth b).off ≠ GLB_FLT_PTR.wr.off := by
    simp only [Fld.nth, GLB_BAY_OWNER.score, GLB_FLT_PTR.wr]
    omega
  have same : (s.signal b (s.bayScore b) ev inc (64 * b + j) pc.toNat).bayScore b = s.bayScore b :=
    congrArg (BitVec.ofNat 16) (State.fld_congr _ (s.signal_reg b (s.bayScore b) ev inc (64 * b + j) pc.toNat owner))
  have counted := s.countOf_signal b (s.bayScore b) ev inc (64 * b + j) pc.toNat
  refine ⟨s.signal_reg b _ ev inc _ _ (issueCount_ne_fltPtr b), ?_, s.signal_strand b j _ ev inc _ _⟩
  unfold State.effect
  dsimp only
  unfold State.counter
  rw [same]
  exact counted

/-- An EVW takes its amount off; its strand goes on. -/
theorem State.effect_evw (ev n tmo : Nat) (off : Nat) :
    (s.effect b j pc.toNat r free (.evw ev n tmo)).reg off = s.reg off ∧
    (s.effect b j pc.toNat r free (.evw ev n tmo)).counter b ev = s.counter b ev - n ∧
    (s.effect b j pc.toNat r free (.evw ev n tmo)).strand b j = s.strand b j := by
  let u := s.setCounter b (s.bayScore b) ev (s.counter b ev - n)
  have reg : u.reg off = s.reg off := s.setCounter_reg b _ ev _ off
  have same : u.bayScore b = s.bayScore b := congrArg (BitVec.ofNat 16) (State.fld_congr _ (s.setCounter_reg b _ ev _ _))
  have small : s.counter b ev ≤ 65535 := by
    unfold State.counter
    split <;> exact Nat.le_of_lt_succ (BitVec.isLt _)
  have counted : u.counter b ev = s.counter b ev - n := by
    have set := s.countOf_setCounter b (s.bayScore b) ev (v := s.counter b ev - n) (by omega)
    unfold State.counter
    rw [same]
    exact set
  have strand : u.strand b j = s.strand b j := s.setCounter_strand b j _ ev _
  unfold State.effect
  dsimp only
  split
  · exact ⟨reg, counted, strand⟩
  · exact ⟨reg, counted, strand⟩

end

/-! ### The statement -/

/-- What an EVW is granted, its counter has. -/
theorem State.le_counter_of_evw {s : State} {b j ev n tmo : Nat} (met : s.waitOf b j (.evw ev n tmo) = none) : n ≤ s.counter b ev := by
  have granted : s.evwGranted b j ev n = true := by
    by_contra not
    unfold State.waitOf at met
    simp only [not, if_false] at met
    exact nomatch met
  exact of_decide_eq_true (Bool.and_eq_true_iff.1 granted).1

/-- Settles O8: each instruction that may issue is its effect on the state that its issue finds. -/
theorem strandControlIssues : Obligations.StrandControlIssues := by
  intro s b j r past counted
  have issues {i : SInstr} {mine : SInstr → Bool} (may : s.mayIssue b j r i) (own : mine i = true) :=
    congrArg (Host.Outcome.next (φ := Fault) (ρ := Refusal)) (State.strandRow_issues_issuing may own false)
  have strand (i : SInstr) := s.issuing_strand b j false i
  have count (i : SInstr) := s.issuing_count b j false i
  refine ⟨fun may => ⟨_, issues may rfl, ?nop⟩, fun q mode n tag tmo may => ⟨_, issues may rfl, ?swt⟩,
    fun cm1 last may => ⟨_, issues may rfl, ?loop⟩, fun may => ⟨_, issues may rfl, ?idle⟩, fun cond tgt may => ⟨_, issues may rfl, ?brt⟩,
    fun ev n may => ⟨_, issues may rfl, ?evs⟩, fun ev n tmo may => ⟨State.le_counter_of_evw may.2.2.1, _, issues may rfl, ?evw⟩⟩
  case nop | swt =>
    exact ⟨strand _, count _, s.issuing_tiles b j false _, s.issuing_stage b j false _, s.issuing_strm b j false _,
      s.issuing_scores b j false _⟩
  case loop =>
    refine ⟨s.issuing_counted b j false _ (State.effect_loop_reg _ b j _ r false cm1 last _), ?_⟩
    rw [State.effect_loop, strand]
    exact ⟨rfl, rfl⟩
  case idle =>
    refine ⟨s.issuing_counted b j false _ (State.effect_endStrand_reg _ b j _ r false _), ?_⟩
    rw [State.effect_endStrand, strand]
    exact ⟨rfl, rfl⟩
  case brt =>
    refine ⟨s.issuing_counted b j false _ (State.effect_brt_reg _ b j _ r false cond tgt _), ?_⟩
    rw [State.effect_brt_pc, strand]
    rfl
  case evs =>
    obtain ⟨reg, value, on⟩ := State.effect_evs (s.issuing b j false (.evs ev n)) b j (s.strand b j).pc r false b.isLt ev n
    exact ⟨s.issuing_counted b j false _ reg, value.trans (by rw [s.issuing_counter]), on.trans (strand _)⟩
  case evw =>
    obtain ⟨reg, value, on⟩ := State.effect_evw (s.issuing b j false (.evw ev n tmo)) b j (s.strand b j).pc r false ev n tmo _
    exact ⟨s.issuing_counted b j false _ reg, value.trans (by rw [s.issuing_counter]), on.trans (strand _)⟩

end Sys2Proof.Machine
end

section
/-! SUPPORT. The queues that the sequencer fills beside the window queues, and the trace ring (R142, R148, R150, R151, R158, R174). -/

namespace Sys2Proof.Machine

/-! ### Loads, drains and transfers (R142, R148, R151) -/

/-- A tile whose load queue has taken a load. -/
def Tile.loaded (x : Tile) (mk : Nat → Load) : Tile := { x with stamp := x.stamp + 1, loadQ := x.loadQ ++ [mk x.stamp] }

theorem State.tile_modTile (s : State) (t k : Nat) (f : Tile → Tile) :
    (s.modTile t f).tile k = if k = t then f (s.tile t) else s.tile k := s.tile_setTile t k _

/-- Loads put into queues one after another all stand in their tiles' queues. -/
theorem State.mem_foldl_loaded (s : State) {α : Type} (tileOf : α → Nat) (mk : α → Nat → Load) {l : List α} {a : α} (h : a ∈ l) :
    ∃ st, mk a st ∈ ((l.foldl (fun u x => u.modTile (tileOf x) fun y => y.loaded (mk x)) s).tile (tileOf a)).loadQ := by
  refine foldl_establishes (fun x u => ∃ st, mk x st ∈ (u.tile (tileOf x)).loadQ) _ (fun u x => ⟨(u.tile (tileOf x)).stamp, ?_⟩)
    (fun u a x ⟨st, stands⟩ => ⟨st, ?_⟩) h s
  · rw [State.tile_modTile_same]
    exact List.mem_append_right _ (List.mem_singleton_self _)
  · rw [State.tile_modTile]
    split
    · next same => exact List.mem_append_left _ (same ▸ stands)
    · exact stands

section
variable (s : State) (b j : Nat) (pc : BitVec 14) (r : SeqRun) (free : Bool) (ev : Option (BitVec 9))

/-- A PLD's load stands in the load queue of each tile that it names. -/
theorem State.effect_pld {m n k : Nat} (named : (maskList 4 m)[n]? = some k) (pl : Nat) (zero : Bool) (addr : Nat) :
    ∃ st job, (⟨st, job, j, pc, BitVec.ofNat 2 pl, zero, addr + n * 0x10400, 0, 0, false⟩ : Load) ∈
      ((s.effect b j pc.toNat r free (.pld m pl zero addr ev)).tile (4 * b + k)).loadQ := by
  have placed : (k, n) ∈ (maskList 4 m).zipIdx := List.mk_mem_zipIdx_iff_getElem?.2 named
  have some_tile : ¬ (maskList 4 m).isEmpty = true := by simpa using List.ne_nil_of_mem (List.mem_of_getElem? named)
  unfold State.effect
  dsimp only
  rw [if_neg some_tile, BitVec.ofNat_toNat, BitVec.setWidth_eq]
  let job := s.newJob b (maskList 4 m).length ev j pc.toNat (s.strand b j).cls
  obtain ⟨st, stands⟩ := job.2.mem_foldl_loaded (fun x => 4 * b + x.1)
    (fun x st => ⟨st, job.1, j, pc, BitVec.ofNat 2 pl, zero, addr + x.2 * 0x10400, 0, 0, false⟩) placed
  exact ⟨st, job.1, stands⟩

/-- The drain of a DRN, with its stamp and its job. -/
def drainOf (st job j entry cnt fmt : Nat) (rnd clr : Bool) (kk dst addr : Nat) (tst : Bool) (trow : Nat) : Drain :=
  ⟨st, job, j, entry, cnt + 1, BitVec.ofNat 3 fmt, rnd, clr, BitVec.ofNat 8 kk, BitVec.ofNat 2 dst, if dst = 0 then 64 * addr else addr, tst,
    trow, [], true, false⟩

/-- A DRN's drain stands in the drain queue of its tile. -/
theorem State.effect_drn (k entry cnt fmt : Nat) (rnd clr : Bool) (kk dst addr : Nat) (tst : Bool) (trow : Nat) :
    ∃ st job, drainOf st job j entry cnt fmt rnd clr kk dst addr tst trow ∈
      ((s.effect b j pc.toNat r free (.drn k entry cnt fmt rnd clr kk dst addr tst trow ev)).tile (4 * b + k)).drainQ := by
  let job := s.newJob b 1 ev j pc.toNat (s.strand b j).cls
  refine ⟨((job.2.tile (4 * b + k)).closeFor entry cnt).stamp, job.1, ?_⟩
  unfold State.effect
  dsimp only
  split
  · rw [State.tile_congr (State.setStrand_tiles _ b j _), State.tile_modTile_same]
    exact List.mem_append_right _ (List.mem_singleton_self _)
  · rw [State.tile_modTile_same]
    exact List.mem_append_right _ (List.mem_singleton_self _)

/-- A DRN that tests makes the flags of its strand not valid. -/
theorem State.effect_drn_tests (k entry cnt fmt : Nat) (rnd clr : Bool) (kk dst addr trow : Nat) :
    ((s.effect b j pc.toNat r free (.drn k entry cnt fmt rnd clr kk dst addr true trow ev)).strand b j).valid = false ∧
    ((s.effect b j pc.toNat r free (.drn k entry cnt fmt rnd clr kk dst addr true trow ev)).strand b j).tstEver = true := by
  unfold State.effect
  dsimp only
  rw [if_pos rfl, State.strand_setStrand_same]
  exact ⟨rfl, rfl⟩

/-- An SMV's transfer stands at the end of its queue, not started. -/
theorem State.effect_smv {q desc tag : Nat} {d : Nat × Desc} (found : r.descs.find? (·.1 == desc) = some d) :
    ∃ job, ((s.effect b j pc.toNat r free (.smv q desc tag ev)).queue (globalQueue b q)).xfers = (s.queue (globalQueue b q)).xfers ++
      [⟨b, (s.strand b j).cls, j, job, BitVec.ofNat 8 tag, d.2, false, 0, d.2.blocks, 0, [], (0, false), none, none⟩] := by
  refine ⟨(s.newJob b 1 ev j pc.toNat (s.strand b j).cls).1, ?_⟩
  unfold State.effect
  simp only [found]
  split
  · exact congrArg Queue.xfers (State.queue_setQueue_same _ _ _)
  · rw [State.queue_setQueue_same]
    rfl

end

/-- Settles O10: each instruction that may issue is its effect, and each effect puts its work at the end of its queue. -/
theorem loadsDrainsAndMovesQueue : Obligations.LoadsDrainsAndMovesQueue := by
  intro s b j r ev
  have issues {i : SInstr} {mine : SInstr → Bool} (may : s.mayIssue b j r i) (own : mine i = true) :=
    congrArg (Host.Outcome.next (φ := Fault) (ρ := Refusal)) (State.strandRow_issues_issuing may own false)
  refine ⟨fun m pl zero addr may => ⟨_, issues may rfl, fun n k named => ?pld⟩,
    fun k entry cnt fmt rnd clr sh dst addr tst trow may => ⟨_, issues may rfl, ?drn, ?tests⟩,
    fun q desc tag d may found => ⟨_, issues may rfl, ?smv⟩⟩
  case pld => exact State.effect_pld _ b j (s.strand b j).pc r false ev named pl zero addr
  case drn =>
    obtain ⟨st, job, stands⟩ := State.effect_drn (s.issuing b j false _) b j (s.strand b j).pc r false ev k entry cnt fmt rnd clr sh dst
      addr tst trow
    exact ⟨_, stands, rfl, rfl, rfl, rfl, rfl, rfl⟩
  case tests =>
    rintro rfl
    exact State.effect_drn_tests _ b j (s.strand b j).pc r false ev k entry cnt fmt rnd clr sh dst addr trow
  case smv =>
    obtain ⟨job, queued⟩ := State.effect_smv (s.issuing b j false (.smv q desc tag ev)) b j (s.strand b j).pc r false ev (tag := tag) found
    have queues : (s.issuing b j false (.smv q desc tag ev)).queue (globalQueue b q) = s.queue (globalQueue b q) :=
      congrArg (fun x : Streams => Tab.get dQueue x.queues _) (s.issuing_strm b j false _)
    rw [queues] at queued
    exact ⟨_, queued, rfl, (congrArg Strand.cls (s.issuing_strand b j false (.smv q desc tag ev))).trans rfl, rfl, rfl, rfl, rfl, rfl, rfl⟩

end Sys2Proof.Machine
end

section
/-! SUPPORT. The trace ring: what a mark writes, drops or leaves (R158, R174). -/

namespace Sys2Proof.Machine

/-! ### Bytes written for a unit's work -/

theorem State.StageMoved.refreshBlock (s : State) (a : Nat) : s.StageMoved (s.refreshBlock a) := by
  rcases s.refreshBlock_cases a with same | written
  · rw [same]
    exact .refl s
  · rw [written]
    exact s.writeBlock_moves a _

theorem State.StageMoved.writeBytes (s : State) (a : Nat) (bs : List Byte) : s.StageMoved (s.writeBytes a bs) := by
  obtain ⟨b, f, c, written⟩ := s.writeBytes_spec a bs
  rw [written]
  exact ⟨_, s.faults, s.regs, s.cmd.msix, s.cmd.sent, rfl, fun _ _ => rfl⟩

theorem State.StageMoved.storeBytes (s : State) (a : Nat) (bs : List Byte) : s.StageMoved (s.storeBytes a bs) := by
  have refreshed := foldl_does State.StageMoved .refl (fun _ _ _ => .trans) (fun s k => s.refreshBlock (a / 64 * 64 + 64 * k))
    (fun u k => .refreshBlock u _) (List.range ((a % 64 + bs.length + 63) / 64)) s
  exact refreshed.trans (.writeBytes _ a bs)

theorem State.StageMoved.putBytes (s : State) (q a : Nat) (bs : List Byte) : s.StageMoved (s.putBytes q a bs) := by
  unfold State.putBytes
  split
  · exact s.droppedWrite_moves q _ a
  · exact .storeBytes s a bs

theorem State.StageMoved.reg {s u : State} (h : s.StageMoved u) {off : Nat} (p : off ≠ GLB_FLT_PTR.wr.off) : u.reg off = s.reg off := by
  obtain ⟨_, _, _, _, _, _, regs⟩ := h
  exact regs off p

theorem State.stageByte_congr {s u : State} (h : u.stage = s.stage) (a : Nat) : u.stageByte a = s.stageByte a := by
  unfold State.stageByte
  rw [h]

theorem State.hasSlot_congr {s u : State} (h : u.stage = s.stage) (a : Nat) (kinds : List Nat) (code : BitVec 4) :
    u.hasSlot a kinds code = s.hasSlot a kinds code := by
  unfold State.hasSlot State.slotOwner
  rw [h]

theorem State.blockBad_congr {s u : State} (h : u.stage = s.stage) (a : Nat) : u.blockBad a = s.blockBad a := by
  unfold State.blockBad State.wordFlips State.stageFlip
  rw [h]

theorem State.holdsDesc_congr {s u : State} (h : u.scores = s.scores) (a : Nat) : u.holdsDesc a = s.holdsDesc a := by
  unfold State.holdsDesc State.granScore
  rw [h, State.score_congr h]

/-! ### The ring (R158) -/

/-- The address of the next record of a bay's trace ring. -/
def State.traceAt (s : State) (b : Nat) : Nat := 64 * s.fld (BAY_TRACE_ADDR.addr.on b) + 16 * s.fld (BAY_TRACE_PTR.next.on b)

section
variable (s : State) (b j pc : Nat) (v : Word) (free : Bool)

theorem State.issueMrk_off (h : s.flag (BAY_TRACE_CTL.en.on b) = false) : s.issueMrk b j pc v free = s := by
  unfold State.issueMrk
  rw [h, if_neg Bool.false_ne_true]

theorem State.issueMrk_drops (h : s.flag (BAY_TRACE_CTL.en.on b) = true) (full : (free && s.hasSlot (s.traceAt b) writeKinds 5) = false) :
    s.issueMrk b j pc v free = s.bump (BAY_TRACE_CTL.drops.on b) := by
  unfold State.issueMrk State.ringWrite
  rw [h, if_pos rfl]
  exact if_neg (by rw [← State.traceAt, full]; exact Bool.false_ne_true)

theorem State.issueMrk_writes (h : s.flag (BAY_TRACE_CTL.en.on b) = true) (slot : (free && s.hasSlot (s.traceAt b) writeKinds 5) = true) :
    s.issueMrk b j pc v free = (s.putBytes 0xFFFF (s.traceAt b) (leBytes 16 (traceRecord s.coreCycles j (s.strand b j).cls b pc v))).setFld
      (BAY_TRACE_PTR.next.on b) ((s.fld (BAY_TRACE_PTR.next.on b) + 1) % (2 ^ (s.fld (BAY_TRACE_CTL.size.on b) + 10) / 16)) := by
  unfold State.issueMrk State.ringWrite
  rw [h, if_pos rfl]
  exact if_pos slot

/-- A mark leaves tiles, bays and the count of issues. -/
theorem State.issueMrk_keeps : s.UnitsKept (s.issueMrk b j pc v free) ∧
    (s.issueMrk b j pc v free).reg (BAY_ISSUE_CNT.count.on b).off = s.reg (BAY_ISSUE_CNT.count.on b).off := by
  cases on : s.flag (BAY_TRACE_CTL.en.on b) with
  | false =>
    rw [s.issueMrk_off b j pc v free on]
    exact ⟨.refl s, rfl⟩
  | true =>
    cases slot : free && s.hasSlot (s.traceAt b) writeKinds 5 with
    | false =>
      rw [s.issueMrk_drops b j pc v free on slot]
      exact ⟨.setFld s _ _, s.reg_setFld_other _ _ _ (Fld.on_off_ne_on (by decide) b)⟩
    | true =>
      rw [s.issueMrk_writes b j pc v free on slot]
      refine ⟨(State.UnitsKept.putBytes s _ _ _).trans (.setFld _ _ _), (State.reg_setFld_other _ _ _ _ (Fld.on_off_ne_on (by decide) b)).trans ?_⟩
      exact (State.StageMoved.putBytes s _ _ _).reg (issueCount_ne_fltPtr b)

/-- The entries of a trace ring are within the width of its pointer. -/
theorem tracePtr_lt {size : Nat} (h : size < 2 ^ 4) (n : Nat) : n % (2 ^ (size + 10) / 16) < 2 ^ 21 := by
  have wide : 2 ^ (size + 10) / 16 = 2 ^ (size + 6) := by
    rw [show size + 10 = size + 6 + 4 by omega, Nat.pow_add _ _ 4]
    exact Nat.mul_div_cancel _ (by decide)
  rw [wide]
  exact Nat.lt_of_lt_of_le (Nat.mod_lt _ (Nat.two_pow_pos _)) (Nat.pow_le_pow_right Nat.two_pos (by omega))

/-- A record that is written moves the pointer on. -/
theorem State.issueMrk_next (h : s.flag (BAY_TRACE_CTL.en.on b) = true) (slot : (free && s.hasSlot (s.traceAt b) writeKinds 5) = true) :
    (s.issueMrk b j pc v free).fld (BAY_TRACE_PTR.next.on b) =
      (s.fld (BAY_TRACE_PTR.next.on b) + 1) % (2 ^ (s.fld (BAY_TRACE_CTL.size.on b) + 10) / 16) := by
  rw [s.issueMrk_writes b j pc v free h slot, State.fld_setFld_on _ (f := BAY_TRACE_PTR.next) (by decide) b]
  exact Nat.mod_eq_of_lt (tracePtr_lt (s.fld_lt (BAY_TRACE_CTL.size.on b)) _)

/-- A record that is written stands in stage memory, and nothing else there changes. -/
theorem State.issueMrk_record (h : s.flag (BAY_TRACE_CTL.en.on b) = true) (slot : (free && s.hasSlot (s.traceAt b) writeKinds 5) = true)
    (first : s.holdsDesc (s.traceAt b) = false) (last : s.holdsDesc (s.traceAt b + 15) = false) :
    (s.issueMrk b j pc v free).stageBytesAt (s.traceAt b) 16 = leBytes 16 (traceRecord s.coreCycles j (s.strand b j).cls b pc v) ∧
    ((∀ k, s.blockBad (64 * k) = false) → ∀ n, (n < s.traceAt b ∨ s.traceAt b + 16 ≤ n) →
      (s.issueMrk b j pc v free).stageByte n = s.stageByte n) := by
  generalize bytes : leBytes 16 (traceRecord s.coreCycles j (s.strand b j).cls b pc v) = l
  have length : l.length = 16 := bytes ▸ leBytes_length 16 _
  have stored : s.putBytes 0xFFFF (s.traceAt b) l = s.storeBytes (s.traceAt b) l := by
    refine if_neg ?_
    rw [length, first, show s.traceAt b + 16 - 1 = s.traceAt b + 15 by omega, last]
    exact Bool.false_ne_true
  have stage : (s.issueMrk b j pc v free).stage = (s.storeBytes (s.traceAt b) l).stage := by
    rw [s.issueMrk_writes b j pc v free h slot, State.setFld_stage, bytes, stored]
  refine ⟨?_, fun good n outside => ?_⟩
  · rw [← length]
    refine State.stageBytesAt_eq _ _ l fun n inside => ?_
    rw [State.stageByte_congr stage, s.stageByte_storeBytes_inside _ _ inside]
  · rw [State.stageByte_congr stage, s.stageByte_storeBytes_outside _ _ good (by rw [length]; exact outside)]

end

/-! ### The statement -/

section
variable (s : State) (b j : Nat) (halted : Bool) (i : SInstr)

/-- An issue leaves the registers of the trace ring. -/
theorem State.issuing_traceCtl : (s.issuing b j halted i).reg (BAY_TRACE_CTL.en.on b).off = s.reg (BAY_TRACE_CTL.en.on b).off :=
  s.issuing_reg b j halted i (Fld.on_off_ne_on (by decide) b)
theorem State.issuing_tracePtr : (s.issuing b j halted i).reg (BAY_TRACE_PTR.next.on b).off = s.reg (BAY_TRACE_PTR.next.on b).off :=
  s.issuing_reg b j halted i (Fld.on_off_ne_on (by decide) b)

theorem State.issuing_traceAt : (s.issuing b j halted i).traceAt b = s.traceAt b := by
  unfold State.traceAt
  rw [State.fld_congr (BAY_TRACE_PTR.next.on b) (s.issuing_tracePtr b j halted i),
    State.fld_congr (BAY_TRACE_ADDR.addr.on b) (s.issuing_reg b j halted i (Fld.on_off_ne_on (by decide) b))]

theorem State.issuing_cycles : (s.issuing b j halted i).coreCycles = s.coreCycles := by
  unfold State.coreCycles State.issuing State.setStrand
  rw [State.modBay_tick, State.modBay_core, State.wrapInc_tick, State.wrapInc_core]

end

/-- Settles O11: an MRK that issues writes a record, drops it, or leaves the ring, by the ring's registers and its slot. -/
theorem marksAreTraced : Obligations.MarksAreTraced := by
  intro s b j r v free may a entries
  let u := s.issuing b j false (.mrk v)
  have issued : exec (.mrk b j .clean free) s = .next (u.issueMrk b j (s.strand b j).pc.toNat v free) :=
    congrArg (Host.Outcome.next (φ := Fault) (ρ := Refusal)) (State.strandRow_issues_issuing (mine := isMrk) may rfl free)
  have at_ : u.traceAt b = a := s.issuing_traceAt b j false _
  have on : u.flag (BAY_TRACE_CTL.en.on b) = s.flag (BAY_TRACE_CTL.en.on b) := State.flag_congr _ (s.issuing_traceCtl b j false _)
  have next : u.fld (BAY_TRACE_PTR.next.on b) = s.fld (BAY_TRACE_PTR.next.on b) := State.fld_congr _ (s.issuing_tracePtr b j false _)
  have drops : u.fld (BAY_TRACE_CTL.drops.on b) = s.fld (BAY_TRACE_CTL.drops.on b) := State.fld_congr _ (s.issuing_traceCtl b j false _)
  have size : u.fld (BAY_TRACE_CTL.size.on b) = s.fld (BAY_TRACE_CTL.size.on b) := State.fld_congr _ (s.issuing_traceCtl b j false _)
  have stage : u.stage = s.stage := s.issuing_stage b j false _
  have slot : (free && u.hasSlot (u.traceAt b) writeKinds 5) = (free && s.hasSlot a writeKinds 5) := by
    rw [at_, State.hasSlot_congr stage]
  have desc (n : Nat) : u.holdsDesc n = s.holdsDesc n := State.holdsDesc_congr (s.issuing_scores b j false _) n
  have strand : u.strand b j = _ := s.issuing_strand b j false _
  obtain ⟨units, count⟩ := u.issueMrk_keeps b j (s.strand b j).pc.toNat v free
  refine ⟨_, issued, (congrArg (·.strand j) (State.bay_congr units.2 b)).trans strand, s.issuing_counted b j false _ count,
    units.1.trans (s.issuing_tiles b j false _), fun off => ?off, fun en free_ full => ?writes, fun en none => ?drops⟩
  case off =>
    rw [u.issueMrk_off b j _ v free (on.trans off)]
    exact ⟨stage, next, drops⟩
  case writes =>
    have here := slot.trans (by rw [free_, full])
    refine ⟨(u.issueMrk_next b j _ v free (on.trans en) here).trans (by rw [next, size]), fun first last => ?_⟩
    have record := u.issueMrk_record b j (s.strand b j).pc.toNat v free (on.trans en) here (by rw [at_, desc, first]) (by rw [at_, desc, last])
    rw [at_, s.issuing_cycles, strand] at record
    exact ⟨record.1, fun good n outside => (record.2 (fun k => (State.blockBad_congr stage _).trans (good k)) n outside).trans
      (State.stageByte_congr stage n)⟩
  case drops =>
    have full : (free && u.hasSlot (u.traceAt b) writeKinds 5) = false := by
      rw [slot]
      rcases none with taken | none
      · rw [taken, Bool.false_and]
      · rw [none, Bool.and_false]
    rw [u.issueMrk_drops b j _ v free (on.trans en) full, State.bump_stage, State.fld_bump_on _ (f := BAY_TRACE_CTL.drops) (by decide) b rfl,
      drops]
    exact ⟨stage, rfl⟩

end Sys2Proof.Machine
end

section
/-! SUPPORT. What a row of the sequencer comes to when its instruction does not issue: the wait, the strand's fault, the errors of the fetch,
and the timeout of a wait (R134 to R137, R154, R159, R172, R173). -/

namespace Sys2Proof.Machine

/-! ### A strand that has faulted (R172, R173) -/

/-- The flag of a class that shows a fault of its strands. -/
def faultFlag (c : Cls) : Fld := if c = .assured then BAY_SEQ_STAT.a_flt else BAY_SEQ_STAT.s_flt

theorem faultFlag_spec (c : Cls) : (faultFlag c).Fits ∧ (faultFlag c).off = 0x100004 := by
  unfold faultFlag
  split <;> decide

theorem State.showFault_flag (s : State) (b j code pc : Nat) (c : Cls) :
    (s.showFault b j code pc c).flag ((faultFlag c).on b) = true := by
  obtain ⟨fits, off⟩ := faultFlag_spec c
  have other (u : State) (f : Fld) (n : Nat) (h : 0x100004 ≠ f.off) :
      (u.setFld (f.on b) n).flag ((faultFlag c).on b) = u.flag ((faultFlag c).on b) :=
    State.flag_congr _ (u.reg_setFld_other _ n _ (Fld.on_off_ne_on (off ▸ h) b))
  unfold State.showFault
  rw [other _ BAY_FAULT.pc _ (by decide), other _ BAY_FAULT.code _ (by decide), other _ BAY_FAULT.strand _ (by decide), State.setFlag,
    other _ BAY_FAULT.valid _ (by decide)]
  exact State.flag_setFlag_on _ fits b true

/-- A strand, of a class, has faulted with a code, which its bay shows. -/
def State.ShowsFault (t : State) (b j code : Nat) (c : Cls) : Prop :=
  (t.strand b j).state = .faulted ∧ (t.strand b j).fault = BitVec.ofNat 4 code ∧
    t.flag (BAY_FAULT.valid.on b) = true ∧ t.fld (BAY_FAULT.code.on b) = code % 16 ∧ t.fld (BAY_FAULT.strand.on b) = j ∧
    t.flag ((faultFlag c).on b) = true

theorem State.strandFault_shows (s : State) (b code pc : Nat) {j : Nat} (h : j < 64) :
    (s.strandFault b j code pc).ShowsFault b j code (s.strand b j).cls := by
  have regs {f : Fld} (low : GLB_FLT_PTR.wr.off < f.off) := s.strandFault_regs b j code pc (Fld.on_off_ne_below low b)
  obtain ⟨state, fault⟩ := s.strandFault_strand b j code pc
  refine ⟨state, fault, ?valid, ?code, ?strand, ?cls⟩
  case valid =>
    rw [State.flag_congr _ (regs (f := BAY_FAULT.valid) (by decide))]
    unfold State.showFault
    rw [State.flag_setFld_on_beside _ (f := BAY_FAULT.pc) (g := BAY_FAULT.valid) (by decide) b (by decide),
      State.flag_setFld_on_beside _ (f := BAY_FAULT.code) (g := BAY_FAULT.valid) (by decide) b (by decide),
      State.flag_setFld_on_beside _ (f := BAY_FAULT.strand) (g := BAY_FAULT.valid) (by decide) b (by decide)]
    exact State.flag_setFlag_on _ (f := BAY_FAULT.valid) (by decide) b true
  case code =>
    rw [State.fld_congr _ (regs (f := BAY_FAULT.code) (by decide))]
    unfold State.showFault
    rw [State.fld_setFld_on_beside _ (f := BAY_FAULT.pc) (g := BAY_FAULT.code) (by decide) b (by decide)]
    exact State.fld_setFld_on _ (f := BAY_FAULT.code) (by decide) b code
  case strand =>
    rw [State.fld_congr _ (regs (f := BAY_FAULT.strand) (by decide))]
    unfold State.showFault
    rw [State.fld_setFld_on_beside _ (f := BAY_FAULT.pc) (g := BAY_FAULT.strand) (by decide) b (by decide),
      State.fld_setFld_on_beside _ (f := BAY_FAULT.code) (g := BAY_FAULT.strand) (by decide) b (by decide),
      State.fld_setFld_on _ (f := BAY_FAULT.strand) (by decide) b]
    exact Nat.mod_eq_of_lt h
  case cls =>
    have low : GLB_FLT_PTR.wr.off < (faultFlag (s.strand b j).cls).off := (faultFlag_spec _).2 ▸ (by decide)
    rw [State.flag_congr _ (regs low)]
    exact s.showFault_flag b j code pc _

theorem State.ClaimsMoved.showsFault {s u : State} {b j code : Nat} {c : Cls} (h : s.ClaimsMoved u) (k : s.ShowsFault b j code c) :
    u.ShowsFault b j code c := by
  have strand : u.strand b j = s.strand b j := congrArg (·.strand j) (State.bay_congr h.bays b)
  have regs {f : Fld} (low : GLB_FLT_PTR.wr.off < f.off) := h.reg (Fld.on_off_ne_below low b)
  unfold State.ShowsFault
  rw [strand, State.flag_congr _ (regs (f := BAY_FAULT.valid) (by decide)), State.fld_congr _ (regs (f := BAY_FAULT.code) (by decide)),
    State.fld_congr _ (regs (f := BAY_FAULT.strand) (by decide)),
    State.flag_congr _ (regs (f := faultFlag c) ((faultFlag_spec c).2 ▸ (by decide)))]
  exact k

/-! ### An instruction that its check refuses (R87, R172) -/

/-- Beyond the strand's fault, an issue that faults may raise a record. -/
theorem State.issue_faults (s : State) {b j code : Nat} {r : SeqRun} {i : SInstr} (fault : s.faultOf b j r i = some code)
    (halted free : Bool) :
    ((s.wrapInc (BAY_ISSUE_CNT.count.on b)).strandFault b j code (s.strand b j).pc.toNat).ClaimsMoved (s.issue b j r i halted free) := by
  unfold State.issue
  dsimp only
  rw [s.faultOf_issueCount, fault]
  dsimp only
  split
  · split
    · exact State.raise_moves _ _
    · exact .refl _
  · exact .refl _

theorem State.issue_showsFault (s : State) {b j code : Nat} (h : j < 64) {r : SeqRun} {i : SInstr} (fault : s.faultOf b j r i = some code)
    (halted free : Bool) : (s.issue b j r i halted free).ShowsFault b j code (s.strand b j).cls :=
  (s.issue_faults fault halted free).showsFault (s.strand_wrapInc _ 1 b j ▸ State.strandFault_shows _ b code _ h)

/-! ### The fetch (R135) -/

theorem State.nextInstr_bump (s : State) (f : Fld) (n b j : Nat) : (s.bump f n).nextInstr b j = s.nextInstr b j := rfl
theorem State.imemEcc_clean (s : State) (b : Nat) : s.imemEcc b .clean = s := rfl

theorem State.imemEcc_nextInstr (s : State) (b j : Nat) (e : Ecc) : (s.imemEcc b e).nextInstr b j = s.nextInstr b j := by
  cases e with
  | clean => rfl
  | single => exact s.nextInstr_bump _ 1 b j
  | double => exact s.nextInstr_bump _ 1 b j

/-- An instruction that is fetched and decoded waits, issues if it wins what it claims, or stays. -/
def State.handled (s : State) (b j : Nat) (r : SeqRun) (i : SInstr) (free : Bool) : State :=
  if (s.faultOf b j r i).isNone && (s.waitOf b j i).isSome then s.standWait b j ((s.waitOf b j i).getD .ready)
  else if s.wins b j i then s.issue b j r i false free
  else s

/-! ### What a row comes to (R135 to R137, R154, R159) -/

section
variable {s : State} {b j : Nat} {r : SeqRun} {mine : SInstr → Bool} (e : Ecc) (free : Bool)

theorem State.strandRow_idle (none : s.nextInstr b j = none) : s.strandRow b j e free mine = s := by
  unfold State.strandRow
  rw [none]

theorem State.strandRow_undecoded {code : Nat} (next : s.nextInstr b j = some (r, .error code)) :
    s.strandRow b j .clean free mine = s.strandFault b j code (s.strand b j).pc.toNat := by
  unfold State.strandRow
  simp only [next, ite_self, State.imemEcc, reduceCtorEq, if_false]

/-- An error of two bits faults the strand, whatever its word says. -/
theorem State.strandRow_double {x : Except Nat SInstr} (next : s.nextInstr b j = some (r, x)) (fetches : (s.strand b j).state.waiting = false) :
    s.strandRow b j .double free mine = (s.bump (BAY_IMEM_ECC.uncorr.on b)).strandFault b j 2 (s.strand b j).pc.toNat := by
  unfold State.strandRow
  simp only [next, fetches, Bool.false_eq_true, if_false, if_true, State.imemEcc]

section
variable {i : SInstr} (next : s.nextInstr b j = some (r, .ok i)) (own : mine i = true)
include next own

/-- A word without an error of two bits is served in the state that its fetch leaves. -/
theorem State.strandRow_handled (fetches : (s.strand b j).state.waiting = false ∨ e = .clean) (readable : e ≠ .double) :
    s.strandRow b j e free mine = (s.imemEcc b e).handled b j r i free := by
  have found : (if (s.strand b j).state.waiting = true then Ecc.clean else e) = e := by
    rcases fetches with fetches | clean
    · rw [fetches, if_neg Bool.false_ne_true]
    · rw [clean, ite_self]
  unfold State.strandRow
  simp only [next, found]
  rw [if_neg readable, s.imemEcc_nextInstr, next, own, Bool.not_true, if_neg Bool.false_ne_true]
  rfl

theorem State.strandRow_waits (sound : s.faultOf b j r i = none) {w : StrandState} (waits : s.waitOf b j i = some w) :
    s.strandRow b j .clean free mine = s.standWait b j w := by
  rw [State.strandRow_handled .clean free next own (.inr rfl) nofun]
  unfold State.handled
  rw [s.imemEcc_clean, sound, waits]
  rfl

theorem State.strandRow_faults {code : Nat} (fault : s.faultOf b j r i = some code) (wins : s.wins b j i = true) :
    s.strandRow b j .clean free mine = s.issue b j r i false free := by
  rw [State.strandRow_handled .clean free next own (.inr rfl) nofun]
  unfold State.handled
  rw [s.imemEcc_clean, fault, wins]
  rfl

/-- An error of one bit is corrected and counted, and the instruction goes on as without it. -/
theorem State.strandRow_single (fetches : (s.strand b j).state.waiting = false) :
    s.strandRow b j .single free mine = (s.bump (BAY_IMEM_ECC.corr.on b)).strandRow b j .clean free mine := by
  have next' := (s.nextInstr_bump (BAY_IMEM_ECC.corr.on b) 1 b j).trans next
  rw [State.strandRow_handled .single free next own (.inl fetches) nofun, State.strandRow_handled .clean free next' own (.inr rfl) nofun,
    State.imemEcc_clean, State.imemEcc]

end
end

/-! ### Timeouts (R154) -/

section
variable {s : State} {b : BayId} {j : StrandId}

theorem exec_waitTimeout_idle (none : s.nextInstr b j = none) : exec (.waitTimeout b j) s = .next s := by
  change execWaitTimeout b j s = _
  unfold execWaitTimeout
  rw [none]

section
variable {r : SeqRun} {i : SInstr} {t0 : Nat} (next : s.nextInstr b j = some (r, .ok i)) (since : (s.strand b j).waitFrom = some t0)
include next since

theorem exec_waitTimeout : exec (.waitTimeout b j) s = .next
    (if i.timeout ≠ 0 ∧ t0 + i.timeout ≤ s.tick ∧ (s.waitOf b j i).isSome then s.strandFault b j 11 (s.strand b j).pc.toNat else s) := by
  change execWaitTimeout b j s = _
  unfold execWaitTimeout
  rw [next, since]

end
end

/-- Settles O12: each case is a case of the row, and a fault of a strand shows as it is stated. -/
theorem waitsAndFaultsOfStrands : Obligations.WaitsAndFaultsOfStrands := by
  intro s b j free faulted
  refine ⟨fun r i next => ?fetched, fun r x i next => ?word, fun i e none => ?idle⟩
  case fetched =>
    obtain ⟨slot, mine, own, row⟩ := exec_row i b j free
    simp only [row]
    have timeout := s.strandFault_shows b 11 (s.strand b j).pc.toNat j.isLt
    refine ⟨fun w sound waits => ?_, fun code fault wins => ⟨_, rfl, ?_⟩, fun fetches => ?_,
      fun t0 since => ⟨fun waits timed due => ⟨_, ?_, timeout⟩, fun early => ?_⟩⟩
    · rw [State.strandRow_waits slot next own sound waits]
      rfl
    · rw [State.strandRow_faults slot next own fault wins]
      exact s.issue_showsFault j.isLt fault false slot
    · rw [State.strandRow_single slot next own fetches]
    · rw [exec_waitTimeout next since, if_pos ⟨timed, due, waits⟩]
    · rw [exec_waitTimeout next since, if_neg]
      rintro ⟨timed, due, waits⟩
      rcases early with met | untimed | early
      · rw [met] at waits
        exact Bool.false_ne_true waits
      · exact timed untimed
      · omega
  case word =>
    obtain ⟨slot, mine, own, row⟩ := exec_row i b j free
    simp only [row]
    refine ⟨?_, fun fetches => ⟨_, rfl, ?_⟩⟩
    · rintro code rfl
      refine ⟨_, rfl, ?_⟩
      rw [State.strandRow_undecoded slot next]
      exact s.strandFault_shows b code _ j.isLt
    · rw [State.strandRow_double slot next fetches]
      refine ⟨State.strandFault_shows _ b 2 _ j.isLt, ?_⟩
      have counter : (s.bump (BAY_IMEM_ECC.uncorr.on b)).fld (BAY_IMEM_ECC.uncorr.on b) = _ :=
        State.fld_bump_on _ (f := BAY_IMEM_ECC.uncorr) (by decide) b rfl 1
      exact (State.fld_congr _ (State.strandFault_reg_above _ b j 2 _ (by simp only [Fld.on, BAY_IMEM_ECC.uncorr]; omega))).trans counter
  case idle =>
    obtain ⟨slot, mine, -, row⟩ := exec_row i b j free
    rw [row, State.strandRow_idle e slot none]
    exact ⟨rfl, exec_waitTimeout_idle none⟩

end Sys2Proof.Machine
end

section
/-! SUPPORT. What the effect of an instruction leaves of its issue, the steps of a halted strand, and the end of a sequence (R133, R171). -/

namespace Sys2Proof.Machine

/-! ### What an effect leaves of its issue (R134, R159) -/

/-- Between two states a bay's count of issues stands, and the state of a strand of it. -/
def State.IssueStands (b j : Nat) (s u : State) : Prop :=
  u.reg (BAY_ISSUE_CNT.count.on b).off = s.reg (BAY_ISSUE_CNT.count.on b).off ∧ (u.strand b j).state = (s.strand b j).state

section
variable (b j : Nat)

theorem State.IssueStands.refl (s : State) : s.IssueStands b j s := ⟨rfl, rfl⟩
variable {b j} in
theorem State.IssueStands.trans {s t u : State} (h : s.IssueStands b j t) (k : t.IssueStands b j u) : s.IssueStands b j u :=
  ⟨k.1.trans h.1, k.2.trans h.2⟩
theorem State.IssueStands.foldl {α : Type} (f : State → α → State) (step : ∀ u x, State.IssueStands b j u (f u x)) (l : List α)
    (s : State) : s.IssueStands b j (l.foldl f s) := foldl_does (State.IssueStands b j) (.refl b j) (fun _ _ _ => .trans) f step l s
theorem State.IssueStands.of_bays {s u : State} (bays : u.bays = s.bays)
    (reg : u.reg (BAY_ISSUE_CNT.count.on b).off = s.reg (BAY_ISSUE_CNT.count.on b).off) : s.IssueStands b j u :=
  ⟨reg, congrArg (fun y : Bay => (y.strand j).state) (State.bay_congr bays b)⟩

theorem State.IssueStands.modTile (s : State) (t : Nat) (f : Tile → Tile) : s.IssueStands b j (s.modTile t f) :=
  .of_bays b j (s.modTile_bays t f) rfl

theorem State.IssueStands.granted (s : State) (k source : Nat) : s.IssueStands b j (s.granted k source) := .of_bays b j rfl rfl

theorem State.IssueStands.setStrand (s : State) {x : Strand} (h : x.state = (s.strand b j).state) : s.IssueStands b j (s.setStrand b j x) :=
  ⟨s.reg_setStrand b j x _, (congrArg Strand.state (s.strand_setStrand_same b j x)).trans h⟩

theorem State.IssueStands.modBay (s : State) (f : Bay → Bay) (h : (f (s.bay b)).strands = (s.bay b).strands) :
    s.IssueStands b j (s.modBay b f) := by
  refine ⟨rfl, ?_⟩
  unfold State.strand Bay.strand
  rw [s.bay_modBay_same, h]

theorem State.IssueStands.newJob (s : State) (left : Nat) (ev : Option (BitVec 9)) (k pc : Nat) (c : Cls) :
    s.IssueStands b j (s.newJob b left ev k pc c).2 := .modBay b j s _ rfl

theorem State.pushWin_bays (s : State) (t : Nat) (mk : Nat → WinEntry) : (s.pushWin t mk).bays = s.bays := by
  unfold State.pushWin State.settle
  dsimp only
  split <;> rfl

theorem State.IssueStands.pushWin (s : State) (t : Nat) (mk : Nat → WinEntry) : s.IssueStands b j (s.pushWin t mk) :=
  .of_bays b j (s.pushWin_bays t mk) (s.pushWin_reg mk (by simp only [Fld.on, BAY_ISSUE_CNT.count, scaleOff]; omega))

theorem State.IssueStands.signal (s : State) (i : ScoreId) (ev inc unit pc : Nat) : s.IssueStands b j (s.signal b i ev inc unit pc) :=
  ⟨s.signal_reg b i ev inc unit pc (issueCount_ne_fltPtr b), congrArg Strand.state (s.signal_strand b j i ev inc unit pc)⟩

theorem State.IssueStands.signalAt (s : State) (pc : Nat) (ev : Option (BitVec 9)) : s.IssueStands b j (s.signalAt b j pc ev) := by
  cases ev with
  | none => exact .refl b j s
  | some ev => exact .signal b j s _ _ 1 _ pc

theorem State.IssueStands.ite {s u v : State} {c : Prop} [Decidable c] (h : s.IssueStands b j u) (k : s.IssueStands b j v) :
    s.IssueStands b j (if c then u else v) := by
  split
  · exact h
  · exact k

/-- But for END, an effect leaves the count and the state that the issue has set. -/
theorem State.effect_stands (s : State) (pc : Nat) (r : SeqRun) (free : Bool) {i : SInstr} (h : i ≠ .endStrand) :
    s.IssueStands b j (s.effect b j pc r free i) := by
  cases i with
  | nop | swt => exact .refl b j s
  | win =>
    unfold State.effect
    exact .ite b j (.signalAt b j s pc _) ((State.IssueStands.newJob b j s _ _ j pc _).trans (.foldl b j _ (fun u x => .pushWin b j u _ _) _ _))
  | pld =>
    unfold State.effect
    exact .ite b j (.signalAt b j s pc _) ((State.IssueStands.newJob b j s _ _ j pc _).trans (.foldl b j _ (fun u x => .modTile b j u _ _) _ _))
  | psw =>
    unfold State.effect
    exact .ite b j (.signalAt b j s pc _) ((State.IssueStands.newJob b j s _ _ j pc _).trans (.foldl b j _ (fun u x => .pushWin b j u _ _) _ _))
  | ssc => exact .foldl b j _ (fun u k => .pushWin b j u _ _) _ s
  | ccf => exact .foldl b j _ (fun u k => .pushWin b j u _ _) _ s
  | drn k entry cnt fmt rnd clr kk dst addr tst trow ev =>
    have queued (f : Tile → Tile) := (State.IssueStands.newJob b j s 1 ev j pc (s.strand b j).cls).trans (.modTile b j _ (4 * b + k) f)
    unfold State.effect
    exact .ite b j ((queued _).trans (.setStrand b j _ rfl)) (queued _)
  | smv q desc tag ev =>
    have queued (x : Queue) := (State.IssueStands.newJob b j s 1 ev j pc (s.strand b j).cls).trans
      (.of_bays b j (State.setQueue_bays _ (globalQueue b q) x) rfl)
    unfold State.effect
    dsimp only
    split
    · exact .refl b j s
    · exact .ite b j ((queued _).trans (.granted b j _ _ _)) (queued _)
  | evs ev inc => exact .signal b j s _ ev inc _ pc
  | evw ev n tmo =>
    have counted : s.IssueStands b j (s.setCounter b (s.bayScore b) ev (s.counter b ev - n)) :=
      ⟨s.setCounter_reg b _ ev _ _, congrArg Strand.state (s.setCounter_strand b j _ ev _)⟩
    unfold State.effect
    exact .ite b j (counted.trans (.granted b j _ _ _)) counted
  | loop => exact .setStrand b j s rfl
  | brt =>
    unfold State.effect
    exact .ite b j (.setStrand b j s rfl) (.refl b j s)
  | mrk v => exact .of_bays b j (s.issueMrk_keeps b j pc v free).1.2 (s.issueMrk_keeps b j pc v free).2
  | endStrand => exact absurd rfl h

end

/-! ### Steps of a halted strand (R171) -/

/-- The state of a strand past an instruction. -/
theorem Strand.issued_state {x : Strand} (h : x.state = .halted) (tick : Nat) (i : SInstr) : (x.issued true tick i).state = .halted := by
  cases i with
  | endStrand => exact h
  | _ => rfl

/-- A sound instruction of a halted strand: the strand stays halted unless it ends, and the bay has counted it. -/
theorem State.issue_steps (s : State) {b j : Nat} {r : SeqRun} {i : SInstr} (halted : (s.strand b j).state = .halted)
    (sound : s.faultOf b j r i = none) (free : Bool) :
    ((s.issue b j r i true free).strand b j).state = (if i = .endStrand then .idle else .halted) ∧
    (s.issue b j r i true free).fld (BAY_ISSUE_CNT.count.on b) = (s.fld (BAY_ISSUE_CNT.count.on b) + 1) % 2 ^ 32 := by
  rw [s.issue_effect sound]
  by_cases ends : i = .endStrand
  · subst ends
    rw [if_pos rfl]
    exact ⟨congrArg Strand.state (State.effect_endStrand _ b j (s.strand b j).pc r free),
      s.issuing_counted b j true _ (State.effect_endStrand_reg _ b j (s.strand b j).pc r free _)⟩
  · obtain ⟨count, state⟩ := State.effect_stands b j (s.issuing b j true i) (s.strand b j).pc.toNat r free ends
    rw [if_neg ends, state, s.issuing_strand, Strand.issued_state halted]
    exact ⟨rfl, s.issuing_counted b j true _ count⟩

theorem State.issue_faultsStrand (s : State) {b j code : Nat} {r : SeqRun} {i : SInstr} (fault : s.faultOf b j r i = some code)
    (halted free : Bool) :
    ((s.issue b j r i halted free).strand b j).state = .faulted ∧
    ((s.issue b j r i halted free).strand b j).fault = BitVec.ofNat 4 code := by
  have strand := congrArg (fun y : Bay => y.strand j) (State.bay_congr (s.issue_faults fault halted free).bays b)
  obtain ⟨state, recorded⟩ := State.strandFault_strand (s.wrapInc (BAY_ISSUE_CNT.count.on b)) b j code (s.strand b j).pc.toNat
  exact ⟨(congrArg Strand.state strand).trans state, (congrArg Strand.fault strand).trans recorded⟩

section
variable (s : State) (b : BayId) (v : Word) (free : Bool)

theorem exec_stepBay : exec (.stepBay b v .clean free) s = .next (if v.getLsbD 0 then s.stepStrand b .clean free else s) := rfl

theorem exec_stepBay_ignored (h : v.getLsbD 0 = false ∨ s.bayState b ≠ 5 ∨
    (s.strand b (s.fld (BAY_STRAND_SEL.strand.on b))).state ≠ .halted) : exec (.stepBay b v .clean free) s = .next s := by
  rw [exec_stepBay]
  rcases h with off | h
  · rw [off, if_neg Bool.false_ne_true]
  · have still : s.stepStrand b .clean free = s := if_pos h
    rw [still, ite_self]

variable {r : SeqRun} (step : v.getLsbD 0 = true) (debug : s.bayState b = 5)
  (halted : (s.strand b (s.fld (BAY_STRAND_SEL.strand.on b))).state = .halted)
  (runs : (s.bay b).seqOf (s.fld (BAY_STRAND_SEL.strand.on b)) = some r)
include step debug halted runs

theorem exec_stepBay_undecoded {code : Nat} (bad : s.fetch b (s.fld (BAY_STRAND_SEL.strand.on b)) r = .error code) :
    exec (.stepBay b v .clean free) s = .next (s.strandFault b (s.fld (BAY_STRAND_SEL.strand.on b)) code
      (s.strand b (s.fld (BAY_STRAND_SEL.strand.on b))).pc.toNat) := by
  rw [exec_stepBay, if_pos step]
  unfold State.stepStrand
  dsimp only
  rw [if_neg (by rw [debug, halted]; decide), runs]
  dsimp only
  rw [if_neg nofun, s.imemEcc_clean, bad]

theorem exec_stepBay_decoded {i : SInstr} (good : s.fetch b (s.fld (BAY_STRAND_SEL.strand.on b)) r = .ok i) :
    exec (.stepBay b v .clean free) s = .next
      (if (s.faultOf b (s.fld (BAY_STRAND_SEL.strand.on b)) r i).isNone &&
          (s.waitOf b (s.fld (BAY_STRAND_SEL.strand.on b)) i).isSome then s
        else s.issue b (s.fld (BAY_STRAND_SEL.strand.on b)) r i true free) := by
  rw [exec_stepBay, if_pos step]
  unfold State.stepStrand
  dsimp only
  rw [if_neg (by rw [debug, halted]; decide), runs]
  dsimp only
  rw [if_neg nofun, s.imemEcc_clean, good]

end

/-! ### The end of a sequence (R133, R214) -/

/-- Between two states every bay runs what it ran, and its strands stand as they did. -/
def State.RunsKept (s u : State) : Prop := ∀ b, (u.bay b).strands = (s.bay b).strands ∧ ∀ c, (u.bay b).run c = (s.bay b).run c

theorem State.RunsKept.refl (s : State) : s.RunsKept s := fun _ => ⟨rfl, fun _ => rfl⟩
theorem State.RunsKept.trans {s t u : State} (h : s.RunsKept t) (k : t.RunsKept u) : s.RunsKept u := fun b =>
  ⟨(k b).1.trans (h b).1, fun c => ((k b).2 c).trans ((h b).2 c)⟩
theorem State.RunsKept.foldl {α : Type} (f : State → α → State) (step : ∀ u x, State.RunsKept u (f u x)) (l : List α) (s : State) :
    s.RunsKept (l.foldl f s) := foldl_does State.RunsKept .refl (fun _ _ _ => .trans) f step l s
theorem State.RunsKept.of_bays {s u : State} (bays : u.bays = s.bays) : s.RunsKept u := fun b => by
  rw [State.bay_congr bays]
  exact ⟨rfl, fun _ => rfl⟩

theorem State.RunsKept.setBayState (s : State) (b v : Nat) : s.RunsKept (s.setBayState b v) := .of_bays (s.setBayState_bays b v)

theorem State.RunsKept.freeBay (s : State) (b : Nat) : s.RunsKept (s.freeBay b) := by
  unfold State.freeBay
  extract_lets s1 s2
  have given : s.RunsKept s2 := fun k => by
    unfold s2
    rw [State.bay_modBay]
    split
    · next same =>
      subst same
      exact ⟨rfl, fun c => by cases c <;> rfl⟩
    · exact ⟨rfl, fun _ => rfl⟩
  split
  · exact given.trans (.setBayState s2 b 1)
  · exact given

theorem State.RunsKept.freeGroup (s : State) (n : Nat) : s.RunsKept (s.freeGroup n) := by
  unfold State.freeGroup
  extract_lets g s1
  have unbound : s.RunsKept s1 := .of_bays (State.setGroup_bays s _ _ _)
  clear_value s1
  exact unbound.trans (.of_bays rfl)
theorem State.RunsKept.freeGran (s : State) (n : Nat) : s.RunsKept (s.freeGran n) := by
  unfold State.freeGran
  extract_lets codes other owner
  clear_value owner
  exact .of_bays rfl
theorem State.RunsKept.freeHomes (s : State) (i : ScoreId) : s.RunsKept (s.freeHomes i) :=
  (State.RunsKept.foldl State.freeGran RunsKept.freeGran (heldBy s.scores.sgran i.toNat) s).trans (.of_bays rfl)
theorem State.RunsKept.setQueue (s : State) (q : Nat) (x : Queue) : s.RunsKept (s.setQueue q x) := .of_bays (s.setQueue_bays q x)

theorem State.RunsKept.releaseAll (s : State) (i : ScoreId) : s.RunsKept (s.releaseAll i) := by
  unfold State.releaseAll
  extract_lets s1 s2 s3 s4 s5
  have bays : s.RunsKept s1 := .foldl _ RunsKept.freeBay _ s
  have groups : s1.RunsKept s2 := .foldl _ RunsKept.freeGroup _ s1
  have wins : s2.RunsKept s3 := .foldl _ (fun u w => .of_bays (u.setRwin_bays w _)) _ s2
  have queues : s3.RunsKept s4 := .foldl _ (fun u n => .setQueue u _ _) _ s3
  have homes : s4.RunsKept s5 := .freeHomes s4 i
  have five := bays.trans (groups.trans (wins.trans (queues.trans homes)))
  clear_value s5
  exact five.trans (.of_bays rfl)

theorem State.RunsKept.nextAnalysis (s : State) : s.RunsKept s.nextAnalysis := by
  unfold State.nextAnalysis
  split
  · exact .refl s
  · dsimp only
    split
    · exact .of_bays rfl
    · exact .refl s

theorem State.RunsKept.finishUnload (s : State) (k : Nat) (i : ScoreId) : s.RunsKept (s.finishUnload k i) := by
  have released := (RunsKept.releaseAll s i).trans (.nextAnalysis _)
  unfold State.finishUnload
  generalize (s.releaseAll i).nextAnalysis = u at released
  dsimp only
  refine released.trans (RunsKept.trans ?_ (.of_bays (State.complete_bays _ _ _ _ _)))
  split
  · obtain ⟨x, measured⟩ := u.measureScore_only 2 i (s.score i).digest
    rw [measured]
    exact .of_bays rfl
  · exact .refl _

theorem State.RunsKept.replyStops (s : State) : s.RunsKept s.replyStops := by
  unfold State.replyStops
  split
  · exact .refl s
  · split
    · exact .refl s
    · split
      · exact .finishUnload s _ _
      · exact .of_bays (State.complete_bays _ _ _ _ _)

theorem Bay.foldl_setStrand_reset (l : List Nat) (y : Bay) (j : Nat) :
    (l.foldl (fun y j => y.setStrand j Strand.reset) y).strand j = if j ∈ l then Strand.reset else y.strand j := by
  induction l generalizing y with
  | nil => exact (if_neg List.not_mem_nil).symm
  | cons k l ih =>
    rw [List.foldl_cons, ih, Bay.strand_setStrand]
    by_cases later : j ∈ l
    · rw [if_pos later, if_pos (List.mem_cons_of_mem k later)]
    · rw [if_neg later]
      exact if_congr (by rw [List.mem_cons, or_iff_left later]) rfl rfl

/-- The bay of a sequence that has ended. -/
def Bay.ended (y : Bay) (c : Cls) (r : SeqRun) : Bay :=
  { (r.strands.foldl (fun y j => y.setStrand j Strand.reset) y).setRun c none with
    activity := if (y.run (if c = .assured then .spare else .assured)).isSome then y.activity else 0 }

theorem Bay.ended_run (y : Bay) (c : Cls) (r : SeqRun) : (y.ended c r).run c = none := by cases c <;> rfl

theorem Bay.ended_strand (y : Bay) (c : Cls) {r : SeqRun} {j : Nat} (h : j ∈ r.strands) : ((y.ended c r).strand j).state = .unused := by
  have reset : (y.ended c r).strand j = (r.strands.foldl (fun y j => y.setStrand j Strand.reset) y).strand j := Bay.strand_setRun _ c none j
  rw [reset, Bay.foldl_setStrand_reset, if_pos h]
  rfl

/-- Beyond its bay, the end of a sequence is a matter of tiles, queues, buffers, the bay's state and its score. -/
theorem State.endSeq_kept (s : State) (b : Nat) (c : Cls) (r : SeqRun) :
    (s.modBay b fun y => y.ended c r).RunsKept (s.endSeq b c r) := by
  unfold State.endSeq
  extract_lets s1 s2 s3 s4 s5 x
  have tiles : s1.RunsKept s2 := .foldl _ (fun u k => .of_bays (u.modTile_bays _ _)) _ s1
  have queues : s2.RunsKept s3 := .foldl _ (fun u q => .setQueue u _ _) _ s2
  have bufs : s3.RunsKept s4 := .foldl _ (fun u n => .of_bays (u.setSbuf_bays _ _)) _ s3
  have state : s4.RunsKept s5 := by
    unfold s5
    split
    · exact .setBayState s4 b 2
    · exact .refl s4
  have five : s1.RunsKept s5 := tiles.trans (queues.trans (bufs.trans state))
  clear_value s5
  split_ifs
  · exact five
  · exact five.trans (.of_bays rfl)
  · exact five

theorem exec_sequenceEnd {s : State} {b : BayId} {c : Cls} {r : SeqRun} (runs : (s.bay b).run c = some r) :
    exec (.sequenceEnd b c) s = .next (if s.seqEnded b c r then (s.endSeq b c r).replyStops else s) := by
  change execSequenceEnd b c s = _
  unfold execSequenceEnd State.sequenceEnd
  rw [runs]

theorem State.sequenceEnd_ends (s : State) (b : Nat) (c : Cls) (r : SeqRun) :
    ((s.endSeq b c r).replyStops.bay b).run c = none ∧ ∀ j ∈ r.strands, ((s.endSeq b c r).replyStops.strand b j).state = .unused := by
  have kept := (s.endSeq_kept b c r).trans (.replyStops _) b
  rw [State.bay_modBay_same] at kept
  obtain ⟨strands, runs⟩ := kept
  refine ⟨(runs c).trans (Bay.ended_run _ c r), fun j m => ?_⟩
  have same : (s.endSeq b c r).replyStops.strand b j = ((s.bay b).ended c r).strand j := congrArg (Tab.get dStrand · j) strands
  rw [same, Bay.ended_strand _ c m]

/-! ### The statement -/

/-- Settles O13: a step is an issue, a wait or a fault of the selected strand, and a sequence that has ended gives its bay up. -/
theorem stepsIssueAndSequencesEnd : Obligations.StepsIssueAndSequencesEnd := by
  refine ⟨?steps, fun s b c r runs => ⟨fun ended => ?_, fun works => ?_⟩⟩
  case steps =>
    intro s b r v free j
    refine ⟨exec_stepBay_ignored s b v free, fun step debug halted runs => ⟨fun i good => ?_, fun code bad =>
      ⟨_, exec_stepBay_undecoded s b v free step debug halted runs bad, s.strandFault_strand b j code _⟩⟩⟩
    have decoded := exec_stepBay_decoded s b v free step debug halted runs good
    refine ⟨fun sound met => ⟨_, decoded, ?_⟩, ?_, fun sound waits => ?_, fun code fault => ⟨_, decoded, ?_⟩⟩
    · rw [sound, met]
      exact s.issue_steps halted sound free
    · rintro rfl
      have issue : s.issue b j r .nop true free = s.issuing b j true .nop := s.issue_effect (i := .nop) rfl true free
      exact ⟨_, decoded.trans (congrArg Host.Outcome.next issue), s.issuing_strand b j true .nop⟩
    · rw [decoded, sound, waits]
      rfl
    · rw [fault]
      exact s.issue_faultsStrand fault true free
  · rw [exec_sequenceEnd runs, if_pos ended]
    exact ⟨_, rfl, s.sequenceEnd_ends b c r⟩
  · rw [exec_sequenceEnd runs, works, if_neg Bool.false_ne_true]

end Sys2Proof.Machine
end

section
/-! SUPPORT. The transfers of a queue: what is replaced, reserved and delivered, and what the queues keep meanwhile (R191, R195, R196, R203, R204). -/

namespace Sys2Proof.Machine

/-! ### A transfer replaced -/

section
variable (s : State) (q i : Nat)

theorem State.queue_putXfer (x : Transfer) : (s.putXfer q i x).queue q = { s.queue q with xfers := (s.queue q).xfers.set i x } :=
  s.queue_setQueue_same q _

theorem State.xfers_putXfer (x : Transfer) : ((s.putXfer q i x).queue q).xfers = (s.queue q).xfers.set i x :=
  congrArg Queue.xfers (s.queue_putXfer q i x)

theorem State.xfer_putXfer {k : Nat} {y : Transfer} (x : Transfer) (stands : (s.queue q).xfers[k]? = some y) :
    ((s.putXfer q k x).queue q).xfers[k]? = some x := by
  rw [s.xfers_putXfer]
  exact List.getElem?_set_self (List.getElem?_eq_some_iff.1 stands).1

end

theorem State.queue_congr {s u : State} (h : u.strm.queues = s.strm.queues) (q : Nat) : u.queue q = s.queue q := by
  unfold State.queue
  rw [h]

theorem State.sbuf_congr {s u : State} (h : u.strm = s.strm) (n : Nat) : u.sbuf n = s.sbuf n := by
  unfold State.sbuf
  rw [h]

/-! ### What is reserved (R195, R196, R204) -/

theorem State.reserve_spec (s : State) (x : Transfer) :
    (s.reserve x).strm.queues = s.strm.queues ∧ (s.reserve x).stage = s.stage ∧
      (∀ n, x.dstBufIdx = some n → ((s.reserve x).sbuf n).reserved = (s.sbuf n).reserved + x.total) ∧
      ∀ t ∈ x.tiles, ((s.reserve x).tile t).inRes = (s.tile t).inRes + x.total := by
  unfold State.reserve
  extract_lets s1
  obtain ⟨⟨y, moved⟩, each⟩ := s1.foldl_modTile (fun y => { y with inRes := y.inRes + x.total }) x.tiles_nodup
  have before : s1.strm.queues = s.strm.queues ∧ s1.stage = s.stage ∧ s1.tiles = s.tiles ∧
      ∀ n, x.dstBufIdx = some n → (s1.sbuf n).reserved = (s.sbuf n).reserved + x.total := by
    unfold s1
    cases x.dstBufIdx with
    | none => exact ⟨rfl, rfl, rfl, nofun⟩
    | some n =>
      refine ⟨rfl, rfl, rfl, ?_⟩
      rintro k ⟨⟩
      exact congrArg SBuf.reserved (s.sbuf_setSbuf_same n _)
  clear_value s1
  obtain ⟨queues, stage, tiles, reserved⟩ := before
  refine ⟨?_, ?_, fun n dst => ?_, fun t listed => ?_⟩
  · rw [moved]
    exact queues
  · rw [moved]
    exact stage
  · rw [moved]
    exact reserved n dst
  · rw [each t, if_pos listed, State.tile_congr tiles]

/-! ### What the queues keep while blocks are delivered and faults are written -/

/-- Between two states no queue changed, and the count of cuts stands. -/
def State.QueuesStand (s u : State) : Prop :=
  u.strm.queues = s.strm.queues ∧ u.reg STRM_WG_TMO.cuts.off = s.reg STRM_WG_TMO.cuts.off

theorem State.QueuesStand.refl (s : State) : s.QueuesStand s := ⟨rfl, rfl⟩
theorem State.QueuesStand.trans {s t u : State} (h : s.QueuesStand t) (k : t.QueuesStand u) : s.QueuesStand u :=
  ⟨k.1.trans h.1, k.2.trans h.2⟩
theorem State.QueuesStand.of_regs {s u : State} (queues : u.strm.queues = s.strm.queues) (regs : u.regs = s.regs) : s.QueuesStand u :=
  ⟨queues, State.reg_congr regs _⟩
theorem State.QueuesStand.setFld (s : State) (f : Fld) (v : Nat) (h : STRM_WG_TMO.cuts.off ≠ f.off) : s.QueuesStand (s.setFld f v) :=
  ⟨congrArg Streams.queues (s.setFld_strm f v), s.reg_setFld_other _ _ _ h⟩
theorem State.StageMoved.queuesStand {s u : State} (h : s.StageMoved u) : s.QueuesStand u := by
  refine ⟨?_, h.reg (by decide)⟩
  obtain ⟨g, x, r, m, n, rfl, -⟩ := h
  rfl

theorem State.QueuesStand.bufArrive (s : State) (n res : Nat) (b : Block) : s.QueuesStand (s.bufArrive n res b) := by
  unfold State.bufArrive
  extract_lets v s1 y
  refine State.QueuesStand.trans (t := s1) (s.putBlock_moves 0xFFFF _ b).queuesStand ?_
  split
  · exact .of_regs rfl rfl
  · exact .of_regs rfl rfl

theorem State.QueuesStand.stageWrite (s : State) (a : Nat) (x : Block) (i : ScoreId) (q : Nat) : s.QueuesStand (s.stageWrite a x i q) := by
  unfold State.stageWrite
  split
  · exact (s.putBlock_moves q a x).queuesStand
  · split
    · unfold State.mapWriteBlock
      extract_lets t e y
      split
      · exact .of_regs (congrArg Streams.queues (s.setTile_strm t _)) (s.setTile_regs t _)
      · exact (s.droppedWrite_moves q i a).queuesStand
    · exact (s.droppedWrite_moves q i a).queuesStand

/-- A block delivered, wherever it goes, changes no queue. -/
theorem State.QueuesStand.deliverBlock (s : State) (q : Nat) (x : Transfer) (lin : Nat) (b : Block) :
    s.QueuesStand (s.deliverBlock q x lin b) := by
  unfold State.deliverBlock
  split
  · exact foldl_does State.QueuesStand .refl (fun _ _ _ => .trans) _
      (fun u t => .of_regs (congrArg Streams.queues (u.modTile_strm t _)) (u.modTile_regs t _)) x.tiles s
  · split
    · exact .of_regs rfl rfl
    · split
      · exact .bufArrive s _ 1 b
      · exact .stageWrite s _ b _ q

theorem State.QueuesStand.discardSource (s : State) (x : Transfer) (n : Nat) : s.QueuesStand (s.discardSource x n) := by
  unfold State.discardSource
  split
  · exact .refl s
  · exact .of_regs rfl rfl

/-- A stream fault's record and its fault change no queue (R203). -/
theorem State.QueuesStand.streamFault (s : State) (q : Nat) (x : Transfer) (rsn kind lin addr side win : Nat) :
    s.QueuesStand (s.streamFault q x rsn kind lin addr side win) := by
  unfold State.streamFault
  extract_lets i v wr counts s1 s2
  have counted : s.QueuesStand s1 := .of_regs rfl rfl
  have recorded : s1.QueuesStand s2 := by
    unfold s2
    clear_value s1
    split
    · exact .setFld s1 _ _ (by decide)
    · exact State.QueuesStand.trans (s1.writeBlock_moves _ _).queuesStand (.setFld _ _ _ (by decide))
  have raised : s2.QueuesStand (s2.raise { cls := 3, code := kind + 1, act := 1, score := i, unit := q, arg0 := wr }) := by
    obtain ⟨y, r, m, n, e, -, regs⟩ := s2.raise_spec { cls := 3, code := kind + 1, act := 1, score := i, unit := q, arg0 := wr }
    refine ⟨?_, regs _ (by decide)⟩
    rw [e]
  exact (counted.trans recorded).trans raised

/-! ### Write messages (R309) -/

/-- Between two states only streams and the fabric moved: registers, stage memory and all else stand. -/
def State.MessagesMoved (s u : State) : Prop := ∃ x f, u = { s with strm := x, fab := f }

theorem State.MessagesMoved.trans {s t u : State} (h : s.MessagesMoved t) (k : t.MessagesMoved u) : s.MessagesMoved u := by
  obtain ⟨x, f, rfl⟩ := h
  obtain ⟨x', f', rfl⟩ := k
  exact ⟨x', f', rfl⟩

theorem State.MessagesMoved.putXfer (s : State) (q i : Nat) (x : Transfer) : s.MessagesMoved (s.putXfer q i x) := ⟨_, s.fab, rfl⟩

/-- A transfer goes from `x` to `y` by `n` blocks read. -/
def Transfer.Advanced (x y : Transfer) (n : Nat) : Prop := y.started = x.started ∧ y.total = x.total ∧ y.next = x.next + n

section
variable {s : State} {q i : Nat} {w : Transfer} (stands : (s.queue q).xfers[i]? = some w) (x : Transfer)
include stands

theorem State.flushWrite_spec :
    s.MessagesMoved (s.flushWrite q i x) ∧ ∃ acc, ((s.flushWrite q i x).queue q).xfers[i]? = some { x with acc := acc } := by
  unfold State.flushWrite
  split
  · exact ⟨.putXfer s q i x, x.acc, s.xfer_putXfer q x stands⟩
  · extract_lets k f m s1
    refine ⟨⟨_, _, rfl⟩, [], State.xfer_putXfer s1.nextTag q (y := w) _ ?_⟩
    exact stands

theorem State.flushBefore_spec (at_ : Nat × Bool) :
    s.MessagesMoved (s.flushBefore q i x at_) ∧ ∃ acc, ((s.flushBefore q i x at_).queue q).xfers[i]? = some { x with acc := acc } := by
  unfold State.flushBefore
  split
  · exact ⟨.putXfer s q i x, x.acc, s.xfer_putXfer q x stands⟩
  · exact State.flushWrite_spec stands x

/-- A block that joins a write message takes its transfer on by one. -/
theorem State.accumulate_spec (at_ : Nat × Bool) (b : Block) :
    s.MessagesMoved (s.accumulate q i x at_ b) ∧
      ∃ y, ((s.accumulate q i x at_ b).queue q).xfers[i]? = some y ∧ x.Advanced y 1 := by
  obtain ⟨moved, acc, held⟩ := State.flushBefore_spec stands x at_
  unfold State.accumulate
  extract_lets s1 z y more
  have same : z = { x with acc := acc } := by
    unfold z
    rw [held]
    rfl
  have stepped : x.Advanced y 1 := by
    unfold y
    rw [same]
    exact ⟨rfl, rfl, rfl⟩
  clear_value more y
  split
  · exact ⟨moved.trans (.putXfer s1 q i y), y, s1.xfer_putXfer q y held, stepped⟩
  · obtain ⟨sent, acc', stood⟩ := State.flushWrite_spec (s := s1) held y
    exact ⟨moved.trans sent, _, stood, stepped⟩

end

end Sys2Proof.Machine
end

section
/-! SUPPORT. TRANSFER_START, TRANSFER_COMPLETE and WAIT_GRAPH_CUT (R138, R191, R195, R202, R204, R205). -/

namespace Sys2Proof.Machine

/-! ### Starts and completions -/

section
variable {s : State} {q i : Nat} {x : Transfer}

theorem State.transferStart_none (h : firstWaiting (s.queue q).xfers = none) : s.transferStart q = s := by
  unfold State.transferStart
  rw [h]

section
variable (first : firstWaiting (s.queue q).xfers = some i) (stands : (s.queue q).xfers[i]? = some x)
include first stands

theorem State.transferStart_first :
    s.transferStart q =
      if !((s.queue q).xfers.take i).all (·.readAll) then s
      else if s.xferRoom x then (s.reserve x).putXfer q i { x with started := true, waitTick := none }
      else s.putXfer q i { x with waitTick := some (x.waitTick.getD s.tick) } := by
  unfold State.transferStart
  rw [first]
  dsimp only
  rw [stands]

theorem State.transferStart_early (h : ((s.queue q).xfers.take i).all (·.readAll) = false) : s.transferStart q = s := by
  rw [State.transferStart_first first stands, h]
  rfl

theorem State.transferStart_starts (h : ((s.queue q).xfers.take i).all (·.readAll) = true) (room : s.xferRoom x = true) :
    s.transferStart q = (s.reserve x).putXfer q i { x with started := true, waitTick := none } := by
  rw [State.transferStart_first first stands, h, room]
  rfl

theorem State.transferStart_waits (h : ((s.queue q).xfers.take i).all (·.readAll) = true) (room : s.xferRoom x = false) :
    s.transferStart q = s.putXfer q i { x with waitTick := some (x.waitTick.getD s.tick) } := by
  rw [State.transferStart_first first stands, h, room]
  rfl

end

theorem State.transferComplete_head {r : List Transfer} (h : (s.queue q).xfers = x :: r) :
    s.transferComplete q =
      if x.started ∧ x.done = x.total then (s.setQueue q { s.queue q with xfers := r }).jobDone x.bay x.job else s := by
  unfold State.transferComplete
  rw [h]

/-! ### A transfer cut (R202, R205) -/

theorem State.MessagesMoved.cuts {u : State} (h : s.MessagesMoved u) : u.reg STRM_WG_TMO.cuts.off = s.reg STRM_WG_TMO.cuts.off := by
  obtain ⟨y, f, rfl⟩ := h
  rfl

/-- The count of cuts stands, and the `i`-th transfer of the queue has gone on by `n` blocks from `x`. -/
def State.Reads (s u : State) (q i : Nat) (x : Transfer) (n : Nat) : Prop :=
  u.reg STRM_WG_TMO.cuts.off = s.reg STRM_WG_TMO.cuts.off ∧ ∃ y, (u.queue q).xfers[i]? = some y ∧ x.Advanced y n

/-- Steps that each take the transfer on by a block take it on by their number. -/
theorem State.Reads.foldl (f : State → Nat → State) (step : ∀ (u : State) k y, (u.queue q).xfers[i]? = some y → u.Reads (f u k) q i y 1)
    (l : List Nat) (u : State) (y : Transfer) (h : (u.queue q).xfers[i]? = some y) : u.Reads (l.foldl f u) q i y l.length := by
  induction l generalizing u y with
  | nil => exact ⟨rfl, y, h, rfl, rfl, rfl⟩
  | cons k l ih =>
    obtain ⟨cuts, z, stood, started, total, next⟩ := step u k y h
    obtain ⟨cuts', z', stood', started', total', next'⟩ := ih (f u k) z stood
    exact ⟨cuts'.trans cuts, z', stood', started'.trans started, total'.trans total, by rw [next', next, List.length_cons]; omega⟩

/-- The `k`-th block of the rest of a transfer to a remote window, as `State.deliverRest` writes it. -/
def State.restRemote (q i : Nat) (x : Transfer) (r : BitVec 4) (s : State) (k : Nat) : State :=
  match (s.queue q).xfers[i]? with
  | none => s
  | some y =>
    match s.translate (s.queue q).owner y.desc.dstWin.toNat (y.desc.dstOf (x.next + k)) true with
    | some c => s.accumulate q i y c (zeroBlock (some r))
    | none => s.putXfer q i { y with next := y.next + 1, done := y.done + 1 }

theorem State.restRemote_reads (u : State) (r : BitVec 4) (k : Nat) (y : Transfer) (h : (u.queue q).xfers[i]? = some y) :
    u.Reads (State.restRemote q i x r u k) q i y 1 := by
  unfold State.restRemote
  rw [h]
  dsimp only
  split
  · obtain ⟨moved, z⟩ := State.accumulate_spec h y _ (zeroBlock (some r))
    exact ⟨moved.cuts, z⟩
  · exact ⟨rfl, _, u.xfer_putXfer q _ h, rfl, rfl, rfl⟩

/-- The rest of a transfer delivered as zeros: it has made its last read, and the count of cuts stands. -/
theorem State.deliverRest_spec (stands : (s.queue q).xfers[i]? = some x) (le : x.next ≤ x.total) (r : BitVec 4) :
    s.Reads (s.deliverRest q i x r) q i x (x.total - x.next) := by
  unfold State.deliverRest
  extract_lets n s0 s1 s1'
  obtain ⟨queues, cuts⟩ : s.QueuesStand s0 :=
    (State.QueuesStand.discardSource s x n).trans (.of_regs rfl (State.countMark_regs _ _ _))
  have held : (s0.queue q).xfers[i]? = some x := by
    rw [State.queue_congr queues, stands]
  split
  · obtain ⟨sent, acc, stood⟩ := State.flushWrite_spec held x
    obtain ⟨cuts', y, stood', started, total, next⟩ := State.Reads.foldl (State.restRemote q i x r)
      (fun u k y h => State.restRemote_reads u r k y h) (List.range n) s1 _ stood
    rw [List.length_range] at next
    exact ⟨cuts'.trans (sent.cuts.trans cuts), y, stood', started, total, next⟩
  · obtain ⟨queues', cuts'⟩ : s0.QueuesStand s1' := foldl_does State.QueuesStand .refl (fun _ _ _ => .trans) _
      (fun u k => .deliverBlock u q x _ _) (List.range n) s0
    refine ⟨cuts'.trans cuts, _, s1'.xfer_putXfer q (y := x) _ ?_, rfl, rfl, (Nat.add_sub_cancel' le).symm⟩
    rw [State.queue_congr queues', held]

/-- A transfer taken to its last read: a started one by its rest as zeros, another one whole. -/
def State.finishReads (s : State) (q i : Nat) (x : Transfer) : State :=
  if x.started then s.deliverRest q i x 12
  else (s.discardSource x x.total).putXfer q i { x with started := true, next := x.total, done := x.total, waitTick := none }

section
variable (waits : waitingIdx (s.queue q).xfers = some i) (stands : (s.queue q).xfers[i]? = some x)
include waits stands

theorem State.cutTransfer_eq :
    ∃ addr side, s.cutTransfer q = ((s.finishReads q i x).streamFault q x 12 1 x.next addr side 0).bump STRM_WG_TMO.cuts := by
  unfold State.cutTransfer
  rw [waits]
  dsimp only
  rw [stands]
  exact ⟨_, _, rfl⟩

theorem State.finishReads_spec :
    (s.finishReads q i x).reg STRM_WG_TMO.cuts.off = s.reg STRM_WG_TMO.cuts.off ∧
      ∃ y, ((s.finishReads q i x).queue q).xfers[i]? = some y ∧ y.started = true ∧ y.next = x.total ∧ y.total = x.total := by
  obtain ⟨inside, waiting, -⟩ := List.findIdx?_eq_some_iff_getElem.1 waits
  have this : (s.queue q).xfers[i] = x := (List.getElem?_eq_some_iff.1 stands).2
  rw [this] at waiting
  unfold State.finishReads
  cases run : x.started with
  | true =>
    have le : x.next ≤ x.total := by
      rw [run] at waiting
      exact Nat.le_of_lt (of_decide_eq_true waiting)
    obtain ⟨cuts, y, stood, started, total, next⟩ := State.deliverRest_spec stands le 12
    exact ⟨cuts, y, stood, started.trans run, next.trans (Nat.add_sub_cancel' le), total⟩
  | false =>
    obtain ⟨queues, cuts⟩ := State.QueuesStand.discardSource s x x.total
    refine ⟨cuts, _, State.xfer_putXfer (s.discardSource x x.total) q (y := x) _ ?_, rfl, rfl, rfl⟩
    rw [State.queue_congr queues, stands]

/-- A transfer that is cut has made its last read, and the cut is counted. -/
theorem State.cutTransfer_spec :
    (s.cutTransfer q).fld STRM_WG_TMO.cuts = min (s.fld STRM_WG_TMO.cuts + 1) 65535 ∧
      ∃ y, ((s.cutTransfer q).queue q).xfers[i]? = some y ∧ y.started = true ∧ y.next = x.total ∧ y.total = x.total := by
  obtain ⟨cuts, y, stood, holds⟩ := State.finishReads_spec waits stands
  obtain ⟨addr, side, cut⟩ := State.cutTransfer_eq waits stands
  rw [cut]
  generalize s.finishReads q i x = u at stood cuts
  obtain ⟨queues, kept⟩ := State.QueuesStand.streamFault u q x 12 1 x.next addr side 0
  generalize u.streamFault q x 12 1 x.next addr side 0 = v at queues kept
  refine ⟨?_, y, ?_, holds⟩
  · rw [State.fld_bump_same _ _ _ (by decide) (by decide), State.fld_congr _ (kept.trans cuts)]
    rfl
  · rw [State.bump, State.queue_congr (s := v) (congrArg Streams.queues (State.setFld_strm _ _ _)), State.queue_congr queues, stood]

end

end

/-! ### The member that is cut (R205) -/

/-- A member of a cycle has a transfer that waits. -/
theorem State.waits_of_waitsOn {s : State} {q k : Nat} (h : s.waitsOn q = some k) :
    ∃ i x, waitingIdx (s.queue q).xfers = some i ∧ (s.queue q).xfers[i]? = some x := by
  unfold State.waitsOn at h
  cases waits : waitingIdx (s.queue q).xfers with
  | none =>
    rw [waits] at h
    cases h
  | some i => exact ⟨i, _, rfl, List.getElem?_eq_getElem (List.findIdx?_eq_some_iff_getElem.1 waits).1⟩

theorem State.waits_of_isCycle {s : State} {l : List Nat} (h : s.isCycle l = true) {q : Nat} (m : q ∈ l) : ∃ k, s.waitsOn q = some k := by
  cases l with
  | nil => cases m
  | cons a r =>
    have long : (a :: r).length ≤ (r ++ [a]).length := by simp
    rw [← List.map_fst_zip long] at m
    obtain ⟨p, listed, rfl⟩ := List.mem_map.1 m
    have both := List.all_eq_true.1 h p listed
    rw [Bool.and_eq_true, beq_iff_eq] at both
    exact ⟨p.2, both.1⟩

theorem State.victim_mem (s : State) {l : List Nat} (h : l ≠ []) : s.victim l ∈ l := by
  cases l with
  | nil => exact absurd rfl h
  | cons a r =>
    unfold State.victim
    refine List.foldlRecOn (motive := (· ∈ a :: r)) (a :: r) _ List.mem_cons_self fun k held q m => ?_
    split
    · exact m
    · exact held

theorem exec_waitGraphCut {s : State} {l : List QueueId} (h : s.isCycle (l.map (·.val)) = true) :
    exec (.waitGraphCut l) s = .next (s.cutTransfer (s.victim (l.map (·.val)))) := by
  have run : exec (.waitGraphCut l) s =
      .next (if s.isCycle (l.map (·.val)) then s.cutTransfer (s.victim (l.map (·.val))) else s) := rfl
  rw [run, h]
  rfl

theorem exec_waitGraphCut_none {s : State} {l : List QueueId} (h : s.isCycle (l.map (·.val)) = false) :
    exec (.waitGraphCut l) s = .next s := by
  have run : exec (.waitGraphCut l) s =
      .next (if s.isCycle (l.map (·.val)) then s.cutTransfer (s.victim (l.map (·.val))) else s) := rfl
  rw [run, h]
  rfl

theorem exec_transferStart (s : State) (q : QueueId) : exec (.transferStart q) s = .next (s.transferStart q) := rfl
theorem exec_transferComplete (s : State) (q : QueueId) : exec (.transferComplete q) s = .next (s.transferComplete q) := rfl

/-- The job of a transfer that is done moves no queue. -/
theorem State.jobDone_queue (s : State) (b n q : Nat) : (s.jobDone b n).queue q = s.queue q := by
  obtain ⟨y, c, x, g, m, k, e, -⟩ := s.jobDone_spec b n
  rw [e]
  rfl

/-- Settles O15: the start by the branches of `transferStart`, and the cut by what the rest of a transfer delivered does to its queue. -/
theorem transfersStartCompleteAndAreCut : Obligations.TransfersStartCompleteAndAreCut := by
  unfold Obligations.TransfersStartCompleteAndAreCut
  refine ⟨fun s q i x => ⟨fun first stands => ⟨fun early => ?early, fun turn => ⟨fun room => ?starts, fun full => ?waits⟩⟩,
    fun idle => ?idle, fun r head => ⟨fun started done => ?done, fun open_ => ?goes⟩⟩, fun s l => ⟨fun cycle => ?cut, exec_waitGraphCut_none⟩⟩
  case early => rw [exec_transferStart, State.transferStart_early first stands early]
  case starts =>
    obtain ⟨queues, stage, reserved, tiles⟩ := s.reserve_spec x
    refine ⟨_, exec_transferStart s q, ?_, ?_, ?_, ?_⟩ <;> rw [State.transferStart_starts first stands turn room]
    · refine State.xfer_putXfer (s.reserve x) q (y := x) _ ?_
      rw [State.queue_congr queues, stands]
    · exact stage
    · exact reserved
    · exact tiles
  case waits =>
    refine ⟨_, exec_transferStart s q, ?_, ?_, ?_⟩ <;> rw [State.transferStart_waits first stands turn full]
    · exact s.xfer_putXfer q _ stands
    · rfl
    · rfl
  case idle => rw [exec_transferStart, State.transferStart_none idle]
  case done =>
    refine ⟨_, exec_transferComplete s q, ?_, ?_, ?_⟩ <;> rw [State.transferComplete_head head, if_pos ⟨started, done⟩]
    · rw [State.jobDone_queue, State.queue_setQueue_same]
    · exact State.jobDone_stage _ x.bay x.job
    · exact State.jobDone_tiles _ x.bay x.job
  case goes =>
    rw [exec_transferComplete, State.transferComplete_head head, if_neg]
    rintro ⟨started, done⟩
    rcases open_ with waits | more
    · exact Bool.false_ne_true (waits.symm.trans started)
    · exact more done
  case cut =>
    have nonempty : l.map (·.val) ≠ [] := fun none => by
      rw [none] at cycle
      cases cycle
    obtain ⟨k, on_⟩ := State.waits_of_isCycle cycle (s.victim_mem nonempty)
    obtain ⟨i, x, waits, stands⟩ := State.waits_of_waitsOn on_
    refine ⟨_, exec_waitGraphCut cycle, (State.cutTransfer_spec waits stands).1, fun i' x' waits' stands' => ?_⟩
    exact (State.cutTransfer_spec waits' stands').2

end Sys2Proof.Machine
end

section
/-! SUPPORT. SLOT_ACCESS: the block that a transfer moves, from each source and to each destination (R163, R175, R179, R188, R191, R195 to R197,
R309). -/

namespace Sys2Proof.Machine

/-! ### Blocks read -/

theorem flipBytes_length (u : Upset) (l : List Byte) : (flipBytes u l).length = l.length := by
  unfold flipBytes
  exact List.foldlRecOn (motive := fun (bs : List Byte) => bs.length = l.length) u _ rfl fun bs same p _ => (List.length_modify _ _ _).trans same

theorem State.gddrRead_length (s : State) (a : Nat) (find : GddrFind) : (s.gddrRead a find).1.data.length = 64 := by
  unfold State.gddrRead
  extract_lets data bad m s1 s2
  have whole : data.length = 64 := by
    unfold data
    rw [List.length_map, List.length_range]
  split
  · exact List.length_replicate
  · dsimp only
    split
    · rw [flipBytes_length, whole]
    · exact whole

/-- A transfer's next block on its source side is one of the score's stage memory. -/
def State.FromStage (s : State) (q : Nat) (x : Transfer) : Prop :=
  x.desc.srcSp = 0 ∧ x.desc.srcBuf = 0 ∧ s.ownsStage (x.desc.srcOf x.next) (s.queue q).owner = true

/-- A transfer's next block on its destination side is one of the score's stage memory that no descriptor holds. -/
def State.ToStage (s : State) (q : Nat) (x : Transfer) : Prop :=
  x.desc.dstSp = 0 ∧ x.desc.dstBuf = 0 ∧ s.ownsStage (x.desc.dstOf x.next) (s.queue q).owner = true ∧ s.holdsDesc (x.desc.dstOf x.next) = false

/-- A transfer after its next block has been moved. -/
def Transfer.went (x : Transfer) : Transfer := { x with next := x.next + 1, done := x.done + 1, waitTick := none }

section
variable {s : State} {q i : Nat} {x : Transfer}

theorem State.takeStage_owned (h : s.FromStage q x) :
    ∃ y g, s.takeStage q x [] = (s.blockAt (x.desc.srcOf x.next), { s with faults := y, regs := g }) := by
  obtain ⟨space, buf, owns⟩ := h
  have none : x.srcBufIdx = none := if_neg fun both => both.2 buf
  obtain ⟨y, g, counted⟩ := s.countRead_counts (x.desc.srcOf x.next)
  refine ⟨y, g, ?_⟩
  unfold State.takeStage State.stageRead
  rw [none, ← counted]
  dsimp only
  rw [if_pos owns, State.upset, List.foldl_nil, if_pos owns]
  rfl

/-- The block that a source buffer's first place holds. -/
def State.bufHead (s : State) (n : Nat) : Block := s.blockAt ((s.sbuf n).base + 64 * (s.sbuf n).rd)

/-- A source buffer after its first block has been taken. -/
def SBuf.taken (v : SBuf) : SBuf := { v with rd := (v.rd + 1) % v.blocks, present := v.present - 1 }

theorem State.takeStage_buf {n : Nat} (h : x.srcBufIdx = some n) :
    ∃ y g, s.takeStage q x [] = (s.bufHead n, State.setSbuf { s with faults := y, regs := g } n (s.sbuf n).taken) := by
  obtain ⟨y, g, counted⟩ := s.countRead_counts ((s.sbuf n).base + 64 * (s.sbuf n).rd)
  refine ⟨y, g, ?_⟩
  unfold State.takeStage
  rw [h, ← counted]
  rfl

/-! ### Blocks delivered -/

theorem State.deliverBlock_stage (lin : Nat) (b : Block) (space : x.desc.dstSp = 0) (buf : x.desc.dstBuf = 0)
    (owns : s.ownsStage (x.desc.dstOf lin) (s.queue q).owner = true) (plain : s.holdsDesc (x.desc.dstOf lin) = false) :
    s.deliverBlock q x lin b = s.writeBlock (x.desc.dstOf lin) b := by
  have none : x.dstBufIdx = none := if_neg fun both => both.2 buf
  unfold State.deliverBlock State.stageWrite State.putBlock
  rw [space, if_neg (by decide), if_neg (by decide), none]
  dsimp only
  rw [if_pos owns, plain, if_neg Bool.false_ne_true]

theorem State.deliverBlock_gddr (lin : Nat) (b : Block) (space : x.desc.dstSp = 1) :
    s.deliverBlock q x lin b = s.gddrWrite (x.desc.dstOf lin) b := by
  unfold State.deliverBlock
  rw [space, if_neg (by decide), if_pos rfl]

theorem Transfer.dstSp_of_buf {n : Nat} (h : x.dstBufIdx = some n) : x.desc.dstSp = 0 := by
  unfold Transfer.dstBufIdx at h
  split at h
  · next both => exact both.1
  · cases h

theorem Transfer.srcSp_of_buf {n : Nat} (h : x.srcBufIdx = some n) : x.desc.srcSp = 0 := by
  unfold Transfer.srcBufIdx at h
  split at h
  · next both => exact both.1
  · cases h

theorem State.deliverBlock_buf (lin : Nat) (b : Block) {n : Nat} (h : x.dstBufIdx = some n) : s.deliverBlock q x lin b = s.bufArrive n 1 b := by
  unfold State.deliverBlock
  rw [Transfer.dstSp_of_buf h, if_neg (by decide), if_neg (by decide), h]

/-- A block that arrives in a buffer which skips none is one more present, and one fewer reserved. -/
theorem State.sbuf_bufArrive (n : Nat) (b : Block) (h : (s.sbuf n).skip = 0) :
    ((s.bufArrive n 1 b).sbuf n).present = (s.sbuf n).present + 1 ∧ ((s.bufArrive n 1 b).sbuf n).reserved = (s.sbuf n).reserved - 1 := by
  unfold State.bufArrive
  extract_lets v s1 y
  rw [if_pos h, State.sbuf_setSbuf_same]
  exact ⟨rfl, rfl⟩

/-! ### The transfer goes on by its block -/

theorem State.putXfer_stands {u : State} (queues : u.strm.queues = s.strm.queues) (stands : (s.queue q).xfers[i]? = some x) (y : Transfer) :
    ((u.putXfer q i y).queue q).xfers[i]? = some y :=
  u.xfer_putXfer q (y := x) y (by rw [State.queue_congr queues, stands])

theorem State.moveStage_delivers {find : GddrFind} (space : x.desc.dstSp ≠ 2) (clean : ¬(x.desc.dstSp = 1 ∧ find.crcBad)) :
    s.moveStage q i x [] find =
      ((s.takeStage q x []).2.deliverBlock q x x.next (s.takeStage q x []).1).putXfer q i x.went := by
  unfold State.moveStage
  extract_lets o w r s1 w' s1'
  rw [if_neg space, if_neg clean]
  rfl

theorem State.moveGddr_delivers {find : GddrFind} (clean : ¬(find.crcBad ∧ !s.gSpanZero (x.desc.srcOf x.next)))
    (fresh : x.waitTick = none) :
    s.moveGddr q i x find =
      ((s.gddrRead (x.desc.srcOf x.next) find).2.deliverBlock q x x.next (s.gddrRead (x.desc.srcOf x.next) find).1).putXfer q i x.went := by
  unfold State.moveGddr Transfer.went
  extract_lets a r
  rw [if_neg clean, ← fresh]

theorem State.moveBlock_stage {find : GddrFind} (h : x.desc.srcSp = 0) : s.moveBlock q i x [] find = s.moveStage q i x [] find := by
  unfold State.moveBlock
  rw [h, if_neg (by decide), if_neg (by decide)]

theorem State.moveBlock_delivers {find : GddrFind} (src : x.desc.srcSp = 0) (local_ : x.desc.dstSp ≠ 2)
    (clean : x.desc.dstSp = 1 → find.crcBad = false) :
    s.moveBlock q i x [] find =
      ((s.takeStage q x []).2.deliverBlock q x x.next (s.takeStage q x []).1).putXfer q i x.went := by
  refine (State.moveBlock_stage src).trans (State.moveStage_delivers local_ fun both => ?_)
  exact Bool.false_ne_true ((clean both.1).symm.trans both.2)

theorem State.moveBlock_gddr {find : GddrFind} (h : x.desc.srcSp = 1) : s.moveBlock q i x [] find = s.moveGddr q i x find := by
  unfold State.moveBlock
  rw [h, if_neg (by decide), if_pos rfl]

theorem State.moveBlock_remote {find : GddrFind} (h : x.desc.srcSp = 2) : s.moveBlock q i x [] find = s.readRemote q i x := by
  unfold State.moveBlock
  rw [if_pos h]

end

end Sys2Proof.Machine
end

section
/-! SUPPORT. A slot that a queue's transfer wins (R163, R182, R309). -/

namespace Sys2Proof.Machine

section
variable {s : State} {q i : Nat} {w x : Transfer} {find : GddrFind} (stands : (s.queue q).xfers[i]? = some w)
include stands

/-! ### From stage memory -/

theorem State.moveBlock_stageToStage (from_ : s.FromStage q x) (into : s.ToStage q x) :
    ((s.moveBlock q i x [] find).queue q).xfers[i]? = some x.went ∧
      (s.moveBlock q i x [] find).stageBytesAt (x.desc.dstOf x.next) 64 = (s.blockAt (x.desc.srcOf x.next)).data ∧
      (s.moveBlock q i x [] find).stageMark (x.desc.dstOf x.next) = (s.blockAt (x.desc.srcOf x.next)).mark ∧
      ∀ a, (a < x.desc.dstOf x.next ∨ x.desc.dstOf x.next + 64 ≤ a) → (s.moveBlock q i x [] find).stageByte a = s.stageByte a := by
  obtain ⟨y, g, took⟩ := State.takeStage_owned from_
  obtain ⟨space, buf, owns, plain⟩ := into
  have length := s.blockAt_length (x.desc.srcOf x.next)
  have put := State.deliverBlock_stage (s := { s with faults := y, regs := g }) x.next (s.blockAt (x.desc.srcOf x.next)) space buf owns plain
  obtain ⟨bytes, mark, others⟩ := State.writeBlock_stores { s with faults := y, regs := g } (x.desc.dstOf x.next) (s.blockAt (x.desc.srcOf x.next))
  have moved := State.writeBlock_moves { s with faults := y, regs := g } (x.desc.dstOf x.next) (s.blockAt (x.desc.srcOf x.next))
  rw [length] at bytes others
  rw [State.moveBlock_delivers from_.1 (by rw [space]; decide) (by simp [space]), took, put]
  exact ⟨State.putXfer_stands (s := s) moved.queuesStand.1 stands _, bytes, mark, others⟩

theorem State.moveBlock_stageToTiles (from_ : s.FromStage q x) (space : x.desc.dstSp = 3) :
    ((s.moveBlock q i x [] find).queue q).xfers[i]? = some x.went ∧ (s.moveBlock q i x [] find).stage = s.stage ∧
      ∀ t ∈ x.tiles, ((s.moveBlock q i x [] find).tile t).inbuf =
        (s.tile t).inbuf ++ [⟨if q < 256 then q % 32 else q - 256 + 32, s.blockAt (x.desc.srcOf x.next)⟩] := by
  obtain ⟨y, g, took⟩ := State.takeStage_owned from_
  obtain ⟨⟨z, moved⟩, each⟩ := State.deliverBlock_tiles (x := x) { s with faults := y, regs := g } q x.next
    (s.blockAt (x.desc.srcOf x.next)) space
  rw [State.moveBlock_delivers from_.1 (by rw [space]; decide) (by simp [space]), took]
  refine ⟨State.putXfer_stands (s := s) ?_ stands _, ?_, each⟩
  · rw [moved]
  · refine (State.setQueue_stage _ q _).trans ?_
    rw [moved]

theorem State.moveBlock_stageToGddr (from_ : s.FromStage q x) (space : x.desc.dstSp = 1) (clean : find.crcBad = false) :
    ((s.moveBlock q i x [] find).queue q).xfers[i]? = some x.went ∧
      ∀ k, k < 64 → (s.moveBlock q i x [] find).gByte (x.desc.dstOf x.next + k) = (s.blockAt (x.desc.srcOf x.next)).data.getD k 0 := by
  obtain ⟨y, g, took⟩ := State.takeStage_owned from_
  rw [State.moveBlock_delivers from_.1 (by rw [space]; decide) (fun _ => clean), took, State.deliverBlock_gddr x.next _ space]
  refine ⟨State.putXfer_stands (s := s) rfl stands _, fun k low => ?_⟩
  exact State.gddrWrite_byte { s with faults := y, regs := g } (x.desc.dstOf x.next) (s.blockAt (x.desc.srcOf x.next))
    ((s.blockAt_length _).symm ▸ low)

theorem State.moveBlock_stageToBuf (from_ : s.FromStage q x) {n : Nat} (dst : x.dstBufIdx = some n) (plain : (s.sbuf n).skip = 0) :
    ((s.moveBlock q i x [] find).queue q).xfers[i]? = some x.went ∧
      ((s.moveBlock q i x [] find).sbuf n).present = (s.sbuf n).present + 1 ∧
      ((s.moveBlock q i x [] find).sbuf n).reserved = (s.sbuf n).reserved - 1 := by
  obtain ⟨y, g, took⟩ := State.takeStage_owned from_
  have space := Transfer.dstSp_of_buf dst
  have stood := State.QueuesStand.bufArrive { s with faults := y, regs := g } n 1 (s.blockAt (x.desc.srcOf x.next))
  obtain ⟨present, reserved⟩ := State.sbuf_bufArrive (s := { s with faults := y, regs := g }) n (s.blockAt (x.desc.srcOf x.next)) plain
  rw [State.moveBlock_delivers from_.1 (by rw [space]; decide) (by simp [space]), took, State.deliverBlock_buf x.next _ dst]
  exact ⟨State.putXfer_stands (s := s) stood.1 stands _, present, reserved⟩

/-! ### Into stage memory -/

theorem State.moveBlock_bufToStage {n : Nat} (src : x.srcBufIdx = some n) (into : s.ToStage q x) :
    ((s.moveBlock q i x [] find).queue q).xfers[i]? = some x.went ∧
      ((s.moveBlock q i x [] find).sbuf n).present = (s.sbuf n).present - 1 ∧
      (s.moveBlock q i x [] find).stageBytesAt (x.desc.dstOf x.next) 64 = (s.bufHead n).data := by
  obtain ⟨y, g, took⟩ := State.takeStage_buf src
  obtain ⟨space, buf, owns, plain⟩ := into
  have length : (s.bufHead n).data.length = 64 := s.blockAt_length _
  have left := State.sbuf_setSbuf_same { s with faults := y, regs := g } n (s.sbuf n).taken
  generalize before : State.setSbuf { s with faults := y, regs := g } n (s.sbuf n).taken = v at took left
  have queues : v.strm.queues = s.strm.queues := by rw [← before]; rfl
  have scores : v.scores = s.scores := by rw [← before]; rfl
  have owns' : v.ownsStage (x.desc.dstOf x.next) (v.queue q).owner = true := by
    rw [State.queue_congr queues]
    unfold State.ownsStage State.granScore
    rw [scores]
    exact owns
  have put := State.deliverBlock_stage x.next (s.bufHead n) space buf owns' ((State.holdsDesc_congr scores _).trans plain)
  obtain ⟨bytes, -, -⟩ := v.writeBlock_stores (x.desc.dstOf x.next) (s.bufHead n)
  have moved := v.writeBlock_moves (x.desc.dstOf x.next) (s.bufHead n)
  rw [length] at bytes
  rw [State.moveBlock_delivers (Transfer.srcSp_of_buf src) (by rw [space]; decide) (by simp [space]), took, put]
  have strm : (v.writeBlock (x.desc.dstOf x.next) (s.bufHead n)).strm = v.strm := by
    obtain ⟨st, z, r, m, k, e, -⟩ := moved
    rw [e]
  exact ⟨State.putXfer_stands (moved.queuesStand.1.trans queues) stands _, congrArg SBuf.present ((State.sbuf_congr strm n).trans left), bytes⟩

/-! ### From GDDR7 (R188) -/

theorem State.moveBlock_gddrToStage (src : x.desc.srcSp = 1) (fresh : x.waitTick = none) (into : s.ToStage q x)
    (clean : find.crcBad = false ∨ s.gSpanZero (x.desc.srcOf x.next) = true) :
    ((s.moveBlock q i x [] find).queue q).xfers[i]? = some x.went ∧
      (s.moveBlock q i x [] find).stageBytesAt (x.desc.dstOf x.next) 64 = (s.gddrRead (x.desc.srcOf x.next) find).1.data.take 64 ∧
      (s.moveBlock q i x [] find).stageMark (x.desc.dstOf x.next) = (s.gddrRead (x.desc.srcOf x.next) find).1.mark := by
  obtain ⟨space, buf, owns, plain⟩ := into
  have length := s.gddrRead_length (x.desc.srcOf x.next) find
  have read : s.moveBlock q i x [] find = _ := (State.moveBlock_gddr src).trans (State.moveGddr_delivers
    (by rcases clean with good | zero <;> simp [*]) fresh)
  obtain ⟨y, g, counted⟩ := s.gddrRead_counts (x.desc.srcOf x.next) find
  generalize (s.gddrRead (x.desc.srcOf x.next) find).1 = b at length read ⊢
  rw [read, counted]
  obtain ⟨bytes, mark, -⟩ := State.writeBlock_stores { s with faults := y, regs := g } (x.desc.dstOf x.next) b
  have moved := State.writeBlock_moves { s with faults := y, regs := g } (x.desc.dstOf x.next) b
  rw [length] at bytes
  rw [State.deliverBlock_stage (s := { s with faults := y, regs := g }) x.next b space buf owns plain, ← length, List.take_length, length]
  exact ⟨State.putXfer_stands (s := s) moved.queuesStand.1 stands _, bytes, mark⟩

omit stands in
/-- A read of GDDR7 that meets a CRC error is put aside, and nothing else happens. -/
theorem State.moveBlock_gddrRetry (src : x.desc.srcSp = 1) (bad : find.crcBad = true) (data : s.gSpanZero (x.desc.srcOf x.next) = false) :
    s.moveBlock q i x [] find = { s with gddr := { s.gddr with retry := s.gddr.retry ++ [(x.desc.srcOf x.next / 64, q, none)] } } := by
  rw [State.moveBlock_gddr src]
  unfold State.moveGddr
  exact if_pos ⟨bad, by rw [data]; rfl⟩

/-! ### Through a remote window (R197, R309) -/

omit stands in
/-- A walk of the table counts, and nothing else. -/
theorem State.countWalk_keeps (s : State) (v off : Nat) :
    (s.countWalk v off).strm = s.strm ∧ (s.countWalk v off).stage = s.stage ∧ (s.countWalk v off).fab = s.fab := by
  unfold State.countWalk
  extract_lets s1
  split
  · obtain ⟨y, g, counted⟩ := (State.CountsMoved.bump s1 STRM_TLB_STAT.miss 1).trans (State.countRead_counts _ (transAt v off / 64 * 64))
    rw [counted]
    exact ⟨rfl, rfl, rfl⟩
  · exact ⟨rfl, rfl, rfl⟩

theorem State.moveBlock_stageToRemote (from_ : s.FromStage q x) (space : x.desc.dstSp = 2)
    (up : (s.winGroup x.desc.dstWin.toNat).carries = true)
    (known : (s.translate (s.queue q).owner x.desc.dstWin.toNat (x.desc.dstOf x.next) true).isSome = true) :
    (∃ y, ((s.moveBlock q i x [] find).queue q).xfers[i]? = some y ∧ y.next = x.next + 1) ∧ (s.moveBlock q i x [] find).stage = s.stage := by
  obtain ⟨c, translated⟩ := Option.isSome_iff_exists.1 known
  obtain ⟨y, g, took⟩ := State.takeStage_owned from_
  have joined : s.moveBlock q i x [] find = ((s.takeStage q x []).2.countWalk x.desc.dstWin.toNat (x.desc.dstOf x.next)).accumulate q i x c
      (s.takeStage q x []).1 := by
    rw [State.moveBlock_stage from_.1]
    unfold State.moveStage
    extract_lets o w' r s1 s1'
    rw [if_pos space, up, Bool.not_true, if_neg Bool.false_ne_true, translated]
  rw [joined, took]
  obtain ⟨strm, stage, -⟩ := State.countWalk_keeps { s with faults := y, regs := g } x.desc.dstWin.toNat (x.desc.dstOf x.next)
  generalize State.countWalk { s with faults := y, regs := g } x.desc.dstWin.toNat (x.desc.dstOf x.next) = v at strm stage
  have held : (v.queue q).xfers[i]? = some w := by
    rw [State.queue_congr (s := s) (congrArg Streams.queues strm), stands]
  obtain ⟨⟨st, f, moved⟩, z, stood, -, -, next⟩ := State.accumulate_spec held x c (s.blockAt (x.desc.srcOf x.next))
  refine ⟨⟨z, stood, next⟩, ?_⟩
  rw [moved]
  exact stage

omit stands in
theorem State.runLen_le (s : State) (o : ScoreId) (v : Nat) (off : Nat → Nat) (write : Bool) (n lin a : Nat) : s.runLen o v off write n lin a ≤ n := by
  induction n generalizing lin a with
  | zero => exact Nat.le_refl 0
  | succ n ih =>
    unfold State.runLen
    split
    · split
      · split
        · omega
        · have rest := ih (lin + 1) (a + 64)
          omega
      · exact Nat.zero_le _
    · exact Nat.zero_le _

omit stands in
theorem State.runLen_pos {o : ScoreId} {v : Nat} {off : Nat → Nat} {write : Bool} {n lin : Nat} {a : Nat × Bool} (h : 0 < n)
    (known : s.translate o v (off lin) write = some a) : 0 < s.runLen o v off write n lin a.1 := by
  obtain ⟨m, rfl⟩ := Nat.exists_eq_add_of_lt h
  rw [Nat.zero_add]
  unfold State.runLen
  rw [known]
  dsimp only
  rw [if_pos rfl]
  omega

/-- A read through a remote window asks for its blocks by one message. -/
theorem State.moveBlock_remoteRead (src : x.desc.srcSp = 2) (open_ : x.next < x.total) (up : (s.winGroup x.desc.srcWin.toNat).carries = true)
    {a : Nat × Bool} (known : s.translate (s.queue q).owner x.desc.srcWin.toNat (x.desc.srcOf x.next) false = some a)
    (few : ((s.winGroup x.desc.srcWin.toNat).reads.filter (·.q == q)).length < 8) :
    ∃ y m, ((s.moveBlock q i x [] find).queue q).xfers[i]? = some y ∧ y.next = x.next + m.nblk.toNat ∧ 0 < m.nblk.toNat ∧ m.type = 2 ∧
      m.addr = BitVec.ofNat 48 a.1 ∧
      ((s.moveBlock q i x [] find).winGroup x.desc.srcWin.toNat).out = (s.winGroup x.desc.srcWin.toNat).out ++ [m] := by
  obtain ⟨at_, gd⟩ := a
  have le := s.runLen_le (s.queue q).owner x.desc.srcWin.toNat x.desc.srcOf false (min 63 (x.total - x.next)) x.next at_
  have pos := State.runLen_pos (n := min 63 (x.total - x.next)) (by omega) known
  rw [State.moveBlock_remote src]
  unfold State.readRemote
  extract_lets v o f failed
  rw [up, Bool.not_true, if_neg Bool.false_ne_true, known]
  dsimp only
  rw [if_neg (Nat.not_le.2 few)]
  generalize s.runLen o v x.desc.srcOf false (min 63 (x.total - x.next)) x.next at_ = n at le pos ⊢
  obtain ⟨strm, -, -⟩ := s.countWalk_keeps v (x.desc.srcOf x.next)
  generalize s.countWalk v (x.desc.srcOf x.next) = u at strm
  have rwin : u.rwin = s.rwin := by
    funext k
    unfold State.rwin
    rw [strm]
  have count : (BitVec.ofNat 6 n).toNat = n := by
    rw [BitVec.toNat_ofNat]
    omega
  refine ⟨_, winMsg f s.ownId (s.rwin v).group 2 n s.fab.nextTag o gd at_ [], State.putXfer_stands (s := s) ?_ stands _,
    congrArg (x.next + ·) count.symm, ?_, rfl, rfl, ?_⟩
  · exact congrArg Streams.queues strm
  · exact Nat.lt_of_lt_of_eq pos count.symm
  · exact congrArg FabGroup.out (State.group_setGroup_same u _ _ _)

end

end Sys2Proof.Machine
end

section
/-! SUPPORT. SLOT_ACCESS, case by case (R163, R182). -/

namespace Sys2Proof.Machine

section
variable {s : State} {q : QueueId} {i : Nat} {x : Transfer} {find : GddrFind}
variable (reads : readingIdx (s.queue q).xfers = some i) (stands : (s.queue q).xfers[i]? = some x)
include reads stands

theorem State.slotAccess_reading :
    exec (.slotAccess q [] find) s =
      .next (if !s.xferData q x then s.putXfer q i { x with waitTick := some (x.waitTick.getD s.tick) }
        else if (s.moving q).isNone || !s.slotWins q then s
        else (s.slotGranted q).moveBlock q i { x with waitTick := none } [] find) := by
  change Host.Outcome.next (s.slotAccess q [] find) = _
  unfold State.slotAccess
  rw [reads]
  dsimp only
  rw [stands]

/-- A transfer that could move has its data. -/
theorem State.xferData_of_moving (h : s.moving q = some x) : s.xferData q x = true := by
  unfold State.moving at h
  rw [reads, Option.bind_some, stands] at h
  dsimp only at h
  split at h
  · next all =>
    rw [Bool.and_eq_true, Bool.and_eq_true, Bool.and_eq_true] at all
    exact all.1.1.1
  · cases h

theorem State.exec_slotAccess_waits (h : s.xferData q x = false) :
    exec (.slotAccess q [] find) s = .next (s.putXfer q i { x with waitTick := some (x.waitTick.getD s.tick) }) := by
  rw [State.slotAccess_reading reads stands, h]
  rfl

theorem State.exec_slotAccess_held (data : s.xferData q x = true) (h : s.moving q = none ∨ s.slotWins q = false) :
    exec (.slotAccess q [] find) s = .next s := by
  have held : ((s.moving q).isNone || !s.slotWins q) = true := by
    rcases h with still | loses
    · rw [still]
      rfl
    · rw [loses, Bool.not_false, Bool.or_true]
  rw [State.slotAccess_reading reads stands, data, held]
  rfl

theorem State.exec_slotAccess_wins (h : s.moving q = some x) (wins : s.slotWins q = true) :
    ∃ a, exec (.slotAccess q [] find) s = .next (State.moveBlock { s with arb := a } q i { x with waitTick := none } [] find) := by
  obtain ⟨a, first⟩ := s.grantTo_spec (s.srcClaim q)
  obtain ⟨a', second⟩ := State.grantTo_spec { s with arb := a } (s.dstClaim q)
  refine ⟨a', ?_⟩
  rw [State.slotAccess_reading reads stands, State.xferData_of_moving reads stands h, h, wins, ← second, ← first]
  rfl

end

/-- Settles O14: by what the slot finds, and for a slot that is won by the source and the destination of the block. -/
theorem slotMovesABlock : Obligations.SlotMovesABlock := by
  unfold Obligations.SlotMovesABlock
  intro s q i x find reads stands o src dst went fromStage toStage
  refine ⟨State.exec_slotAccess_waits reads stands, State.exec_slotAccess_held reads stands, fun moving wins => ?_⟩
  obtain ⟨inside, run, -⟩ := List.findIdx?_eq_some_iff_getElem.1 reads
  rw [(List.getElem?_eq_some_iff.1 stands).2, Bool.and_eq_true, decide_eq_true_eq] at run
  obtain ⟨a, moved⟩ := State.exec_slotAccess_wins (find := find) reads stands moving wins
  have standing : (State.queue { s with arb := a } q).xfers[i]? = some x := stands
  rw [moved]
  refine ⟨fun from_ into => ⟨_, rfl, ?_⟩, fun from_ tiles => ⟨_, rfl, ?_⟩, fun from_ gddr clean => ⟨_, rfl, ?_⟩,
    fun from_ n buf plain => ⟨_, rfl, ?_⟩, fun into n buf => ⟨_, rfl, ?_⟩, fun gddr into clean => ⟨_, rfl, ?_⟩,
    fun gddr bad data => ⟨_, rfl, ?_⟩, fun from_ remote up known => ?_, fun b remote up known few => ?_⟩
  · exact State.moveBlock_stageToStage (x := { x with waitTick := none }) standing from_ into
  · exact State.moveBlock_stageToTiles (x := { x with waitTick := none }) standing from_ tiles
  · exact State.moveBlock_stageToGddr (x := { x with waitTick := none }) standing from_ gddr clean
  · exact State.moveBlock_stageToBuf (x := { x with waitTick := none }) standing from_ buf plain
  · exact State.moveBlock_bufToStage (x := { x with waitTick := none }) standing buf into
  · obtain ⟨gone, bytes, mark⟩ := State.moveBlock_gddrToStage (x := { x with waitTick := none }) standing gddr rfl into clean
    rw [State.gddrRead_congr (s := s) (u := { s with arb := a }) rfl] at bytes mark
    exact ⟨gone, bytes, mark⟩
  · rw [State.moveBlock_gddrRetry (s := { s with arb := a }) (x := { x with waitTick := none }) gddr bad data]
    exact ⟨rfl, rfl, stands⟩
  · obtain ⟨⟨y, stood, next⟩, stage⟩ := State.moveBlock_stageToRemote (find := find) (x := { x with waitTick := none }) standing from_ remote up known
    exact ⟨_, y, rfl, stood, next, stage⟩
  · obtain ⟨y, m, stood, next, pos, type, addr, out⟩ := State.moveBlock_remoteRead (s := { s with arb := a }) (find := find)
      (x := { x with waitTick := none }) standing remote run.2 up known few
    exact ⟨_, y, m, rfl, stood, next, pos, type, addr, out⟩

end Sys2Proof.Machine
end

section
/-! SUPPORT. The rows of the command table: what holds a host command up, bars it or answers it (R362, R364, R366, R368, R401, R415, R443). -/

namespace Sys2Proof.Machine

/-! ### A host command that does not run -/

/-- A host command's row is that of its place and opcode. -/
theorem exec_hostCommand {i : Instr} {k op : Nat} (h : hostCommand i = some (k, op)) (s : State) :
    ∃ f, exec i s = .next (s.command k op f) := by
  unfold hostCommand at h
  split at h <;> cases h <;> exact ⟨_, rfl⟩

section
variable {s : State} {k op : Nat} (f : State → Taken → State)

theorem State.command_absent (h : s.cmd.taken[k]? = none) : s.command k op f = s := by
  unfold State.command
  rw [h]

variable {c : Taken} (taken : s.cmd.taken[k]? = some c)
include taken

theorem State.command_waits (h : c.opcode.toNat ≠ op ∨ s.startable k c = false ∨
    (s.fld PWR_STAT.state = 1 ∧ op ∉ [0x0001, 0x0002, 0x0302, 0x0601])) : s.command k op f = s := by
  unfold State.command
  rw [taken]
  dsimp only
  rcases h with other | held | ⟨slow, later⟩
  · exact if_pos (.inl other)
  · exact if_pos (.inr (by rw [held]; rfl))
  · split
    · rfl
    · exact if_pos ⟨slow, by rw [Bool.not_eq_true', List.contains_eq_mem, decide_eq_false_iff_not]; exact later⟩

theorem State.command_barred (opcode : c.opcode.toNat = op) (first : s.startable k c = true) (full : s.fld PWR_STAT.state ≠ 1) {st : Nat}
    (bars : s.barred op (op == 0x0201 && bits (c.p 0) 23 16 == 0) = some st) : s.command k op f = s.complete k st := by
  unfold State.command
  rw [taken]
  dsimp only
  rw [if_neg (by simp [opcode, first]), if_neg fun both => full both.1, bars]

end

theorem State.complete_stage (s : State) (k st d : Nat) (vs : List Nat) : (s.complete k st d vs).stage = s.stage := by
  obtain ⟨x, e⟩ := s.complete_only k st d vs
  rw [e]

theorem State.complete_maps (s : State) (k st d : Nat) (vs : List Nat) : (s.complete k st d vs).cmd.maps = s.cmd.maps := by
  unfold State.complete
  split
  · rfl
  · rfl

/-! ### WINDOW_MAP (R197, R198) -/

/-- The parameters of a WINDOW_MAP are in range. -/
def Taken.mapFits (c : Taken) : Prop :=
  c.p 0 < 2 ^ 22 ∧ c.p 1 < 2 ^ 25 ∧ bits (c.p 1) 15 12 = 0 ∧ mapEntries c ≠ [] ∧ (mapEntries c).length ≤ 504 ∧
    ∀ e ∈ mapEntries c, bits e 60 48 = 0 ∧ bits e 19 0 = 0

/-- The score that a WINDOW_MAP names is there and holds the window. -/
def State.mapThere (s : State) (c : Taken) : Prop :=
  (s.score (BitVec.ofNat 16 (c.p 0))).state ≠ .none ∧ (s.rwin (bits (c.p 0) 21 16)).valid = true ∧
    (s.rwin (bits (c.p 0) 21 16)).score = BitVec.ofNat 16 (c.p 0)

section
variable {s : State} {k : Nat} {c : Taken}

theorem Taken.mapFits_iff : c.mapFits ↔ ¬ (2 ^ 22 ≤ c.p 0 ∨ 2 ^ 25 ≤ c.p 1 ∨ bits (c.p 1) 15 12 ≠ 0 ∨ (mapEntries c).isEmpty ∨
    504 < (mapEntries c).length ∨ (mapEntries c).any (fun e => bits e 60 48 != 0 || bits e 19 0 != 0)) := by
  unfold Taken.mapFits
  simp only [not_or, Nat.not_le, Nat.not_lt, ne_eq, not_not, List.isEmpty_iff, List.any_eq_true, Bool.or_eq_true, bne_iff_ne, not_exists,
    not_and]

theorem State.mapThere_iff : s.mapThere c ↔ ¬ ((s.score (BitVec.ofNat 16 (c.p 0))).state = .none ∨
    !(s.rwin (bits (c.p 0) 21 16)).valid ∨ (s.rwin (bits (c.p 0) 21 16)).score ≠ BitVec.ofNat 16 (c.p 0)) := by
  unfold State.mapThere
  simp only [not_or, ne_eq, not_not, Bool.not_eq_true', Bool.not_eq_false]

theorem State.windowMap_misfits (h : ¬ c.mapFits) : s.windowMap k c = s.complete k 3 := by
  unfold State.windowMap
  exact if_pos (not_not.1 (mt Taken.mapFits_iff.2 h))

theorem State.windowMap_lost (fits : c.mapFits) (h : ¬ s.mapThere c) : s.windowMap k c = s.complete k 4 := by
  unfold State.windowMap
  exact (if_neg (Taken.mapFits_iff.1 fits)).trans (if_pos (not_not.1 (mt State.mapThere_iff.2 h)))

theorem State.windowMap_there (fits : c.mapFits) (there : s.mapThere c) :
    s.windowMap k c =
      if (s.rwin (bits (c.p 0) 21 16)).pages < bits (c.p 1) 11 0 + (mapEntries c).length then s.complete k 3
      else ({ s with cmd := { s.cmd with maps := s.cmd.maps ++ (mapEntries c).zipIdx.map fun e =>
        (c.no, 0x17CC0000 + 8 * (4096 * bits (c.p 0) 21 16 + bits (c.p 1) 11 0 + e.2), e.1) } } : State).complete k 0 := by
  unfold State.windowMap
  exact (if_neg (Taken.mapFits_iff.1 fits)).trans (if_neg (State.mapThere_iff.1 there))

end

end Sys2Proof.Machine
end

section
/-! SUPPORT. The commands of the module and of its event counters (R152, R198, R366, R368). -/

namespace Sys2Proof.Machine

/-! ### The event commands (R152, R368) -/

section
variable {s : State} {k : Nat} {c : Taken}

theorem exec_windowMap (h : s.mayRun k 0x0203 c) : exec (.windowMap k) s = .next (s.windowMap k c) :=
  congrArg Host.Outcome.next (State.command_of_mayRun h _)
theorem exec_eventSignal (h : s.mayRun k 0x0301 c) : exec (.eventSignal k) s = .next (s.eventSignal k c) :=
  congrArg Host.Outcome.next (State.command_of_mayRun h _)
theorem exec_eventRead (h : s.mayRun k 0x0302 c) : exec (.eventRead k) s = .next (s.eventRead k c) :=
  congrArg Host.Outcome.next (State.command_of_mayRun h _)
theorem exec_eventNotify (h : s.mayRun k 0x0303 c) : exec (.eventNotify k) s = .next (s.eventNotify k c) :=
  congrArg Host.Outcome.next (State.command_of_mayRun h _)

/-- A counter that a command reaches is one of its score. -/
theorem State.counterOf_ok {i : ScoreId} {ev : Nat} (h : s.counterOf c = .ok (i, ev)) : 256 ≤ ev := by
  unfold State.counterOf at h
  extract_lets j e at h
  split at h
  · cases h
  · next inside =>
    split at h
    · cases h
    · obtain ⟨-, rfl⟩ := Prod.mk.inj (Except.ok.inj h)
      exact Nat.not_lt.1 fun low => inside (.inr low)

section
variable {i : ScoreId} {ev : Nat} (found : s.counterOf c = .ok (i, ev))
include found

theorem State.eventSignal_ok :
    s.eventSignal k c = if c.p 1 = 0 ∨ 256 ≤ c.p 1 then s.complete k 3 else (s.signal 0 i ev (c.p 1) 0xFFFF 0).complete k 0 := by
  unfold State.eventSignal
  rw [found]

theorem State.eventRead_ok : s.eventRead k c = s.complete k 0 0 [((s.score i).counter ev).toNat] := by
  unfold State.eventRead
  rw [found]

theorem State.eventNotify_ok :
    s.eventNotify k c =
      if 64 ≤ c.p 1 ∨ (c.p 1 ≠ 0 ∧ c.p 1 < 8) then s.complete k 3
      else (s.setScore i { s.score i with
        notify := Tab.set dZero (s.score i).notify (ev - 256) (BitVec.ofNat 6 (c.p 1)) }).complete k 0 := by
  unfold State.eventNotify
  rw [found]

/-- A signal of the host adds to a counter of a score as an instruction's does. -/
theorem State.signal_counter (inc unit pc : Nat) :
    (((s.signal 0 i ev inc unit pc).score i).counter ev).toNat = min (((s.score i).counter ev).toNat + inc) 65535 := by
  have high : ¬ ev < 256 := Nat.not_lt.2 (State.counterOf_ok found)
  have counted := s.countOf_signal 0 i ev inc unit pc
  unfold State.countOf at counted
  rwa [if_neg high, if_neg high] at counted

omit found in
theorem State.signal_commands (inc unit pc : Nat) : s.CmdKept (s.signal 0 i ev inc unit pc) := by
  have set : s.CmdKept (s.setCounter 0 i ev (min (s.countOf 0 i ev + inc) 65535)) := by
    unfold State.setCounter
    split
    · exact .modBay s 0 _
    · exact .setScore s i _
  exact set.trans (s.signal_stands 0 i ev inc unit pc).1.commands

end

section
variable {st : Nat} (wrong : s.counterOf c = .error st)
include wrong

theorem State.eventSignal_error : s.eventSignal k c = s.complete k st := by
  unfold State.eventSignal
  rw [wrong]
theorem State.eventRead_error : s.eventRead k c = s.complete k st := by
  unfold State.eventRead
  rw [wrong]
theorem State.eventNotify_error : s.eventNotify k c = s.complete k st := by
  unfold State.eventNotify
  rw [wrong]

end

end

/-- Settles O39: a command that does not run by the rows of `State.command`, the others by their parameters. -/
theorem moduleCommandsAnswer : Obligations.ModuleCommandsAnswer := by
  unfold Obligations.ModuleCommandsAnswer
  refine fun s k c => ⟨fun i op host => ⟨fun absent => ?absent, fun taken => ⟨fun held => ?held, fun opcode first full st bars => ?barred⟩⟩,
    fun run => ?nop, fun run => ?identify, fun run => ⟨fun misfits => ?misfits, fun fits away => ?lost, fun fits there short => ?short,
      fun fits there whole => ?maps⟩,
    fun i ev found => ⟨fun run => ⟨fun some_ few => ?signals, fun out => ?signalsNot⟩, fun run => ?reads,
      fun run => ⟨fun vector low => ?notifies, fun out => ?notifiesNot⟩⟩,
    fun st wrong => ⟨fun run => ?signalsNone, fun run => ?readsNone, fun run => ?notifiesNone⟩⟩
  case absent =>
    obtain ⟨f, row⟩ := exec_hostCommand host s
    rw [row, State.command_absent f absent]
  case held =>
    obtain ⟨f, row⟩ := exec_hostCommand host s
    rw [row, State.command_waits f taken held]
  case barred =>
    obtain ⟨f, row⟩ := exec_hostCommand host s
    rw [State.command_barred f taken opcode first full bars] at row
    exact ⟨_, row, (State.CmdKept.refl s).replied taken st 0 [], s.complete_regs _ _ _ _, s.complete_scores _ _ _ _, s.complete_bays _ _ _ _,
      s.complete_tiles _ _ _ _, s.complete_stage _ _ _ _⟩
  case nop =>
    have row : exec (.nopCommand k) s = .next (s.complete k 0) := congrArg Host.Outcome.next (State.command_of_mayRun run _)
    exact ⟨_, row, (State.CmdKept.refl s).replied run.1 0 0 [], s.complete_stage _ _ _ _, s.complete_scores _ _ _ _, s.complete_regs _ _ _ _⟩
  case identify =>
    have row : exec (.identify k) s = .next (s.identify k) := congrArg Host.Outcome.next (State.command_of_mayRun run _)
    have replied := (State.CmdKept.refl s).replied run.1 0 0 [(s.reg GLB_ID.part.off).toNat, s.sec.ver.toNat,
      s.fld FAB_PID.id + 4096 * s.fld FAB_PID.asg, Config.fuseSerial.toNat % 2 ^ 32, Config.fuseSerial.toNat / 2 ^ 32,
      (s.reg GLB_STRAP.compat.off).toNat]
    simp only [List.map_cons, List.map_nil, BitVec.ofNat_toNat, BitVec.setWidth_eq] at replied
    exact ⟨_, row, s.complete_regs _ _ _ _, replied⟩
  case misfits =>
    have row := exec_windowMap run
    rw [State.windowMap_misfits misfits] at row
    exact ⟨_, row, (run.refused 3).2, s.complete_maps _ _ _ _⟩
  case lost =>
    have row := exec_windowMap run
    rw [State.windowMap_lost fits away] at row
    exact ⟨_, row, (run.refused 4).2, s.complete_maps _ _ _ _⟩
  case short =>
    have row := exec_windowMap run
    rw [State.windowMap_there fits there, if_pos short] at row
    exact ⟨_, row, (run.refused 3).2, s.complete_maps _ _ _ _⟩
  case maps =>
    have row := exec_windowMap run
    rw [State.windowMap_there fits there, if_neg (Nat.not_lt.2 whole)] at row
    refine ⟨_, row, State.complete_stage _ k 0 0 [], State.CmdKept.replied ?_ run.1 0 0 [], State.complete_maps _ k 0 0 []⟩
    exact ⟨rfl, rfl, rfl⟩
  case signals =>
    have row := exec_eventSignal run
    rw [State.eventSignal_ok found, if_neg (by omega)] at row
    refine ⟨_, row, (State.signal_commands (c.p 1) 0xFFFF 0).replied run.1 0 0 [], ?_⟩
    rw [State.score_congr (State.complete_scores _ k 0 0 []), State.signal_counter found]
  case signalsNot =>
    have row := exec_eventSignal run
    rw [State.eventSignal_ok found, if_pos out] at row
    exact ⟨_, row, (run.refused 3).2, (run.refused 3).1⟩
  case reads =>
    have row := exec_eventRead run
    rw [State.eventRead_ok found] at row
    refine ⟨_, row, s.complete_scores k 0 0 _, ?_⟩
    have replied := (State.CmdKept.refl s).replied run.1 0 0 [((s.score i).counter ev).toNat]
    rwa [List.map_cons, List.map_nil, BitVec.ofNat_toNat] at replied
  case notifies =>
    have row := exec_eventNotify run
    rw [State.eventNotify_ok found, if_neg (by omega)] at row
    refine ⟨_, row, (State.CmdKept.setScore s i _).replied run.1 0 0 [], ?_⟩
    rw [State.score_congr (State.complete_scores _ k 0 0 []), State.score_setScore_same]
    dsimp only
    rw [Tab.get_set_same, BitVec.toNat_ofNat, Nat.mod_eq_of_lt low]
  case notifiesNot =>
    have row := exec_eventNotify run
    rw [State.eventNotify_ok found, if_pos (by omega)] at row
    exact ⟨_, row, (run.refused 3).2, (run.refused 3).1⟩
  case signalsNone =>
    have row := exec_eventSignal run
    rw [State.eventSignal_error wrong] at row
    exact ⟨_, row, run.refused st⟩
  case readsNone =>
    have row := exec_eventRead run
    rw [State.eventRead_error wrong] at row
    exact ⟨_, row, run.refused st⟩
  case notifiesNone =>
    have row := exec_eventNotify run
    rw [State.eventNotify_error wrong] at row
    exact ⟨_, row, run.refused st⟩

end Sys2Proof.Machine
end

section
/-! SUPPORT. The commands on a bay's debug state, the Guard, a trim output and the power state, and the DOE mailbox (R171, R297, R348, R407,
R440, R444). -/

namespace Sys2Proof.Machine

/-! ### Debug state (R171) -/

/-- A change of every entry that leaves what unlisted numbers hold. -/
theorem Tab.get_map {α : Type} (d : Nat → α) (t : Tab α) (f : α → α) (k : Nat) (h : f (d k) = d k) :
    Tab.get d (t.map fun p => (p.1, f p.2)) k = f (Tab.get d t k) := by
  induction t with
  | nil => exact h.symm
  | cons p t ih =>
    rw [List.map_cons, Tab.get, Tab.get, ih]
    exact (apply_ite f _ _ _).symm

/-- A strand that debug state stops, where it is live. -/
def Strand.halted (x : Strand) : Strand := if x.state.live then { x with state := .halted } else x

/-- A halted strand that goes on. -/
def Strand.freed (x : Strand) (tick : Nat) : Strand := if x.state = .halted then { x with state := .ready, waitFrom := some tick } else x

theorem Bay.strand_haltStrands (y : Bay) (j : Nat) : y.haltStrands.strand j = (y.strand j).halted :=
  Tab.get_map dStrand y.strands Strand.halted j rfl

theorem Bay.strand_freeStrands (y : Bay) (tick j : Nat) : (y.freeStrands tick).strand j = (y.strand j).freed tick :=
  Tab.get_map dStrand y.strands (Strand.freed · tick) j rfl

/-- Between two states only tiles, engines and registers other than that of the bays' states moved. -/
def State.UnitsMoved (s u : State) : Prop := ∃ t e g, u = { s with tiles := t, engines := e, regs := g } ∧ u.reg 0x10 = s.reg 0x10

theorem State.UnitsMoved.refl (s : State) : s.UnitsMoved s := ⟨s.tiles, s.engines, s.regs, rfl, rfl⟩
theorem State.UnitsMoved.trans {s t u : State} (h : s.UnitsMoved t) (k : t.UnitsMoved u) : s.UnitsMoved u := by
  obtain ⟨y, e, g, rfl, r⟩ := h
  obtain ⟨y', e', g', rfl, r'⟩ := k
  exact ⟨y', e', g', rfl, r'.trans r⟩

theorem State.UnitsMoved.modTile (s : State) (t : Nat) (f : Tile → Tile) : s.UnitsMoved (s.modTile t f) :=
  ⟨_, s.engines, s.regs, rfl, rfl⟩
theorem State.UnitsMoved.setLoop (s : State) (e l : Nat) (x : Loop) : s.UnitsMoved (s.setLoop e l x) := ⟨s.tiles, _, s.regs, rfl, rfl⟩

/-- What ends with debug state is a matter of the bay's tiles and loops and of the test register. -/
theorem State.leaveDebug_moves (s : State) (b : Nat) : s.UnitsMoved (s.leaveDebug b) := by
  unfold State.leaveDebug
  extract_lets s1 s2
  have tiles : s.UnitsMoved s1 := foldl_does State.UnitsMoved .refl (fun _ _ _ => .trans) _
    (fun u k => .modTile u _ _) _ s
  have loops : s1.UnitsMoved s2 := foldl_does State.UnitsMoved .refl (fun _ _ _ => .trans) _
    (fun u l => by
      dsimp only
      split
      · exact .setLoop u _ _ _
      · exact .refl u) _ s1
  refine (tiles.trans loops).trans ?_
  clear_value s2
  split
  · exact ⟨s2.tiles, s2.engines, _, rfl, s2.reg_setFld_other _ _ _ (by decide)⟩
  · exact .refl s2

section
variable {s : State} {k : Nat} {c : Taken}

theorem exec_debugEnter (h : s.mayRun k 0x0401 c) : exec (.debugEnter k) s = .next (s.debugEnter k c) :=
  congrArg Host.Outcome.next (State.command_of_mayRun h _)
theorem exec_debugExit (h : s.mayRun k 0x0402 c) : exec (.debugExit k) s = .next (s.debugExit k c) :=
  congrArg Host.Outcome.next (State.command_of_mayRun h _)

variable (bay : c.p 0 < 8)
include bay

theorem State.debugEnter_eq :
    s.debugEnter k c =
      if s.bayState (c.p 0) = 4 then s
      else if s.bayState (c.p 0) = 1 ∨ s.bayState (c.p 0) = 2 ∨ s.bayState (c.p 0) = 3 then
        ((s.modBay (c.p 0) fun y => { y.haltStrands with before := BitVec.ofNat 3 (s.bayState (c.p 0)) }).setBayState (c.p 0) 5).complete k 0
      else s.complete k 5 := if_neg (Nat.not_le.2 bay)

/-- A bay enters debug state: its live strands halt. -/
theorem State.debugEnter_enters (taken : s.cmd.taken[k]? = some c) (h : s.bayState (c.p 0) ∈ [1, 2, 3]) :
    (s.debugEnter k c).bayState (c.p 0) = 5 ∧
      (∀ j, (s.strand (c.p 0) j).state.live = true → ((s.debugEnter k c).strand (c.p 0) j).state = .halted) ∧
      s.Replied (s.debugEnter k c) k c 0 [] := by
  have one : s.bayState (c.p 0) = 1 ∨ s.bayState (c.p 0) = 2 ∨ s.bayState (c.p 0) = 3 := by simpa using h
  rw [State.debugEnter_eq bay, if_neg (by omega), if_pos one]
  generalize halts : (s.modBay (c.p 0) fun y => { y.haltStrands with before := BitVec.ofNat 3 (s.bayState (c.p 0)) }) = u
  have halted : u.bay (c.p 0) = { (s.bay (c.p 0)).haltStrands with before := BitVec.ofNat 3 (s.bayState (c.p 0)) } := by
    rw [← halts, State.bay_modBay_same]
  have kept : s.CmdKept u := halts ▸ .modBay s _ _
  refine ⟨?_, fun j live => ?_, (kept.trans (u.setBayState_commands _ _)).replied taken 0 0 []⟩
  · rw [State.bayState_congr (State.reg_congr (State.complete_regs _ k 0 0 []) _), State.bayState_setBayState _ bay (by decide), if_pos rfl]
  · have strand : (((u.setBayState (c.p 0) 5).complete k 0).strand (c.p 0) j) = (s.bay (c.p 0)).haltStrands.strand j := by
      unfold State.strand
      rw [State.bay_congr (State.complete_bays _ k 0 0 []), State.bay_congr (u.setBayState_bays _ _), halted]
      rfl
    rw [strand, Bay.strand_haltStrands]
    unfold Strand.halted
    rw [show ((s.bay (c.p 0)).strand j).state.live = true from live, if_pos rfl]

theorem State.debugExit_eq :
    s.debugExit k c =
      if s.bayState (c.p 0) ≠ 5 then s.complete k 5
      else (((s.leaveDebug (c.p 0)).modBay (c.p 0) fun y => y.freeStrands s.tick).setBayState (c.p 0)
        (if (s.bay (c.p 0)).anyRun then 3 else if s.bayScore (c.p 0) = 0 then 1 else 2)).complete k 0 0
          [s.fld (LOOP_RECAL.pend.on (c.p 0))] := if_neg (Nat.not_le.2 bay)

/-- A bay leaves debug state: its halted strands go on. -/
theorem State.debugExit_leaves (taken : s.cmd.taken[k]? = some c) (h : s.bayState (c.p 0) = 5) :
    (s.debugExit k c).bayState (c.p 0) = (if (s.bay (c.p 0)).anyRun then 3 else if s.bayScore (c.p 0) = 0 then 1 else 2) ∧
      (∀ j, (s.strand (c.p 0) j).state = .halted → (s.debugExit k c).strand (c.p 0) j =
        { s.strand (c.p 0) j with state := .ready, waitFrom := some s.tick }) ∧
      s.Replied (s.debugExit k c) k c 0 [BitVec.ofNat 32 (s.fld (LOOP_RECAL.pend.on (c.p 0)))] := by
  rw [State.debugExit_eq bay, if_neg (not_not_intro h)]
  generalize target : (if (s.bay (c.p 0)).anyRun then 3 else if s.bayScore (c.p 0) = 0 then 1 else 2) = st
  generalize s.fld (LOOP_RECAL.pend.on (c.p 0)) = n
  have small : st < 8 := by
    rw [← target]
    split_ifs <;> decide
  obtain ⟨t, e, g, left, -⟩ := s.leaveDebug_moves (c.p 0)
  rw [left]
  generalize frees : State.modBay { s with tiles := t, engines := e, regs := g } (c.p 0) (fun y => y.freeStrands s.tick) = u
  have freed : u.bay (c.p 0) = (s.bay (c.p 0)).freeStrands s.tick := by
    rw [← frees, State.bay_modBay_same]
    rfl
  have kept : s.CmdKept u := by
    rw [← frees]
    exact ⟨rfl, rfl, rfl⟩
  refine ⟨?_, fun j halted => ?_, (kept.trans (u.setBayState_commands _ _)).replied taken 0 0 [n]⟩
  · rw [State.bayState_congr (State.reg_congr (State.complete_regs _ k 0 0 _) _), State.bayState_setBayState _ bay small, if_pos rfl]
  · unfold State.strand
    rw [State.bay_congr (State.complete_bays _ k 0 0 _), State.bay_congr (u.setBayState_bays _ _), freed, Bay.strand_freeStrands]
    exact if_pos halted

end

end Sys2Proof.Machine
end

section
/-! SUPPORT. GUARD_CLEAR, TRIM_RELEASE, POWER_STATE and the DOE mailbox (R297, R348, R365, R407, R413, R440, R444). -/

namespace Sys2Proof.Machine

/-! ### Masks -/

theorem inMask_eq_testBit (m i : Nat) : inMask m i = m.testBit i := by
  rw [Nat.testBit_eq_decide_div_mod_eq]
  rfl

/-- A bit of a mask that is taken out of it is there no more. -/
theorem inMask_remove {m i : Nat} (h : inMask m i = true) : inMask (m - 2 ^ i) i = false := by
  rw [inMask_eq_testBit] at h ⊢
  have back := Nat.testBit_two_pow_add_eq (m - 2 ^ i) i
  rw [Nat.add_comm, Nat.sub_add_cancel (Nat.ge_two_pow_of_testBit h), h] at back
  rw [← Bool.not_eq_true', ← back]

/-- A bit of a field that is cleared is clear. -/
theorem State.bitOf_setBitOf_clear (s : State) (f : Fld) {i : Nat} (h : f.lo ≤ f.hi) (w : f.hi < 32) (there : s.bitOf f i = true) :
    (s.setBitOf f i false).bitOf f i = false := by
  have small : s.fld f - 2 ^ i < 2 ^ (f.hi - f.lo + 1) := Nat.lt_of_le_of_lt (Nat.sub_le _ _) (s.fld_lt f)
  unfold State.bitOf at there
  unfold State.setBitOf State.bitOf
  rw [there, if_pos rfl, if_neg Bool.false_ne_true, Nat.add_zero, s.fld_setFld_same f _ h w, Nat.mod_eq_of_lt small]
  exact inMask_remove there

/-- The causes of the first four faults are those that the sensors see. -/
theorem State.inMask_guardCauses (s : State) (seen : Nat) {i : Nat} (h : i < 4) : inMask (s.guardCauses seen) i = inMask (seen % 16) i := by
  unfold State.guardCauses
  split
  · have pow : (2 : Nat) ^ 4 = 16 := rfl
    rw [inMask_eq_testBit, inMask_eq_testBit, Nat.add_comm, ← pow, Nat.testBit_two_pow_add_gt h]
  · rw [Nat.add_zero]

section
variable {s : State} {k : Nat} {c : Taken}

/-! ### GUARD_CLEAR and TRIM_RELEASE (R297, R365, R444) -/

theorem exec_guardClear {causes : BitVec 5} (h : s.mayRun k 0x0701 c) :
    exec (.guardClear k causes) s = .next (s.guardClear k c causes.toNat) := congrArg Host.Outcome.next (State.command_of_mayRun h _)
theorem exec_trimRelease (h : s.mayRun k 0x0702 c) : exec (.trimRelease k) s = .next (s.trimRelease k c) :=
  congrArg Host.Outcome.next (State.command_of_mayRun h _)

/-- Words that do not agree are answered so, and leave a fault record alone. -/
theorem State.badPairOf_spec (taken : s.cmd.taken[k]? = some c) :
    s.Replied (s.badPairOf k c) k c 9 [] ∧ (s.badPairOf k c).trims = s.trims ∧
      ∀ f : Fld, f.off ≠ GLB_FLT_PTR.wr.off → (s.badPairOf k c).fld f = s.fld f := by
  obtain ⟨x, g, m, n, raised, -, regs⟩ := s.raise_spec { cls := 4, code := 1, unit := 1, arg1 := c.p 0, arg2 := c.p 1 }
  have kept := (State.CountersStand.raise s { cls := 4, code := 1, unit := 1, arg1 := c.p 0, arg2 := c.p 1 }).1.commands
  unfold State.badPairOf
  refine ⟨kept.replied taken 9 0 [], ?_, fun f beside => State.fld_congr f ?_⟩
  · obtain ⟨y, e⟩ := State.complete_only (s.raise { cls := 4, code := 1, unit := 1, arg1 := c.p 0, arg2 := c.p 1 }) k 9 0 []
    rw [e, raised]
  · exact (State.reg_congr (State.complete_regs _ k 9 0 []) _).trans (regs _ beside)

theorem State.guardClear_unpaired (h : c.paired = false) (seen : Nat) : s.guardClear k c seen = s.badPairOf k c := by
  unfold State.guardClear
  rw [h]
  rfl

theorem State.guardClear_paired (h : c.paired = true) (low : c.p 0 < 5) (seen : Nat) :
    s.guardClear k c seen =
      if c.p 0 = 4 ∨ inMask (s.guardCauses seen) (c.p 0) ∨ !s.bitOf GUARD_STAT.flt (c.p 0) then s.complete k 5 0 [s.guardCauses seen]
      else (s.setBitOf GUARD_STAT.flt (c.p 0) false).complete k 0 0 [s.guardCauses seen] := by
  unfold State.guardClear
  rw [h, Bool.not_true, if_neg Bool.false_ne_true]
  exact if_neg (Nat.not_le.2 low)

/-- A Guard fault whose cause is there, or that is not set, stays as it is. -/
theorem State.guardClear_keeps (h : c.paired = true) (low : c.p 0 < 5) {causes : BitVec 5}
    (stays : inMask (causes.toNat % 16) (c.p 0) = true ∨ c.p 0 = 4 ∨ s.bitOf GUARD_STAT.flt (c.p 0) = false) :
    s.guardClear k c causes.toNat = s.complete k 5 0 [s.guardCauses causes.toNat] := by
  rw [State.guardClear_paired h low]
  refine if_pos ?_
  by_cases trip : c.p 0 = 4
  · exact .inl trip
  · rcases stays with seen | is4 | clear
    · exact .inr (.inl (by rw [s.inMask_guardCauses _ (by omega)]; exact seen))
    · exact .inl is4
    · exact .inr (.inr (by rw [clear]; rfl))

/-- A Guard fault whose cause is gone is cleared. -/
theorem State.guardClear_clears (h : c.paired = true) (low : c.p 0 < 4) {causes : BitVec 5} (gone : inMask (causes.toNat % 16) (c.p 0) = false)
    (there : s.bitOf GUARD_STAT.flt (c.p 0) = true) :
    s.guardClear k c causes.toNat = (s.setBitOf GUARD_STAT.flt (c.p 0) false).complete k 0 0 [s.guardCauses causes.toNat] := by
  rw [State.guardClear_paired h (by omega)]
  refine if_neg ?_
  rintro (is4 | seen | clear)
  · omega
  · rw [s.inMask_guardCauses _ low, gone] at seen
    exact Bool.false_ne_true seen
  · rw [there] at clear
    exact Bool.false_ne_true clear

theorem State.trimRelease_unpaired (h : c.paired = false) : s.trimRelease k c = s.badPairOf k c := by
  unfold State.trimRelease
  rw [h]
  rfl

theorem State.trimRelease_paired (h : c.paired = true) (low : c.p 0 < 5227) :
    s.trimRelease k c =
      if !(s.trimOut (c.p 0)).rb then s.complete k 5
      else (s.setTrimOut (c.p 0) { s.trimOut (c.p 0) with rb := false, mcnt := 0 }).complete k 0 := by
  unfold State.trimRelease
  rw [h, Bool.not_true, if_neg Bool.false_ne_true]
  exact (if_neg (by omega)).trans (if_neg (Nat.not_le.2 low))

theorem State.complete_trims (s : State) (k st d : Nat) (vs : List Nat) : (s.complete k st d vs).trims = s.trims := by
  obtain ⟨x, e⟩ := s.complete_only k st d vs
  rw [e]

/-- A forced output that is given back keeps its code. -/
theorem State.trimRelease_gives (h : c.paired = true) (low : c.p 0 < 5227) (taken : s.cmd.taken[k]? = some c)
    (forced : (s.trimOut (c.p 0)).rb = true) :
    ((s.trimRelease k c).trimOut (c.p 0)).rb = false ∧ ((s.trimRelease k c).trimOut (c.p 0)).code = (s.trimOut (c.p 0)).code ∧
      s.Replied (s.trimRelease k c) k c 0 [] := by
  rw [State.trimRelease_paired h low, forced, Bool.not_true, if_neg Bool.false_ne_true]
  have given : ((s.setTrimOut (c.p 0) { s.trimOut (c.p 0) with rb := false, mcnt := 0 }).complete k 0).trimOut (c.p 0) =
      { s.trimOut (c.p 0) with rb := false, mcnt := 0 } := by
    unfold State.trimOut
    rw [State.complete_trims]
    exact s.trimOut_setTrimOut_same _ _
  rw [given]
  refine ⟨rfl, rfl, State.CmdKept.replied ?_ taken 0 0 []⟩
  exact ⟨rfl, rfl, rfl⟩

/-! ### POWER_STATE (R407, R413) -/

theorem exec_powerState (h : s.mayRun k 0x0601 c) : exec (.powerState k) s = .next (s.powerState k c) :=
  congrArg Host.Outcome.next (State.command_of_mayRun h _)

theorem State.complete_pwr (s : State) (k st d : Nat) (vs : List Nat) : (s.complete k st d vs).pwr = s.pwr := by
  obtain ⟨x, e⟩ := s.complete_only k st d vs
  rw [e]

theorem State.refusing_lt {t n : Nat} (h : s.refusing t = some n) : n < 64 := by
  have listed := List.mem_of_find?_eq_some h
  unfold entryBlocks at listed
  obtain ⟨m, low, rfl⟩ := List.mem_map.1 listed
  have := List.mem_range.1 low
  omega

/-- The state that an entry to `t`, asked for by the command in place `k`, leaves. -/
def State.entryAsked (s : State) (k : Nat) (c : Taken) : State :=
  let s1 := (s.begin k).setFld PWR_STAT.target (c.p 0)
  { s1 with pwr := { s1.pwr with entry := some ⟨c.p 0, some c.no, s.tick + 1000 * s.fld PWR_ENT_TMO.ms⟩ } }

section
variable (low : c.p 0 < 4)
include low

theorem State.powerState_there (same : c.p 0 = s.pstate) : s.powerState k c = s.complete k 0 0 [s.pstate] := by
  unfold State.powerState
  exact (if_neg (Nat.not_le.2 low)).trans (if_pos same)

variable (other : c.p 0 ≠ s.pstate)
include other

theorem State.powerState_waking (wakes : s.pwr.wake.isSome = true) : s.powerState k c = s := by
  unfold State.powerState
  exact (if_neg (Nat.not_le.2 low)).trans ((if_neg other).trans (if_pos wakes))

variable (still : s.pwr.wake = none)
include still

theorem State.powerState_still :
    s.powerState k c =
      if c.p 0 = 0 then (s.begin k).startWake (some c.no)
      else if s.pstate ≠ 0 ∧ ¬ (s.pstate = 2 ∧ c.p 0 = 3) then s.complete k 5 0 [s.pstate]
      else match s.refusing (c.p 0) with
        | some n => (s.setFld PWR_STAT.blk n).complete k 5 0 [s.pstate, n]
        | none => s.entryAsked k c := by
  unfold State.powerState
  refine (if_neg (Nat.not_le.2 low)).trans ((if_neg other).trans ((if_neg ?_).trans rfl))
  rw [still]
  exact Bool.false_ne_true

theorem State.powerState_wakes (zero : c.p 0 = 0) : s.powerState k c = (s.begin k).startWake (some c.no) := by
  rw [State.powerState_still low other still, if_pos zero]

variable (sleep : c.p 0 ≠ 0)
include sleep

theorem State.powerState_away (far : ¬ (s.pstate = 0 ∨ (s.pstate = 2 ∧ c.p 0 = 3))) : s.powerState k c = s.complete k 5 0 [s.pstate] := by
  rw [State.powerState_still low other still, if_neg sleep, if_pos (not_or.1 far)]

variable (reach : s.pstate = 0 ∨ (s.pstate = 2 ∧ c.p 0 = 3))
include reach

theorem State.powerState_asks (h : s.refusing (c.p 0) = none) : s.powerState k c = s.entryAsked k c := by
  rw [State.powerState_still low other still, if_neg sleep, if_neg fun far => not_or.2 far reach, h]

theorem State.powerState_refused {n : Nat} (h : s.refusing (c.p 0) = some n) :
    s.powerState k c = (s.setFld PWR_STAT.blk n).complete k 5 0 [s.pstate, n] := by
  rw [State.powerState_still low other still, if_neg sleep, if_neg fun far => not_or.2 far reach, h]

end

end

/-! ### The DOE mailbox (R348, R440) -/

section
variable {s : State} {type : Byte} {bytes : List Byte}

theorem exec_doeRequest (abort : Bool) : exec (.doeRequest type bytes abort) s = .next (s.doeRequest type bytes abort) := rfl

theorem State.doeRequest_unanswered (h : 1 < type.toNat ∨ 16384 < bytes.length) : s.doeRequest type bytes false = s := by
  unfold State.doeRequest
  exact (if_neg Bool.false_ne_true).trans (if_pos h)

theorem State.doeRequest_discovery (h : type = 0) (short : bytes.length ≤ 16384) :
    s.doeRequest type bytes false = { s with link := { s.link with doe := Config.spdmResponse 0 bytes [] [] } } := by
  subst h
  unfold State.doeRequest
  exact (if_neg Bool.false_ne_true).trans ((if_neg (by simp; omega)).trans (if_pos rfl))

theorem State.doeRequest_spdm (h : type = 1) (short : bytes.length ≤ 16384) :
    s.doeRequest type bytes false =
      match s.sec.akey, (if bytes.getD 1 0 = 0x84 then some [] else s.sec.session) with
      | some k, some t => { s with
          sec := { s.sec with session := some (s.spdm k t bytes).2 }, link := { s.link with doe := (s.spdm k t bytes).1 } }
      | _, _ => { s with link := { s.link with doe := Config.spdmRestart bytes } } := by
  subst h
  unfold State.doeRequest
  exact (if_neg Bool.false_ne_true).trans ((if_neg (by simp; omega)).trans (if_neg (by decide)))

end

end Sys2Proof.Machine
end

section
/-! SUPPORT. REQUALIFY: what a source's qualification makes of its combs (R285). -/

namespace Sys2Proof.Machine

/-- Between two states the commands and a source's combs stand. -/
def State.CombsKept (b : Nat) (s u : State) : Prop := s.CmdKept u ∧ ∀ n, u.comb b n = s.comb b n

section
variable {b : Nat}

theorem State.CombsKept.refl (s : State) : s.CombsKept b s := ⟨.refl s, fun _ => rfl⟩
theorem State.CombsKept.trans {s t u : State} (h : s.CombsKept b t) (k : t.CombsKept b u) : s.CombsKept b u :=
  ⟨h.1.trans k.1, fun n => (k.2 n).trans (h.2 n)⟩
theorem State.CombsKept.of_light {s u : State} (cmd : s.CmdKept u) (light : u.light = s.light) : s.CombsKept b u :=
  ⟨cmd, fun n => by
    unfold State.comb
    rw [State.source_congr light]⟩
theorem State.CombsKept.foldl {α : Type} (f : State → α → State) (step : ∀ u x, State.CombsKept b u (f u x)) (l : List α) (s : State) :
    s.CombsKept b (l.foldl f s) := foldl_does (State.CombsKept b) .refl (fun _ _ _ => .trans) f step l s
theorem State.CombsKept.ite {s u v : State} {p : Prop} [Decidable p] (h : s.CombsKept b u) (k : s.CombsKept b v) :
    s.CombsKept b (if p then u else v) := iteInduction (motive := s.CombsKept b) (fun _ => h) fun _ => k

theorem State.BaysMoved.combs {s u : State} (h : s.BaysMoved u) : s.CombsKept b u := by
  refine .of_light h.commands ?_
  obtain ⟨y, t, rfl⟩ := h
  rfl
theorem State.ClaimsMoved.combs {s u : State} (h : s.ClaimsMoved u) : s.CombsKept b u := by
  refine .of_light h.commands ?_
  obtain ⟨c, x, g, m, n, rfl, -⟩ := h
  rfl
theorem State.EnginesMoved.combs {s u : State} (h : s.EnginesMoved u) : s.CombsKept b u := ⟨h.commands, h.comb b⟩
theorem State.UnitsMoved.combs {s u : State} (h : s.UnitsMoved u) : s.CombsKept b u := by
  obtain ⟨t, e, g, rfl, -⟩ := h
  exact .of_light ⟨rfl, rfl, rfl⟩ rfl

theorem State.CombsKept.setSource (s : State) {x : Source} (h : x.combs = (s.source b).combs) : s.CombsKept b (s.setSource b x) :=
  ⟨⟨rfl, rfl, rfl⟩, fun n => s.comb_setSource b n h⟩
theorem State.CombsKept.setLine (s : State) (c n : Nat) (x : Line) : s.CombsKept b (s.setLine b c n x) := .setSource s rfl
theorem State.CombsKept.setFld (s : State) (f : Fld) (v : Nat) : s.CombsKept b (s.setFld f v) := .of_light (.setFld s f v) rfl
theorem State.CombsKept.setBayField (s : State) (k v : Nat) : s.CombsKept b (s.setBayField k v) := by
  obtain ⟨g, m, n, e, -⟩ := s.setBayField_spec k v
  rw [e]
  exact .of_light ⟨rfl, rfl, rfl⟩ rfl

/-! ### Bays in and out of service -/

theorem State.CombsKept.withdraw (s : State) : s.CombsKept b (s.withdraw b) := by
  unfold State.withdraw
  extract_lets s0 s1 source s2
  have left : s.CombsKept b s0 := .ite (s.leaveDebug_moves b).combs (.refl s)
  have broken : s0.CombsKept b (s0.breakBayPromises b 9) := by
    unfold State.breakBayPromises
    split
    · exact .refl s0
    · exact (State.scoreFold_moves _ _ _ _ fun u n c => u.promiseBreak_moves _ n _).combs
  have stopped : (s0.breakBayPromises b 9).CombsKept b s1 :=
    (State.stopSeq_moves _ b .assured).combs.trans (State.stopSeq_moves _ b .spare).combs
  have cleared : s1.CombsKept b s2 := .setSource s1 rfl
  exact (((left.trans broken).trans stopped).trans cleared).trans (.setBayField s2 b _)

theorem State.CombsKept.degradePromises (s : State) (k : Nat) : s.CombsKept b (s.degradePromises k) := by
  unfold State.degradePromises
  split
  · exact .refl s
  · refine (State.scoreFold_moves _ _ _ _ fun u n c => ?_).combs
    split
    · exact u.promiseRisk_moves _ n _
    · exact u.promiseBreak_moves _ n _

theorem State.CombsKept.judgeBay (s : State) : s.CombsKept b (s.judgeBay b) := by
  unfold State.judgeBay
  extract_lets lost work s1 st
  have judged : s.CombsKept b s1 := .ite (.refl s)
    (((s.modBay_moves b _).combs.trans (.setBayField _ b _)).trans (.degradePromises _ b))
  exact judged.trans (.ite (.withdraw s1) (.refl s1))

theorem State.CombsKept.qualifiedBay (s : State) : s.CombsKept b (s.qualifiedBay b) := by
  unfold State.qualifiedBay
  extract_lets s1
  have counted : s.CombsKept b s1 := (s.modBay_moves b _).combs.trans (.setBayField _ b _)
  exact counted.trans (.ite (.ite (.setBayField s1 b _) (.refl s1)) (.judgeBay s1))

/-! ### The combs one by one -/

/-- Between two states the commands and a source's combs other than one stand. -/
def State.CombsBut (b c : Nat) (s u : State) : Prop := s.CmdKept u ∧ ∀ n, n ≠ c → u.comb b n = s.comb b n

theorem State.CombsKept.but {s u : State} (h : s.CombsKept b u) (c : Nat) : s.CombsBut b c u := ⟨h.1, fun n _ => h.2 n⟩
theorem State.CombsBut.trans {c : Nat} {s t u : State} (h : s.CombsBut b c t) (k : t.CombsBut b c u) : s.CombsBut b c u :=
  ⟨h.1.trans k.1, fun n o => (k.2 n o).trans (h.2 n o)⟩
theorem State.CombsBut.setComb (s : State) (c : Nat) (x : Comb) : s.CombsBut b c (s.setComb b c x) :=
  ⟨⟨rfl, rfl, rfl⟩, fun n o => (s.comb_setComb b c n x).trans (if_neg o)⟩
theorem State.CombsBut.combDown (s : State) (c : Nat) (st : BitVec 3) : s.CombsBut b c (s.combDown b c st) :=
  (State.CombsBut.setComb s c _).trans ((s.combDown_moves b c st).combs.but c)

section
variable (s : State) (c : Nat) (locked : Bool) (refs : List (Nat × Nat))

/-- A comb that fails its qualification: its lines reset, and the spare marked failed where it is one. -/
theorem State.qualifyComb_fails (h : (s.comb b c).state = 4 ∨ locked = false) :
    s.CombsBut b c (s.qualifyComb b c locked refs) ∧ ((s.qualifyComb b c locked refs).comb b c).state = 4 := by
  unfold State.qualifyComb
  extract_lets y spare inUse y1 s1 s2 s3 _ _ _
  rw [if_pos (h.imp_right fun k => by rw [k]; rfl)]
  have lines : s2.CombsKept b s3 := .foldl _ (fun u n => .setLine u c n _) _ s2
  have marked : s2.CombsKept b (if spare then s3.setSpare b 4 else s3) := lines.trans (.ite (.setFld s3 _ _) (.refl s3))
  refine ⟨((State.CombsBut.setComb s c _).trans (.combDown s1 c 4)).trans (marked.but c), ?_⟩
  rw [marked.2 c, State.comb_combDown, if_pos rfl]

/-- A comb that is qualified changes no other. -/
theorem State.qualifyComb_but : s.CombsBut b c (s.qualifyComb b c locked refs) := by
  by_cases bad : (s.comb b c).state = 4 ∨ locked = false
  · exact (s.qualifyComb_fails c locked refs bad).1
  · unfold State.qualifyComb
    extract_lets y spare inUse y1 _ _ _ s1 ref s2
    rw [if_neg (by simpa using bad)]
    have lines : s.CombsKept b s1 := .foldl _ (fun u n => .setLine u c n _) _ s
    have placed : s.CombsBut b c s2 := (lines.but c).trans (.setComb s1 c _)
    split
    · exact placed.trans ((State.CombsBut.combDown s2 c 3).trans ((State.CombsKept.setFld _ _ _).but c))
    · exact placed.trans ((s2.driveTo_moves _ _).combs.but c)

/-- A working comb that locks is at nominal drive. -/
theorem State.qualifyComb_locks (h : (s.comb b c).state ≠ 4) (main : c ≠ spareComb b) :
    ((s.qualifyComb b c true refs).comb b c).state = 2 ∧ ((s.qualifyComb b c true refs).comb b c).boost = 0 := by
  unfold State.qualifyComb
  extract_lets y spare inUse y1 _ _ _ s1 ref s2
  have plain : spare = false := beq_eq_false_iff_ne.2 main
  rw [if_neg (by simpa using h), if_neg (by rw [plain]; simp), (s2.driveTo_moves _ _).comb b c, State.comb_setComb, if_pos rfl]
  exact ⟨rfl, rfl⟩

end

/-- Combs qualified one after another: each is settled at its turn. -/
theorem State.qualifyCombs_spec (s : State) (locked : List Nat) (refs : List (Nat × Nat)) {l : List Nat} (distinct : l.Nodup) {n : Nat}
    (m : n ∈ l) :
    ∃ u : State, u.comb b n = s.comb b n ∧
      (l.foldl (fun s c => s.qualifyComb b c (locked.contains c) refs) s).comb b n = (u.qualifyComb b n (locked.contains n) refs).comb b n := by
  obtain ⟨before, after, rfl⟩ := List.append_of_mem m
  have apart := List.nodup_append.1 distinct
  have beside : ∀ (k : List Nat) (u : State), n ∉ k →
      (k.foldl (fun s c => s.qualifyComb b c (locked.contains c) refs) u).comb b n = u.comb b n := fun k u out =>
    List.foldlRecOn (motive := fun v : State => v.comb b n = u.comb b n) k _ rfl fun v same c listed =>
      ((v.qualifyComb_but c _ refs).2 n fun is => out (is ▸ listed)).trans same
  refine ⟨before.foldl (fun s c => s.qualifyComb b c (locked.contains c) refs) s, beside before s ?_, ?_⟩
  · exact fun listed => apart.2.2 n listed n List.mem_cons_self rfl
  · rw [List.foldl_append, List.foldl_cons]
    exact beside after _ (List.nodup_cons.1 apart.2.1).1

/-! ### The source -/

section
variable (s : State) (locked : List Nat) (refs : List (Nat × Nat)) (bay : b < 8)
include bay

theorem combsOf_bay : combsOf b = 5 := if_pos bay

/-- A qualification takes the combs one after another; what comes before and after keeps them. -/
theorem State.qualify_steps :
    ∃ s0, s.CombsKept b s0 ∧ ((List.range (combsOf b)).foldl (fun s c => s.qualifyComb b c (locked.contains c) refs) s0).CombsKept b
      (s.qualify b locked refs) := by
  unfold State.qualify
  extract_lets source s0 s1 s2
  refine ⟨s0, .setSource s rfl, ?_⟩
  have dark : s2 = s1.loseUnserved b := if_pos bay
  have lost : s1.CombsKept b (s1.loseUnserved b) := .foldl _
    (fun u c => .ite (.refl u) (.foldl _ (fun v n => .setLine v c n _) _ u)) _ s1
  rw [if_pos bay, dark]
  exact lost.trans (State.spreadAffected_moves _ b).combs

/-- A qualification settles each comb by whether it locks. -/
theorem State.qualify_comb {n : Nat} (low : n < 5) :
    ((n ∉ locked ∨ (s.comb b n).state = 4) → ((s.qualify b locked refs).comb b n).state = 4) ∧
      (n ∈ locked → n < 4 → (s.comb b n).state ≠ 4 →
        ((s.qualify b locked refs).comb b n).state = 2 ∧ ((s.qualify b locked refs).comb b n).boost = 0) := by
  obtain ⟨s0, cleared, rest⟩ := s.qualify_steps locked refs bay
  obtain ⟨u, same, settled⟩ := State.qualifyCombs_spec (b := b) s0 locked refs (l := List.range (combsOf b)) List.nodup_range (n := n)
    (List.mem_range.2 (by rw [combsOf_bay bay]; exact low))
  have before : u.comb b n = s.comb b n := same.trans (cleared.2 n)
  rw [rest.2 n, settled, ← before]
  refine ⟨fun bad => (u.qualifyComb_fails n _ refs (bad.symm.imp_right fun out => ?_)).2, fun listed main good => ?_⟩
  · rw [List.contains_eq_mem, decide_eq_false_iff_not]
    exact out
  · have locks : locked.contains n = true := List.contains_iff_mem.2 listed
    have spare : spareComb b = 4 := congrArg (· - 1) (combsOf_bay bay)
    rw [locks]
    exact u.qualifyComb_locks n refs good (by omega)

theorem State.qualify_commands : s.CmdKept (s.qualify b locked refs) := by
  obtain ⟨s0, cleared, rest⟩ := s.qualify_steps locked refs bay
  have combs := State.CmdKept.foldl (fun s c => s.qualifyComb b c (locked.contains c) refs)
    (fun u c => (u.qualifyComb_but (b := b) c _ refs).1) (List.range (combsOf b)) s0
  exact (cleared.1.trans combs).trans rest.1

end

end

/-! ### REQUALIFY -/

section
variable {s : State} {k : Nat} {c : Taken} {locked : List Nat} {refs : List (Nat × Nat)}

theorem exec_requalify (h : s.mayRun k 0x0501 c) : exec (.requalify k locked refs) s = .next (s.requalify k c locked refs) :=
  congrArg Host.Outcome.next (State.command_of_mayRun h _)

variable (bay : c.p 0 < 8)
include bay

theorem State.requalify_held (held : s.bayScore (c.p 0) ≠ 0) : s.requalify k c locked refs = s.complete k 5 := by
  unfold State.requalify
  exact (if_neg (by omega)).trans (if_pos (.inl ⟨bay, held⟩))

theorem State.requalify_free (free : s.bayScore (c.p 0) = 0) :
    ∃ vs, s.requalify k c locked refs = ((s.qualify (c.p 0) locked refs).qualifiedBay (c.p 0)).complete k 0 0 vs := by
  unfold State.requalify
  extract_lets i s1 s2
  have judged : s2 = s1.qualifiedBay i := if_pos bay
  rw [judged]
  refine ⟨_, (if_neg (Nat.not_le.2 (Nat.lt_succ_of_lt bay))).trans (if_neg ?_)⟩
  rintro (held | fabric)
  · exact held.2 free
  · exact Nat.ne_of_lt bay fabric.1

end

end Sys2Proof.Machine
end

section
/-! SUPPORT. The commands on the system, together (R171, R285, R297, R348, R407, R413, R440, R444). -/

namespace Sys2Proof.Machine

theorem State.complete_light (s : State) (k st d : Nat) (vs : List Nat) : (s.complete k st d vs).light = s.light := by
  obtain ⟨x, e⟩ := s.complete_only k st d vs
  rw [e]

theorem State.complete_fld (s : State) (k st d : Nat) (vs : List Nat) (f : Fld) : (s.complete k st d vs).fld f = s.fld f :=
  State.fld_congr f (State.reg_congr (s.complete_regs k st d vs) _)

section
variable {s : State} {k : Nat} {c : Taken}

/-- A bay's source is qualified: each comb by whether it locks, and the command is answered. -/
theorem State.requalify_qualifies (taken : s.cmd.taken[k]? = some c) (bay : c.p 0 < 8) (free : s.bayScore (c.p 0) = 0)
    (locked : List Nat) (refs : List (Nat × Nat)) :
    (∃ vs, s.Replied (s.requalify k c locked refs) k c 0 vs) ∧ ∀ n, n < 5 →
      ((n ∉ locked ∨ (s.comb (c.p 0) n).state = 4) → ((s.requalify k c locked refs).comb (c.p 0) n).state = 4) ∧
      (n ∈ locked → n < 4 → (s.comb (c.p 0) n).state ≠ 4 → ((s.requalify k c locked refs).comb (c.p 0) n).state = 2 ∧
        ((s.requalify k c locked refs).comb (c.p 0) n).boost = 0) := by
  obtain ⟨vs, done⟩ := State.requalify_free (locked := locked) (refs := refs) (k := k) bay free
  obtain ⟨commands, judged⟩ := State.CombsKept.qualifiedBay (b := c.p 0) (s.qualify (c.p 0) locked refs)
  rw [done]
  refine ⟨⟨_, ((s.qualify_commands locked refs bay).trans commands).replied taken 0 0 vs⟩, fun n low => ?_⟩
  have comb : ((((s.qualify (c.p 0) locked refs).qualifiedBay (c.p 0)).complete k 0 0 vs).comb (c.p 0) n) =
      (s.qualify (c.p 0) locked refs).comb (c.p 0) n := by
    refine Eq.trans ?_ (judged n)
    unfold State.comb
    rw [State.source_congr (State.complete_light _ k 0 0 vs)]
  rw [comb]
  exact s.qualify_comb locked refs bay low

theorem State.Begun.congr {u v : State} (h : s.Begun u k c) (cmd : v.cmd = u.cmd) : s.Begun v k c := by
  unfold State.Begun
  rw [cmd]
  exact h

theorem State.fld_withPwr (s : State) (x : Power) (f : Fld) : State.fld { s with pwr := x } f = s.fld f := rfl

theorem State.begin_pstate (s : State) (k : Nat) : (s.begin k).pstate = s.pstate := State.fld_congr (s := s) _ (State.reg_congr rfl _)

theorem State.startWake_spec (taken : s.cmd.taken[k]? = some c) :
    s.Begun ((s.begin k).startWake (some c.no)) k c ∧
      ((s.begin k).startWake (some c.no)).pwr.wake = some ⟨s.pstate, 0, some c.no, s.tick, none⟩ := by
  have begun := (State.CmdKept.refl s).begun taken
  unfold State.startWake
  rw [State.begin_pstate]
  refine ⟨begun.congr ?_, ?_⟩
  · dsimp only
    rw [State.setFld_cmd, State.setFld_cmd]
  · rfl

theorem State.entryAsked_spec (taken : s.cmd.taken[k]? = some c) :
    s.Begun (s.entryAsked k c) k c ∧
      (s.entryAsked k c).pwr.entry = some ⟨c.p 0, some c.no, s.tick + 1000 * s.fld PWR_ENT_TMO.ms⟩ ∧ (s.entryAsked k c).pstate = s.pstate := by
  have begun := (State.CmdKept.refl s).begun taken
  have beside := (s.begin k).fld_setFld_beside PWR_STAT.target PWR_STAT.state (c.p 0) rfl (by decide) (by decide) (by decide) (by decide)
  unfold State.entryAsked
  generalize asked : (s.begin k).setFld PWR_STAT.target (c.p 0) = u at beside
  have cmd : u.cmd = (s.begin k).cmd := by rw [← asked, State.setFld_cmd]
  exact ⟨begun.congr cmd, rfl, (u.fld_withPwr _ PWR_STAT.state).trans (beside.trans (s.begin_pstate k))⟩

/-- A refused entry names its block. -/
theorem State.refusedEntry_spec (taken : s.cmd.taken[k]? = some c) {n : Nat} (h : n < 64) (vs : List Nat) :
    ((s.setFld PWR_STAT.blk n).complete k 5 0 vs).pwr = s.pwr ∧
      ((s.setFld PWR_STAT.blk n).complete k 5 0 vs).fld PWR_STAT.blk = n ∧
      s.Replied ((s.setFld PWR_STAT.blk n).complete k 5 0 vs) k c 5 (vs.map (BitVec.ofNat 32)) := by
  have kept := State.CmdKept.setFld s PWR_STAT.blk n
  have stored := s.fld_setFld_same PWR_STAT.blk n (by decide) (by decide)
  have pwr := s.setFld_pwr PWR_STAT.blk n
  generalize s.setFld PWR_STAT.blk n = u at kept stored pwr
  refine ⟨(u.complete_pwr k 5 0 vs).trans pwr, ?_, kept.replied taken 5 0 vs⟩
  rw [State.complete_fld, stored]
  exact Nat.mod_eq_of_lt h

end

section
variable {s : State} {type : Byte} {bytes : List Byte}

/-- A request of SPDM within a session that stands. -/
theorem State.doeRequest_session (h : type = 1) (short : bytes.length ≤ 16384) {key : AliasKey} {t : List Byte} (holds : s.sec.akey = some key)
    (session : (if bytes.getD 1 0 = 0x84 then some [] else s.sec.session) = some t) :
    s.doeRequest type bytes false = { s with
      sec := { s.sec with session := some (s.spdm key t bytes).2 }, link := { s.link with doe := (s.spdm key t bytes).1 } } := by
  rw [State.doeRequest_spdm h short, holds, session]

/-- A request of SPDM without a key or a session. -/
theorem State.doeRequest_restart (h : type = 1) (short : bytes.length ≤ 16384)
    (none_ : s.sec.akey = none ∨ (if bytes.getD 1 0 = 0x84 then some [] else s.sec.session) = none) :
    s.doeRequest type bytes false = { s with link := { s.link with doe := Config.spdmRestart bytes } } := by
  rw [State.doeRequest_spdm h short]
  split
  · next k t holds session =>
    rcases none_ with keyless | ended
    · rw [keyless] at holds
      cases holds
    · rw [ended] at session
      cases session
  · rfl

end

/-- Settles O40: each command by the branches of its start. -/
theorem systemCommandsAct : Obligations.SystemCommandsAct := by
  unfold Obligations.SystemCommandsAct
  refine fun s k c => ⟨fun run bay => ⟨fun serves => ?enter, fun rebinds => ?waits, fun other => ?enterNot⟩,
    fun run bay => ⟨fun debug => ?exit, fun other => ?exitNot⟩,
    fun locked refs run bay => ⟨fun free => ?qualifies, fun held => ?qualifiesNot⟩,
    fun causes run => ⟨fun unpaired => ?guardPair, fun paired low stays => ?guardNot, fun paired low gone there => ?guard⟩,
    fun run low => ⟨fun paired forced => ?trim, fun paired free => ?trimNot, fun unpaired => ?trimPair⟩,
    fun run low => ⟨fun same => ?there, fun other wakes => ?waking, fun other still => ⟨fun zero => ?wakes, fun sleep reach yes => ?asks,
      fun n sleep reach no => ?refused, fun sleep far => ?far⟩⟩,
    fun type bytes => ⟨fun discovery short => ?discovery, fun spdm short => ⟨fun key t holds session => ?session, fun none_ => ?restart⟩,
      fun out => ?unanswered, ?abort⟩⟩
  case enter => exact ⟨_, exec_debugEnter run, State.debugEnter_enters bay run.1 serves⟩
  case waits => rw [exec_debugEnter run, State.debugEnter_eq bay, if_pos rebinds]
  case enterNot =>
    have row := exec_debugEnter run
    rw [List.mem_cons, List.mem_cons, List.mem_cons, List.mem_singleton] at other
    rw [State.debugEnter_eq bay, if_neg (by omega), if_neg (by omega)] at row
    exact ⟨_, row, s.complete_bays _ _ _ _, (run.refused 5).2⟩
  case exit => exact ⟨_, exec_debugExit run, State.debugExit_leaves bay run.1 debug⟩
  case exitNot =>
    have row := exec_debugExit run
    rw [State.debugExit_eq bay, if_pos other] at row
    exact ⟨_, row, s.complete_bays _ _ _ _, (run.refused 5).2⟩
  case qualifies => exact ⟨_, exec_requalify run, State.requalify_qualifies run.1 bay free locked refs⟩
  case qualifiesNot =>
    have row := exec_requalify (locked := locked) (refs := refs) run
    rw [State.requalify_held bay held] at row
    exact ⟨_, row, s.complete_light _ _ _ _, (run.refused 5).2⟩
  case guardPair =>
    have row := exec_guardClear (causes := causes) run
    rw [State.guardClear_unpaired unpaired] at row
    obtain ⟨replied, -, fields⟩ := State.badPairOf_spec run.1
    exact ⟨_, row, fields GUARD_STAT.flt (by decide), replied⟩
  case guardNot =>
    have row := exec_guardClear (causes := causes) run
    rw [State.guardClear_keeps paired low stays] at row
    exact ⟨_, row, s.complete_fld _ _ _ _ _, _, (State.CmdKept.refl s).replied run.1 5 0 _⟩
  case guard =>
    have row := exec_guardClear (causes := causes) run
    rw [State.guardClear_clears paired low gone there] at row
    refine ⟨_, row, ?_, _, (State.CmdKept.setFld s _ _).replied run.1 0 0 _⟩
    unfold State.bitOf
    rw [State.complete_fld]
    exact s.bitOf_setBitOf_clear _ (by decide) (by decide) there
  case trim => exact ⟨_, exec_trimRelease run, State.trimRelease_gives paired low run.1 forced⟩
  case trimNot =>
    have row := exec_trimRelease run
    rw [State.trimRelease_paired paired low, free] at row
    exact ⟨_, row, s.complete_trims _ _ _ _, (run.refused 5).2⟩
  case trimPair =>
    have row := exec_trimRelease run
    rw [State.trimRelease_unpaired unpaired] at row
    obtain ⟨replied, trims, -⟩ := State.badPairOf_spec run.1
    exact ⟨_, row, trims, replied⟩
  case there =>
    have row := exec_powerState run
    rw [State.powerState_there low same] at row
    exact ⟨_, row, s.complete_pwr _ _ _ _, (State.CmdKept.refl s).replied run.1 0 0 [s.pstate]⟩
  case waking => rw [exec_powerState run, State.powerState_waking low other wakes]
  case wakes =>
    have row := exec_powerState run
    rw [State.powerState_wakes low other still zero] at row
    exact ⟨_, row, State.startWake_spec run.1⟩
  case asks =>
    have row := exec_powerState run
    rw [State.powerState_asks low other still sleep reach yes] at row
    exact ⟨_, row, State.entryAsked_spec run.1⟩
  case refused =>
    have row := exec_powerState run
    rw [State.powerState_refused low other still sleep reach no] at row
    exact ⟨_, row, State.refusedEntry_spec run.1 (State.refusing_lt no) [s.pstate, n]⟩
  case far =>
    have row := exec_powerState run
    rw [State.powerState_away low other still sleep far] at row
    exact ⟨_, row, s.complete_pwr _ _ _ _, (State.CmdKept.refl s).replied run.1 5 0 [s.pstate]⟩
  case discovery =>
    have row := exec_doeRequest (s := s) (type := type) (bytes := bytes) false
    rw [State.doeRequest_discovery discovery short] at row
    exact ⟨_, row, rfl, rfl⟩
  case session =>
    have row := exec_doeRequest (s := s) (type := type) (bytes := bytes) false
    rw [State.doeRequest_session spdm short holds session] at row
    exact ⟨_, row, rfl, rfl, holds⟩
  case restart =>
    have row := exec_doeRequest (s := s) (type := type) (bytes := bytes) false
    rw [State.doeRequest_restart spdm short none_] at row
    exact ⟨_, row, rfl, rfl⟩
  case unanswered => rw [exec_doeRequest, State.doeRequest_unanswered out]
  case abort => exact ⟨_, exec_doeRequest true, rfl⟩

end Sys2Proof.Machine
end

section
/-! SUPPORT. Stage memory and GDDR7 together, and when both are in canonical form (O56). -/

namespace Sys2Proof.Machine

/-- What a state holds in stage memory and GDDR7. -/
def State.mem (s : State) : Stage × Gddr := (s.stage, s.gddr)

/-- Both memories are in canonical form. -/
def Canonical (m : Stage × Gddr) : Prop := m.1.ok ∧ m.2.ok

theorem State.memOk_iff_canonical (s : State) : s.memOk = true ↔ Canonical s.mem := s.memOk_iff

@[simp] theorem canonical_mk (g : Stage) (d : Gddr) : Canonical (g, d) ↔ g.ok ∧ d.ok := Iff.rfl

section
variable {s : State} (h : Canonical s.mem)
include h

@[simp] theorem Canonical.stage : s.stage.ok := h.1
@[simp] theorem Canonical.gddr : s.gddr.ok := h.2

end

@[simp] theorem Gddr.ok_retry (g : Gddr) (l : List (Nat × Nat × Option Block)) : Gddr.ok { g with retry := l } ↔ g.ok := Iff.rfl
@[simp] theorem Gddr.ok_trained (g : Gddr) (b : Bool) : Gddr.ok { g with trained := b } ↔ g.ok := Iff.rfl

@[simp] theorem State.mem_mk (a b c d e f g h i j st gd k l m n o p q r t u v w x y) :
    (State.mk a b c d e f g h i j st gd k l m n o p q r t u v w x y).mem = (st, gd) := Prod.ext rfl rfl

@[simp] theorem State.mem_eta (s : State) : (s.stage, s.gddr) = s.mem := Prod.ext rfl rfl

@[simp] theorem State.mem_ite {c : Prop} [Decidable c] {t u : State} : (if c then t else u).mem = if c then t.mem else u.mem :=
  apply_ite State.mem c t u

@[simp] theorem canonical_ite {c : Prop} [Decidable c] {m n : Stage × Gddr} :
    Canonical (if c then m else n) ↔ if c then Canonical m else Canonical n := by
  rw [apply_ite Canonical]

section
variable {α : Type} {f : State → α → State} (l : List α)

@[simp] theorem foldl_mem (step : ∀ s x, (f s x).mem = s.mem) (s : State) : (l.foldl f s).mem = s.mem :=
  foldl_does (fun s u => u.mem = s.mem) (fun _ => rfl) (fun _ _ _ h k => k.trans h) f step l s

theorem foldl_canonical (step : ∀ s x, Canonical s.mem → Canonical (f s x).mem) {s : State} (h : Canonical s.mem) :
    Canonical (l.foldl f s).mem :=
  foldl_does (fun s u => Canonical s.mem → Canonical u.mem) (fun _ h => h) (fun _ _ _ h k m => k (h m)) f step l s h

end

end Sys2Proof.Machine
end

section
/-! SUPPORT. What the shared operations, the strands and the tiles do to stage memory and GDDR7. -/

namespace Sys2Proof.Machine

section
variable (s : State)

/-! ### The shared operations (R152, R172, R218, R232, R347, R451, R455) -/

@[simp] theorem State.setBay_mem (b : Nat) (v : Bay) : (s.setBay b v).mem = s.mem := by simp [State.setBay]
@[simp] theorem State.modBay_mem (b : Nat) (f : Bay → Bay) : (s.modBay b f).mem = s.mem := by simp [State.modBay]
@[simp] theorem State.setTile_mem (t : Nat) (v : Tile) : (s.setTile t v).mem = s.mem := by simp [State.setTile]
@[simp] theorem State.modTile_mem (t : Nat) (f : Tile → Tile) : (s.modTile t f).mem = s.mem := by simp [State.modTile]
@[simp] theorem State.setStrand_mem (b j : Nat) (v : Strand) : (s.setStrand b j v).mem = s.mem := by simp [State.setStrand]
@[simp] theorem State.setEngine_mem (e : Nat) (v : Engine) : (s.setEngine e v).mem = s.mem := by simp [State.setEngine]
@[simp] theorem State.setLoop_mem (e l : Nat) (v : Loop) : (s.setLoop e l v).mem = s.mem := by simp [State.setLoop]
@[simp] theorem State.setSource_mem (i : Nat) (v : Source) : (s.setSource i v).mem = s.mem := by simp [State.setSource]
@[simp] theorem State.setComb_mem (i c : Nat) (v : Comb) : (s.setComb i c v).mem = s.mem := by simp [State.setComb]
@[simp] theorem State.setLine_mem (i c n : Nat) (v : Line) : (s.setLine i c n v).mem = s.mem := by simp [State.setLine]
@[simp] theorem State.setTrimOut_mem (o : Nat) (v : TrimOut) : (s.setTrimOut o v).mem = s.mem := by simp [State.setTrimOut]
@[simp] theorem State.setSensor_mem (n : Nat) (v : Sensor) : (s.setSensor n v).mem = s.mem := by simp [State.setSensor]
@[simp] theorem State.setScore_mem (i : ScoreId) (v : Score) : (s.setScore i v).mem = s.mem := by simp [State.setScore]
@[simp] theorem State.setQueue_mem (q : Nat) (v : Queue) : (s.setQueue q v).mem = s.mem := by simp [State.setQueue]
@[simp] theorem State.setSbuf_mem (n : Nat) (v : SBuf) : (s.setSbuf n v).mem = s.mem := by simp [State.setSbuf]
@[simp] theorem State.setRwin_mem (w : Nat) (v : RWin) : (s.setRwin w v).mem = s.mem := by simp [State.setRwin]
@[simp] theorem State.setDom_mem (d : Nat) (v : Dom) : (s.setDom d v).mem = s.mem := by simp [State.setDom]
@[simp] theorem State.setRail_mem (r : Nat) (v : Rail) : (s.setRail r v).mem = s.mem := by simp [State.setRail]
@[simp] theorem State.setPort_mem (p : Nat) (v : Port) : (s.setPort p v).mem = s.mem := by simp [State.setPort]
@[simp] theorem State.setGroup_mem (p g : Nat) (v : FabGroup) : (s.setGroup p g v).mem = s.mem := by simp [State.setGroup]
@[simp] theorem State.setPartner_mem (n : Nat) (v : Partner) : (s.setPartner n v).mem = s.mem := by simp [State.setPartner]
@[simp] theorem State.setReg_mem (off : Nat) (v : Word) : (s.setReg off v).mem = s.mem := by simp [State.setReg]
@[simp] theorem State.setFld_mem (f : Fld) (v : Nat) : (s.setFld f v).mem = s.mem := by simp [State.setFld]
@[simp] theorem State.setFlag_mem (f : Fld) (b : Bool) : (s.setFlag f b).mem = s.mem := by simp [State.setFlag]
@[simp] theorem State.setBitOf_mem (f : Fld) (i : Nat) (b : Bool) : (s.setBitOf f i b).mem = s.mem := by simp [State.setBitOf]
@[simp] theorem State.bump_mem (f : Fld) (n : Nat) : (s.bump f n).mem = s.mem := by simp [State.bump]
@[simp] theorem State.wrapInc_mem (f : Fld) (n : Nat) : (s.wrapInc f n).mem = s.mem := by simp [State.wrapInc]
@[simp] theorem State.setSat_mem (f : Fld) (v : Nat) : (s.setSat f v).mem = s.mem := by simp [State.setSat]
@[simp] theorem State.draw_mem (n : Nat) : (s.draw n).mem = s.mem := by simp [State.draw]
@[simp] theorem State.sendMsix_mem (v : Nat) : (s.sendMsix v).mem = s.mem := by simp [State.sendMsix]
@[simp] theorem State.countMark_mem (r : Nat) (n : Nat) : (s.countMark r n).mem = s.mem := by simp [State.countMark]
@[simp] theorem State.coalesce_mem (i : Nat) : (s.coalesce i).mem = s.mem := by simp [State.coalesce]
@[simp] theorem State.newRecord_mem (f : FaultRec) : (s.newRecord f).mem = s.mem := by simp [State.newRecord]

@[simp] theorem State.raise_mem (f : FaultRec) : (s.raise f).mem = s.mem := by
  unfold State.raise
  split <;> simp

@[simp] theorem State.setBayField_mem (b v : Nat) : (s.setBayField b v).mem = s.mem := by simp [State.setBayField]
@[simp] theorem State.setBayState_mem (b v : Nat) : (s.setBayState b v).mem = s.mem := by simp [State.setBayState]
@[simp] theorem State.setDegraded_mem (b : Nat) (d : Bool) : (s.setDegraded b d).mem = s.mem := by simp [State.setDegraded]
@[simp] theorem State.setBayScore_mem (b : Nat) (i : ScoreId) : (s.setBayScore b i).mem = s.mem := by simp [State.setBayScore]

@[simp] theorem State.setPromiseState_mem (i : ScoreId) (n : Nat) (st : BitVec 2) (cause : Nat) :
    (s.setPromiseState i n st cause).mem = s.mem := by
  simp [State.setPromiseState]

@[simp] theorem State.promiseRisk_mem (i : ScoreId) (n cause : Nat) : (s.promiseRisk i n cause).mem = s.mem := by simp [State.promiseRisk]

@[simp] theorem State.promiseBreak_mem (i : ScoreId) (n cause : Nat) : (s.promiseBreak i n cause).mem = s.mem := by
  simp [State.promiseBreak]

@[simp] theorem State.scoreFold_mem (i : ScoreId) (q : Nat) (f : State → Nat → TimingClaim → State)
    (kept : ∀ t n c, (f t n c).mem = t.mem) : (s.scoreFold i q f).mem = s.mem := by
  simp [State.scoreFold, kept]

@[simp] theorem State.modTriggers_mem (i : ScoreId) (n : Nat) (f : OpenTrigger → OpenTrigger) : (s.modTriggers i n f).mem = s.mem := by
  simp [State.modTriggers]

@[simp] theorem State.noteClaim_mem (i : ScoreId) (n cause : Nat) : (s.noteClaim i n cause).mem = s.mem := by simp [State.noteClaim]

@[simp] theorem State.noteCause_mem (b cause : Nat) : (s.noteCause b cause).mem = s.mem := by
  unfold State.noteCause
  split <;> simp

@[simp] theorem State.noteUse_mem (i : ScoreId) (n allowed : Nat) (replay : Bool) : (s.noteUse i n allowed replay).mem = s.mem := by
  simp [State.noteUse]

@[simp] theorem State.claimTrigger_mem (i : ScoreId) (n : Nat) : (s.claimTrigger i n).mem = s.mem := by simp [State.claimTrigger]

@[simp] theorem State.claimComplete_mem (i : ScoreId) (n : Nat) : (s.claimComplete i n).mem = s.mem := by
  unfold State.claimComplete
  dsimp only
  split <;> simp

@[simp] theorem State.setCounter_mem (b : Nat) (i : ScoreId) (ev v : Nat) : (s.setCounter b i ev v).mem = s.mem := by
  simp [State.setCounter]

@[simp] theorem State.claimsOf_mem (b : Nat) (i : ScoreId) (ev : Nat) : (s.claimsOf b i ev).mem = s.mem := by simp [State.claimsOf]

@[simp] theorem State.signal_mem (b : Nat) (i : ScoreId) (ev inc unit pc : Nat) : (s.signal b i ev inc unit pc).mem = s.mem := by
  simp [State.signal]

@[simp] theorem State.dropJob_mem (b n : Nat) : (s.dropJob b n).mem = s.mem := by simp [State.dropJob]

@[simp] theorem State.jobDone_mem (b n : Nat) : (s.jobDone b n).mem = s.mem := by
  unfold State.jobDone
  dsimp only
  repeat' split
  all_goals simp

@[simp] theorem State.newJob_mem (b left : Nat) (ev : Option (BitVec 9)) (j pc : Nat) (c : Cls) :
    (s.newJob b left ev j pc c).2.mem = s.mem := by
  simp [State.newJob]

@[simp] theorem State.stopSeq_mem (b : Nat) (c : Cls) : (s.stopSeq b c).mem = s.mem := by
  unfold State.stopSeq
  split <;> simp

@[simp] theorem State.strandFault_mem (b j code pc : Nat) : (s.strandFault b j code pc).mem = s.mem := by simp [State.strandFault]
@[simp] theorem State.stopBay_mem (b : Nat) : (s.stopBay b).mem = s.mem := by simp [State.stopBay]

@[simp] theorem State.breakBayPromises_mem (b cause : Nat) : (s.breakBayPromises b cause).mem = s.mem := by
  unfold State.breakBayPromises
  split <;> simp

@[simp] theorem State.countRead_mem (a : Nat) : (s.countRead a).mem = s.mem := by simp [State.countRead]
@[simp] theorem State.readBlock_mem (a : Nat) : (s.readBlock a).2.mem = s.mem := by simp [State.readBlock]
@[simp] theorem State.countReads_mem (a n : Nat) : (s.countReads a n).mem = s.mem := by simp [State.countReads]

@[simp] theorem State.writeBytes_canonical (a : Nat) (l : List Byte) (h : Canonical s.mem) : Canonical (s.writeBytes a l).mem :=
  ⟨s.writeBytes_ok a l h.stage, (congrArg Gddr.ok (s.writeBytes_gddr a l)).mpr h.gddr⟩

@[simp] theorem State.writeBlock_canonical (a : Nat) (x : Block) (h : Canonical s.mem) : Canonical (s.writeBlock a x).mem :=
  ⟨s.writeBlock_ok a x h.stage, (congrArg Gddr.ok (s.writeBytes_gddr a x.data)).mpr h.gddr⟩

@[simp] theorem State.refreshBlock_canonical (a : Nat) (h : Canonical s.mem) : Canonical (s.refreshBlock a).mem := by
  simp [State.refreshBlock, h]

@[simp] theorem State.storeBytes_canonical (a : Nat) (bs : List Byte) (h : Canonical s.mem) : Canonical (s.storeBytes a bs).mem := by
  unfold State.storeBytes
  apply State.writeBytes_canonical
  refine foldl_canonical _ (fun t x g => ?_) h
  simp [g]

@[simp] theorem State.upset_canonical (a : Nat) (u : Upset) (h : Canonical s.mem) : Canonical (s.upset a u).mem := by
  have same : (s.upset a u).gddr = s.gddr :=
    foldl_does (fun s t => t.gddr = s.gddr) (fun _ => rfl) (fun _ _ _ h k => k.trans h) _ (fun s p => by dsimp only; split <;> rfl) u s
  exact ⟨s.upset_ok a u h.stage, (congrArg Gddr.ok same).mpr h.gddr⟩

@[simp] theorem State.droppedWrite_mem (unit : Nat) (i : ScoreId) (a : Nat) : (s.droppedWrite unit i a).mem = s.mem := by
  simp [State.droppedWrite]

@[simp] theorem State.putBlock_canonical (q a : Nat) (x : Block) (h : Canonical s.mem) : Canonical (s.putBlock q a x).mem := by
  simp [State.putBlock, h]

@[simp] theorem State.putBytes_canonical (q a : Nat) (bs : List Byte) (h : Canonical s.mem) : Canonical (s.putBytes q a bs).mem := by
  simp [State.putBytes, h]

/-! ### Strands (R133 to R158) -/

@[simp] theorem State.granted_mem (k source : Nat) : (s.granted k source).mem = s.mem := by simp [State.granted]
@[simp] theorem State.settle_mem (t : Nat) : (s.settle t).mem = s.mem := by simp [State.settle]
@[simp] theorem State.pushWin_mem (t : Nat) (mk : Nat → WinEntry) : (s.pushWin t mk).mem = s.mem := by simp [State.pushWin]

@[simp] theorem State.signalAt_mem (b j pc : Nat) (x : Option (BitVec 9)) : (s.signalAt b j pc x).mem = s.mem := by
  unfold State.signalAt
  split <;> simp

@[simp] theorem State.ringWrite_canonical (addr next drops : Fld) (n size : Nat) (slotFree : Bool) (v : Nat) (h : Canonical s.mem) :
    Canonical (s.ringWrite addr next drops n size slotFree v).mem := by
  simp [State.ringWrite, h]

@[simp] theorem State.issueMrk_canonical (b j pc : Nat) (val : Word) (slotFree : Bool) (h : Canonical s.mem) :
    Canonical (s.issueMrk b j pc val slotFree).mem := by
  simp [State.issueMrk, h]

@[simp] theorem State.effect_canonical (b j pc : Nat) (r : SeqRun) (slotFree : Bool) (i : SInstr) (h : Canonical s.mem) :
    Canonical (s.effect b j pc r slotFree i).mem := by
  unfold State.effect
  dsimp only
  repeat' split
  all_goals simp [h]

@[simp] theorem State.issue_canonical (b j : Nat) (r : SeqRun) (i : SInstr) (halted slotFree : Bool) (h : Canonical s.mem) :
    Canonical (s.issue b j r i halted slotFree).mem := by
  unfold State.issue
  extract_lets pc s0 x s1
  have counted : Canonical s0.mem := by simpa only [s0, State.wrapInc_mem] using h
  split
  · extract_lets s2
    have faulted : Canonical s2.mem := by simpa only [s2, State.strandFault_mem] using counted
    split
    · split
      · simpa only [State.raise_mem] using faulted
      · exact faulted
    · exact faulted
  · exact s1.effect_canonical _ _ _ _ _ _ (by simpa only [s1, State.setStrand_mem] using counted)

@[simp] theorem State.imemEcc_mem (b : Nat) (x : Ecc) : (s.imemEcc b x).mem = s.mem := by
  unfold State.imemEcc
  split <;> simp

@[simp] theorem State.standWait_mem (b j : Nat) (w : StrandState) : (s.standWait b j w).mem = s.mem := by simp [State.standWait]

@[simp] theorem State.strandRow_canonical (b j : Nat) (ecc : Ecc) (slotFree : Bool) (mine : SInstr → Bool) (h : Canonical s.mem) :
    Canonical (s.strandRow b j ecc slotFree mine).mem := by
  obtain ⟨e, row⟩ := s.strandRow_cases b j ecc slotFree mine
  have fetched : Canonical (s.imemEcc b e).mem := by simpa using h
  generalize s.strandRow b j ecc slotFree mine = u at row ⊢
  cases row with
  | other => exact h
  | idle => exact fetched
  | fault code => simpa using fetched
  | wait w => simpa using fetched
  | issue r i _ => exact State.issue_canonical _ b j r i false slotFree fetched

@[simp] theorem State.stepStrand_canonical (b : Nat) (ecc : Ecc) (slotFree : Bool) (h : Canonical s.mem) :
    Canonical (s.stepStrand b ecc slotFree).mem := by
  unfold State.stepStrand
  dsimp only
  repeat' split
  all_goals simp [h]

@[simp] theorem State.endSeq_mem (b : Nat) (c : Cls) (r : SeqRun) : (s.endSeq b c r).mem = s.mem := by simp [State.endSeq]

/-! ### Entries of the queues (R34, R65) -/

@[simp] theorem State.countSteps_mem (t e : Nat) (l : List GroupStep) (marks : List (Option CMark)) :
    (s.countSteps t e l marks).mem = s.mem := by
  unfold State.countSteps
  dsimp only
  refine (foldl_mem _ (fun t x => ?_) _).trans ?_
  · repeat' split
    all_goals simp
  · simp

@[simp] theorem State.addToEntry_mem (t e : Nat) (p ex : List Int) (marks : List (Option CMark)) (ovfs : List Bool) (gen : BitVec 64) :
    (s.addToEntry t e p ex marks ovfs gen).mem = s.mem := by
  simp [State.addToEntry]

@[simp] theorem State.remoteAdd_mem (t e : Nat) (bs : List Block) (gen : BitVec 64) : (s.remoteAdd t e bs gen).mem = s.mem := by
  simp [State.remoteAdd]

@[simp] theorem State.addArrived_mem (t e : Nat) : (s.addArrived t e).mem = s.mem := by
  unfold State.addArrived
  dsimp only
  split <;> simp

@[simp] theorem State.reserveRemote_mem (t e pos : Nat) : (s.reserveRemote t e pos).mem = s.mem := by simp [State.reserveRemote]

/-! ### Windows (R56, R89 to R92) -/

@[simp] theorem State.reportActivity_mem (b wl : Nat) : (s.reportActivity b wl).mem = s.mem := by simp [State.reportActivity]

@[simp] theorem State.startWindow_mem (t pos job strand wl entry estep left : Nat) (role : Role) (pl : BitVec 2)
    (pc : BitVec 14) (iq : Nat) (rest : List WinEntry) (a b : Block) (inbuf : List InBlock) :
    (s.startWindow t pos job strand wl entry estep left role pl pc iq rest a b inbuf).mem = s.mem := by
  simp [State.startWindow]

@[simp] theorem State.windowIssue_mem (t : Nat) : (s.windowIssue t).mem = s.mem := by
  unfold State.windowIssue
  dsimp only
  repeat' split
  all_goals simp

@[simp] theorem State.captureCode_canonical (t : Nat) (w : Win) (codes : List Int) (h : Canonical s.mem) :
    Canonical (s.captureCode t w codes).mem := by
  unfold State.captureCode
  split <;> simp [h]

@[simp] theorem State.bandMark_mem (t : Nat) (band : Bool) : (s.bandMark t band).mem = s.mem := by simp [State.bandMark]

@[simp] theorem State.windowEnd_canonical (t : Nat) (h : Canonical s.mem) : Canonical (s.windowEnd t).mem := by
  unfold State.windowEnd
  dsimp only
  split <;> simp [h]

@[simp] theorem State.setOvfLast_mem (t : Nat) (w : Win) (exceeded : List Nat) (sat : Bool) :
    (s.setOvfLast t w exceeded sat).mem = s.mem := by
  simp [State.setOvfLast]

@[simp] theorem State.deliverWin_mem (t : Nat) (w : Win) (y : List Int) (sat : List Nat) (marks : List (Option CMark)) :
    (s.deliverWin t w y sat marks).mem = s.mem := by
  simp [State.deliverWin]

@[simp] theorem State.overflowDecision_mem (t : Nat) : (s.overflowDecision t).mem = s.mem := by
  unfold State.overflowDecision
  dsimp only
  split <;> simp

@[simp] theorem State.noteReplay_mem (t : Nat) : (s.noteReplay t).mem = s.mem := by
  unfold State.noteReplay
  split <;> simp

@[simp] theorem State.ovfSaturated_mem (t : Nat) (w : Win) (sat : List Nat) : (s.ovfSaturated t w sat).mem = s.mem := by
  simp [State.ovfSaturated]

@[simp] theorem State.replay_mem (t : Nat) : (s.replay t).mem = s.mem := by
  unfold State.replay
  dsimp only
  split <;> simp

/-! ### Planes (R48 to R53, R144, R184) -/

@[simp] theorem State.readImage_mem (a : Nat) : (s.readImage a).2.2.mem = s.mem := by simp [State.readImage]

@[simp] theorem State.imageFetch_mem (t : Nat) : (s.imageFetch t).mem = s.mem := by
  unfold State.imageFetch
  dsimp only
  repeat' split
  all_goals simp

@[simp] theorem State.recordLoad_mem (t clamps : Nat) : (s.recordLoad t clamps).mem = s.mem := by simp [State.recordLoad]
@[simp] theorem State.zeroPlanes_mem (t : Nat) : (s.zeroPlanes t).mem = s.mem := by simp [State.zeroPlanes]
@[simp] theorem State.startLoad_mem (t : Nat) (l : Load) : (s.startLoad t l).mem = s.mem := by simp [State.startLoad]

@[simp] theorem State.planeLoadStart_mem (t : Nat) : (s.planeLoadStart t).mem = s.mem := by
  unfold State.planeLoadStart
  dsimp only
  split <;> simp

@[simp] theorem State.planeLoadValid_mem (t : Nat) : (s.planeLoadValid t).mem = s.mem := by
  unfold State.planeLoadValid
  dsimp only
  split <;> simp

@[simp] theorem State.flipPlane_mem (t : Nat) : (s.flipPlane t).mem = s.mem := by simp [State.flipPlane]

@[simp] theorem State.planeSwap_mem (t : Nat) : (s.planeSwap t).mem = s.mem := by
  unfold State.planeSwap
  dsimp only
  split <;> simp

/-! ### Pewter updates, chains and drains (R107 to R121, R148) -/

@[simp] theorem State.jobsDone_mem (b : Nat) (l : List Nat) : (s.jobsDone b l).mem = s.mem := by simp [State.jobsDone]

@[simp] theorem State.pewterUpdate_mem (t : Nat) : (s.pewterUpdate t).mem = s.mem := by
  unfold State.pewterUpdate
  split <;> simp

@[simp] theorem State.chainMismatch_mem (t : Nat) : (s.chainMismatch t).mem = s.mem := by
  unfold State.chainMismatch
  dsimp only
  split <;> simp

@[simp] theorem State.passWord_mem (t : Nat) (w : ChainWord) (g : Group) : (s.passWord t w g).mem = s.mem := by simp [State.passWord]

@[simp] theorem State.hop_mem (t : Nat) (olds : List GroupVal) (oldMarks : List (Option CMark)) (g : Group) :
    (s.hop t olds oldMarks g).mem = s.mem := by
  unfold State.hop
  dsimp only
  rw [State.passWord_mem]
  refine foldl_mem _ (fun t x => ?_) _
  split <;> simp

@[simp] theorem State.chainStep_mem (t : Nat) : (s.chainStep t).mem = s.mem := by
  unfold State.chainStep
  dsimp only
  repeat' split
  all_goals simp

@[simp] theorem State.configureChain_mem (t head len : Nat) (rin rout dis : Bool) (tmo : Byte) (wgr : BitVec 6) :
    (s.configureChain t head len rin rout dis tmo wgr).mem = s.mem := by
  simp [State.configureChain]

@[simp] theorem State.chainChange_mem (t : Nat) : (s.chainChange t).mem = s.mem := by
  unfold State.chainChange
  dsimp only
  split <;> simp

@[simp] theorem State.remoteTimeout_mem (t e : Nat) : (s.remoteTimeout t e).mem = s.mem := by
  unfold State.remoteTimeout
  dsimp only
  split <;> simp

@[simp] theorem State.drainRelease_mem (t : Nat) : (s.drainRelease t).mem = s.mem := by
  unfold State.drainRelease
  split <;> simp

@[simp] theorem State.writeBlocks_canonical (a : Nat) (l : List Block) (h : Canonical s.mem) : Canonical (s.writeBlocks a l).mem := by
  induction l generalizing s a with
  | nil => exact h
  | cons x l ih => exact ih _ _ (s.putBlock_canonical _ a x h)

@[simp] theorem State.bufArrive_canonical (n res : Nat) (b : Block) (h : Canonical s.mem) : Canonical (s.bufArrive n res b).mem := by
  simp [State.bufArrive, h]

@[simp] theorem State.bufPut_canonical (n : Nat) (l : List Block) (h : Canonical s.mem) : Canonical (s.bufPut n l).mem := by
  unfold State.bufPut
  refine foldl_canonical _ (fun t x g => ?_) h
  simp [g]

@[simp] theorem State.sendHop_mem (t e : Nat) (l : List Block) : (s.sendHop t e l).mem = s.mem := by
  unfold State.sendHop
  split <;> simp

@[simp] theorem State.recordTest_mem (b : Nat) (d : Drain) (l : List DrainedGroup) : (s.recordTest b d l).mem = s.mem := by
  unfold State.recordTest
  repeat' split
  all_goals simp

@[simp] theorem State.deliverDrain_canonical (t : Nat) (d : Drain) (l : List Block) (h : Canonical s.mem) :
    Canonical (s.deliverDrain t d l).mem := by
  unfold State.deliverDrain
  dsimp only
  repeat' split
  all_goals simp [h]

@[simp] theorem State.drainReadEnd_canonical (t : Nat) (h : Canonical s.mem) : Canonical (s.drainReadEnd t).mem := by
  unfold State.drainReadEnd
  split <;> simp [h]

end

end Sys2Proof.Machine
end

section
/-! SUPPORT. What transfers, grants and the aperture do to stage memory and GDDR7. -/

namespace Sys2Proof.Machine

section
variable (s : State)

/-! ### Stage memory, the Pewter map and GDDR7 (R129, R175, R188, R225) -/

@[simp] theorem State.refusedRead_mem : s.refusedRead.2.mem = s.mem := by simp [State.refusedRead]

@[simp] theorem State.mapReadBlock_mem (a : Nat) (i : ScoreId) : (s.mapReadBlock a i).2.mem = s.mem := by
  unfold State.mapReadBlock
  extract_lets t e x
  split
  · rfl
  · exact s.refusedRead_mem

@[simp] theorem State.mapWriteBlock_mem (a : Nat) (x : Block) (i : ScoreId) (q : Nat) : (s.mapWriteBlock a x i q).mem = s.mem := by
  simp [State.mapWriteBlock]

@[simp] theorem State.stageRead_mem (a : Nat) (i : ScoreId) : (s.stageRead a i).2.mem = s.mem := by
  unfold State.stageRead
  repeat' split
  all_goals simp

@[simp] theorem State.stageWrite_canonical (a : Nat) (x : Block) (i : ScoreId) (q : Nat) (h : Canonical s.mem) :
    Canonical (s.stageWrite a x i q).mem := by
  simp [State.stageWrite, h]

@[simp] theorem State.gddrRead_mem (a : Nat) (find : GddrFind) : (s.gddrRead a find).2.mem = s.mem := by
  unfold State.gddrRead
  dsimp only
  split
  · simp
  · dsimp only
    split <;> simp

@[simp] theorem State.gddrWrite_canonical (a : Nat) (x : Block) (h : Canonical s.mem) : Canonical (s.gddrWrite a x).mem :=
  ⟨h.stage, s.gddrWrite_ok a x h.gddr⟩

@[simp] theorem State.gddrWriteLast_canonical (a : Nat) (b : Block) (find : GddrFind) (h : Canonical s.mem) :
    Canonical (s.gddrWriteLast a b find).mem := by
  simp [State.gddrWriteLast, h]

@[simp] theorem State.gddrReadTwice_mem (a : Nat) (e : GddrFind × GddrFind) : (s.gddrReadTwice a e).2.mem = s.mem := by
  unfold State.gddrReadTwice
  split <;> simp

@[simp] theorem State.gddrWriteTwice_canonical (a : Nat) (b : Block) (e : GddrFind × GddrFind) (h : Canonical s.mem) :
    Canonical (s.gddrWriteTwice a b e).mem := by
  simp [State.gddrWriteTwice, h]

@[simp] theorem State.clearGddr_canonical (n : Nat) (h : Canonical s.mem) : Canonical (s.clearGddr n).mem :=
  ⟨h.stage, s.clearGddr_ok n h.gddr⟩

@[simp] theorem State.clearStage_canonical (n : Nat) (h : Canonical s.mem) : Canonical (s.clearStage n).mem :=
  ⟨s.clearStage_ok n h.stage, h.gddr⟩

/-! ### Grants (R163, R164) -/

@[simp] theorem State.grantTo_mem (x : Option Claim) : (s.grantTo x).mem = s.mem := by
  unfold State.grantTo
  split <;> simp

@[simp] theorem State.slotGranted_mem (q : Nat) : (s.slotGranted q).mem = s.mem := by simp [State.slotGranted]

@[simp] theorem State.whenGranted_mem (c : Option Claim) (act : State → State) (kept : ∀ t, (act t).mem = t.mem) :
    (s.whenGranted c act).mem = s.mem := by
  simp [State.whenGranted, kept]

@[simp] theorem State.whenGranted_canonical (c : Option Claim) (act : State → State)
    (kept : ∀ t, Canonical t.mem → Canonical (act t).mem) (h : Canonical s.mem) : Canonical (s.whenGranted c act).mem := by
  simp [State.whenGranted, kept, h]

/-! ### The aperture (R206) -/

@[simp] theorem State.mapAccess_mem (r : MapRequester) (t off : Nat) (wr : Option (BitVec 64)) (mark : Mark) :
    (s.mapAccess r t off wr mark).mem = s.mem := by
  unfold State.mapAccess
  dsimp only
  repeat' split
  all_goals simp

@[simp] theorem State.aperGive_mem (bs : List Byte) : (s.aperGive bs).mem = s.mem := by simp [State.aperGive]
@[simp] theorem State.aperRefuse_mem (len : Nat) : (s.aperRefuse len).mem = s.mem := by simp [State.aperRefuse]
@[simp] theorem State.aperServe_mem (a len : Nat) : (s.aperServe a len).mem = s.mem := by simp [State.aperServe]

@[simp] theorem State.apertureRead_mem (off len : Nat) (slotFree : Bool) : (s.apertureRead off len slotFree).mem = s.mem := by
  simp [State.apertureRead]

@[simp] theorem State.apertureWrite_canonical (off : Nat) (bs : List Byte) (slotFree : Bool) (h : Canonical s.mem) :
    Canonical (s.apertureWrite off bs slotFree).mem := by
  simp [State.apertureWrite, h]

/-! ### Transfers (R188, R191, R195, R202, R205, R309) -/

@[simp] theorem State.putXfer_mem (q i : Nat) (x : Transfer) : (s.putXfer q i x).mem = s.mem := by simp [State.putXfer]

@[simp] theorem State.reserve_mem (x : Transfer) : (s.reserve x).mem = s.mem := by
  unfold State.reserve
  dsimp only
  refine (foldl_mem _ (fun t x => ?_) _).trans ?_
  · simp
  · split <;> simp

@[simp] theorem State.transferStart_mem (q : Nat) : (s.transferStart q).mem = s.mem := by
  unfold State.transferStart
  repeat' split
  all_goals simp

@[simp] theorem State.transferComplete_mem (q : Nat) : (s.transferComplete q).mem = s.mem := by
  unfold State.transferComplete
  split <;> simp

@[simp] theorem State.streamFault_canonical (q : Nat) (x : Transfer) (rsn kind lin addr side win : Nat) (h : Canonical s.mem) :
    Canonical (s.streamFault q x rsn kind lin addr side win).mem := by
  simp [State.streamFault, h]

@[simp] theorem State.countWalk_mem (w off : Nat) : (s.countWalk w off).mem = s.mem := by simp [State.countWalk]
@[simp] theorem State.setWinGroup_mem (w : Nat) (f : FabGroup) : (s.setWinGroup w f).mem = s.mem := by simp [State.setWinGroup]
@[simp] theorem State.nextTag_mem : s.nextTag.mem = s.mem := by simp [State.nextTag]
@[simp] theorem State.flushWrite_mem (q i : Nat) (x : Transfer) : (s.flushWrite q i x).mem = s.mem := by simp [State.flushWrite]

@[simp] theorem State.flushBefore_mem (q i : Nat) (x : Transfer) (at_ : Nat × Bool) : (s.flushBefore q i x at_).mem = s.mem := by
  simp [State.flushBefore]

@[simp] theorem State.accumulate_mem (q i : Nat) (x : Transfer) (at_ : Nat × Bool) (b : Block) :
    (s.accumulate q i x at_ b).mem = s.mem := by
  simp [State.accumulate]

@[simp] theorem State.deliverBlock_canonical (q : Nat) (x : Transfer) (lin : Nat) (b : Block) (h : Canonical s.mem) :
    Canonical (s.deliverBlock q x lin b).mem := by
  unfold State.deliverBlock
  repeat' split
  all_goals simp [h]

@[simp] theorem State.discardSource_mem (x : Transfer) (n : Nat) : (s.discardSource x n).mem = s.mem := by
  unfold State.discardSource
  split <;> simp

@[simp] theorem State.deliverRest_canonical (q i : Nat) (x : Transfer) (r : BitVec 4) (h : Canonical s.mem) :
    Canonical (s.deliverRest q i x r).mem := by
  unfold State.deliverRest
  dsimp only
  split
  · refine foldl_canonical _ (fun t x g => ?_) ?_
    · repeat' split
      all_goals simp [g]
    · simp [h]
  · rw [State.putXfer_mem]
    refine foldl_canonical _ (fun t x g => ?_) ?_
    · simp [g]
    · simp [h]

@[simp] theorem State.readRemote_canonical (q i : Nat) (x : Transfer) (h : Canonical s.mem) : Canonical (s.readRemote q i x).mem := by
  unfold State.readRemote
  dsimp only
  repeat' split
  all_goals simp [h]

@[simp] theorem State.takeStage_canonical (q : Nat) (x : Transfer) (up : Upset) (h : Canonical s.mem) :
    Canonical (s.takeStage q x up).2.mem := by
  unfold State.takeStage
  dsimp only
  split <;> simp [h]

@[simp] theorem State.moveStage_canonical (q i : Nat) (x : Transfer) (up : Upset) (find : GddrFind) (h : Canonical s.mem) :
    Canonical (s.moveStage q i x up find).mem := by
  unfold State.moveStage
  dsimp only
  split
  · split
    · simp [h]
    · split <;> simp [h]
  · have taken := s.takeStage_canonical q x up h
    split <;> simp [taken]

@[simp] theorem State.moveGddr_canonical (q i : Nat) (x : Transfer) (find : GddrFind) (h : Canonical s.mem) :
    Canonical (s.moveGddr q i x find).mem := by
  simp [State.moveGddr, h]

@[simp] theorem State.moveBlock_canonical (q i : Nat) (x : Transfer) (up : Upset) (find : GddrFind) (h : Canonical s.mem) :
    Canonical (s.moveBlock q i x up find).mem := by
  simp [State.moveBlock, h]

@[simp] theorem State.slotAccess_canonical (q : Nat) (up : Upset) (find : GddrFind) (h : Canonical s.mem) :
    Canonical (s.slotAccess q up find).mem := by
  unfold State.slotAccess
  repeat' split
  all_goals simp [h]

@[simp] theorem State.gddrRetry_canonical (blk : Nat) (find : GddrFind) (h : Canonical s.mem) : Canonical (s.gddrRetry blk find).mem := by
  unfold State.gddrRetry
  split
  · exact h
  · split
    · exact h
    dsimp only
    split
    · split
      · simp [h]
      · split <;> simp [h]
    · split
      · simp [h]
      · split <;> simp [h]

@[simp] theorem State.cutTransfer_canonical (q : Nat) (h : Canonical s.mem) : Canonical (s.cutTransfer q).mem := by
  unfold State.cutTransfer
  repeat' split
  all_goals simp [h]

end

end Sys2Proof.Machine
end

section
/-! SUPPORT. The Guard, the loops, the light supply and the trim outputs leave stage memory and GDDR7. -/

namespace Sys2Proof.Machine

section
variable (s : State)

/-! ### Fields of registers (R9) -/

@[simp] theorem State.writeField_mem (off : Nat) (v : Word) (f : RegField) : (State.writeField off v s f).mem = s.mem := by
  unfold State.writeField
  dsimp only
  split <;> simp

@[simp] theorem State.rawWrite_mem (off : Nat) (v : Word) : (s.rawWrite off v).mem = s.mem := by
  unfold State.rawWrite
  split <;> simp

@[simp] theorem State.zeroIdle_mem (t : Nat) : (s.zeroIdle t).mem = s.mem := by simp [State.zeroIdle]
@[simp] theorem State.swapRequest_mem (t : Nat) : (s.swapRequest t).mem = s.mem := by simp [State.swapRequest]
@[simp] theorem State.capture_mem (t : Nat) (v : Word) : (s.capture t v).mem = s.mem := by simp [State.capture]
@[simp] theorem State.loadGens_mem (t : Nat) : (s.loadGens t).mem = s.mem := by simp [State.loadGens]
@[simp] theorem State.pewterSeed_mem (t : Nat) (v : Word) : (s.pewterSeed t v).mem = s.mem := by simp [State.pewterSeed]
@[simp] theorem State.give_mem (bs : List Byte) : (s.give bs).mem = s.mem := by simp [State.give]
@[simp] theorem State.pewterState_mem (t : Nat) : (s.pewterState t).mem = s.mem := by simp [State.pewterState]
@[simp] theorem State.traceWrite_mem (b : Nat) (v : Word) : (s.traceWrite b v).mem = s.mem := by simp [State.traceWrite]

/-! ### The Guard, forced outputs and bays that pause (R292, R444) -/

@[simp] theorem State.extend_mem (n : Nat) (d : List Byte) : (s.extend n d).mem = s.mem := by simp [State.extend]
@[simp] theorem State.setGuard_mem (i : Nat) (v c : Word) : (s.setGuard i v c).mem = s.mem := by simp [State.setGuard]
@[simp] theorem State.commitLimit_mem (i : Nat) (v c : Word) : (s.commitLimit i v c).mem = s.mem := by simp [State.commitLimit]
@[simp] theorem State.pause_mem (b : Nat) (f : Bay → Bay) : (s.pause b f).mem = s.mem := by simp [State.pause]
@[simp] theorem State.noteUpset_mem (b why : Nat) : (s.noteUpset b why).mem = s.mem := by simp [State.noteUpset]
@[simp] theorem State.pauseForced_mem (b out why : Nat) : (s.pauseForced b out why).mem = s.mem := by simp [State.pauseForced]
@[simp] theorem State.forceAll_mem (why : Nat) : (s.forceAll why).mem = s.mem := by simp [State.forceAll]
@[simp] theorem State.settleAlert_mem : s.settleAlert.mem = s.mem := by simp [State.settleAlert]
@[simp] theorem State.portsDown_mem : s.portsDown.mem = s.mem := by simp [State.portsDown]
@[simp] theorem State.guardFault_mem (i unit : Nat) : (s.guardFault i unit).mem = s.mem := by simp [State.guardFault]

/-! ### Loops (R236, R254, R260) -/

@[simp] theorem State.holdNow_mem (e l : Nat) : (s.holdNow e l).mem = s.mem := by simp [State.holdNow]

/-! ### The light supply (R277 to R287) -/

@[simp] theorem State.setSpare_mem (i v : Nat) : (s.setSpare i v).mem = s.mem := by simp [State.setSpare]
@[simp] theorem State.spreadAffected_mem (b : Nat) : (s.spreadAffected b).mem = s.mem := by simp [State.spreadAffected]

@[simp] theorem State.stopLane_mem (p g lane : Nat) (transmit : Bool) : (s.stopLane p g lane transmit).mem = s.mem := by
  simp [State.stopLane]

@[simp] theorem State.darkenLanes_mem (s s0 : State) (i : Nat) : (s.darkenLanes s0 i).mem = s.mem := by simp [State.darkenLanes]
@[simp] theorem State.driveTo_mem (slot : Nat) (tgt : Int) : (s.driveTo slot tgt).mem = s.mem := by simp [State.driveTo]
@[simp] theorem State.askMode_mem (e l : Nat) (m : Mode) : (s.askMode e l m).mem = s.mem := by simp [State.askMode]
@[simp] theorem State.driveRamp_mem (slot : Nat) (tgt : Int) : (s.driveRamp slot tgt).mem = s.mem := by simp [State.driveRamp]
@[simp] theorem State.combDown_mem (i c : Nat) (st : BitVec 3) : (s.combDown i c st).mem = s.mem := by simp [State.combDown]
@[simp] theorem State.armFrom_mem (i pos : Nat) : (s.armFrom i pos).mem = s.mem := by simp [State.armFrom]

@[simp] theorem State.armStart_mem (i : Nat) : (s.armStart i).mem = s.mem := by
  unfold State.armStart
  repeat' split
  all_goals simp

@[simp] theorem State.spareDown_mem (i : Nat) (st : BitVec 3) : (s.spareDown i st).mem = s.mem := by simp [State.spareDown]
@[simp] theorem State.armProgress_mem (i : Nat) : (s.armProgress i).mem = s.mem := by simp [State.armProgress]

@[simp] theorem State.armRestart_mem (i : Nat) : (s.armRestart i).mem = s.mem := by
  unfold State.armRestart
  split <;> simp

@[simp] theorem State.armLast_mem (i : Nat) (fail : Bool) : (s.armLast i fail).mem = s.mem := by
  simp only [State.armLast, State.setSat_mem, State.setFld_mem, State.setFlag_mem]

@[simp] theorem State.armFail_mem (i : Nat) : (s.armFail i).mem = s.mem := by simp [State.armFail]

@[simp] theorem State.takeOver_mem (i : Nat) : (s.takeOver i).mem = s.mem := by
  unfold State.takeOver
  split <;> simp

@[simp] theorem State.noteSwap_mem (b : Nat) : (s.noteSwap b).mem = s.mem := by
  unfold State.noteSwap
  split <;> simp

@[simp] theorem State.spareLock_mem (i : Nat) : (s.spareLock i).mem = s.mem := by simp [State.spareLock]
@[simp] theorem State.swapInRebind_mem (b : Nat) : (s.swapInRebind b).mem = s.mem := by simp [State.swapInRebind]
@[simp] theorem State.boostStep_mem (i c : Nat) : (s.boostStep i c).mem = s.mem := by simp [State.boostStep]
@[simp] theorem State.leaveDebug_mem (b : Nat) : (s.leaveDebug b).mem = s.mem := by simp [State.leaveDebug]
@[simp] theorem State.withdraw_mem (b : Nat) : (s.withdraw b).mem = s.mem := by simp [State.withdraw]

@[simp] theorem State.degradePromises_mem (b : Nat) : (s.degradePromises b).mem = s.mem := by
  unfold State.degradePromises
  split <;> simp

@[simp] theorem State.judgeBay_mem (b : Nat) : (s.judgeBay b).mem = s.mem := by simp [State.judgeBay]
@[simp] theorem State.combSample_mem (i c ma : Nat) : (s.combSample i c ma).mem = s.mem := by simp [State.combSample]
@[simp] theorem State.opticalCut_mem (i c : Nat) : (s.opticalCut i c).mem = s.mem := by simp [State.opticalCut]

@[simp] theorem State.lightSample_mem (i : Nat) (lines combs : List (Nat × Nat)) : (s.lightSample i lines combs).mem = s.mem := by
  simp [State.lightSample]

/-! ### Trim outputs (R292 to R300) -/

@[simp] theorem State.applyCodes_mem : s.applyCodes.mem = s.mem := by
  unfold State.applyCodes
  dsimp only
  refine foldl_mem _ (fun t x => ?_) _
  split <;> simp

@[simp] theorem State.combForced_mem (l : Nat) : (s.combForced l).mem = s.mem := by simp [State.combForced]
@[simp] theorem State.forceReadback_mem (o : Nat) : (s.forceReadback o).mem = s.mem := by simp [State.forceReadback]
@[simp] theorem State.readback_mem (s0 : State) (o : Nat) (meas : BitVec 12) : (s0.readback o meas).mem = s0.mem := by simp [State.readback]
@[simp] theorem State.ncoWrite_mem (config : Bool) (v : Word) : (s.ncoWrite config v).mem = s.mem := by simp [State.ncoWrite]
@[simp] theorem State.toneWrite_mem (v : Word) : (s.toneWrite v).mem = s.mem := by simp [State.toneWrite]

end

end Sys2Proof.Machine
end

section
/-! SUPPORT. What telemetry, calibration, resets, thermal events and clocks do to stage memory and GDDR7. -/

namespace Sys2Proof.Machine

section
variable (s : State)

/-! ### Telemetry and the sample tick (R268, R271, R383) -/

@[simp] theorem State.takeCommit_mem (e : Nat) : (s.takeCommit e).mem = s.mem := by
  unfold State.takeCommit
  dsimp only
  split <;> simp

@[simp] theorem State.latch_mem (i : TickInputs) (e : Nat) : (s.latch i e).mem = s.mem := by simp [State.latch]
@[simp] theorem State.judgeSupply_mem (e : Nat) : (s.judgeSupply e).mem = s.mem := by simp [State.judgeSupply]
@[simp] theorem State.holdDrives_mem : s.holdDrives.mem = s.mem := by simp [State.holdDrives]

@[simp] theorem State.sampleEngine_mem (e mv : Nat) : (s.sampleEngine e mv).mem = s.mem := by
  unfold State.sampleEngine
  dsimp only
  refine foldl_mem _ (fun t x => ?_) _
  refine foldl_mem _ (fun t x => ?_) _
  rw [State.raise_mem]
  split <;> simp

@[simp] theorem State.spreadBand_mem (b : Nat) : (s.spreadBand b).mem = s.mem := by simp [State.spreadBand]
@[simp] theorem State.countBand_mem (b : Nat) : (s.countBand b).mem = s.mem := by simp [State.countBand]

@[simp] theorem State.restoreDrives_mem : s.restoreDrives.mem = s.mem := by
  unfold State.restoreDrives
  refine foldl_mem _ (fun t x => ?_) _
  dsimp only
  split <;> simp

@[simp] theorem State.restoreLimits_mem (b : Nat) : (s.restoreLimits b).mem = s.mem := by
  unfold State.restoreLimits
  split
  · rfl
  · refine foldl_mem _ (fun t x => ?_) _
    dsimp only
    split <;> simp

@[simp] theorem State.loopTick_mem (i : TickInputs) : (s.loopTick i).mem = s.mem := by simp [State.loopTick]
@[simp] theorem State.handOverTimeout_mem (e l : Nat) : (s.handOverTimeout e l).mem = s.mem := by simp [State.handOverTimeout]

@[simp] theorem State.followAct_mem (e l : Nat) (spared : Bool) : (s.followAct e l spared).1.mem = s.mem := by
  unfold State.followAct
  dsimp only
  repeat' split
  all_goals simp

@[simp] theorem State.followingFault_mem (e l : Nat) : (s.followingFault e l).mem = s.mem := by simp [State.followingFault]
@[simp] theorem State.bayResume_mem (b : Nat) : (s.bayResume b).mem = s.mem := by simp [State.bayResume]

@[simp] theorem State.telWrite_canonical (e l : Nat) (slotFree : Bool) (h : Canonical s.mem) : Canonical (s.telWrite e l slotFree).mem := by
  simp [State.telWrite, h]

@[simp] theorem State.telemetry_canonical (e : Nat) (slotFree : Bool) (h : Canonical s.mem) : Canonical (s.telemetry e slotFree).mem := by
  unfold State.telemetry
  dsimp only
  split
  · refine foldl_canonical _ (fun t x g => ?_) h
    simp [g]
  · exact h

@[simp] theorem State.telWriteCtl_mem (e : Nat) (v : Word) : (s.telWriteCtl e v).mem = s.mem := by simp [State.telWriteCtl]
@[simp] theorem State.disarm_mem (off : Nat) : (s.disarm off).mem = s.mem := by simp [State.disarm]
@[simp] theorem State.loopSelect_mem (e : Nat) (v : Word) : (s.loopSelect e v).mem = s.mem := by simp [State.loopSelect]
@[simp] theorem State.handOverRequest_mem (e : Nat) (v : Word) : (s.handOverRequest e v).mem = s.mem := by simp [State.handOverRequest]
@[simp] theorem State.loadStaged_mem (e : Nat) : (s.loadStaged e).mem = s.mem := by simp [State.loadStaged]
@[simp] theorem State.recordSelect_mem (e : Nat) (v : Word) : (s.recordSelect e v).mem = s.mem := by simp [State.recordSelect]
@[simp] theorem State.recordCommit_mem (e : Nat) : (s.recordCommit e).mem = s.mem := by simp [State.recordCommit]

/-! ### Calibration and the temperature tables (R20, R267 to R269) -/

@[simp] theorem State.tableFail_mem (t : Nat) : (s.tableFail t).mem = s.mem := by simp [State.tableFail]
@[simp] theorem State.copyTable_mem (t : Nat) : (s.copyTable t).mem = s.mem := by simp [State.copyTable]

@[simp] theorem State.writeKnot_canonical (t k : Nat) (c : BitVec 16) (h : Canonical s.mem) : Canonical (s.writeKnot t k c).mem := by
  unfold State.writeKnot
  dsimp only
  split
  · refine foldl_canonical _ (fun t x g => ?_) ?_
    · simp [g]
    · split
      · simp [h]
      · refine foldl_canonical _ (fun t x g => ?_) ?_
        · simp [g]
        · simp [h]
  · split
    · simp [h]
    · refine foldl_canonical _ (fun t x g => ?_) ?_
      · simp [g]
      · simp [h]

@[simp] theorem State.writeRows_canonical (t : Nat) (rows : List RowMeas) (h : Canonical s.mem) : Canonical (s.writeRows t rows).mem := by
  unfold State.writeRows
  refine foldl_canonical _ (fun t x g => ?_) h
  simp [g]

@[simp] theorem State.measureRing_canonical (t k : Nat) (v : BitVec 16) (h : Canonical s.mem) : Canonical (s.measureRing t k v).mem := by
  simp [State.measureRing, h]

@[simp] theorem State.writeSlot_canonical (t : Nat) (m : SlotMeas) (h : Canonical s.mem) : Canonical (s.writeSlot t m).mem := by
  unfold State.writeSlot
  dsimp only
  apply State.storeBytes_canonical
  apply State.writeKnot_canonical
  refine foldl_canonical _ (fun t x g => ?_) ?_
  · simp [g]
  · simp [h]

@[simp] theorem State.setCoefs_mem (t : Nat) (c : List Nat) : (s.setCoefs t c).mem = s.mem := by simp [State.setCoefs]
@[simp] theorem State.takeRows_mem (t : Nat) (rows : List RowMeas) : (s.takeRows t rows).mem = s.mem := by simp [State.takeRows]

@[simp] theorem State.restoreIdle_mem (t : Nat) : (s.restoreIdle t).mem = s.mem := by
  unfold State.restoreIdle
  dsimp only
  repeat' split
  all_goals simp

@[simp] theorem State.slotDue_mem (e : Nat) : (s.slotDue e).mem = s.mem := by simp [State.slotDue]

@[simp] theorem State.recalibrate_canonical (t : Nat) (m : SlotMeas) (h : Canonical s.mem) : Canonical (s.recalibrate t m).mem := by
  simp [State.recalibrate, h]

@[simp] theorem State.intervalWrite_mem (e : Nat) (v : Word) : (s.intervalWrite e v).mem = s.mem := by simp [State.intervalWrite]

@[simp] theorem State.buildTable_canonical (t : Nat) (h : Canonical s.mem) : Canonical (s.buildTable t).mem := by
  simp only [State.buildTable, State.copyTable_mem, State.takeRows_mem, State.modTile_mem, State.mem_mk]
  have kept := s.stage.keep_ok (fun n => decide (n < tableBase t) || decide (tableBase t + tableSize ≤ n)) h.stage
  exact ⟨⟨s.buildTable_bytes_ok t h.stage.1, kept.2⟩, h.gddr⟩

@[simp] theorem State.firstCalibration_canonical (b : Nat) (h : Canonical s.mem) : Canonical (s.firstCalibration b).mem := by
  unfold State.firstCalibration
  rw [State.modBay_mem]
  refine foldl_canonical _ (fun t x g => ?_) h
  simp [g]

@[simp] theorem State.tableRebuild_canonical (t : Nat) (h : Canonical s.mem) : Canonical (s.tableRebuild t).mem := by
  unfold State.tableRebuild
  split
  · extract_lets a s1 s2 inTable s3
    have written : Canonical s2.mem := foldl_canonical _ (fun u z g => u.storeBytes_canonical _ _ g) (s.storeBytes_canonical _ _ h)
    obtain ⟨⟨bytes, flips, marks, owner, chk⟩, gddr⟩ := written
    rw [State.copyTable_mem, State.modTile_mem]
    exact ⟨⟨bytes, Tab.wf_filter _ _ _ flips, Tab.wf_filter _ _ _ marks, owner, Tab.wf_filter _ _ _ chk⟩, gddr⟩
  · exact h

/-! ### Resets (R393, R395) -/

@[simp] theorem State.breakAll_mem (cause : Nat) : (s.breakAll cause).mem = s.mem := by simp [State.breakAll]
@[simp] theorem State.haltAll_mem : s.haltAll.mem = s.mem := by simp [State.haltAll]
@[simp] theorem State.cleared_canonical (h : Canonical s.mem) : Canonical s.cleared.mem := ⟨s.stage.retained_ok h.stage, ⟨rfl, rfl⟩⟩
@[simp] theorem State.keepRegs_mem (s old : State) (l : List Nat) : (s.keepRegs old l).mem = s.mem := by simp [State.keepRegs]

@[simp] theorem State.moduleReset_canonical (h : Canonical s.mem) : Canonical s.moduleReset.mem := by
  have emptied : Canonical s.haltAll.cleared.mem := s.haltAll.cleared_canonical (by simpa only [State.haltAll_mem] using h)
  simpa only [State.moduleReset, State.mem_mk, State.mem_eta, State.setFld_mem, State.keepRegs_mem] using emptied

@[simp] theorem State.powerOn_canonical (sba : Nat) : Canonical (s.powerOn sba).mem := by
  rw [State.powerOn, State.setFld_mem]
  exact (State.memOk_iff_canonical _).1 reset_memOk

@[simp] theorem State.enterA3_canonical (h : Canonical s.mem) : Canonical s.enterA3.mem := by simp [State.enterA3, h]

/-! ### Thermal events (R416 to R430) -/

@[simp] theorem State.setLevel_mem (b v : Nat) : (s.setLevel b v).mem = s.mem := by simp [State.setLevel]
@[simp] theorem State.levelRelease_mem (b : Nat) : (s.levelRelease b).mem = s.mem := by simp [State.levelRelease]

@[simp] theorem State.withCauses_mem (f : State → State) (kept : ∀ t, (f t).mem = t.mem) : (s.withCauses f).mem = s.mem := by
  simp [State.withCauses, kept]

@[simp] theorem State.stepUp_mem (b : Nat) : (s.stepUp b).mem = s.mem := by simp [State.stepUp]

@[simp] theorem State.thermalEvent_mem (kind mask sensor : Nat) : (s.thermalEvent kind mask sensor).mem = s.mem := by
  simp [State.thermalEvent]

@[simp] theorem State.belowFloor_mem (b : Nat) : (s.belowFloor b).mem = s.mem := by
  unfold State.belowFloor
  split <;> simp

@[simp] theorem State.stepDown_mem (b : Nat) : (s.stepDown b).mem = s.mem := by simp [State.stepDown]
@[simp] theorem State.rateAct_mem (n : Nat) : (s.rateAct n).mem = s.mem := by simp [State.rateAct]
@[simp] theorem State.excursionClear_mem (b : Nat) : (s.excursionClear b).mem = s.mem := by simp [State.excursionClear]
@[simp] theorem State.breakSensor_mem (n : Nat) : (s.breakSensor n).mem = s.mem := by simp [State.breakSensor]
@[simp] theorem State.sensorEvents_mem (n : Nat) (old new : Sensor) : (s.sensorEvents n old new).mem = s.mem := by simp [State.sensorEvents]
@[simp] theorem State.takeReading_mem (n : Nat) (r : BitVec 16) : (s.takeReading n r).mem = s.mem := by simp [State.takeReading]

@[simp] theorem State.thermalSample_mem (n : Nat) (x : Option (BitVec 16)) : (s.thermalSample n x).mem = s.mem := by
  unfold State.thermalSample
  split <;> simp

@[simp] theorem State.trip_canonical (n : Nat) (h : Canonical s.mem) : Canonical (s.trip n).mem := by
  unfold State.trip
  dsimp only
  split
  · exact h
  · simp only [State.mem_mk, State.mem_eta, State.setFld_mem, State.setFlag_mem]
    exact State.enterA3_canonical _ (by simpa only [State.raise_mem, State.haltAll_mem, State.guardFault_mem] using h)

@[simp] theorem State.powerRead_mem (watts : List Nat) : (s.powerRead watts).mem = s.mem := by simp [State.powerRead]

@[simp] theorem State.scalePairBad_mem (t : Nat) : (s.scalePairBad t).mem = s.mem := by
  unfold State.scalePairBad
  dsimp only
  repeat' split
  all_goals simp

@[simp] theorem State.loopPairBad_mem (e l : Nat) : (s.loopPairBad e l).mem = s.mem := by simp [State.loopPairBad]
@[simp] theorem State.pairFault_mem (unit arg0 : Nat) (v c : Word) : (s.pairFault unit arg0 v c).mem = s.mem := by simp [State.pairFault]

@[simp] theorem State.pairCheck_mem (p : StoredPair) (v c : Word) : (s.pairCheck p v c).mem = s.mem := by
  unfold State.pairCheck
  repeat' split
  all_goals simp

/-! ### Clocks and crossings (R324, R377 to R393) -/

@[simp] theorem State.switchLast_mem (forced : Bool) (dom from_ dest us : Nat) : (s.switchLast forced dom from_ dest us).mem = s.mem := by
  simp [State.switchLast]

@[simp] theorem State.clockFault_mem (code unit act : Nat) : (s.clockFault code unit act).mem = s.mem := by simp [State.clockFault]
@[simp] theorem State.onSource_mem (d src : Nat) : (s.onSource d src).mem = s.mem := by simp [State.onSource]
@[simp] theorem State.sourceSwitch_mem (d src : Nat) : (s.sourceSwitch d src).mem = s.mem := by simp [State.sourceSwitch]
@[simp] theorem State.stoppedClock_mem (d src : Nat) : (s.stoppedClock d src).mem = s.mem := by simp [State.stoppedClock]

@[simp] theorem State.inputStopped_mem : s.inputStopped.mem = s.mem := by
  simp only [State.inputStopped, State.mem_ite, State.clockFault_mem, State.setFlag_mem, State.mem_mk, State.mem_eta, ite_self]

@[simp] theorem State.allHold_mem : s.allHold.mem = s.mem := by simp [State.allHold]
@[simp] theorem State.clockLossBay_mem (b : Nat) : (s.clockLossBay b).mem = s.mem := by simp [State.clockLossBay]
@[simp] theorem State.fallBack_mem (d : Nat) : (s.fallBack d).mem = s.mem := by simp [State.fallBack]
@[simp] theorem State.referenceLost_mem : s.referenceLost.mem = s.mem := by simp [State.referenceLost]
@[simp] theorem State.returnBays_mem : s.returnBays.mem = s.mem := by simp [State.returnBays]
@[simp] theorem State.startLoops_mem (e : Nat) : (s.startLoops e).mem = s.mem := by simp [State.startLoops]

@[simp] theorem State.referenceReturn_mem (recovered : Bool) (port : Nat) : (s.referenceReturn recovered port).mem = s.mem := by
  simp [State.referenceReturn]

@[simp] theorem State.gateDisable_mem (v : Word) : (s.gateDisable v).mem = s.mem := by simp [State.gateDisable]
@[simp] theorem State.rxLost_mem (p : Nat) (st : BitVec 3) : (s.rxLost p st).mem = s.mem := by simp [State.rxLost]

@[simp] theorem State.memLost_canonical (h : Canonical s.mem) : Canonical s.memLost.mem := by
  unfold State.memLost
  refine foldl_canonical _ (fun t x g => ?_) h
  dsimp only
  repeat' split
  all_goals simp [g]

@[simp] theorem State.crossingReset_canonical (r t : Nat) (h : Canonical s.mem) : Canonical (s.crossingReset r t).mem := by
  simp [State.crossingReset, h]

@[simp] theorem State.crossingOpen_mem (r t : Nat) : (s.crossingOpen r t).mem = s.mem := by simp [State.crossingOpen]

@[simp] theorem State.domainReset_canonical (d : Nat) (h : Canonical s.mem) : Canonical (s.domainReset d).mem := by
  unfold State.domainReset
  extract_lets x s1
  have kept : Canonical s1.mem := by simpa [s1] using h
  split
  · simpa using kept
  · split
    · exact s1.memLost_canonical kept
    · exact kept

@[simp] theorem State.correct_mem (i : CorrItem) (v : Int) (broken : Bool) : (s.correct i v broken).mem = s.mem := by
  unfold State.correct
  split
  · simp
  · dsimp only
    split <;> simp

end

end Sys2Proof.Machine
end

section
/-! SUPPORT. What packets, scores and bindings do to stage memory and GDDR7. -/

namespace Sys2Proof.Machine

section
variable (s : State)

/-! ### Packets (R351 to R359) -/

@[simp] theorem State.setWinDword_mem (n : Nat) (v : Option Word) : (s.setWinDword n v).mem = s.mem := by simp [State.setWinDword]
@[simp] theorem State.clearDwords_mem (pos n : Nat) : (s.clearDwords pos n).mem = s.mem := by simp [State.clearDwords]
@[simp] theorem State.trackPartial_mem : s.trackPartial.mem = s.mem := by simp [State.trackPartial]

@[simp] theorem State.windowStall_mem : s.windowStall.mem = s.mem := by
  unfold State.windowStall
  split <;> simp

@[simp] theorem State.windowDword_mem (n : Nat) (w : Word) (be : BitVec 4) : (s.windowDword n w be).mem = s.mem := by
  unfold State.windowDword
  repeat' split
  all_goals simp

@[simp] theorem State.windowWrite_mem (off : Nat) (dws : List (Word × BitVec 4)) (poisoned : Bool) :
    (s.windowWrite off dws poisoned).mem = s.mem := by
  simp [State.windowWrite]

@[simp] theorem State.flush_mem : s.flush.mem = s.mem := by
  simp only [State.flush, State.setFld_mem, State.setFlag_mem, State.mem_mk, State.mem_eta]

@[simp] theorem State.commandEnable_mem (en : Bool) : (s.commandEnable en).mem = s.mem := by simp [State.commandEnable]

@[simp] theorem State.complete_mem (k status : Nat) (detail : Nat) (vs : List Nat) :
    (s.complete k status detail vs).mem = s.mem := by
  unfold State.complete
  split <;> simp

@[simp] theorem State.completeNo_mem (no status : Nat) (detail : Nat) (vs : List Nat) :
    (s.completeNo no status detail vs).mem = s.mem := by
  unfold State.completeNo
  split <;> simp

@[simp] theorem State.hostWrite_mem (a : Nat) (l : List Byte) : (s.hostWrite a l).mem = s.mem := by
  induction l generalizing s a with
  | nil => rfl
  | cons x l ih => exact ih _ _

@[simp] theorem State.replyWrite_canonical (h : Canonical s.mem) : Canonical s.replyWrite.mem := by
  unfold State.replyWrite
  split
  · exact h
  · dsimp only
    split
    · exact h
    · refine foldl_canonical _ (fun t x g => ?_) ?_
      · simp [g]
      · simp [h]

@[simp] theorem State.hunt_mem : s.hunt.mem = s.mem := by simp [State.hunt]

@[simp] theorem State.takeHeader_mem (y : Header) : (s.takeHeader y).mem = s.mem := by
  unfold State.takeHeader
  extract_lets v gap s1 s2 s3 old
  have cleared : s3.mem = s.mem := by
    simp only [s3, s2, s1, State.mem_ite, State.setFlag_mem, State.setFld_mem, State.clearDwords_mem, ite_self]
  split
  · rfl
  · extract_lets p subj c s4 s5
    have taken : s5.mem = s.mem := by
      rw [← cleared]
      simp only [s5, s4, State.trackPartial_mem, State.mem_mk, State.mem_eta]
    split
    · exact (s5.completeNo_mem _ _ _ _).trans taken
    · exact taken

@[simp] theorem State.packetTake_mem : s.packetTake.mem = s.mem := by
  unfold State.packetTake
  repeat' split
  all_goals simp

@[simp] theorem State.command_mem (k op : Nat) (f : State → Taken → State) (kept : ∀ t n, (f t n).mem = t.mem) :
    (s.command k op f).mem = s.mem := by
  unfold State.command
  split
  · rfl
  · split
    · rfl
    · split
      · rfl
      · split <;> simp [kept]

@[simp] theorem State.command_canonical (k op : Nat) (f : State → Taken → State)
    (kept : ∀ t c, Canonical t.mem → Canonical (f t c).mem) (h : Canonical s.mem) : Canonical (s.command k op f).mem := by
  unfold State.command
  split
  · exact h
  · split
    · exact h
    · split
      · exact h
      · split <;> simp [kept, h]

@[simp] theorem State.begin_mem (k : Nat) : (s.begin k).mem = s.mem := by simp [State.begin]

/-! ### Scores (R31, R36, R207 to R214) -/

@[simp] theorem State.admReport_mem (i : ScoreId) (e : Refuse) : (s.admReport i e).mem = s.mem := by simp [State.admReport]

@[simp] theorem State.measureScore_mem (event : Nat) (i : ScoreId) (digest : List Byte) : (s.measureScore event i digest).mem = s.mem := by
  simp [State.measureScore]

@[simp] theorem State.nextAnalysis_mem : s.nextAnalysis.mem = s.mem := by
  unfold State.nextAnalysis
  split <;> simp

@[simp] theorem State.loadBegin_mem (k : Nat) (c : Taken) : (s.loadBegin k c).mem = s.mem := by simp [State.loadBegin]

@[simp] theorem State.placeBlocks_canonical (x : Score) (p : Package) (lo hi : Nat) (h : Canonical s.mem) :
    Canonical (s.placeBlocks x p lo hi).mem := by
  unfold State.placeBlocks
  refine foldl_canonical _ (fun t x g => ?_) h
  refine foldl_canonical _ (fun t x g => ?_) ?_
  · dsimp only
    repeat' split
    all_goals simp [g]
  · exact g

@[simp] theorem State.loadChunk_canonical (k : Nat) (c : Taken) (h : Canonical s.mem) : Canonical (s.loadChunk k c).mem := by
  unfold State.loadChunk
  dsimp only
  repeat' split
  all_goals simp [h]

@[simp] theorem State.bindHomes_canonical (i : ScoreId) (homes ghomes : List Nat) (h : Canonical s.mem) :
    Canonical (s.bindHomes i homes ghomes).mem := by
  unfold State.bindHomes
  dsimp only
  refine foldl_canonical _ (fun t n g => ?_) (foldl_canonical _ (fun t n g => ?_) h)
  · simpa using t.clearGddr_canonical n g
  · simpa using t.clearStage_canonical n g

@[simp] theorem State.enableQueues_mem (i : ScoreId) (p : Package) : (s.enableQueues i p).mem = s.mem := by simp [State.enableQueues]

@[simp] theorem State.accept_canonical (i : ScoreId) (p : Package) (h : Canonical s.mem) : Canonical (s.accept i p).mem := by
  unfold State.accept
  extract_lets x s1 plan g s2
  obtain ⟨⟨bytes, flips, marks, owner, chk⟩, gddr⟩ := s.bindHomes_canonical i x.homes x.ghomes h
  have given : Canonical s2.mem := ⟨⟨bytes, flips, marks, giveSlots_wf plan _ owner, chk⟩, gddr⟩
  simpa only [State.setScore_mem, State.enableQueues_mem] using s2.placeBlocks_canonical x p 0 x.nextBlk given

@[simp] theorem State.freeGran_canonical (n : Nat) (h : Canonical s.mem) : Canonical (s.freeGran n).mem := by
  have freed := s.freeGran_ok n h.stage
  simp only [State.freeGran, State.mem_mk]
  exact ⟨freed, h.gddr⟩

@[simp] theorem State.freeHomes_canonical (i : ScoreId) (h : Canonical s.mem) : Canonical (s.freeHomes i).mem :=
  foldl_canonical _ (fun u n g => u.freeGran_canonical n g) h

@[simp] theorem State.freeBay_mem (b : Nat) : (s.freeBay b).mem = s.mem := by simp [State.freeBay]
@[simp] theorem State.freeGroup_mem (n : Nat) : (s.freeGroup n).mem = s.mem := by simp [State.freeGroup]

@[simp] theorem State.releaseAll_canonical (i : ScoreId) (h : Canonical s.mem) : Canonical (s.releaseAll i).mem := by
  simp [State.releaseAll, h]

@[simp] theorem State.finishLoad_canonical (k : Nat) (i : ScoreId) (h : Canonical s.mem) : Canonical (s.finishLoad k i).mem := by
  unfold State.finishLoad
  dsimp only
  split
  · simp [h]
  · exact h
  · simp [h]

@[simp] theorem State.analysis_canonical (i : ScoreId) (p : Package) (h : Canonical s.mem) : Canonical (s.analysis i p).mem := by
  unfold State.analysis
  split
  · exact h
  · extract_lets x s0 y s1 s2
    have decided : Canonical s1.mem := by
      unfold s1
      split
      · simpa only [State.admReport_mem] using s0.accept_canonical i p h
      · simpa only [State.admReport_mem, State.setScore_mem, s0, State.mem_mk, State.mem_eta] using h
    rw [State.nextAnalysis_mem]
    unfold s2
    split
    · exact s1.finishLoad_canonical _ i decided
    · exact decided

@[simp] theorem State.loadEnd_canonical (k : Nat) (c : Taken) (h : Canonical s.mem) : Canonical (s.loadEnd k c).mem := by
  simp [State.loadEnd, h]

@[simp] theorem State.startBuffers_mem (b : Nat) (x : Score) (p : Package) (n : Nat) (c : Cls) :
    (s.startBuffers b x p n c).mem = s.mem := by
  simp [State.startBuffers]

@[simp] theorem State.startClaims_mem (i : ScoreId) (n : Nat) : (s.startClaims i n).mem = s.mem := by simp [State.startClaims]

@[simp] theorem State.startSeq_mem (i : ScoreId) (p : Package) (n : Nat) : (s.startSeq i p n).mem = s.mem := by
  unfold State.startSeq
  repeat' split
  all_goals simp

@[simp] theorem State.firstStart_mem (i : ScoreId) : (s.firstStart i).mem = s.mem := by simp [State.firstStart]

@[simp] theorem State.start_mem (k : Nat) (c : Taken) : (s.start k c).mem = s.mem := by
  unfold State.start
  dsimp only
  repeat' split
  all_goals simp

@[simp] theorem State.haltSeq_mem (b : Nat) (c : Cls) : (s.haltSeq b c).mem = s.mem := by
  unfold State.haltSeq
  split <;> simp

@[simp] theorem State.haltSeqs_mem (i : ScoreId) (l : List Nat) : (s.haltSeqs i l).mem = s.mem := by
  unfold State.haltSeqs
  refine foldl_mem _ (fun t x => ?_) _
  refine foldl_mem _ (fun t x => ?_) _
  split <;> simp

@[simp] theorem State.stop_mem (k : Nat) (c : Taken) : (s.stop k c).mem = s.mem := by
  unfold State.stop
  dsimp only
  repeat' split
  all_goals simp

@[simp] theorem State.finishUnload_canonical (k : Nat) (i : ScoreId) (h : Canonical s.mem) : Canonical (s.finishUnload k i).mem := by
  simp [State.finishUnload, h]

@[simp] theorem State.unload_canonical (k : Nat) (c : Taken) (h : Canonical s.mem) : Canonical (s.unload k c).mem := by
  simp [State.unload, h]

@[simp] theorem State.replyStops_canonical (h : Canonical s.mem) : Canonical s.replyStops.mem := by
  unfold State.replyStops
  repeat' split
  all_goals simp [h]

@[simp] theorem State.sequenceEnd_canonical (b : Nat) (c : Cls) (h : Canonical s.mem) : Canonical (s.sequenceEnd b c).mem := by
  unfold State.sequenceEnd
  split <;> simp [h]

/-! ### Roles and windows (R198, R222 to R226) -/

@[simp] theorem State.clearTile_mem (t : Nat) (old new : ScoreId) : (s.clearTile t old new).mem = s.mem := by simp [State.clearTile]

@[simp] theorem State.clearBay_mem (b : Nat) (old new : ScoreId) (code : List (BitVec 128)) : (s.clearBay b old new code).mem = s.mem := by
  simp [State.clearBay]

@[simp] theorem State.freshBay_mem (b : Nat) : (s.freshBay b).mem = s.mem := by simp [State.freshBay]
@[simp] theorem State.rampBay_mem (b : Nat) (tgt : Int) : (s.rampBay b tgt).mem = s.mem := by simp [State.rampBay]
@[simp] theorem State.tie_mem (i : ScoreId) (kind role n : Nat) : (s.tie i kind role n).mem = s.mem := by simp [State.tie]
@[simp] theorem State.untie_mem (i : ScoreId) (kind n : Nat) : (s.untie i kind n).mem = s.mem := by simp [State.untie]

@[simp] theorem State.bindBay_mem (k : Nat) (i : ScoreId) (p : Package) (role b : Nat) : (s.bindBay k i p role b).mem = s.mem := by
  unfold State.bindBay
  split <;> simp

@[simp] theorem State.bindRange_mem (k : Nat) (i : ScoreId) (p : Package) (role n : Nat) : (s.bindRange k i p role n).mem = s.mem := by
  unfold State.bindRange
  split <;> simp

@[simp] theorem State.bindGroup_mem (k : Nat) (i : ScoreId) (p : Package) (role n partner : Nat) :
    (s.bindGroup k i p role n partner).mem = s.mem := by
  unfold State.bindGroup
  split <;> simp

@[simp] theorem State.clearMap_canonical (w : Nat) (h : Canonical s.mem) : Canonical (s.clearMap w).mem := ⟨s.clearMap_ok w h.stage, h.gddr⟩

@[simp] theorem State.bindWindow_canonical (k : Nat) (i : ScoreId) (p : Package) (role w partner pages : Nat) (h : Canonical s.mem) :
    Canonical (s.bindWindow k i p role w partner pages).mem := by
  unfold State.bindWindow
  split
  · simp [h]
  · dsimp only
    repeat' split
    all_goals simp [h]

@[simp] theorem State.bind_canonical (k : Nat) (c : Taken) (h : Canonical s.mem) : Canonical (s.bind k c).mem := by
  unfold State.bind
  dsimp only
  repeat' split
  all_goals simp [h]

@[simp] theorem State.rebindComplete_mem (k b : Nat) : (s.rebindComplete k b).mem = s.mem := by
  unfold State.rebindComplete
  split <;> simp

@[simp] theorem State.reservation_mem (k : Nat) (accepted : Bool) : (s.reservation k accepted).mem = s.mem := by
  unfold State.reservation
  split <;> simp

@[simp] theorem State.giveBack_mem (i : ScoreId) (kind n : Nat) : (s.giveBack i kind n).mem = s.mem := by simp [State.giveBack]

@[simp] theorem State.release_mem (k : Nat) (c : Taken) : (s.release k c).mem = s.mem := by
  unfold State.release
  dsimp only
  repeat' split
  all_goals simp

@[simp] theorem State.windowMap_mem (k : Nat) (c : Taken) : (s.windowMap k c).mem = s.mem := by simp [State.windowMap]

@[simp] theorem State.eventSignal_mem (k : Nat) (c : Taken) : (s.eventSignal k c).mem = s.mem := by
  unfold State.eventSignal
  split <;> simp

@[simp] theorem State.eventRead_mem (k : Nat) (c : Taken) : (s.eventRead k c).mem = s.mem := by
  unfold State.eventRead
  split <;> simp

@[simp] theorem State.eventNotify_mem (k : Nat) (c : Taken) : (s.eventNotify k c).mem = s.mem := by
  unfold State.eventNotify
  split <;> simp

@[simp] theorem State.debugEnter_mem (k : Nat) (c : Taken) : (s.debugEnter k c).mem = s.mem := by simp [State.debugEnter]
@[simp] theorem State.debugExit_mem (k : Nat) (c : Taken) : (s.debugExit k c).mem = s.mem := by simp [State.debugExit]

end

end Sys2Proof.Machine
end

section
/-! SUPPORT. What ports and partners do to stage memory and GDDR7. -/

namespace Sys2Proof.Machine

section
variable (s : State)

/-! ### Ports and partners (R324 to R336) -/

@[simp] theorem State.countLost_mem (p : Nat) : (s.countLost p).mem = s.mem := by simp [State.countLost]

@[simp] theorem State.xferDone_mem (o : Outstanding) : (s.xferDone o).mem = s.mem := by
  unfold State.xferDone
  repeat' split
  all_goals simp

@[simp] theorem State.deliverRead_canonical (o : Outstanding) (bs : List Block) (h : Canonical s.mem) :
    Canonical (s.deliverRead o bs).mem := by
  unfold State.deliverRead
  split
  · exact h
  · split
    · exact h
    · dsimp only
      rw [State.xferDone_mem]
      refine foldl_canonical _ (fun t x g => ?_) h
      simp [g]

@[simp] theorem State.dropRead_mem (p g : Nat) (o : Outstanding) : (s.dropRead p g o).mem = s.mem := by simp [State.dropRead]
@[simp] theorem State.dropWrite_mem (p g : Nat) (o : Outstanding) : (s.dropWrite p g o).mem = s.mem := by simp [State.dropWrite]

@[simp] theorem State.readLost_canonical (p g : Nat) (tag : BitVec 32) (h : Canonical s.mem) : Canonical (s.readLost p g tag).mem := by
  unfold State.readLost
  split <;> simp [h]

@[simp] theorem State.writeLost_mem (p g : Nat) (tag : BitVec 32) : (s.writeLost p g tag).mem = s.mem := by
  unfold State.writeLost
  split <;> simp

@[simp] theorem State.outLost_canonical (p g : Nat) (m : Msg) (h : Canonical s.mem) : Canonical (s.outLost p g m).mem := by
  simp [State.outLost, h]

@[simp] theorem State.lanePromises_mem (p g : Nat) : (s.lanePromises p g).mem = s.mem := by simp [State.lanePromises]
@[simp] theorem State.laneChange_mem (p g : Nat) : (s.laneChange p g).mem = s.mem := by simp [State.laneChange]

@[simp] theorem State.completionLost_mem (p g : Nat) (tag : BitVec 32) : (s.completionLost p g tag).mem = s.mem := by
  simp [State.completionLost]

@[simp] theorem State.lostArrived_mem (p g : Nat) : (s.lostArrived p g).mem = s.mem := by simp [State.lostArrived]

@[simp] theorem State.groupLost_canonical (p g : Nat) (h : Canonical s.mem) : Canonical (s.groupLost p g).mem := by
  unfold State.groupLost
  simp only [State.setGroup_mem, State.countLost_mem, State.completionLost_mem, foldl_mem, implies_true]
  exact foldl_canonical _ (fun u o k => u.readLost_canonical p g o.tag k) h

@[simp] theorem State.groupRetrain_canonical (p g : Nat) (done : Bool) (h : Canonical s.mem) : Canonical (s.groupRetrain p g done).mem := by
  simp [State.groupRetrain, h]

@[simp] theorem State.filterReturn_mem (p g : Nat) : (s.filterReturn p g).mem = s.mem := by simp [State.filterReturn]
@[simp] theorem State.partnerEvent_mem (code : Nat) (id : BitVec 12) : (s.partnerEvent code id).mem = s.mem := by simp [State.partnerEvent]
@[simp] theorem State.partnerGone_mem (id : BitVec 12) : (s.partnerGone id).mem = s.mem := by simp [State.partnerGone]
@[simp] theorem State.entryGone_mem (n : Nat) : (s.entryGone n).mem = s.mem := by simp [State.entryGone]
@[simp] theorem State.refreshHops_mem : s.refreshHops.mem = s.mem := by simp [State.refreshHops]
@[simp] theorem State.refPromises_mem : s.refPromises.mem = s.mem := by simp [State.refPromises]
@[simp] theorem State.selectRef_mem (sel port : Nat) : (s.selectRef sel port).mem = s.mem := by simp [State.selectRef]

@[simp] theorem State.setRef_mem (lock self : Bool) (hops port rid : Nat) : (s.setRef lock self hops port rid).mem = s.mem := by
  simp [State.setRef]

@[simp] theorem State.ownOscillator_mem : s.ownOscillator.mem = s.mem := by simp [State.ownOscillator]

@[simp] theorem State.elect_mem : s.elect.mem = s.mem := by
  unfold State.elect
  split
  · rfl
  · dsimp only
    rw [State.refPromises_mem]
    repeat' split
    all_goals simp

@[simp] theorem State.holdRef_mem : s.holdRef.mem = s.mem := by
  simp only [State.holdRef, State.setFlag_mem, State.mem_mk, State.mem_eta]

@[simp] theorem State.followTable_mem : s.followTable.mem = s.mem := by simp [State.followTable]
@[simp] theorem State.reelect_mem : s.reelect.mem = s.mem := by simp [State.reelect]
@[simp] theorem State.floodOn_mem (l : List Nat) (a : Announcement) : (s.floodOn l a).mem = s.mem := by simp [State.floodOn]

@[simp] theorem State.ownEntry_mem (a : Announcement) : (s.ownEntry a).mem = s.mem := by
  unfold State.ownEntry
  split <;> simp

@[simp] theorem State.announce_mem : s.announce.mem = s.mem := by simp [State.announce]
@[simp] theorem State.announceChange_mem : s.announceChange.mem = s.mem := by simp [State.announceChange]
@[simp] theorem State.announcementTimer_mem : s.announcementTimer.mem = s.mem := by simp [State.announcementTimer]
@[simp] theorem State.enter_mem (n : Nat) (a : Announcement) : (s.enter n a).mem = s.mem := by simp [State.enter]
@[simp] theorem State.markDup_mem (n : Nat) (a : Announcement) : (s.markDup n a).mem = s.mem := by simp [State.markDup]
@[simp] theorem State.forward_mem (p : Nat) (a : Announcement) : (s.forward p a).mem = s.mem := by simp [State.forward]

@[simp] theorem State.nodeAnnouncement_mem (p : Nat) (a : Announcement) : (s.nodeAnnouncement p a).mem = s.mem := by
  unfold State.nodeAnnouncement
  split
  · rfl
  · split
    · split
      · rfl
      · dsimp only
        split <;> simp
    · repeat' split
      all_goals simp

@[simp] theorem State.leaveFrom_mem (id : BitVec 12) : (s.leaveFrom id).mem = s.mem := by
  unfold State.leaveFrom
  repeat' split
  all_goals simp

@[simp] theorem State.clearDup_mem (n : Nat) (serial : BitVec 64) (heard : Nat) : (s.clearDup n serial heard).mem = s.mem := by
  simp [State.clearDup]

@[simp] theorem State.entryTimeout_mem (id : BitVec 12) : (s.entryTimeout id).mem = s.mem := by
  unfold State.entryTimeout
  split <;> simp

@[simp] theorem State.rejoin_mem (id : BitVec 12) (accepted : Bool) : (s.rejoin id accepted).mem = s.mem := by
  unfold State.rejoin
  split <;> simp

@[simp] theorem State.setGroups_mem (p : Nat) (f : FabGroup → FabGroup) : (s.setGroups p f).mem = s.mem := by simp [State.setGroups]
@[simp] theorem State.setPortState_mem (p st : Nat) : (s.setPortState p st).mem = s.mem := by simp [State.setPortState]
@[simp] theorem State.startTraining_mem (p : Nat) : (s.startTraining p).mem = s.mem := by simp [State.startTraining]

@[simp] theorem State.portLeaves_canonical (p st : Nat) (gs : BitVec 3) (h : Canonical s.mem) : Canonical (s.portLeaves p st gs).mem := by
  simp only [State.portLeaves, State.announceChange_mem, State.followTable_mem, State.setDom_mem, State.setFld_mem,
    State.setPortState_mem, State.setGroups_mem]
  exact foldl_canonical _ (fun u g k => u.groupLost_canonical p g k) h

@[simp] theorem State.training_canonical (p : Nat) (failed : Option Nat) (ms : Nat) (h : Canonical s.mem) :
    Canonical (s.training p failed ms).mem := by
  unfold State.training
  dsimp only
  repeat' split
  all_goals simp [h]

@[simp] theorem State.idleRetry_mem (p : Nat) (light : Bool) : (s.idleRetry p light).mem = s.mem := by simp [State.idleRetry]
@[simp] theorem State.noLight_canonical (p : Nat) (h : Canonical s.mem) : Canonical (s.noLight p).mem := by simp [State.noLight, h]
@[simp] theorem State.portComesUp_mem (p : Nat) (y : Hello) : (s.portComesUp p y).mem = s.mem := by simp [State.portComesUp]
@[simp] theorem State.hello_mem (p g : Nat) (y : Hello) : (s.hello p g y).mem = s.mem := by simp [State.hello]
@[simp] theorem State.retrain_canonical (p : Nat) (h : Canonical s.mem) : Canonical (s.retrain p).mem := by simp [State.retrain, h]

@[simp] theorem State.portDisable_canonical (p : Nat) (dis : Bool) (h : Canonical s.mem) : Canonical (s.portDisable p dis).mem := by
  simp [State.portDisable, h]

@[simp] theorem State.lockRelease_mem : s.lockRelease.mem = s.mem := by simp [State.lockRelease]

@[simp] theorem State.lockSet_canonical (h : Canonical s.mem) : Canonical s.lockSet.mem := by
  refine foldl_canonical _ (fun u p g => ?_) (by simp [h])
  split
  · exact g
  · exact u.portLeaves_canonical p 0 0 g

end

end Sys2Proof.Machine
end

section
/-! SUPPORT. What messages do to stage memory and GDDR7. -/

namespace Sys2Proof.Machine

section
variable (s : State)

/-! ### Messages (R305 to R322) -/

@[simp] theorem State.downLost_canonical (p g : Nat) (h : Canonical s.mem) : Canonical (s.downLost p g).mem := by
  unfold State.downLost
  dsimp only
  repeat' split
  all_goals simp [h]

@[simp] theorem State.messageSend_canonical (p g : Nat) (h : Canonical s.mem) : Canonical (s.messageSend p g).mem := by
  unfold State.messageSend
  dsimp only
  repeat' split
  all_goals simp [h]

@[simp] theorem State.fabricSwap_mem : s.fabricSwap.mem = s.mem := by simp [State.fabricSwap]
@[simp] theorem State.inOrder_mem (p g : Nat) (m : Msg) : (s.inOrder p g m).mem = s.mem := by simp [State.inOrder]

@[simp] theorem State.releaseHeld_mem (p g k : Nat) : (s.releaseHeld p g k).mem = s.mem := by
  induction k generalizing s with
  | zero => rfl
  | succ n ih =>
    unfold State.releaseHeld
    dsimp only
    split
    · simp [ih]
    · rfl

@[simp] theorem State.receive_mem (p g : Nat) (m : Msg) : (s.receive p g m).mem = s.mem := by simp [State.receive]
@[simp] theorem State.noteRetry_mem (p g : Nat) : (s.noteRetry p g).mem = s.mem := by simp [State.noteRetry]

@[simp] theorem State.nak_canonical (p g : Nat) (lost : BitVec 12) (h : Canonical s.mem) : Canonical (s.nak p g lost).mem := by
  unfold State.nak
  dsimp only
  split <;> simp [h]

@[simp] theorem State.flitsDone_mem (p g : Nat) (fl : List (Option (List Byte))) : (s.flitsDone p g fl).mem = s.mem := by
  unfold State.flitsDone
  dsimp only
  split <;> simp

@[simp] theorem State.takeFlit_mem (p g : Nat) (x : Option (List Byte)) : (s.takeFlit p g x).mem = s.mem := by
  unfold State.takeFlit
  split <;> simp

@[simp] theorem State.openMsg_mem (p g : Nat) (y : List Byte) : (s.openMsg p g y).mem = s.mem := by simp [State.openMsg]

@[simp] theorem State.takeSlot_mem (p g : Nat) (x : Option Flit) : (s.takeSlot p g x).mem = s.mem := by
  unfold State.takeSlot
  dsimp only
  repeat' split
  all_goals simp

@[simp] theorem State.badPair_mem (p g : Nat) : (s.badPair p g).mem = s.mem := by simp [State.badPair]

@[simp] theorem State.pairHeader_canonical (p g : Nat) (w : Pair) (h : Canonical s.mem) : Canonical (s.pairHeader p g w).mem := by
  simp [State.pairHeader, h]

@[simp] theorem State.codewordPair_canonical (p g : Nat) (w : Pair) (h : Canonical s.mem) : Canonical (s.codewordPair p g w).mem := by
  simp [State.codewordPair, h]

@[simp] theorem State.nakTimeout_mem (p g : Nat) : (s.nakTimeout p g).mem = s.mem := by simp [State.nakTimeout]
@[simp] theorem State.lossNotice_mem (p g : Nat) (head : List Byte) : (s.lossNotice p g head).mem = s.mem := by simp [State.lossNotice]
@[simp] theorem State.applied_mem (p g : Nat) (m : Msg) : (s.applied p g m).mem = s.mem := by simp [State.applied]

@[simp] theorem State.answer_mem (p g : Nat) (m : Msg) (type status : BitVec 8) (svc : BitVec 4) (bs : List Block) :
    (s.answer p g m type status svc bs).mem = s.mem := by
  simp [State.answer]

@[simp] theorem State.writeMsg_canonical (i : ScoreId) (m : Msg) (l : List (GddrFind × GddrFind)) (h : Canonical s.mem) :
    Canonical (s.writeMsg i m l).mem := by
  unfold State.writeMsg
  refine foldl_canonical _ (fun t x g => ?_) h
  simp [g]

@[simp] theorem State.writeIn_canonical (p g : Nat) (m : Msg) (l : List (GddrFind × GddrFind)) (h : Canonical s.mem) :
    Canonical (s.writeIn p g m l).mem := by
  simp [State.writeIn, h]

@[simp] theorem State.readMsg_mem (i : ScoreId) (m : Msg) (l : List (GddrFind × GddrFind)) : (s.readMsg i m l).2.mem = s.mem := by
  unfold State.readMsg
  refine List.foldlRecOn (motive := fun r : List Block × State => r.2.mem = s.mem) _ _ rfl fun r kept a _ => ?_
  dsimp only
  split <;> simp [kept]

@[simp] theorem State.readIn_mem (p g : Nat) (m : Msg) (l : List (GddrFind × GddrFind)) : (s.readIn p g m l).mem = s.mem := by
  simp [State.readIn]

@[simp] theorem State.remoteRefused_canonical (o : Outstanding) (side : Nat) (h : Canonical s.mem) :
    Canonical (s.remoteRefused o side).mem := by
  unfold State.remoteRefused
  repeat' split
  all_goals simp [h]

@[simp] theorem State.replyIn_canonical (p g : Nat) (m : Msg) (h : Canonical s.mem) : Canonical (s.replyIn p g m).mem := by
  unfold State.replyIn
  split
  · exact h
  · dsimp only
    split <;> simp [h]

@[simp] theorem State.completionIn_canonical (p g : Nat) (m : Msg) (h : Canonical s.mem) : Canonical (s.completionIn p g m).mem := by
  unfold State.completionIn
  split
  · exact h
  · dsimp only
    split <;> simp [h]

@[simp] theorem State.hopPart_mem (t e : Nat) (first : Bool) (bs : List Block) : (s.hopPart t e first bs).mem = s.mem := by
  simp [State.hopPart]

@[simp] theorem State.hopForeign_mem (t e : Nat) (first : Bool) (bs : List Block) : (s.hopForeign t e first bs).mem = s.mem := by
  simp [State.hopForeign]

@[simp] theorem State.chainIn_mem (p g : Nat) (m : Msg) : (s.chainIn p g m).mem = s.mem := by
  unfold State.chainIn
  split
  · rfl
  · dsimp only
    repeat' split
    all_goals simp

@[simp] theorem State.setBatch_mem (i : ScoreId) (svc : Nat) (b : Batch) : (s.setBatch i svc b).mem = s.mem := by simp [State.setBatch]
@[simp] theorem State.batchClaims_mem (i : ScoreId) (svc : Nat) : (s.batchClaims i svc).mem = s.mem := by simp [State.batchClaims]

@[simp] theorem State.closeBatch_canonical (i : ScoreId) (d : ServiceDecl) (h : Canonical s.mem) : Canonical (s.closeBatch i d).mem := by
  unfold State.closeBatch
  dsimp only
  split <;> simp [h]

@[simp] theorem State.noteBusy_mem (i : ScoreId) (svc : Nat) : (s.noteBusy i svc).mem = s.mem := by simp [State.noteBusy]

@[simp] theorem State.serviceIn_canonical (p g : Nat) (m : Msg) (h : Canonical s.mem) : Canonical (s.serviceIn p g m).mem := by
  unfold State.serviceIn
  split
  · exact h
  · dsimp only
    repeat' split
    all_goals simp [h]

@[simp] theorem State.batchDeadline_canonical (i : ScoreId) (svc : Nat) (h : Canonical s.mem) : Canonical (s.batchDeadline i svc).mem := by
  unfold State.batchDeadline
  split
  · exact h
  · dsimp only
    split <;> simp [h]

@[simp] theorem State.bufTake_mem (n k : Nat) : (s.bufTake n k).2.mem = s.mem := by
  induction k generalizing s with
  | zero => rfl
  | succ k ih => simp [State.bufTake, ih]

@[simp] theorem State.sendReply_mem (d : ServiceDecl) (y : DueReply) (bs : List Block) : (s.sendReply d y bs).mem = s.mem := by
  simp [State.sendReply]

@[simp] theorem State.replySend_mem (i : ScoreId) (svc : Nat) : (s.replySend i svc).mem = s.mem := by
  unfold State.replySend
  repeat' split
  all_goals simp

@[simp] theorem State.serviceReplyIn_canonical (p g : Nat) (m : Msg) (l : List (GddrFind × GddrFind)) (h : Canonical s.mem) :
    Canonical (s.serviceReplyIn p g m l).mem := by
  simp [State.serviceReplyIn, h]

end

end Sys2Proof.Machine
end

section
/-! SUPPORT. What images, the module's commands and its power states do to stage memory and GDDR7. -/

namespace Sys2Proof.Machine

section
variable (s : State)

/-! ### Images and the mailbox (R348, R437 to R443) -/

@[simp] theorem State.setSlot_mem (n : Nat) (v : FwSlot) : (s.setSlot n v).mem = s.mem := by simp [State.setSlot]
@[simp] theorem State.giveRecords_mem (s0 : State) (e : Nat) : (s0.giveRecords e).mem = s0.mem := by simp [State.giveRecords]

@[simp] theorem State.trimGiven_mem : s.trimGiven.mem = s.mem := by
  simp only [State.trimGiven, State.mem_ite, State.setFlag_mem, State.mem_mk, State.mem_eta, foldl_mem, State.giveRecords_mem, ite_self,
    implies_true]

@[simp] theorem State.firmwareReset_mem (slot : BitVec 2) : (s.firmwareReset slot).mem = s.mem := by
  simp only [State.firmwareReset, State.bump_mem, State.setFld_mem, State.mem_mk, State.mem_eta]

@[simp] theorem State.measureBoot_mem (loader : List Byte) : (s.measureBoot loader).mem = s.mem := by simp [State.measureBoot]
@[simp] theorem State.deriveAlias_mem : s.deriveAlias.mem = s.mem := by simp [State.deriveAlias]

@[simp] theorem State.handover_mem (slot : BitVec 2) (i : Image) (loader : List Byte) : (s.handover slot i loader).mem = s.mem := by
  simp [State.handover]

@[simp] theorem State.watchdog_mem : s.watchdog.mem = s.mem := by simp [State.watchdog]

@[simp] theorem State.confirm_mem : s.confirm.mem = s.mem := by
  unfold State.confirm
  dsimp only
  split
  · rfl
  · split
    · simp only [State.mem_ite, State.mem_mk, State.mem_eta, State.setFlag_mem, ite_self]
    · exact s.setFlag_mem _ _

@[simp] theorem State.fwStage_mem (k : Nat) (c : Taken) (img : Image) : (s.fwStage k c img).mem = s.mem := by simp [State.fwStage]

@[simp] theorem State.fwCommit_mem (k : Nat) (c : Taken) : (s.fwCommit k c).mem = s.mem := by
  unfold State.fwCommit
  dsimp only
  repeat' split
  all_goals simp

@[simp] theorem State.fwActivate_mem (k : Nat) (c : Taken) : (s.fwActivate k c).mem = s.mem := by simp [State.fwActivate]

@[simp] theorem State.doeRequest_mem (type : Byte) (bytes : List Byte) (abort : Bool) : (s.doeRequest type bytes abort).mem = s.mem := by
  unfold State.doeRequest
  dsimp only
  repeat' split
  all_goals simp

/-! ### Commands of the module -/

@[simp] theorem State.identify_mem (k : Nat) : (s.identify k).mem = s.mem := by simp [State.identify]

@[simp] theorem State.qualifyComb_mem (i c : Nat) (locked : Bool) (refs : List (Nat × Nat)) :
    (s.qualifyComb i c locked refs).mem = s.mem := by
  simp [State.qualifyComb]

@[simp] theorem State.loseUnserved_mem (i : Nat) : (s.loseUnserved i).mem = s.mem := by simp [State.loseUnserved]

@[simp] theorem State.qualify_mem (i : Nat) (locked : List Nat) (refs : List (Nat × Nat)) : (s.qualify i locked refs).mem = s.mem := by
  simp [State.qualify]

@[simp] theorem State.qualifiedBay_mem (b : Nat) : (s.qualifiedBay b).mem = s.mem := by simp [State.qualifiedBay]

@[simp] theorem State.requalify_mem (k : Nat) (c : Taken) (locked : List Nat) (refs : List (Nat × Nat)) :
    (s.requalify k c locked refs).mem = s.mem := by
  simp [State.requalify]

@[simp] theorem State.badPairOf_mem (k : Nat) (c : Taken) : (s.badPairOf k c).mem = s.mem := by simp [State.badPairOf]
@[simp] theorem State.guardClear_mem (k : Nat) (c : Taken) (seen : Nat) : (s.guardClear k c seen).mem = s.mem := by simp [State.guardClear]
@[simp] theorem State.trimRelease_mem (k : Nat) (c : Taken) : (s.trimRelease k c).mem = s.mem := by simp [State.trimRelease]

/-! ### Power states and power-up (R400 to R415, R474 to R478) -/

@[simp] theorem State.railAt_mem (r mv : Nat) : (s.railAt r mv).mem = s.mem := by simp [State.railAt]
@[simp] theorem State.railOn_mem (r : Nat) : (s.railOn r).mem = s.mem := by simp [State.railOn]
@[simp] theorem State.pmbusRefuse_mem (r cmd data : Nat) : (s.pmbusRefuse r cmd data).mem = s.mem := by simp [State.pmbusRefuse]
@[simp] theorem State.railOff_mem (r : Nat) : (s.railOff r).mem = s.mem := by simp [State.railOff]
@[simp] theorem State.railLower_mem (r mv : Nat) : (s.railLower r mv).mem = s.mem := by simp [State.railLower]
@[simp] theorem State.rcClocks_mem : s.rcClocks.mem = s.mem := by simp [State.rcClocks]
@[simp] theorem State.xoStart_mem : s.xoStart.mem = s.mem := by simp [State.xoStart]
@[simp] theorem State.pcieClock_mem : s.pcieClock.mem = s.mem := by simp [State.pcieClock]
@[simp] theorem State.pllClocks_mem : s.pllClocks.mem = s.mem := by simp [State.pllClocks]

@[simp] theorem State.answerNo_mem (no : Option Nat) (status : Nat) (vs : List Nat) : (s.answerNo no status vs).mem = s.mem := by
  unfold State.answerNo
  split <;> simp

@[simp] theorem State.abandon_mem (e : Entry) (status n : Nat) : (s.abandon e status n).mem = s.mem := by
  simp only [State.abandon, State.answerNo_mem, State.setFld_mem, State.mem_mk, State.mem_eta]

@[simp] theorem State.entryExpired_mem : s.entryExpired.mem = s.mem := by
  unfold State.entryExpired
  split <;> simp

@[simp] theorem State.parkBay_mem (b : Nat) : (s.parkBay b).mem = s.mem := by
  unfold State.parkBay
  dsimp only
  split <;> simp

@[simp] theorem State.parkLight_mem : s.parkLight.mem = s.mem := by simp [State.parkLight]
@[simp] theorem State.slowClocks_mem : s.slowClocks.mem = s.mem := by simp [State.slowClocks]
@[simp] theorem State.fullClocks_mem : s.fullClocks.mem = s.mem := by simp [State.fullClocks]
@[simp] theorem State.reached_mem (st : Nat) : (s.reached st).mem = s.mem := by simp [State.reached]

@[simp] theorem State.enterA2_mem : s.enterA2.mem = s.mem := by
  simp only [State.enterA2, State.reached_mem, State.mem_mk, State.mem_eta, State.setFld_mem, State.setFlag_mem, foldl_mem,
    State.railOff_mem, State.slowClocks_mem, State.parkBay_mem, State.parkLight_mem, implies_true]

@[simp] theorem State.drainReplies_canonical (h : Canonical s.mem) : Canonical s.drainReplies.mem := by
  unfold State.drainReplies
  refine foldl_canonical _ (fun t x g => ?_) h
  simp [g]

@[simp] theorem State.leaveForA3_canonical (h : Canonical s.mem) : Canonical s.leaveForA3.mem := by simp [State.leaveForA3, h]
@[simp] theorem State.enter_canonical (e : Entry) (h : Canonical s.mem) : Canonical (s.enter_ e).mem := by simp [State.enter_, h]

@[simp] theorem State.powerEntry_canonical (h : Canonical s.mem) : Canonical s.powerEntry.mem := by
  unfold State.powerEntry
  repeat' split
  all_goals simp [h]

@[simp] theorem State.startWake_mem (no : Option Nat) : (s.startWake no).mem = s.mem := by
  simp only [State.startWake, State.setFld_mem, State.mem_mk, State.mem_eta]

@[simp] theorem State.powerState_mem (k : Nat) (c : Taken) : (s.powerState k c).mem = s.mem := by
  unfold State.powerState
  dsimp only
  repeat' split
  all_goals simp

@[simp] theorem State.restoreBay_mem (img : SaveImage) (b : Nat) : (s.restoreBay img b).mem = s.mem := by simp [State.restoreBay]

@[simp] theorem State.breakBound_mem (b : Nat) : (s.breakBound b).mem = s.mem := by
  unfold State.breakBound
  dsimp only
  split
  · rfl
  · refine foldl_mem _ (fun t x => ?_) _
    split <;> simp

@[simp] theorem State.restoreFailed_mem (b : Nat) : (s.restoreFailed b).mem = s.mem := by simp [State.restoreFailed]
@[simp] theorem State.unparkBay_mem (b : Nat) : (s.unparkBay b).mem = s.mem := by simp [State.unparkBay]

@[simp] theorem State.wakeA2_mem (headerOk : Bool) (badBays : BitVec 8) : (s.wakeA2 headerOk badBays).mem = s.mem := by
  unfold State.wakeA2
  extract_lets ok failed s1 s2 s3 s4 x s5 s6 s7
  have restored : s2.mem = s1.mem := by
    refine foldl_mem _ (fun u b => ?_) _
    split
    · simp
    · split <;> simp
  have back : s5.mem = s.mem := by
    simp only [s5, s4, s3, restored, s1, State.mem_mk, State.mem_eta, State.mem_ite, State.setFlag_mem, State.setFld_mem, foldl_mem,
      State.unparkBay_mem, State.fullClocks_mem, State.railOn_mem, implies_true, ite_self]
  simp only [s7, s6, back, State.mem_ite, State.setFld_mem, State.forceAll_mem, State.returnBays_mem, foldl_mem, State.startLoops_mem,
    implies_true, ite_self]

@[simp] theorem State.wakeA3_mem : s.wakeA3.mem = s.mem := by
  simp only [State.wakeA3, State.mem_mk, State.mem_eta, State.setFld_mem, State.setFlag_mem, State.setBitOf_mem, State.forceAll_mem,
    State.pcieClock_mem, State.pllClocks_mem, State.rcClocks_mem, State.railOn_mem, State.xoStart_mem, foldl_mem, implies_true]

@[simp] theorem State.wake_mem (headerOk : Bool) (badBays : BitVec 8) : (s.wake headerOk badBays).mem = s.mem := by
  unfold State.wake
  split <;> simp

@[simp] theorem State.railFailed_mem (code : Nat) : (s.railFailed code).mem = s.mem := by
  unfold State.railFailed
  split <;> simp

@[simp] theorem State.wakeFailed_mem (code : Nat) : (s.wakeFailed code).mem = s.mem := by simp [State.wakeFailed]

@[simp] theorem State.wakeFailure_mem (code : Nat) : (s.wakeFailure code).mem = s.mem := by
  unfold State.wakeFailure
  split <;> simp

@[simp] theorem State.wakeRetry_mem : s.wakeRetry.mem = s.mem := by
  unfold State.wakeRetry
  repeat' split
  all_goals simp

@[simp] theorem State.lockComb_mem (i c : Nat) : (s.lockComb i c).mem = s.mem := by simp [State.lockComb]
@[simp] theorem State.lockSource_mem (i : Nat) : (s.lockSource i).mem = s.mem := by simp [State.lockSource]
@[simp] theorem State.askLoops_mem (e : Nat) : (s.askLoops e).mem = s.mem := by simp [State.askLoops]
@[simp] theorem State.firstQualify_mem (i : Nat) : (s.firstQualify i).mem = s.mem := by simp [State.firstQualify]
@[simp] theorem State.openBay_canonical (b : Nat) (h : Canonical s.mem) : Canonical (s.openBay b).mem := by simp [State.openBay, h]

@[simp] theorem State.stepDone_mem (n : Nat) : (s.stepDone n).mem = s.mem := by
  simp only [State.stepDone, State.setBitOf_mem, State.mem_mk, State.mem_eta]

@[simp] theorem State.stepEffect_canonical (n : Nat) (h : Canonical s.mem) : Canonical (s.stepEffect n).mem := by
  unfold State.stepEffect
  split
  case h_8 =>
    have opened := foldl_canonical (List.range 8) (fun u b g => u.openBay_canonical b g) h
    dsimp only
    split
    · exact opened
    · simpa only [State.setSat_mem] using opened
  all_goals simp [h]

@[simp] theorem State.powerUp_canonical (o : StepOutcome) (h : Canonical s.mem) : Canonical (s.powerUp o).mem := by
  unfold State.powerUp
  dsimp only
  repeat' split
  all_goals simp [h]

end

end Sys2Proof.Machine
end

section
/-! SUPPORT. What pins, the sideband and register writes do to stage memory and GDDR7. -/

namespace Sys2Proof.Machine

section
variable (s : State)

/-! ### Pins and links (R395, R468) -/

@[simp] theorem State.dropLoad_canonical (i : ScoreId) (h : Canonical s.mem) : Canonical (s.dropLoad i).mem := by
  unfold State.dropLoad
  refine State.releaseAll_canonical _ i ?_
  split
  · simpa only [State.complete_mem] using h
  · exact h

@[simp] theorem State.functionReset_canonical (h : Canonical s.mem) : Canonical s.functionReset.mem := by
  rw [State.functionReset, State.nextAnalysis_mem]
  exact foldl_canonical _ (fun u x g => u.dropLoad_canonical _ g) h

@[simp] theorem State.linkDown_mem : s.linkDown.mem = s.mem := by simp [State.linkDown]

@[simp] theorem State.linkRetry_mem (flit : Bool) (width : BitVec 3) (gen : BitVec 4) : (s.linkRetry flit width gen).mem = s.mem := by
  simp [State.linkRetry]

@[simp] theorem State.aer_mem : s.aer.mem = s.mem := by simp [State.aer]
@[simp] theorem State.unsupported_mem : s.unsupported.mem = s.mem := by simp [State.unsupported]

@[simp] theorem State.linkError_canonical (e : LinkErr) (h : Canonical s.mem) : Canonical (s.linkError e).mem := by
  unfold State.linkError
  split <;> simp [h]

@[simp] theorem State.beginPowerUp_mem : s.beginPowerUp.mem = s.mem := by simp [State.beginPowerUp]

@[simp] theorem State.sampleStraps_mem (compat : Bool) (nid : BitVec 12) : (s.sampleStraps compat nid).mem = s.mem := by
  simp [State.sampleStraps]

@[simp] theorem State.clrTrimLow_mem : s.clrTrimLow.mem = s.mem := by simp [State.clrTrimLow]

/-! ### Registers that act -/

@[simp] theorem State.serialRead_mem : s.serialRead.mem = s.mem := by simp [State.serialRead]

/-! ### The sideband -/

@[simp] theorem State.sbGive_mem (bs : List Byte) : (s.sbGive bs).mem = s.mem := by simp [State.sbGive]
@[simp] theorem State.pecError_mem : s.pecError.mem = s.mem := by simp [State.pecError]
@[simp] theorem State.regData_mem : s.regData.mem = s.mem := by simp [State.regData]
@[simp] theorem State.newNonce_mem : s.newNonce.mem = s.mem := by simp [State.newNonce]

@[simp] theorem State.rescue_mem (r : Rescue) (action : Byte) (f : State → State) (kept : ∀ t, (f t).mem = t.mem) :
    (s.rescue r action f).mem = s.mem := by
  unfold State.rescue
  split
  · rfl
  · split
    · rfl
    · simp
    · simp [kept]

@[simp] theorem State.rescue_canonical (r : Rescue) (action : Byte) (f : State → State)
    (kept : ∀ t, Canonical t.mem → Canonical (f t).mem) (h : Canonical s.mem) : Canonical (s.rescue r action f).mem := by
  unfold State.rescue
  split
  · exact h
  · split
    · exact h
    · simp [h]
    · simp [kept, h]

@[simp] theorem State.forceA3_canonical (h : Canonical s.mem) : Canonical s.forceA3.mem := by
  simp only [State.forceA3]
  split
  · exact h
  · split
    · simp only [State.mem_mk, State.mem_eta, State.setFld_mem]
      exact h
    · exact s.leaveForA3_canonical h

@[simp] theorem State.rescueReset_canonical (h : Canonical s.mem) : Canonical s.rescueReset.mem := by simp [State.rescueReset, h]

@[simp] theorem State.stepThree_mem : s.stepThree.mem = s.mem := by
  simp only [State.stepThree, State.mem_ite, State.setFld_mem, State.mem_mk, State.mem_eta, ite_self]

@[simp] theorem State.recover_mem : s.recover.mem = s.mem := by simp [State.recover]
@[simp] theorem State.retryWake_mem : s.retryWake.mem = s.mem := by simp [State.retryWake]
@[simp] theorem State.wakeMatch_mem : s.wakeMatch.mem = s.mem := by simp [State.wakeMatch]

/-! ### Writes to BAR0 (R9 to R13, R482) -/

@[simp] theorem State.commitPair_mem (off : Nat) (v : Word) : (s.commitPair off v).mem = s.mem := by simp [State.commitPair]

@[simp] theorem State.pairMismatch_mem (off : Nat) (armed : Option Word) (c : Word) : (s.pairMismatch off armed c).mem = s.mem := by
  unfold State.pairMismatch
  split <;> simp

@[simp] theorem State.armPair_mem (off : Nat) (v : Word) : (s.armPair off v).mem = s.mem := by simp [State.armPair]
@[simp] theorem State.closePair_mem (off : Nat) (c : Word) : (s.closePair off c).mem = s.mem := by simp [State.closePair]
@[simp] theorem State.writeGLB_mem (o : Nat) (v : Word) : (s.writeGLB o v).mem = s.mem := by simp [State.writeGLB]
@[simp] theorem State.writeMsix_mem (o : Nat) (v : Word) : (s.writeMsix o v).mem = s.mem := by simp [State.writeMsix]
@[simp] theorem State.writeCMD_mem (o : Nat) (v : Word) : (s.writeCMD o v).mem = s.mem := by simp [State.writeCMD]
@[simp] theorem State.writeCLK_mem (o : Nat) (v : Word) : (s.writeCLK o v).mem = s.mem := by simp [State.writeCLK]
@[simp] theorem State.writePWR_mem (o : Nat) (v : Word) : (s.writePWR o v).mem = s.mem := by simp [State.writePWR]
@[simp] theorem State.writeLSA_mem (o : Nat) (v : Word) : (s.writeLSA o v).mem = s.mem := by simp [State.writeLSA]
@[simp] theorem State.writeTRIM_mem (o : Nat) (v : Word) : (s.writeTRIM o v).mem = s.mem := by simp [State.writeTRIM]

@[simp] theorem State.writeBAY_canonical (b o : Nat) (v : Word) (h : Canonical s.mem) : Canonical (s.writeBAY b o v).mem := by
  simp [State.writeBAY, h]

@[simp] theorem State.writeTILE_mem (t o : Nat) (v : Word) : (s.writeTILE t o v).mem = s.mem := by simp [State.writeTILE]
@[simp] theorem State.writeLOOP_mem (e o : Nat) (v : Word) : (s.writeLOOP e o v).mem = s.mem := by simp [State.writeLOOP]

@[simp] theorem State.writeFAB_canonical (p o : Nat) (v : Word) (h : Canonical s.mem) : Canonical (s.writeFAB p o v).mem := by
  simp [State.writeFAB, h]

@[simp] theorem State.writeMEM_mem (o : Nat) (v : Word) : (s.writeMEM o v).mem = s.mem := by simp [State.writeMEM]
@[simp] theorem State.writeSTRM_mem (o : Nat) (v : Word) : (s.writeSTRM o v).mem = s.mem := by simp [State.writeSTRM]

@[simp] theorem State.writeWord_canonical (off : Nat) (v : Word) (h : Canonical s.mem) : Canonical (s.writeWord off v).mem := by
  simp [State.writeWord, h]

@[simp] theorem State.writeBar0_canonical (off width : Nat) (v : BitVec 64) (h : Canonical s.mem) :
    Canonical (s.writeBar0 off width v).mem := by
  simp [State.writeBar0, h]

end

end Sys2Proof.Machine
end

section
/-! SUPPORT. Stage memory and GDDR7 stay in canonical form through each command (O56). -/

namespace Sys2Proof.Machine

section

/-- The end of a command that always ends: `t` is the state it ends in. -/
theorem canonical_of_next {t u : State} (run : (.next t : Host.Outcome State Fault Refusal) = .next u) (ok : Canonical t.mem) :
    Canonical u.mem := by
  injection run with same
  exact same ▸ ok

/-- The end of a command that stops unless `c`. -/
theorem canonical_of_guarded {c : Prop} [Decidable c] {t u : State} {f : Fault}
    (run : (if c then .next t else .fault f : Host.Outcome State Fault Refusal) = .next u) (ok : Canonical t.mem) :
    Canonical u.mem := by
  split at run
  · exact canonical_of_next run ok
  · nomatch run

variable {s u : State} (h : Canonical s.mem)
include h

theorem exec_canonical (c : Instr) (run : exec c s = .next u) : Canonical u.mem := by
  cases c
  case nop | win | pld | psw | ssc | ccf | drn | smv | swt | evs | evw | loop | brt | mrk | endStrand =>
    exact canonical_of_next run (s.strandRow_canonical _ _ _ _ _ h)
  case stepBay | sequenceEnd | windowEnd | slotAccess | waitGraphCut | gddr7Retry | recalibrationSlot | telemetryRecord | emissionLockSet
      | trip | crossingReset | domainReset | powerUp | powerEntry | portTraining | codewordPair | messageSend | write | readReply
      | serviceRequest | batchDeadline | serviceReply | writeCompletion | groupRetrain | replyWrite | analysis
      | powerOnReset | standbyLoss | perstNAssert | functionLevelReset | linkError | apertureWrite | registerWrite | retrain
      | portDisable | tableRebuild | noLightReceived =>
    exact canonical_of_next run (by simp [h])
  case gddr7SpanClear =>
    refine canonical_of_next run ?_
    split
    · exact ⟨h.stage, s.gddr.openSpan_ok _ h.gddr⟩
    · exact h
  case modResetNAssert =>
    refine canonical_of_next run ?_
    split
    · simpa only [State.mem_mk, State.mem_eta, State.setFlag_mem] using s.moduleReset_canonical h
    · exact h
  case vretLoss => exact canonical_of_next run ⟨s.stage.keep_ok _ h.stage, h.gddr⟩
  case drainReadEnd t => exact canonical_of_next run (s.whenGranted_canonical _ _ (fun u g => u.drainReadEnd_canonical t g) h)
  case loadChunk k => exact canonical_of_next run (s.command_canonical _ _ _ (fun u c g => u.loadChunk_canonical k c g) h)
  case loadEnd k => exact canonical_of_next run (s.command_canonical _ _ _ (fun u c g => u.loadEnd_canonical k c g) h)
  case unload k => exact canonical_of_next run (s.command_canonical _ _ _ (fun u c g => u.unload_canonical k c g) h)
  case bind k => exact canonical_of_next run (s.command_canonical _ _ _ (fun u c g => u.bind_canonical k c g) h)
  case rescueForceA3 r => exact canonical_of_next run (s.rescue_canonical r _ _ (fun u g => u.forceA3_canonical g) h)
  case rescueModuleReset r => exact canonical_of_next run (s.rescue_canonical r _ _ (fun u g => u.rescueReset_canonical g) h)
  case boostStep | opticalCut | recalibrationSlotDue | handOverTimeout | followingFault =>
    exact canonical_of_guarded run (by simpa using h)
  case waitTimeout | trimOutputReturn | heaterCurrentFault =>
    refine canonical_of_next run ?_
    repeat' split
    all_goals simpa using h
  all_goals exact canonical_of_next run (by simpa using h)

end

/-- Settles O56: each command keeps canonical memory canonical, by the lemmas of its operations. -/
theorem memoryStaysCanonical : Obligations.MemoryStaysCanonical := by
  intro s u ok run
  rw [State.memOk_iff_canonical] at ok ⊢
  unfold step at run
  split at run
  · exact canonical_of_next run (by simpa [State.idle] using ok)
  · exact exec_canonical (by simpa using ok) _ run

end Sys2Proof.Machine
end

section
/-! SUPPORT. GDDR7_RETRY and GDDR7_SPAN_CLEAR: what an access made again keeps, and what a span that is cleared holds (R188, R225). -/

namespace Sys2Proof.Machine

/-! ### The retries due, and their count -/

/-- Between two states the retries due and the count of those made stand. -/
def State.RetriesStand (s u : State) : Prop := u.gddr.retry = s.gddr.retry ∧ u.fld MEM_GERR.retry = s.fld MEM_GERR.retry

theorem State.RetriesStand.refl (s : State) : s.RetriesStand s := ⟨rfl, rfl⟩
theorem State.RetriesStand.trans {s t u : State} (h : s.RetriesStand t) (k : t.RetriesStand u) : s.RetriesStand u :=
  ⟨k.1.trans h.1, k.2.trans h.2⟩
theorem State.RetriesStand.of_regs {s u : State} (retry : u.gddr.retry = s.gddr.retry) (regs : u.regs = s.regs) : s.RetriesStand u :=
  ⟨retry, State.fld_congr _ (State.reg_congr regs _)⟩

theorem State.StageMoved.retriesStand {s u : State} (h : s.StageMoved u) : s.RetriesStand u := by
  refine ⟨?_, State.fld_congr _ (h.reg (by decide))⟩
  obtain ⟨g, x, r, m, n, rfl, -⟩ := h
  rfl

/-- The counts of failed accesses stand beside the count of retries. -/
theorem State.RetriesStand.bump (s : State) (f : Fld) (off : f.off = MEM_GERR.retry.off) (le : f.lo ≤ f.hi) (below : f.hi < 16) :
    s.RetriesStand (s.bump f) :=
  ⟨rfl, s.fld_setFld_beside f MEM_GERR.retry _ off.symm le (by omega) (by decide) (.inr below)⟩

theorem State.RetriesStand.countMark (s : State) (r n : Nat) : s.RetriesStand (s.countMark r n) := .of_regs rfl rfl

theorem State.RetriesStand.putXfer (s : State) (q i : Nat) (x : Transfer) : s.RetriesStand (s.putXfer q i x) := .of_regs rfl rfl

theorem Gddr.listMark_retry (g : Gddr) (a : Nat) (m : Mark) : (g.listMark a m).retry = g.retry := by
  unfold Gddr.listMark
  cases m with
  | none => rfl
  | some r => exact apply_ite Gddr.retry _ _ _ |>.trans (ite_self _)

theorem State.RetriesStand.gddrWrite (s : State) (a : Nat) (x : Block) : s.RetriesStand (s.gddrWrite a x) := by
  refine .of_regs ((Gddr.listMark_retry _ a x.mark).trans ?_) rfl
  exact (apply_ite Gddr.retry _ _ _).trans (ite_self _)

/-- A read that is not retried any more counts what it finds, and nothing else. -/
theorem State.RetriesStand.gddrRead (s : State) (a : Nat) (find : GddrFind) : s.RetriesStand (s.gddrRead a find).2 := by
  unfold State.gddrRead
  extract_lets data bad m s1 s2
  split
  · exact .refl s
  have failed : s.RetriesStand s1 := by
    unfold s1
    split
    · exact .bump s MEM_GERR.crcf rfl (by decide) (by decide)
    · split
      · exact .bump s MEM_GERR.eccf rfl (by decide) (by decide)
      · exact .refl s
  have marked : s1.RetriesStand s2 := by
    unfold s2
    split
    · exact .countMark s1 _ 1
    · exact .refl s1
  exact failed.trans marked

theorem State.RetriesStand.gddrWriteLast (s : State) (a : Nat) (b : Block) (find : GddrFind) :
    s.RetriesStand (s.gddrWriteLast a b find) := by
  unfold State.gddrWriteLast
  extract_lets s1
  split
  · have failed : s.RetriesStand s1 := .bump s MEM_GERR.crcf rfl (by decide) (by decide)
    have marked : s1.RetriesStand (if b.mark.isNone then s1.countMark 9 else s1) := by
      split
      · exact .countMark s1 9 1
      · exact .refl s1
    exact (failed.trans marked).trans (.gddrWrite _ a _)
  · exact .gddrWrite s a b

theorem State.RetriesStand.bufArrive (s : State) (n res : Nat) (b : Block) : s.RetriesStand (s.bufArrive n res b) := by
  unfold State.bufArrive
  extract_lets v s1 y
  refine State.RetriesStand.trans (t := s1) (s.putBlock_moves 0xFFFF _ b).retriesStand ?_
  split
  · exact .of_regs rfl rfl
  · exact .of_regs rfl rfl

theorem State.RetriesStand.mapWriteBlock (s : State) (a : Nat) (x : Block) (i : ScoreId) (q : Nat) :
    s.RetriesStand (s.mapWriteBlock a x i q) := by
  unfold State.mapWriteBlock
  extract_lets t e y
  split
  · exact .of_regs (congrArg Gddr.retry (s.setTile_gddr t _)) (s.setTile_regs t _)
  · exact (s.droppedWrite_moves q i a).retriesStand

theorem State.RetriesStand.stageWrite (s : State) (a : Nat) (x : Block) (i : ScoreId) (q : Nat) :
    s.RetriesStand (s.stageWrite a x i q) := by
  unfold State.stageWrite
  split
  · exact (s.putBlock_moves q a x).retriesStand
  · split
    · exact .mapWriteBlock s a x i q
    · exact (s.droppedWrite_moves q i a).retriesStand

/-- A block delivered, wherever it goes, makes no retry due. -/
theorem State.RetriesStand.deliverBlock (s : State) (q : Nat) (x : Transfer) (lin : Nat) (b : Block) :
    s.RetriesStand (s.deliverBlock q x lin b) := by
  unfold State.deliverBlock
  split
  · exact foldl_does State.RetriesStand .refl (fun _ _ _ => .trans) _ 
      (fun u t => .of_regs (congrArg Gddr.retry (u.modTile_gddr t _)) (u.modTile_regs t _)) x.tiles s
  · split
    · exact .gddrWrite s _ b
    · split
      · exact .bufArrive s _ 1 b
      · exact .stageWrite s _ b _ q

/-! ### GDDR7_RETRY (R188) -/

/-- The state in which a retry of `blk` is taken from those due, and counted. -/
def State.retried (s : State) (blk : Nat) : State :=
  State.bump { s with gddr := { s.gddr with retry := s.gddr.retry.eraseP (·.1 == blk) } } MEM_GERR.retry

theorem State.retried_count (s : State) (blk : Nat) :
    (s.retried blk).fld MEM_GERR.retry = min (s.fld MEM_GERR.retry + 1) 65535 := by
  unfold State.retried
  rw [State.fld_bump_same _ MEM_GERR.retry 1 (by decide) (by decide)]
  rfl

section
variable {s : State} {blk n q : Nat} {w : Option Block} (find : GddrFind)

theorem State.gddrRetry_none (none_ : s.gddr.retry.find? (·.1 == blk) = none) : s.gddrRetry blk find = s := by
  unfold State.gddrRetry
  rw [none_]

section
variable (due : s.gddr.retry.find? (·.1 == blk) = some (n, q, w))
include due

theorem State.gddrRetry_busy (busy : s.retryBusy q w = true) : s.gddrRetry blk find = s := by
  unfold State.gddrRetry
  rw [due]
  exact if_pos busy

variable (free : s.retryBusy q w = false)
include free

/-- An access made again is one retry less due and one more counted, whatever the access finds. -/
theorem State.gddrRetry_stands : (s.retried blk).RetriesStand (s.gddrRetry blk find) := by
  unfold State.gddrRetry
  rw [due]
  dsimp only
  rw [free, if_neg Bool.false_ne_true]
  cases w with
  | none =>
    dsimp only
    split
    · exact .refl _
    · split
      · exact .refl _
      · next x _ =>
        have read : (s.retried blk).RetriesStand ((s.retried blk).gddrRead (64 * blk) find).2 := .gddrRead _ _ find
        exact (read.trans (.deliverBlock _ q x x.next _)).trans (.putXfer _ q _ _)
  | some b =>
    have written : (s.retried blk).RetriesStand ((s.retried blk).gddrWriteLast (64 * blk) b find) := .gddrWriteLast _ _ b find
    dsimp only
    split
    · exact written
    · split
      · exact written
      · exact written.trans (.putXfer _ q _ _)

end

/-- A write made again leaves in GDDR7 what its last attempt leaves there. -/
theorem State.gddrRetry_gddr {b : Block} (due : s.gddr.retry.find? (·.1 == blk) = some (n, q, some b)) :
    (s.gddrRetry blk find).gddr = ((s.retried blk).gddrWriteLast (64 * blk) b find).gddr := by
  have free : s.retryBusy q (some b) = false := rfl
  unfold State.gddrRetry
  rw [due]
  dsimp only
  rw [free, if_neg Bool.false_ne_true]
  split
  · rfl
  · split
    · rfl
    · rfl

end

theorem State.gddrWriteLast_good (s : State) (a : Nat) (b : Block) {find : GddrFind} (good : find.crcBad = false) :
    s.gddrWriteLast a b find = s.gddrWrite a b := by
  unfold State.gddrWriteLast
  rw [good, if_neg Bool.false_ne_true]

/-! ### GDDR7_SPAN_CLEAR (R225) -/

theorem Gddr.openSpan_byte (g : Gddr) (k a : Nat) :
    Tab.get dZero (g.openSpan k).bytes a = if spanOf a = k then 0 else Tab.get dZero g.bytes a := by
  refine (Tab.get_filter dZero g.bytes (fun n => spanOf n != k) a).trans ?_
  by_cases same : spanOf a = k
  · rw [if_pos same, if_neg (by simp [same])]
    rfl
  · rw [if_neg same, if_pos (by simp [same])]

theorem Gddr.openSpan_opened (g : Gddr) (k : Nat) : Tab.get dFalse (g.openSpan k).opened k = true := Tab.get_set_same _ _ k true

/-! ### The two commands together -/

/-- Settles O16: an access made again by `State.gddrRetry_stands` and `State.gddrRetry_gddr`, a span by `Gddr.openSpan_byte`. -/
theorem gddr7RetriesAndClears : Obligations.Gddr7RetriesAndClears := by
  intro s find
  refine ⟨fun blk n q w due => ⟨fun free => ?retry, fun busy => ?busy⟩, fun blk none_ => ?none_,
    fun k => ⟨fun marked => ?marked, fun plain => ?plain⟩⟩
  case retry =>
    obtain ⟨retries, count⟩ := State.gddrRetry_stands find due free
    refine ⟨_, rfl, retries, count.trans (s.retried_count _), fun b write good i inside => ?_⟩
    subst write
    rw [State.gByte, State.gddrRetry_gddr find due, State.gddrWriteLast_good _ _ b good]
    exact State.gddrWrite_byte _ _ b inside
  case busy => exact congrArg Host.Outcome.next (State.gddrRetry_busy find due busy)
  case none_ => exact congrArg Host.Outcome.next (State.gddrRetry_none find none_)
  case marked =>
    refine ⟨{ s with gddr := s.gddr.openSpan k.toNat }, congrArg Host.Outcome.next (if_pos marked), ?_, fun a inside => ?_,
      fun a outside => ?_⟩
    · rw [State.spanZero, Gddr.openSpan_opened, Bool.not_true, Bool.and_false]
    · exact (s.gddr.openSpan_byte _ a).trans (if_pos inside)
    · exact (s.gddr.openSpan_byte _ a).trans (if_neg outside)
  case plain => exact congrArg Host.Outcome.next (if_neg (by rw [plain]; exact Bool.false_ne_true))

end Sys2Proof.Machine
end

section
/-! SUPPORT. Services: the requests of an open batch, its end, and the replies that go back (R228 to R230). -/

namespace Sys2Proof.Machine

/-! ### What leaves the batches of the scores -/

/-- Between two states no score's batches changed. -/
def State.BatchesStand (s u : State) : Prop := ∀ k, (u.score k).batches = (s.score k).batches

theorem State.BatchesStand.refl (s : State) : s.BatchesStand s := fun _ => rfl
theorem State.BatchesStand.trans {s t u : State} (h : s.BatchesStand t) (k : t.BatchesStand u) : s.BatchesStand u :=
  fun i => (k i).trans (h i)
theorem State.BatchesStand.ite {s u v : State} {c : Prop} [Decidable c] (h : s.BatchesStand u) (k : s.BatchesStand v) :
    s.BatchesStand (if c then u else v) := iteInduction (motive := s.BatchesStand) (fun _ => h) fun _ => k
theorem State.BatchesStand.foldl {α : Type} (f : State → α → State) (step : ∀ u x, State.BatchesStand u (f u x)) (l : List α) (s : State) :
    s.BatchesStand (l.foldl f s) := foldl_does State.BatchesStand .refl (fun _ _ _ => .trans) f step l s
theorem State.BatchesStand.of_scores {s u : State} (h : u.scores = s.scores) : s.BatchesStand u := fun k => by
  rw [State.score_congr h]

/-- A score whose batches stand may change in anything else. -/
theorem State.BatchesStand.setScore (s : State) (i : ScoreId) (x : Score) (h : x.batches = (s.score i).batches) :
    s.BatchesStand (s.setScore i x) := fun k => by
  rw [s.score_setScore]
  split
  · next same => rw [same, h]
  · rfl

theorem State.BatchesStand.raise (s : State) (f : FaultRec) : s.BatchesStand (s.raise f) := by
  obtain ⟨x, g, m, n, raised, -, -⟩ := s.raise_spec f
  rw [raised]
  exact .of_scores rfl

theorem State.BatchesStand.sendMsix (s : State) (v : Nat) : s.BatchesStand (s.sendMsix v) := by
  obtain ⟨m, n, sent⟩ := s.sendMsix_spec v
  rw [sent]
  exact .of_scores rfl

theorem State.BatchesStand.promiseBreak (s : State) (i : ScoreId) (n cause : Nat) : s.BatchesStand (s.promiseBreak i n cause) := by
  unfold State.promiseBreak State.setPromiseState
  extract_lets c p s1
  have noted : s.BatchesStand s1 := .setScore s i _ rfl
  exact .ite (.refl s) (.ite (.refl s) (noted.trans ((BatchesStand.raise s1 _).trans (.sendMsix _ 3))))

theorem State.BatchesStand.claimTrigger (s : State) (i : ScoreId) (n : Nat) : s.BatchesStand (s.claimTrigger i n) :=
  .setScore s i _ rfl

theorem State.BatchesStand.claimComplete (s : State) (i : ScoreId) (n : Nat) : s.BatchesStand (s.claimComplete i n) := by
  unfold State.claimComplete
  extract_lets p
  split
  · exact .refl s
  · extract_lets lat miss p' s1
    have counted : s.BatchesStand s1 := .setScore s i _ rfl
    exact .ite (counted.trans (.promiseBreak s1 i n _)) counted

theorem State.BatchesStand.claimsOf (s : State) (b : Nat) (i : ScoreId) (ev : Nat) : s.BatchesStand (s.claimsOf b i ev) := by
  refine .foldl _ (fun u x => ?_) _ s
  extract_lets here s1
  have completed : u.BatchesStand s1 := .ite (.claimComplete u i x.1) (.refl u)
  exact .ite (completed.trans (.claimTrigger s1 i x.1)) completed

theorem State.BatchesStand.setCounter (s : State) (b : Nat) (i : ScoreId) (ev v : Nat) : s.BatchesStand (s.setCounter b i ev v) :=
  .ite (.of_scores (s.modBay_scores b _)) (.setScore s i _ rfl)

theorem State.BatchesStand.signal (s : State) (b : Nat) (i : ScoreId) (ev inc unit pc : Nat) :
    s.BatchesStand (s.signal b i ev inc unit pc) := by
  unfold State.signal
  extract_lets old s1 s2 v s3
  have counted : s.BatchesStand s1 := .setCounter s b i ev _
  have raised : s1.BatchesStand s2 := .ite (.raise s1 _) (.refl s1)
  have notified : s2.BatchesStand s3 := .ite (.sendMsix s2 _) (.refl s2)
  exact counted.trans (raised.trans (notified.trans (.claimsOf s3 b i ev)))

theorem State.BatchesStand.batchClaims (s : State) (i : ScoreId) (svc : Nat) : s.BatchesStand (s.batchClaims i svc) :=
  .foldl _ (fun u _ => .ite (.claimTrigger u i _) (.refl u)) _ s

theorem State.BatchesStand.batch {s u : State} (h : s.BatchesStand u) (i : ScoreId) (svc : Nat) :
    (u.score i).batch svc = (s.score i).batch svc := by
  unfold Score.batch
  rw [h i]

theorem State.batch_setBatch (s : State) (i : ScoreId) (svc : Nat) (b : Batch) : ((s.setBatch i svc b).score i).batch svc = b := by
  unfold State.setBatch Score.batch
  rw [State.score_setScore_same]
  exact Tab.get_set_same dBatch _ svc b

/-! ### A request that arrives (R228, R230) -/

/-- What the request header that opens a message's blocks spells: partner, service, tag and payload length (R230). -/
abbrev requestOf (l : List Block) : BitVec 12 × BitVec 4 × BitVec 32 × Nat := headerOf (l.headD (zeroBlock none))

/-- The status of the request that a message carries. -/
abbrev State.answerTo (s : State) (p g : Nat) (m : Msg) : Nat := s.serviceStatus (s.group p g) m (requestOf m.blocks).2.2.2

theorem Batch.take_new {b : Batch} {partner : BitVec 12} {group : Nat} {l : List Block} (tick : Nat)
    (h : b.partOf partner (requestOf l).2.2.1 group = none) :
    b.take tick partner group l =
      { b with
        reqs := b.reqs ++ [⟨partner, (requestOf l).2.2.1, group, (requestOf l).2.2.2, l.drop 1⟩]
        since := some (b.since.getD tick) } := by
  unfold Batch.take
  dsimp only
  rw [h]

theorem Batch.take_part {b : Batch} {partner : BitVec 12} {group : Nat} {l : List Block} {i : Nat} (tick : Nat)
    (h : b.partOf partner (requestOf l).2.2.1 group = some i) :
    b.take tick partner group l =
      { b with
        reqs := b.reqs.modify i fun r => { r with blocks := r.blocks ++ l.drop 1 }
        since := some (b.since.getD tick) } := by
  unfold Batch.take
  dsimp only
  rw [h]

theorem State.service_svc {s : State} {i : ScoreId} {svc : Nat} {d : ServiceDecl} (h : s.service i svc = some d) : d.svc = svc := by
  unfold State.service at h
  split at h
  · exact beq_iff_eq.1 (List.find?_some h :)
  · cases h

/-- A request is accepted only into a batch with room. -/
theorem State.reqs_lt_of_serviceStatus_eq_zero {s : State} {f : FabGroup} {m : Msg} {len : Nat} {d : ServiceDecl}
    (h : s.serviceStatus f m len = 0) (serves : s.service f.score m.svc.toNat = some d) :
    ((s.score f.score).batch d.svc).reqs.length < d.batch := by
  unfold State.serviceStatus at h
  rw [serves] at h
  dsimp only at h
  split_ifs at h
  omega

theorem State.noteBusy_fab (s : State) (i : ScoreId) (svc : Nat) : (s.noteBusy i svc).fab = s.fab :=
  foldl_does (fun s u => u.fab = s.fab) (fun _ => rfl) (fun _ _ _ h k => k.trans h) _
    (fun _ _ => by split <;> rfl) _ s

section
variable (s : State) (p g : Nat) (m : Msg)

theorem State.serviceIn_idle (h : s.applies p g m 5 = false) : s.serviceIn p g m = s := by
  unfold State.serviceIn
  rw [h]
  rfl

variable {s p g m} (first : s.applies p g m 5 = true)
include first

/-- A request that is turned away is answered with its header and its status. -/
theorem State.serviceIn_answers (bad : s.answerTo p g m ≠ 0)
    (new : s.answerTo p g m = 1 →
      ((s.score (s.group p g).score).batch m.svc.toNat).partOf m.src (requestOf m.blocks).2.2.1 (4 * p + g) = none) :
    s.Answers (s.serviceIn p g m) p g m 6 0 [requestHeader m.src m.svc (requestOf m.blocks).2.2.1
      (s.answerTo p g m) 0] := by
  unfold State.serviceIn
  rw [first, Bool.not_true, if_neg Bool.false_ne_true]
  extract_lets f s1 h part st
  have away : st ≠ 0 ∧ !(st = 1 ∧ part.isSome) := ⟨bad, by
    simp only [Bool.not_eq_true', decide_eq_false_iff_not, not_and]
    intro busy some_part
    rw [show part = none from new busy] at some_part
    cases some_part⟩
  rw [if_pos away]
  have noted : (if st = 1 then s1.noteBusy f.score m.svc.toNat else s1).fab = s1.fab := by
    split
    · exact s1.noteBusy_fab _ _
    · rfl
  obtain ⟨x, group, holds⟩ := State.answer_group (s := if st = 1 then s1.noteBusy f.score m.svc.toNat else s1) p g m 6 0 m.svc
    [requestHeader m.src m.svc h.2.2.1 st 0]
  refine ⟨x, ?_, holds⟩
  rw [group, State.group_congr noted]
  exact congrArg (· ++ [x]) (State.applied_out p g m (s := s) rfl)

/-- A request that is accepted joins the open batch; one that does not fill it leaves it open. -/
theorem State.serviceIn_joins {d : ServiceDecl}
    (ok : s.answerTo p g m = 0)
    (serves : s.service (s.group p g).score m.svc.toNat = some d)
    (open_ : (((s.score (s.group p g).score).batch d.svc).take s.tick m.src (4 * p + g) m.blocks).reqs.length ≠ d.batch) :
    s.serviceIn p g m = (s.applied p g m).setBatch (s.group p g).score d.svc
      (((s.score (s.group p g).score).batch d.svc).take s.tick m.src (4 * p + g) m.blocks) := by
  unfold State.serviceIn
  rw [first, Bool.not_true, if_neg Bool.false_ne_true]
  extract_lets f s1 h part st
  rw [if_neg fun away => away.1 ok, show s1.service f.score m.svc.toNat = some d from serves]
  exact if_neg fun full => open_ full.1

end

/-! ### The end of a batch (R228, R229) -/

/-- A batch has room in buffer `n`, and the buffer's bank a remote slot of the service's class. -/
def State.BatchFits (s : State) (n : Nat) (d : ServiceDecl) (b : Batch) : Prop :=
  (s.sbuf n).present + (s.sbuf n).reserved + ((batchHeader d b).length + (batchSlots d b).length) ≤ (s.sbuf n).blocks ∧
    s.slotFor (s.sbuf n).base remoteKinds d.cls = true

/-- The reply slots of a batch: one for each request, and unfilled ones up to its size. -/
def dueSlots (d : ServiceDecl) (b : Batch) : List DueReply :=
  (List.range d.batch).map fun k => match b.reqs[k]? with
    | some r => DueReply.mk true r.partner r.tag r.group
    | none => DueReply.mk false 0 0 0

/-- A state with a batch put into buffer `n`, and an empty one open under the next number. -/
def State.batchClosed (s : State) (i : ScoreId) (d : ServiceDecl) (n : Nat) : State :=
  let b := (s.score i).batch d.svc
  (s.bufPut n (batchHeader d b ++ batchSlots d b)).setBatch i d.svc ⟨[], none, b.bseq + 1, b.due ++ dueSlots d b⟩

section
variable {s : State} {i : ScoreId} {d : ServiceDecl} {n : Nat} (buf : s.serviceBuf i d d.reqBuf = some n)
include buf

theorem State.closeBatch_eq :
    s.closeBatch i d =
      if (s.sbuf n).blocks < (s.sbuf n).present + (s.sbuf n).reserved +
          (batchHeader d ((s.score i).batch d.svc) ++ batchSlots d ((s.score i).batch d.svc)).length ||
          !s.slotFor (s.sbuf n).base remoteKinds d.cls then s
      else ((s.batchClosed i d n).batchClaims i d.svc).signal 0 i d.counter 1 0xFFFF 0 := by
  unfold State.closeBatch
  extract_lets b l
  rw [buf]
  rfl

theorem State.closeBatch_waits (h : ¬ s.BatchFits n d ((s.score i).batch d.svc)) : s.closeBatch i d = s := by
  rw [State.closeBatch_eq buf, List.length_append]
  refine if_pos ?_
  by_contra fits
  rw [Bool.or_eq_true, decide_eq_true_eq, Bool.not_eq_true', not_or, Nat.not_lt, Bool.not_eq_false] at fits
  exact h fits

/-- A batch that closes leaves an empty one under the next number, and its reply slots due. -/
theorem State.closeBatch_batch (h : s.BatchFits n d ((s.score i).batch d.svc)) :
    ((s.closeBatch i d).score i).batch d.svc =
      ⟨[], none, ((s.score i).batch d.svc).bseq + 1, ((s.score i).batch d.svc).due ++ dueSlots d ((s.score i).batch d.svc)⟩ := by
  rw [State.closeBatch_eq buf, List.length_append, if_neg]
  · have counted : (s.batchClosed i d n).BatchesStand (((s.batchClosed i d n).batchClaims i d.svc).signal 0 i d.counter 1 0xFFFF 0) :=
      (State.BatchesStand.batchClaims _ i d.svc).trans (.signal _ 0 i _ 1 0xFFFF 0)
    exact (counted.batch i d.svc).trans (State.batch_setBatch _ i d.svc _)
  · rw [Bool.or_eq_true, decide_eq_true_eq, Bool.not_eq_true', not_or, Nat.not_lt, Bool.not_eq_false]
    exact h

end

section
variable {s : State} {i : ScoreId} {svc : Nat}

theorem State.batchDeadline_unserved (h : s.service i svc = none) : s.batchDeadline i svc = s := by
  unfold State.batchDeadline
  rw [h]

variable {d : ServiceDecl} (serves : s.service i svc = some d)
include serves

theorem State.batchDeadline_closes {t : Nat} (since : ((s.score i).batch d.svc).since = some t)
    (due : t + d.deadline ≤ s.tick ∨ ((s.score i).batch d.svc).reqs.length = d.batch) : s.batchDeadline i svc = s.closeBatch i d := by
  unfold State.batchDeadline
  rw [serves]
  dsimp only
  rw [since]
  exact if_pos due

theorem State.batchDeadline_early (h : ((s.score i).batch d.svc).since = none ∨ ∃ t, ((s.score i).batch d.svc).since = some t ∧
    s.tick < t + d.deadline ∧ ((s.score i).batch d.svc).reqs.length ≠ d.batch) : s.batchDeadline i svc = s := by
  unfold State.batchDeadline
  rw [serves]
  dsimp only
  rcases h with empty | ⟨t, since, early, some_room⟩
  · rw [empty]
  · rw [since]
    exact if_neg (not_or.2 ⟨Nat.not_le.2 early, some_room⟩)

end

/-! ### Replies (R230) -/

theorem length_chunks {α : Type} (n k : Nat) (l : List α) : (chunks n k l).length = k := by
  induction k generalizing l with
  | zero => rfl
  | succ k ih => rw [chunks, List.length_cons, ih]

/-- The pieces of a list that fits in them make it up. -/
theorem flatten_chunks {α : Type} (n k : Nat) (l : List α) (h : l.length ≤ n * k) : (chunks n k l).flatten = l := by
  induction k generalizing l with
  | zero => exact (List.eq_nil_of_length_eq_zero (Nat.le_zero.1 h)).symm
  | succ k ih =>
    rw [chunks, List.flatten_cons, ih (l.drop n) (by rw [List.length_drop]; rw [Nat.mul_succ] at h; omega), List.take_append_drop]

/-- Blocks taken from a stream buffer: as many as asked for, and nothing of the scores or the fabric with them. -/
theorem State.bufTake_spec (s : State) (n k : Nat) :
    (s.bufTake n k).1.length = k ∧ (s.bufTake n k).2.scores = s.scores ∧ (s.bufTake n k).2.fab = s.fab := by
  induction k generalizing s with
  | zero => exact ⟨rfl, rfl, rfl⟩
  | succ k ih =>
    unfold State.bufTake
    extract_lets v r q
    obtain ⟨length, scores, fab⟩ := ih (r.2.setSbuf n { v with rd := (v.rd + 1) % v.blocks, present := v.present - 1 })
    obtain ⟨x, y, counts⟩ : s.CountsMoved r.2 := s.countRead_counts _
    refine ⟨congrArg (· + 1) length, scores.trans ?_, fab.trans ?_⟩
    · rw [counts]
      rfl
    · rw [counts]
      rfl

/-- A message that carries a piece of a reply behind its request header. -/
def DueReply.CarriedBy (y : DueReply) (svc len : Nat) (c : List Block) (x : Msg) : Prop :=
  x.type = 6 ∧ x.tag = y.tag ∧ x.dst = y.partner ∧ x.blocks = requestHeader y.partner (BitVec.ofNat 4 svc) y.tag 0 len :: c

theorem State.sendReply_scores (s : State) (d : ServiceDecl) (y : DueReply) (bs : List Block) : (s.sendReply d y bs).scores = s.scores :=
  foldl_does (fun s u => u.scores = s.scores) (fun _ => rfl) (fun _ _ _ h k => k.trans h) _ (fun u _ => u.setGroup_scores _ _ _) _ s

/-- A reply goes out in one message for each of its pieces, in their order. -/
theorem State.sendReply_out (s : State) (d : ServiceDecl) (y : DueReply) (bs : List Block) :
    ∃ l, ((s.sendReply d y bs).group (y.group / 4) (y.group % 4)).out = (s.group (y.group / 4) (y.group % 4)).out ++ l ∧
      List.Forall₂ (y.CarriedBy d.svc bs.length) (chunks 62 ((bs.length + 61) / 62) bs) l := by
  unfold State.sendReply
  extract_lets p g
  generalize chunks 62 ((bs.length + 61) / 62) bs = cs
  induction cs generalizing s with
  | nil => exact ⟨[], (List.append_nil _).symm, .nil⟩
  | cons c cs ih =>
    rw [List.foldl_cons]
    extract_lets f l m
    obtain ⟨rest, out, carried⟩ := ih (s.setGroup p g { f with out := f.out ++ [m] })
    rw [State.group_setGroup_same] at out
    exact ⟨m :: rest, out.trans (List.append_assoc _ [m] rest), .cons ⟨rfl, rfl, rfl, rfl⟩ carried⟩

/-- Messages that carry a list of pieces carry, behind their headers, what the pieces hold. -/
theorem DueReply.flatMap_carried {y : DueReply} {svc len : Nat} {cs : List (List Block)} {l : List Msg}
    (h : List.Forall₂ (y.CarriedBy svc len) cs l) : l.flatMap (·.blocks.drop 1) = cs.flatten := by
  induction h with
  | nil => rfl
  | cons first _ ih =>
    obtain ⟨-, -, -, blocks⟩ := first
    rw [List.flatMap_cons, List.flatten_cons, ih, blocks]
    rfl

theorem DueReply.header_carried {y : DueReply} {svc len : Nat} {cs : List (List Block)} {l : List Msg}
    (h : List.Forall₂ (y.CarriedBy svc len) cs l) :
    ∀ x ∈ l, x.type = 6 ∧ x.tag = y.tag ∧ x.dst = y.partner ∧
      x.blocks.head? = some (requestHeader y.partner (BitVec.ofNat 4 svc) y.tag 0 len) := by
  induction h with
  | nil => exact fun x m => absurd m List.not_mem_nil
  | cons first _ ih =>
    obtain ⟨type, tag, dst, blocks⟩ := first
    exact List.forall_mem_cons.2 ⟨⟨type, tag, dst, by rw [blocks]; rfl⟩, ih⟩

section
variable {s : State} {i : ScoreId} {svc : Nat}

theorem State.replySend_unserved (h : s.service i svc = none) : s.replySend i svc = s := by
  unfold State.replySend
  rw [h]

variable {d : ServiceDecl} (serves : s.service i svc = some d)
include serves

theorem State.replySend_nothing (none_ : ((s.score i).batch d.svc).due = []) : s.replySend i svc = s := by
  unfold State.replySend
  rw [serves]
  dsimp only
  rw [none_]

variable {y : DueReply} {rest : List DueReply} {n : Nat} (due : ((s.score i).batch d.svc).due = y :: rest)
  (buf : s.serviceBuf i d d.repBuf = some n)
include due buf

theorem State.replySend_waits (h : (s.sbuf n).present < d.slot) : s.replySend i svc = s := by
  unfold State.replySend
  rw [serves]
  dsimp only
  rw [due, buf]
  exact if_pos h

/-- A reply slot that is written is due no more, and goes to its partner if a request stands behind it. -/
theorem State.replySend_sends (written : d.slot ≤ (s.sbuf n).present) :
    (((s.replySend i svc).score i).batch d.svc).due = rest ∧
      (y.filled = true → ∃ l, ((s.replySend i svc).group (y.group / 4) (y.group % 4)).out =
        (s.group (y.group / 4) (y.group % 4)).out ++ l ∧ l.length = (d.slot + 61) / 62 ∧
          (l.flatMap (·.blocks.drop 1)).length = d.slot ∧ ∀ x ∈ l, x.type = 6 ∧ x.tag = y.tag ∧ x.dst = y.partner ∧
            x.blocks.head? = some (requestHeader y.partner (BitVec.ofNat 4 d.svc) y.tag 0 d.slot)) ∧
      (y.filled = false → (s.replySend i svc).fab = s.fab) := by
  unfold State.replySend
  rw [serves]
  dsimp only
  rw [due, buf]
  dsimp only
  rw [if_neg (Nat.not_lt.2 written)]
  obtain ⟨length, -, fab⟩ := s.bufTake_spec n d.slot
  generalize s.bufTake n d.slot = r at *
  have left : (((r.2.setBatch i d.svc { (r.2.score i).batch d.svc with due := rest }).score i).batch d.svc).due = rest := by
    rw [State.batch_setBatch]
  have same : (r.2.setBatch i d.svc { (r.2.score i).batch d.svc with due := rest }).fab = s.fab := fab
  generalize r.2.setBatch i d.svc { (r.2.score i).batch d.svc with due := rest } = t at *
  cases y.filled with
  | false =>
    rw [if_neg Bool.false_ne_true]
    exact ⟨left, nofun, fun _ => same⟩
  | true =>
    rw [if_pos rfl, State.score_congr (t.sendReply_scores d y r.1)]
    refine ⟨left, fun _ => ?_, nofun⟩
    obtain ⟨l, out, carried⟩ := t.sendReply_out d y r.1
    rw [State.group_congr same] at out
    rw [length] at carried
    refine ⟨l, out, ?_, ?_, DueReply.header_carried carried⟩
    · rw [← carried.length_eq, length_chunks]
    · rw [DueReply.flatMap_carried carried, flatten_chunks _ _ _ (by omega), length]

end

/-- Settles O33: a request by its status and its place in the batch, the end of a batch by its room, a reply by the pieces it is cut into. -/
theorem servicesBatchAndReply : Obligations.ServicesBatchAndReply := by
  intro s
  refine ⟨fun p g m => ?requests, fun i svc => ⟨fun d serves => ?served, fun none_ =>
    ⟨congrArg Host.Outcome.next (State.batchDeadline_unserved none_), congrArg Host.Outcome.next (State.replySend_unserved none_)⟩⟩⟩
  case requests =>
    refine ⟨fun first => ⟨fun d ok serves => ?accepted, fun bad new => ⟨_, rfl, ?turned⟩⟩,
      fun idle => congrArg Host.Outcome.next (s.serviceIn_idle p g m idle)⟩
    case accepted =>
      have room := State.reqs_lt_of_serviceStatus_eq_zero ok serves
      have joins := State.serviceIn_joins first ok serves
      rw [State.service_svc serves] at joins room ⊢
      refine ⟨fun new few => ?_, fun i part => ?_⟩
      · rw [Batch.take_new s.tick new] at joins
        refine ⟨_, congrArg Host.Outcome.next (joins ?_), ?_⟩
        · rw [List.length_append]
          exact Nat.ne_of_lt few
        · rw [State.batch_setBatch]
          exact ⟨rfl, rfl⟩
      · rw [Batch.take_part s.tick part] at joins
        refine ⟨_, congrArg Host.Outcome.next (joins ?_), ?_⟩
        · rw [List.length_modify]
          exact Nat.ne_of_lt room
        · rw [State.batch_setBatch]
    case turned =>
      obtain ⟨x, out, type, -, tag, dst, blocks⟩ := State.serviceIn_answers first bad new
      exact ⟨x, out, type, tag, dst, blocks⟩
  case served =>
    refine ⟨fun t n since due buf => ⟨fun room => ?closes, fun full => ?waits⟩,
      fun early => congrArg Host.Outcome.next (State.batchDeadline_early serves early),
      fun y rest n due buf => ⟨fun written => ⟨_, rfl, State.replySend_sends serves due buf written⟩,
        fun unwritten => congrArg Host.Outcome.next (State.replySend_waits serves due buf unwritten)⟩,
      fun none_ => congrArg Host.Outcome.next (State.replySend_nothing serves none_)⟩
    case closes =>
      refine ⟨_, congrArg Host.Outcome.next (State.batchDeadline_closes serves since due), ?_⟩
      rw [State.closeBatch_batch buf room]
      exact ⟨rfl, rfl, rfl, by rw [List.length_append, dueSlots, List.length_map, List.length_range]⟩
    case waits =>
      exact congrArg Host.Outcome.next ((State.batchDeadline_closes serves since due).trans (State.closeBatch_waits buf full))

end Sys2Proof.Machine
end

section
/-! SUPPORT. The loading of a score: its header, its chunks, its analysis and its end (R210 to R213, R215). -/

namespace Sys2Proof.Machine

/-! ### Reports (GLB_ADM_LAST) -/

theorem State.admReport_only (s : State) (i : ScoreId) (e : Refuse) : ∃ g, s.admReport i e = { s with regs := g } := by
  have set : ∀ {u : State} (f : Fld) (v : Nat), (∃ g, u = { s with regs := g }) → ∃ g, u.setFld f v = { s with regs := g } := by
    rintro _ f v ⟨g, rfl⟩
    exact ⟨_, rfl⟩
  exact set _ _ (set _ _ (set _ _ (set _ _ (set _ _ ⟨_, rfl⟩))))

theorem State.admReport_commands (s : State) (i : ScoreId) (e : Refuse) : s.CmdKept (s.admReport i e) := by
  obtain ⟨g, reported⟩ := s.admReport_only i e
  rw [reported]
  exact ⟨rfl, rfl, rfl⟩
theorem State.admReport_scores (s : State) (i : ScoreId) (e : Refuse) : (s.admReport i e).scores = s.scores := by
  obtain ⟨g, reported⟩ := s.admReport_only i e
  rw [reported]

theorem State.admReport_code (s : State) (i : ScoreId) (e : Refuse) : (s.admReport i e).fld GLB_ADM_LAST.code = e.code % 256 := by
  have detail : ∀ (u : State) (f : Fld) (v : Nat), f.off = GLB_ADM_DETAIL.kind.off →
      (u.setFld f v).fld GLB_ADM_LAST.code = u.fld GLB_ADM_LAST.code :=
    fun u f v off => u.fld_setFld_other f _ v (by rw [off]; decide)
  unfold State.admReport
  extract_lets s1
  rw [detail _ GLB_ADM_DETAIL.where _ rfl, detail _ GLB_ADM_DETAIL.role _ rfl, detail _ GLB_ADM_DETAIL.kind _ rfl,
    State.fld_setFld_beside _ GLB_ADM_LAST.score GLB_ADM_LAST.code _ rfl (by decide) (by decide) (by decide) (by decide),
    State.fld_setFld_same _ GLB_ADM_LAST.code _ (by decide) (by decide)]
  rfl

/-! ### Completed commands -/

/-- A command that completes is taken no more. -/
theorem State.complete_taken (s : State) (k st d : Nat) (vs : List Nat) : (s.complete k st d vs).cmd.taken = s.cmd.taken.eraseIdx k := by
  obtain ⟨t, e, completed, erased⟩ := s.complete_spec k st d vs
  cases at_k : s.cmd.taken[k]? with
  | none =>
    unfold State.complete
    rw [at_k, List.eraseIdx_of_length_le (List.getElem?_eq_none_iff.1 at_k)]
  | some c =>
    rw [completed]
    exact (erased c at_k).1

theorem State.complete_sec (s : State) (k st d : Nat) (vs : List Nat) : (s.complete k st d vs).sec = s.sec := by
  obtain ⟨x, e⟩ := s.complete_only k st d vs
  rw [e]

/-! ### The next analysis (R213) -/

theorem State.nextAnalysis_only (s : State) : ∃ x, s.nextAnalysis = { s with scores := x } := by
  unfold State.nextAnalysis
  split
  · exact ⟨s.scores, rfl⟩
  · dsimp only
    split
    · exact ⟨_, rfl⟩
    · exact ⟨s.scores, rfl⟩

theorem State.nextAnalysis_commands (s : State) : s.CmdKept s.nextAnalysis := by
  obtain ⟨x, e⟩ := s.nextAnalysis_only
  rw [e]
  exact ⟨rfl, rfl, rfl⟩

theorem State.nextAnalysis_fld (s : State) (f : Fld) : s.nextAnalysis.fld f = s.fld f := by
  obtain ⟨x, e⟩ := s.nextAnalysis_only
  rw [e]
  rfl

/-- A next analysis begins at most with the score as it is: its state and its power limit alone change. -/
theorem State.nextAnalysis_score (s : State) (i : ScoreId) :
    ∃ st w, s.nextAnalysis.score i = { s.score i with state := st, plim := w } ∧
      ((s.score i).state ≠ .loading ∨ (s.score i).pkg.isSome = true → s.nextAnalysis.score i = s.score i) := by
  have stands : ∀ u : State, u.score i = s.score i → ∃ st w, u.score i = { s.score i with state := st, plim := w } ∧
      ((s.score i).state ≠ .loading ∨ (s.score i).pkg.isSome = true → u.score i = s.score i) :=
    fun u same => ⟨(s.score i).state, (s.score i).plim, same, fun _ => same⟩
  unfold State.nextAnalysis
  split
  · exact stands s rfl
  · next j l _ =>
    extract_lets x
    split
    · next waits =>
      obtain ⟨loading, unread, -⟩ := waits
      by_cases here : i = j
      · subst here
        rw [State.score_setScore_same]
        refine ⟨_, _, rfl, fun other => ?_⟩
        rcases other with idle | accepted
        · exact absurd loading idle
        · rw [Option.isNone_iff_eq_none.1 unread] at accepted
          cases accepted
      · exact stands _ ((s.score_setScore j i _).trans (if_neg here))
    · exact stands s rfl

/-- A next analysis leaves a score that is not loading or has its package. -/
theorem State.nextAnalysis_stands (s : State) {i : ScoreId} (h : (s.score i).state ≠ .loading ∨ (s.score i).pkg.isSome = true) :
    s.nextAnalysis.score i = s.score i := by
  obtain ⟨-, -, -, stands⟩ := s.nextAnalysis_score i
  exact stands h

/-! ### LOAD_BEGIN (R210) -/

/-- The header of a package as LOAD_BEGIN carries it, and the home granules that it names. -/
def Taken.header (c : Taken) : List Byte := c.bytes 0 256
def Taken.homes (c : Taken) : List Nat := (c.bytes 260 (bits (c.p 64) 7 0)).map (·.toNat)
def Taken.ghomes (c : Taken) : List Nat := (c.bytes (260 + bits (c.p 64) 7 0) (bits (c.p 64) 15 8)).map (·.toNat)

/-- A load may begin: fewer than five wait, its header passes, and its score is not there. -/
def State.LoadPasses (s : State) (c : Taken) : Prop :=
  s.scores.loads.length < 5 ∧ headerOk c.header = true ∧ hdrScore c.header ≠ 0 ∧ (s.score (hdrScore c.header)).state = .none

/-- The home granules of a load are there and held by no score. -/
def State.HomesFree (s : State) (c : Taken) : Prop :=
  (∀ n ∈ c.homes, n < 92 ∧ Tab.get dZero s.scores.sgran n = 0) ∧ ∀ n ∈ c.ghomes, n < 96 ∧ Tab.get dZero s.scores.ggran n = 0

/-- A score whose load begins: the header is the first four blocks of its image. -/
def Taken.newScore (c : Taken) : Score :=
  { Score.reset with
    state := .loading, order := c.header.getD 6 0, length := hdrLength c.header, digest := hdrDigest c.header
    image := c.header, nextBlk := 4, homes := c.homes, ghomes := c.ghomes }

/-- A state with a load begun, last of the loads that wait. -/
def State.loadBegun (s : State) (c : Taken) : State :=
  let s1 := s.setScore (hdrScore c.header) c.newScore
  { s1 with scores := { s1.scores with loads := s1.scores.loads ++ [hdrScore c.header] } }

theorem State.loadBegun_commands (s : State) (c : Taken) : s.CmdKept (s.loadBegun c) := ⟨rfl, rfl, rfl⟩
theorem State.loadBegun_score (s : State) (c : Taken) : (s.loadBegun c).score (hdrScore c.header) = c.newScore :=
  s.score_setScore_same (hdrScore c.header) c.newScore

/-- Some granule of a list is out of range or held, unless all are free. -/
theorem any_held_iff {t : Tab ScoreId} {l : List Nat} {n : Nat} :
    l.any (fun k => n ≤ k || Tab.get dZero t k != 0) = true ↔ ¬ ∀ k ∈ l, k < n ∧ Tab.get dZero t k = 0 := by
  simp only [List.any_eq_true, Bool.or_eq_true, decide_eq_true_eq, bne_iff_ne, not_forall, not_and_or, Nat.not_lt, exists_prop, ne_eq]

section
variable (s : State) (k : Nat) {c : Taken}

theorem State.loadBegin_malformed (h : 65536 ≤ c.p 64 ∨ ¬ c.homes.Nodup ∨ ¬ c.ghomes.Nodup) : s.loadBegin k c = s.complete k 3 := by
  unfold State.loadBegin
  extract_lets hd i ns ng homes ghomes refuse
  exact if_pos (show 65536 ≤ c.p 64 ∨ (!c.homes.Nodup) = true ∨ (!c.ghomes.Nodup) = true by simpa using h)

variable (few : c.p 64 < 65536) (homes : c.homes.Nodup) (ghomes : c.ghomes.Nodup)
include few homes ghomes

theorem State.loadBegin_wellFormed :
    s.loadBegin k c =
      let i := hdrScore c.header
      let refuse := fun code : Nat => (s.admReport i ⟨code, if code = 2 then 2 else 0, 0, 0⟩).complete k 6 code
        [(s.admReport i ⟨code, if code = 2 then 2 else 0, 0, 0⟩).fld GLB_ADM_LAST.score]
      if 5 ≤ s.scores.loads.length then refuse 1
      else if !headerOk c.header then refuse 2
      else if i = 0 ∨ (s.score i).state ≠ .none then refuse 3
      else if c.homes.any (fun n => 92 ≤ n || Tab.get dZero s.scores.sgran n != 0) ∨
          c.ghomes.any (fun n => 96 ≤ n || Tab.get dZero s.scores.ggran n != 0) then s.complete k 3
      else (s.loadBegun c).complete k 0 0 [i.toNat + 65536 * s.scores.loads.length] :=
  if_neg (by simpa using ⟨few, homes, ghomes⟩)

/-- A load that does not pass is refused with a code of its own. -/
theorem State.loadBegin_refuses (h : ¬ s.LoadPasses c) :
    ∃ code e vs, s.loadBegin k c = (s.admReport (hdrScore c.header) e).complete k 6 code vs := by
  rw [s.loadBegin_wellFormed k few homes ghomes]
  extract_lets i refuse
  by_cases full : 5 ≤ s.scores.loads.length
  · exact ⟨1, _, _, if_pos full⟩
  rw [if_neg full]
  by_cases bad : headerOk c.header = true
  · rw [bad, Bool.not_true, if_neg Bool.false_ne_true]
    refine ⟨3, _, _, if_pos ?_⟩
    by_contra there
    rw [not_or, not_not] at there
    exact h ⟨Nat.not_le.1 full, bad, there⟩
  · rw [eq_false_of_ne_true bad, Bool.not_false, if_pos rfl]
    exact ⟨2, _, _, rfl⟩

variable (passes : s.LoadPasses c)
include passes

theorem State.loadBegin_passes :
    s.loadBegin k c =
      if c.homes.any (fun n => 92 ≤ n || Tab.get dZero s.scores.sgran n != 0) ∨
          c.ghomes.any (fun n => 96 ≤ n || Tab.get dZero s.scores.ggran n != 0) then s.complete k 3
      else (s.loadBegun c).complete k 0 0 [(hdrScore c.header).toNat + 65536 * s.scores.loads.length] := by
  obtain ⟨room, ok, named, absent⟩ := passes
  rw [s.loadBegin_wellFormed k few homes ghomes]
  extract_lets i refuse
  rw [if_neg (Nat.not_le.2 room), ok, Bool.not_true, if_neg Bool.false_ne_true, if_neg (not_or.2 ⟨named, not_not.2 absent⟩)]

theorem State.loadBegin_held (h : ¬ s.HomesFree c) : s.loadBegin k c = s.complete k 3 := by
  rw [s.loadBegin_passes k few homes ghomes passes]
  exact if_pos (by rw [any_held_iff, any_held_iff]; exact not_and_or.1 h)

theorem State.loadBegin_begins (h : s.HomesFree c) :
    s.loadBegin k c = (s.loadBegun c).complete k 0 0 [(hdrScore c.header).toNat + 65536 * s.scores.loads.length] := by
  rw [s.loadBegin_passes k few homes ghomes passes]
  exact if_neg (by rw [any_held_iff, any_held_iff]; exact not_or.2 ⟨not_not.2 h.1, not_not.2 h.2⟩)

end

/-! ### LOAD_CHUNK (R210, R212) -/

/-- Between two states only the bytes of stage memory and GDDR7 moved. -/
def State.MemoryMoved (s u : State) : Prop := ∃ x y, u = { s with stage := x, gddr := y }

theorem State.MemoryMoved.refl (s : State) : s.MemoryMoved s := ⟨s.stage, s.gddr, rfl⟩
theorem State.MemoryMoved.trans {s t u : State} (h : s.MemoryMoved t) (k : t.MemoryMoved u) : s.MemoryMoved u := by
  obtain ⟨x, y, rfl⟩ := h
  obtain ⟨x', y', rfl⟩ := k
  exact ⟨x', y', rfl⟩
theorem State.MemoryMoved.foldl {α : Type} (f : State → α → State) (step : ∀ u x, State.MemoryMoved u (f u x)) (l : List α) (s : State) :
    s.MemoryMoved (l.foldl f s) := foldl_does State.MemoryMoved .refl (fun _ _ _ => .trans) f step l s
theorem State.MemoryMoved.writeBlock (s : State) (a : Nat) (x : Block) : s.MemoryMoved (s.writeBlock a x) := by
  obtain ⟨b, f, c, e⟩ := s.writeBlock_spec a x
  rw [e]
  exact ⟨_, s.gddr, rfl⟩
theorem State.MemoryMoved.gddrWrite (s : State) (a : Nat) (x : Block) : s.MemoryMoved (s.gddrWrite a x) := ⟨s.stage, _, rfl⟩
theorem State.MemoryMoved.commands {s u : State} (h : s.MemoryMoved u) : s.CmdKept u := by
  obtain ⟨x, y, rfl⟩ := h
  exact ⟨rfl, rfl, rfl⟩
theorem State.MemoryMoved.scores {s u : State} (h : s.MemoryMoved u) : u.scores = s.scores := by
  obtain ⟨x, y, rfl⟩ := h
  rfl

/-- Blocks go into their places in memory, and nowhere else. -/
theorem State.MemoryMoved.placeBlocks (s : State) (x : Score) (p : Package) (lo hi : Nat) : s.MemoryMoved (s.placeBlocks x p lo hi) := by
  refine .foldl _ (fun u y => .foldl _ (fun v k => ?_) _ u) _ s
  dsimp only
  split
  · exact .refl v
  · split
    · split
      · exact .gddrWrite v _ _
      · exact .refl v
    · split
      · exact .writeBlock v _ _
      · exact .refl v

theorem State.countReads_counts (s : State) (a n : Nat) : s.CountsMoved (s.countReads a n) :=
  State.CountsMoved.foldl _ (fun u k => u.countRead_counts (64 * k)) _ s

/-- The score that a command names in its first parameter. -/
abbrev Taken.scoreId (c : Taken) : ScoreId := BitVec.ofNat 16 (c.p 0)

theorem ScoreState.ne_none_of_open {st : ScoreState} (h : st = .loading ∨ st = .analysing) : st ≠ .none := by
  rintro rfl
  exact h.elim nofun nofun

/-- A chunk that goes on where the image ends, out of stage memory that no score holds. -/
def State.ChunkFits (s : State) (c : Taken) (x : Score) : Prop :=
  c.p 2 = x.nextBlk ∧ 0 < c.p 3 ∧ c.p 3 ≤ 1048576 ∧ s.staging (c.p 1) (64 * c.p 3) = true

/-- A score with a chunk's blocks in its image. -/
def Score.joined (x : Score) (data : List Byte) (n : Nat) : Score := { x with image := x.image ++ data, nextBlk := x.nextBlk + n }

/-- The blocks of a chunk as they are read. -/
def State.chunkData (s : State) (c : Taken) : List Byte := (List.range (c.p 3)).flatMap fun b => (s.blockAt (c.p 1 + 64 * b)).data

/-- A state with the blocks of a score's image from `lo` on in their places, where the score has its package. -/
def State.chunkPlaced (s : State) (x : Score) (lo : Nat) : State :=
  match x.pkg with
  | some p => s.placeBlocks x p lo x.nextBlk
  | none => s

theorem State.chunkPlaced_moves (s : State) (x : Score) (lo : Nat) : s.MemoryMoved (s.chunkPlaced x lo) := by
  unfold State.chunkPlaced
  split
  · exact .placeBlocks s x _ lo _
  · exact .refl s

theorem State.chunkPlaced_none (s : State) {x : Score} (h : x.pkg = none) (lo : Nat) : s.chunkPlaced x lo = s := by
  unfold State.chunkPlaced
  rw [h]

/-- A state with a chunk joined to the image of its score and, where the score has its package, in its place. -/
def State.chunkTaken (s : State) (c : Taken) : State :=
  let x := s.score c.scoreId
  let y := x.joined (s.chunkData c) (c.p 3)
  (((s.countReads (c.p 1) (64 * c.p 3)).setScore c.scoreId y).chunkPlaced y x.nextBlk).nextAnalysis

section
variable (s : State) (k : Nat) {c : Taken} (score : c.p 0 < 65536)
include score

theorem State.loadChunk_absent (h : (s.score c.scoreId).state = .none) : s.loadChunk k c = s.complete k 4 := by
  unfold State.loadChunk
  extract_lets i x n
  rw [if_neg (Nat.not_le.2 score)]
  exact if_pos h

theorem State.loadChunk_closed (h : (s.score c.scoreId).state ∉ [.none, .loading, .analysing]) :
    s.loadChunk k c = s.complete k 5 := by
  simp only [List.mem_cons, List.not_mem_nil, or_false, not_or] at h
  unfold State.loadChunk
  extract_lets i x n
  rw [if_neg (Nat.not_le.2 score), if_neg h.1]
  exact if_pos h.2

variable (open_ : (s.score c.scoreId).state = .loading ∨ (s.score c.scoreId).state = .analysing)
include open_

theorem State.loadChunk_open :
    s.loadChunk k c =
      if c.p 2 ≠ (s.score c.scoreId).nextBlk ∨ c.p 3 = 0 ∨ 1048576 < c.p 3 ∨ !s.staging (c.p 1) (64 * c.p 3)
      then s.complete k 3
      else (s.chunkTaken c).complete k 0 0 [(s.score c.scoreId).nextBlk + c.p 3] := by
  unfold State.loadChunk
  extract_lets i x n data s1 y s2 s3
  rw [if_neg (Nat.not_le.2 score), if_neg (ScoreState.ne_none_of_open open_), if_neg fun closed => open_.elim closed.1 closed.2]
  rfl

theorem State.loadChunk_refused (h : ¬ s.ChunkFits c (s.score c.scoreId)) : s.loadChunk k c = s.complete k 3 := by
  rw [s.loadChunk_open k score open_]
  refine if_pos ?_
  by_contra fits
  simp only [not_or, not_not, Nat.not_lt, Bool.not_eq_true', Bool.not_eq_false] at fits
  exact h ⟨fits.1, Nat.pos_of_ne_zero fits.2.1, fits.2.2⟩

theorem State.loadChunk_takes (h : s.ChunkFits c (s.score c.scoreId)) :
    s.loadChunk k c = (s.chunkTaken c).complete k 0 0 [(s.score c.scoreId).nextBlk + c.p 3] := by
  obtain ⟨order, some_, few, free⟩ := h
  rw [s.loadChunk_open k score open_]
  refine if_neg ?_
  simp only [not_or, not_not, Nat.not_lt, Bool.not_eq_true', Bool.not_eq_false]
  exact ⟨order, Nat.ne_of_gt some_, few, free⟩

end

/-- A chunk that is taken is in its score's image; stage memory changes only where the score has its package. -/
theorem State.chunkTaken_spec (s : State) (c : Taken) :
    s.CmdKept (s.chunkTaken c) ∧
      ((s.score c.scoreId).pkg = none → (s.chunkTaken c).stage = s.stage) ∧
      ((s.chunkTaken c).score c.scoreId).nextBlk = (s.score c.scoreId).nextBlk + c.p 3 ∧
      ((s.chunkTaken c).score c.scoreId).image = (s.score c.scoreId).image ++ s.chunkData c := by
  unfold State.chunkTaken
  extract_lets x y
  obtain ⟨commands, stage, score⟩ : s.CmdKept ((s.countReads (c.p 1) (64 * c.p 3)).setScore c.scoreId y) ∧
      ((s.countReads (c.p 1) (64 * c.p 3)).setScore c.scoreId y).stage = s.stage ∧
      ((s.countReads (c.p 1) (64 * c.p 3)).setScore c.scoreId y).score c.scoreId = y := by
    obtain ⟨f, g, counted⟩ := s.countReads_counts (c.p 1) (64 * c.p 3)
    rw [counted]
    exact ⟨⟨rfl, rfl, rfl⟩, rfl, State.score_setScore_same _ _ _⟩
  generalize (s.countReads (c.p 1) (64 * c.p 3)).setScore c.scoreId y = u at *
  have placed := u.chunkPlaced_moves y x.nextBlk
  obtain ⟨st, w, next, -⟩ := (u.chunkPlaced y x.nextBlk).nextAnalysis_score c.scoreId
  rw [State.score_congr placed.scores, score] at next
  refine ⟨commands.trans (placed.commands.trans (State.nextAnalysis_commands _)), fun unread => ?_, ?_, ?_⟩
  · obtain ⟨z, e⟩ := (u.chunkPlaced y x.nextBlk).nextAnalysis_only
    rw [e, u.chunkPlaced_none (x := y) unread]
    exact stage
  · rw [next]
    rfl
  · rw [next]
    rfl

/-! ### What is given back and what is taken (R211, R215) -/

theorem State.freeBay_reg (s : State) {b off : Nat} (h : b < 8) (beyond : 0x40 ≤ off) : (s.freeBay b).reg off = s.reg off := by
  unfold State.freeBay
  extract_lets s1 s2
  have owner : s2.reg off = s.reg off := by
    refine (State.reg_congr (s1.modBay_regs b _) off).trans (s.reg_setFld_other _ _ off (fun same => ?_))
    have owns : (GLB_BAY_OWNER.score.nth b).off = 0x20 + 4 * b := rfl
    omega
  split
  · exact (s2.setBayState_reg b 1 (by omega)).trans owner
  · exact owner

/-- A fold whose steps leave the registers leaves them. -/
theorem State.foldl_regs {α : Type} (f : State → α → State) (step : ∀ u x, (f u x).regs = u.regs) (l : List α) (s : State) :
    (l.foldl f s).regs = s.regs := foldl_does (fun s u => u.regs = s.regs) (fun _ => rfl) (fun _ _ _ h k => k.trans h) f step l s

theorem State.freeGroup_regs (s : State) (n : Nat) : (s.freeGroup n).regs = s.regs := by
  unfold State.freeGroup
  extract_lets g s1
  have unbound : s1.regs = s.regs := s.setGroup_regs _ _ _
  clear_value s1
  exact unbound
theorem State.freeGran_regs (s : State) (n : Nat) : (s.freeGran n).regs = s.regs := by
  unfold State.freeGran
  extract_lets codes other owner
  clear_value owner
  rfl
theorem State.freeHomes_regs (s : State) (i : ScoreId) : (s.freeHomes i).regs = s.regs :=
  State.foldl_regs State.freeGran State.freeGran_regs _ s

/-- What a score gives back leaves the registers beyond those of the bays. -/
theorem State.releaseAll_reg (s : State) (i : ScoreId) {off : Nat} (beyond : 0x40 ≤ off) : (s.releaseAll i).reg off = s.reg off := by
  unfold State.releaseAll
  extract_lets s1 s2 s3 s4 s5
  have bays : s1.reg off = s.reg off := List.foldlRecOn (motive := fun u : State => u.reg off = s.reg off) _ _ rfl fun u same b member =>
    (u.freeBay_reg (List.mem_range.1 (List.mem_filter.1 member).1) beyond).trans same
  have groups : s2.regs = s1.regs := State.foldl_regs _ State.freeGroup_regs _ s1
  have wins : s3.regs = s2.regs := State.foldl_regs _ (fun u w => u.setRwin_regs w _) _ s2
  have queues : s4.regs = s3.regs := State.foldl_regs _ (fun u n => u.setQueue_regs _ _) _ s3
  have homes : s5.regs = s4.regs := s4.freeHomes_regs i
  have five : s5.reg off = s.reg off := (State.reg_congr (homes.trans (queues.trans (wins.trans groups))) off).trans bays
  clear_value s5
  exact five

theorem State.bindHomes_commands (s : State) (i : ScoreId) (homes ghomes : List Nat) : s.CmdKept (s.bindHomes i homes ghomes) := by
  unfold State.bindHomes
  extract_lets s1
  refine State.CmdKept.trans (t := s1) (.foldl _ (fun u n => ?_) homes s) (.foldl _ (fun u n => ?_) ghomes s1)
  · exact ⟨rfl, rfl, rfl⟩
  · exact ⟨rfl, rfl, rfl⟩

/-- An accepted score has its package. -/
theorem State.accept_spec (s : State) (i : ScoreId) (p : Package) :
    s.CmdKept (s.accept i p) ∧ ((s.accept i p).score i).pkg = some p := by
  unfold State.accept
  extract_lets x s1 plan stage s2
  have bound : s.CmdKept s1 := s.bindHomes_commands i _ _
  have given : s1.CmdKept s2 := ⟨rfl, rfl, rfl⟩
  have placed := (State.MemoryMoved.placeBlocks s2 x p 0 x.nextBlk).commands
  have enabled : (s2.placeBlocks x p 0 x.nextBlk).CmdKept ((s2.placeBlocks x p 0 x.nextBlk).enableQueues i p) :=
    .foldl _ (fun u _ => .setQueue u _ _) _ _
  refine ⟨bound.trans (given.trans (placed.trans (enabled.trans (.setScore _ i _)))), ?_⟩
  rw [State.score_setScore_same]

/-! ### The end of a load (R211) -/

/-- The reply of LOAD_END, with what the report says. -/
def State.loadReply (s : State) (k st detail : Nat) : State :=
  s.complete k st detail [(s.reg GLB_ADM_LAST.valid.off).toNat, (s.reg GLB_ADM_DETAIL.kind.off).toNat]

/-- The length and the digest of the whole package agree. -/
def Score.Agrees (x : Score) : Prop :=
  (x.length + 63) / 64 = x.nextBlk ∧ Config.shake256 (zeroDigest (x.image.take x.length)) = x.digest

/-- A state with a load that has ended well: the score is loaded, reported and measured. -/
def State.loaded (s : State) (i : ScoreId) : State :=
  ((s.setScore i { s.score i with state := .loaded, image := [] }).admReport i ⟨0, 0, 0, 0⟩).measureScore 1 i (s.score i).digest

section
variable (s : State) (k : Nat) {i : ScoreId}

theorem State.finishLoad_refused {code : Byte} (h : (s.score i).refusal = some code) :
    s.finishLoad k i = (s.releaseAll i).loadReply k 6 code.toNat := by
  unfold State.finishLoad
  extract_lets x reply
  rw [show x.refusal = some code from h]
  rfl

variable (accepted : (s.score i).refusal = none) {p : Package} (pkg : (s.score i).pkg = some p)
include accepted pkg

theorem State.finishLoad_agrees (h : (s.score i).Agrees) : s.finishLoad k i = (s.loaded i).loadReply k 0 0 := by
  unfold State.finishLoad
  extract_lets x reply
  rw [show x.refusal = none from accepted, show x.pkg = some p from pkg]
  exact if_pos h

theorem State.finishLoad_disagrees (h : ¬ (s.score i).Agrees) :
    s.finishLoad k i = ((s.releaseAll i).admReport i ⟨0x11, 0, 0, 0⟩).loadReply k 6 0x11 := by
  unfold State.finishLoad
  extract_lets x reply
  rw [show x.refusal = none from accepted, show x.pkg = some p from pkg]
  exact if_neg h

end

theorem State.loadReply_scores (s : State) (k st d : Nat) : (s.loadReply k st d).scores = s.scores := s.complete_scores k st d _
theorem State.loadReply_fld (s : State) (k st d : Nat) (f : Fld) : (s.loadReply k st d).fld f = s.fld f := s.complete_fld k st d _ f
theorem State.loadReply_taken (s : State) (k st d : Nat) : (s.loadReply k st d).cmd.taken = s.cmd.taken.eraseIdx k :=
  s.complete_taken k st d _
theorem State.releaseAll_score (s : State) (i : ScoreId) : (s.releaseAll i).score i = Score.reset := (s.releaseAll_spec i).2.1

theorem State.loaded_only (s : State) (i : ScoreId) :
    ∃ g, s.loaded i = State.measureScore { s.setScore i { s.score i with state := .loaded, image := [] } with regs := g } 1 i
      (s.score i).digest := by
  obtain ⟨g, reported⟩ := (s.setScore i { s.score i with state := .loaded, image := [] }).admReport_only i ⟨0, 0, 0, 0⟩
  exact ⟨g, congrArg (State.measureScore · 1 i (s.score i).digest) reported⟩

theorem State.loaded_commands (s : State) (i : ScoreId) : s.CmdKept (s.loaded i) := by
  obtain ⟨g, e⟩ := s.loaded_only i
  rw [e]
  exact ⟨rfl, rfl, rfl⟩
theorem State.loaded_score (s : State) (i : ScoreId) : (s.loaded i).score i = { s.score i with state := .loaded, image := [] } := by
  obtain ⟨g, e⟩ := s.loaded_only i
  rw [e]
  exact s.score_setScore_same i _
theorem State.loaded_exts (s : State) (i : ScoreId) :
    Tab.get dZero (s.loaded i).sec.exts 6 = min (Tab.get dZero s.sec.exts 6 + 1) 65535 := by
  obtain ⟨g, e⟩ := s.loaded_only i
  rw [e]
  exact Tab.get_set_same dZero s.sec.exts 6 _

/-- A load that is given up is reported, and nothing of it remains. -/
theorem State.releaseReported_spec (s : State) (i : ScoreId) (e : Refuse) :
    s.CmdKept ((s.releaseAll i).admReport i e) ∧ ((s.releaseAll i).admReport i e).score i = Score.reset :=
  ⟨(s.releaseAll_spec i).1.trans (State.admReport_commands _ i e),
    (State.score_congr (State.admReport_scores _ i e) i).trans (s.releaseAll_score i)⟩

/-- A LOAD_END that waits is answered once its score is refused or accepted. -/
theorem State.finishLoad_taken (s : State) (k : Nat) {i : ScoreId} (h : (s.score i).refusal.isSome = true ∨ (s.score i).pkg.isSome = true) :
    (s.finishLoad k i).cmd.taken = s.cmd.taken.eraseIdx k := by
  obtain ⟨⟨-, released, -⟩, -⟩ := s.releaseAll_spec i
  cases refusal : (s.score i).refusal with
  | some code => rw [s.finishLoad_refused k refusal, State.loadReply_taken, released]
  | none =>
    rw [refusal] at h
    obtain ⟨p, pkg⟩ := Option.isSome_iff_exists.1 (h.resolve_left nofun)
    by_cases agrees : (s.score i).Agrees
    · rw [s.finishLoad_agrees k refusal pkg agrees, State.loadReply_taken, (s.loaded_commands i).2.1]
    · rw [s.finishLoad_disagrees k refusal pkg agrees, State.loadReply_taken, (State.admReport_commands _ i _).2.1, released]

/-! ### ANALYSIS (R213, R215) -/

theorem State.waitingEnd_congr {s u : State} (h : s.CmdKept u) (i : ScoreId) : u.waitingEnd i = s.waitingEnd i := by
  unfold State.waitingEnd
  rw [h.2.1]

/-- A state whose first waiting load is no more in line. -/
def State.loadOut (s : State) : State := { s with scores := { s.scores with loads := s.scores.loads.drop 1 } }

/-- A state with a score refused: its code alone remains for its LOAD_END. -/
def State.scoreRefused (s : State) (i : ScoreId) (e : Refuse) : State :=
  (s.setScore i { Score.reset with refusal := some (BitVec.ofNat 8 e.code) }).admReport i e

/-- A state with a score accepted. -/
def State.scoreAccepted (s : State) (i : ScoreId) (p : Package) : State := (s.accept i p).admReport i ⟨0, 0, 0, 0⟩

/-- What follows the end of an analysis: the LOAD_END that waits for it, and the next analysis. -/
def State.afterAnalysis (s : State) (i : ScoreId) : State :=
  (match s.waitingEnd i with
    | some k => s.finishLoad k i
    | none => s).nextAnalysis

theorem State.scoreRefused_commands (s : State) (i : ScoreId) (e : Refuse) : s.CmdKept (s.scoreRefused i e) :=
  (State.CmdKept.setScore s i _).trans (State.admReport_commands _ i e)
theorem State.scoreRefused_score (s : State) (i : ScoreId) (e : Refuse) :
    (s.scoreRefused i e).score i = { Score.reset with refusal := some (BitVec.ofNat 8 e.code) } :=
  (State.score_congr (State.admReport_scores _ i e) i).trans (s.score_setScore_same i _)
theorem State.scoreAccepted_commands (s : State) (i : ScoreId) (p : Package) : s.CmdKept (s.scoreAccepted i p) :=
  (s.accept_spec i p).1.trans (State.admReport_commands _ i _)
theorem State.scoreAccepted_pkg (s : State) (i : ScoreId) (p : Package) : ((s.scoreAccepted i p).score i).pkg = some p := by
  rw [State.scoreAccepted, State.score_congr (State.admReport_scores _ i _)]
  exact (s.accept_spec i p).2

theorem State.afterAnalysis_alone (s : State) {i : ScoreId} (h : s.waitingEnd i = none) : s.afterAnalysis i = s.nextAnalysis := by
  unfold State.afterAnalysis
  rw [h]

theorem State.afterAnalysis_ends (s : State) {i : ScoreId} {j : Nat} (h : s.waitingEnd i = some j) :
    s.afterAnalysis i = (s.finishLoad j i).nextAnalysis := by
  unfold State.afterAnalysis
  rw [h]

/-- The end of an analysis answers the LOAD_END that waits for it. -/
theorem State.afterAnalysis_taken (s : State) {i : ScoreId} {j : Nat} (waits : s.waitingEnd i = some j)
    (h : (s.score i).refusal.isSome = true ∨ (s.score i).pkg.isSome = true) :
    (s.afterAnalysis i).cmd.taken = s.cmd.taken.eraseIdx j := by
  rw [s.afterAnalysis_ends waits, (State.nextAnalysis_commands _).2.1, s.finishLoad_taken j h]

/-- Of a refused score nothing is there, whether its LOAD_END waits or not, and its code is reported. -/
theorem State.afterRefusal_spec (s : State) (i : ScoreId) (e : Refuse) :
    (((s.scoreRefused i e).afterAnalysis i).score i).state = .none ∧
      ((s.scoreRefused i e).afterAnalysis i).fld GLB_ADM_LAST.code = e.code % 256 := by
  have code : (s.scoreRefused i e).fld GLB_ADM_LAST.code = e.code % 256 := State.admReport_code _ i e
  have score := s.scoreRefused_score i e
  generalize s.scoreRefused i e = t at *
  cases waits : t.waitingEnd i with
  | none =>
    rw [t.afterAnalysis_alone waits, State.nextAnalysis_fld, t.nextAnalysis_stands (.inl (by rw [score]; exact nofun)), score]
    exact ⟨rfl, code⟩
  | some j =>
    have gone : ((t.releaseAll i).loadReply j 6 (BitVec.ofNat 8 e.code : Byte).toNat).score i = Score.reset :=
      (State.score_congr (State.loadReply_scores _ j 6 _) i).trans (t.releaseAll_score i)
    rw [t.afterAnalysis_ends waits, t.finishLoad_refused j (by rw [score]), State.nextAnalysis_fld, State.loadReply_fld,
      State.nextAnalysis_stands _ (.inl (by rw [gone]; decide)), gone]
    exact ⟨rfl, (State.fld_congr _ (t.releaseAll_reg i (by decide))).trans code⟩

section
variable {s : State} {i : ScoreId} (p : Package)

theorem State.analysis_idle (h : s.scores.loads.head? ≠ some i ∨ (s.score i).state ≠ .analysing) : s.analysis i p = s := if_pos h

variable (first : s.scores.loads.head? = some i) (turn : (s.score i).state = .analysing)
include first turn

theorem State.analysis_refuses {e : Refuse} (h : s.loadOut.analyse p i = some e) :
    s.analysis i p = (s.loadOut.scoreRefused i e).afterAnalysis i := by
  unfold State.analysis
  extract_lets sc s0 x s1 s2
  have refused : s1 = s.loadOut.scoreRefused i e := by
    unfold s1
    rw [show s0.analyse p i = some e from h]
    rfl
  rw [if_neg (not_or.2 ⟨not_not.2 first, not_not.2 turn⟩), ← refused]
  rfl

theorem State.analysis_accepts (h : s.loadOut.analyse p i = none) : s.analysis i p = (s.loadOut.scoreAccepted i p).afterAnalysis i := by
  unfold State.analysis
  extract_lets sc s0 x s1 s2
  have accepted : s1 = s.loadOut.scoreAccepted i p := by
    unfold s1
    rw [show s0.analyse p i = none from h]
    rfl
  rw [if_neg (not_or.2 ⟨not_not.2 first, not_not.2 turn⟩), ← accepted]
  rfl

theorem State.analysis_taken {j : Nat} (waits : s.waitingEnd i = some j) : (s.analysis i p).cmd.taken = s.cmd.taken.eraseIdx j := by
  cases h : s.loadOut.analyse p i with
  | none =>
    have commands := s.loadOut.scoreAccepted_commands i p
    rw [State.analysis_accepts p first turn h,
      State.afterAnalysis_taken _ ((State.waitingEnd_congr commands i).trans waits) (.inr (by rw [State.scoreAccepted_pkg]; rfl)), commands.2.1]
    rfl
  | some e =>
    have commands := s.loadOut.scoreRefused_commands i e
    rw [State.analysis_refuses p first turn h,
      State.afterAnalysis_taken _ ((State.waitingEnd_congr commands i).trans waits) (.inl (by rw [State.scoreRefused_score]; rfl)), commands.2.1]
    rfl

theorem State.analysis_pkg (h : s.loadOut.analyse p i = none) (alone : s.waitingEnd i = none) :
    ((s.analysis i p).score i).pkg = some p ∧ (s.analysis i p).fld GLB_ADM_LAST.code = 0 := by
  have code : (s.loadOut.scoreAccepted i p).fld GLB_ADM_LAST.code = 0 := State.admReport_code _ i _
  have pkg := s.loadOut.scoreAccepted_pkg i p
  have waits : (s.loadOut.scoreAccepted i p).waitingEnd i = none :=
    (State.waitingEnd_congr (s.loadOut.scoreAccepted_commands i p) i).trans alone
  rw [State.analysis_accepts p first turn h, State.afterAnalysis_alone _ waits, State.nextAnalysis_fld,
    State.nextAnalysis_stands _ (.inr (by rw [pkg]; rfl))]
  exact ⟨pkg, code⟩

end

/-! ### LOAD_END (R211) -/

section
variable (s : State) (k : Nat) {c : Taken} (score : c.p 0 < 65536)
include score

theorem State.loadEnd_finishes (h : (s.score c.scoreId).refusal.isSome = true ∨
    (s.score c.scoreId).pkg.isSome = true ∧ (s.score c.scoreId).state = .loading) :
    s.loadEnd k c = s.finishLoad k c.scoreId := by
  unfold State.loadEnd
  extract_lets i x
  rw [if_neg (Nat.not_le.2 score)]
  exact if_pos h

variable (accepted : (s.score c.scoreId).refusal = none)
include accepted

theorem State.loadEnd_absent (h : (s.score c.scoreId).state = .none) : s.loadEnd k c = s.complete k 4 := by
  unfold State.loadEnd
  extract_lets i x
  rw [if_neg (Nat.not_le.2 score), if_neg]
  · exact if_pos h
  · rw [show x.refusal = none from accepted, show x.state = .none from h]
    simp

theorem State.loadEnd_closed (h : (s.score c.scoreId).state ∉ [.none, .loading, .analysing]) :
    s.loadEnd k c = s.complete k 5 := by
  simp only [List.mem_cons, List.not_mem_nil, or_false, not_or] at h
  unfold State.loadEnd
  extract_lets i x
  rw [if_neg (Nat.not_le.2 score), if_neg, if_neg h.1]
  · exact if_pos h.2
  · rw [show x.refusal = none from accepted]
    exact fun ends => ends.elim nofun fun loading => h.2.1 loading.2

variable (unread : (s.score c.scoreId).pkg = none)
  (open_ : (s.score c.scoreId).state = .loading ∨ (s.score c.scoreId).state = .analysing)
include unread open_

theorem State.loadEnd_open :
    s.loadEnd k c =
      if (s.score c.scoreId).nextBlk < analysisEnd (s.score c.scoreId).image then
        (((s.releaseAll c.scoreId).admReport c.scoreId ⟨0x11, 0, 0, 0⟩).nextAnalysis).loadReply k 6 0x11
      else s.begin k := by
  unfold State.loadEnd
  extract_lets i x s1
  rw [if_neg (Nat.not_le.2 score), if_neg, if_neg (ScoreState.ne_none_of_open open_), if_neg fun closed => open_.elim closed.1 closed.2]
  · rfl
  · rw [show x.refusal = none from accepted, show x.pkg = none from unread]
    simp

end

/-! ### The statement -/

theorem exec_loadBegin {s : State} {k : Nat} {c : Taken} (h : s.mayRun k 0x0101 c) : exec (.loadBegin k) s = .next (s.loadBegin k c) :=
  congrArg Host.Outcome.next (State.command_of_mayRun h (·.loadBegin k))
theorem exec_loadChunk {s : State} {k : Nat} {c : Taken} (h : s.mayRun k 0x0102 c) : exec (.loadChunk k) s = .next (s.loadChunk k c) :=
  congrArg Host.Outcome.next (State.command_of_mayRun h (·.loadChunk k))
theorem exec_loadEnd {s : State} {k : Nat} {c : Taken} (h : s.mayRun k 0x0103 c) : exec (.loadEnd k) s = .next (s.loadEnd k c) :=
  congrArg Host.Outcome.next (State.command_of_mayRun h (·.loadEnd k))

/-- A LOAD_END that ends its load without a score leaves nothing of it, and is answered with status 6. -/
theorem State.mayRun.fails {s t : State} {k : Nat} {c : Taken} (h : s.mayRun k 0x0103 c) (cmd : s.CmdKept t) {i : ScoreId}
    (gone : t.score i = Score.reset) (detail : Nat) :
    ((t.loadReply k 6 detail).score i).state = .none ∧ ∃ vs, s.Replied (t.loadReply k 6 detail) k c 6 vs := by
  rw [State.score_congr (t.loadReply_scores k 6 detail), gone]
  exact ⟨rfl, _, cmd.replied h.1 6 detail _⟩

/-- Settles O36: each command by the branches of its start, and the end of an analysis by what it finds. -/
theorem scoresLoad : Obligations.ScoresLoad := by
  intro s k c
  refine ⟨fun h => ?begins, fun h score x same => ?chunk, fun i p s0 out => ⟨fun first turn => ?analyses,
    fun idle => congrArg Host.Outcome.next (State.analysis_idle p idle)⟩, fun x h score same => ?ends⟩
  case begins =>
    rw [exec_loadBegin h]
    refine ⟨fun malformed => ?_, fun few homes ghomes => ⟨fun fails => ?_, fun passes held => ?_, fun passes free => ?_⟩⟩
    · rw [s.loadBegin_malformed k malformed]
      exact ⟨_, rfl, h.refused 3⟩
    · obtain ⟨code, e, vs, refuses⟩ := s.loadBegin_refuses k few homes ghomes fails
      rw [refuses]
      exact ⟨_, rfl, (State.complete_scores _ k 6 code vs).trans (s.admReport_scores _ e), _, (s.admReport_commands _ e).replied h.1 6 code vs⟩
    · rw [s.loadBegin_held k few homes ghomes passes held]
      exact ⟨_, rfl, h.refused 3⟩
    · rw [s.loadBegin_begins k few homes ghomes passes free]
      have begun : ∀ vs, ((s.loadBegun c).complete k 0 0 vs).score (hdrScore c.header) = c.newScore := fun vs =>
        (State.score_congr (State.complete_scores _ k 0 0 vs) _).trans (s.loadBegun_score c)
      refine ⟨_, rfl, congrArg Score.state (begun _), congrArg Score.nextBlk (begun _), congrArg Score.homes (begun _),
        congrArg Score.ghomes (begun _), ?_, _, (s.loadBegun_commands c).replied h.1 0 0 _⟩
      rw [State.complete_scores]
      rfl
  case chunk =>
    subst same
    rw [exec_loadChunk h]
    refine ⟨fun open_ => ⟨fun fits => ?_, fun unfit => ?_⟩, fun absent => ?_, fun closed => ?_⟩
    · obtain ⟨cmd, stage, next, image⟩ := s.chunkTaken_spec c
      rw [s.loadChunk_takes k score open_ fits]
      refine ⟨_, rfl, ?_⟩
      rw [State.score_congr (State.complete_scores _ k 0 0 _), State.complete_stage _ k 0 0 _]
      exact ⟨stage, next, image, cmd.replied h.1 0 0 _⟩
    · rw [s.loadChunk_refused k score open_ unfit]
      exact ⟨_, rfl, h.refused 3⟩
    · rw [s.loadChunk_absent k score absent]
      exact ⟨_, rfl, h.refused 4⟩
    · rw [s.loadChunk_closed k score closed]
      exact ⟨_, rfl, h.refused 5⟩
  case analyses =>
    obtain rfl : s0 = s.loadOut := out
    refine ⟨fun e refuses => ⟨_, congrArg Host.Outcome.next (State.analysis_refuses p first turn refuses), s.loadOut.afterRefusal_spec i e⟩,
      fun accepts alone => ⟨_, rfl, State.analysis_pkg p first turn accepts alone⟩,
      fun j waits => ⟨_, rfl, State.analysis_taken p first turn waits⟩⟩
  case ends =>
    subst same
    obtain ⟨released, gone, -⟩ := s.releaseAll_spec c.scoreId
    obtain ⟨reported, empty⟩ := s.releaseReported_spec c.scoreId ⟨0x11, 0, 0, 0⟩
    rw [exec_loadEnd h]
    refine ⟨fun p loading accepted pkg => ?_, fun code refusal => ?_, fun accepted unread open_ => ⟨fun whole => ?_, fun short => ?_⟩,
      fun accepted absent => ?_, fun accepted closed => ?_⟩
    · rw [s.loadEnd_finishes k score (.inr ⟨by rw [pkg]; rfl, loading⟩)]
      refine ⟨fun agrees => ?_, fun differs => ?_⟩
      · rw [s.finishLoad_agrees k accepted pkg agrees]
        refine ⟨_, rfl, ?_, ?_, _, (s.loaded_commands _).replied h.1 0 0 _⟩
        · rw [State.score_congr (State.loadReply_scores _ k 0 0), State.loaded_score]
        · rw [State.loadReply, State.complete_sec, State.loaded_exts]
      · rw [s.finishLoad_disagrees k accepted pkg differs]
        obtain ⟨none_, replied⟩ := h.fails reported empty 0x11
        exact ⟨_, rfl, none_, (State.loadReply_fld _ k 6 0x11 _).trans (State.admReport_code _ _ _), replied⟩
    · rw [s.loadEnd_finishes k score (.inl (by rw [refusal]; rfl)), s.finishLoad_refused k refusal]
      exact ⟨_, rfl, h.fails released gone code.toNat⟩
    · rw [s.loadEnd_open k score accepted unread open_, if_neg (Nat.not_lt.2 whole)]
      exact ⟨_, rfl, rfl, (State.CmdKept.refl s).begun h.1⟩
    · rw [s.loadEnd_open k score accepted unread open_, if_pos short]
      refine ⟨_, rfl, h.fails (reported.trans (State.nextAnalysis_commands _)) ?_ 0x11⟩
      exact (State.nextAnalysis_stands _ (.inl (by rw [empty]; decide))).trans empty
    · rw [s.loadEnd_absent k score accepted absent]
      exact ⟨_, rfl, h.refused 4⟩
    · rw [s.loadEnd_closed k score accepted closed]
      exact ⟨_, rfl, h.refused 5⟩

end Sys2Proof.Machine
end

section
/-! SUPPORT. The sample tick: what it leaves alone, and the codes that the outputs take (R236, R289 to R291). -/

namespace Sys2Proof.Machine

/-! ### What a sample tick leaves once it is counted (R236) -/

/-- Between two states the clock, the waiting commands and the trim outputs stand. -/
def State.ClockKept (s u : State) : Prop := u.pending = s.pending ∧ u.tick = s.tick ∧ u.core = s.core ∧ u.trims = s.trims

theorem State.ClockKept.refl (s : State) : s.ClockKept s := ⟨rfl, rfl, rfl, rfl⟩
theorem State.ClockKept.trans {s t u : State} (h : s.ClockKept t) (k : t.ClockKept u) : s.ClockKept u := by
  obtain ⟨pending, tick, core, trims⟩ := h
  obtain ⟨pending', tick', core', trims'⟩ := k
  exact ⟨pending'.trans pending, tick'.trans tick, core'.trans core, trims'.trans trims⟩
theorem State.ClockKept.foldl {α : Type} (f : State → α → State) (step : ∀ u x, State.ClockKept u (f u x)) (l : List α) (s : State) :
    s.ClockKept (l.foldl f s) := foldl_does State.ClockKept .refl (fun _ _ _ => .trans) f step l s
theorem State.ClockKept.ite {s u v : State} {p : Prop} [Decidable p] (h : s.ClockKept u) (k : s.ClockKept v) :
    s.ClockKept (if p then u else v) := iteInduction (motive := s.ClockKept) (fun _ => h) fun _ => k

theorem State.EnginesMoved.clock {s u : State} (h : s.EnginesMoved u) : s.ClockKept u := by
  obtain ⟨g, rfl⟩ := h
  exact .refl _
theorem State.BaysMoved.clock {s u : State} (h : s.BaysMoved u) : s.ClockKept u := by
  obtain ⟨y, t, rfl⟩ := h
  exact .refl _
theorem State.UnitsMoved.clock {s u : State} (h : s.UnitsMoved u) : s.ClockKept u := by
  obtain ⟨t, e, g, rfl, -⟩ := h
  exact .refl _
theorem State.ClaimsMoved.clock {s u : State} (h : s.ClaimsMoved u) : s.ClockKept u := by
  obtain ⟨c, x, g, m, n, rfl, -⟩ := h
  exact .refl _
theorem State.LightMoved.clock {s u : State} (h : s.LightMoved u) : s.ClockKept u := by
  obtain ⟨t, e, l, f, x, g, m, n, rfl, -⟩ := h
  exact .refl _
theorem State.ClockKept.setBayField (s : State) (b v : Nat) : s.ClockKept (s.setBayField b v) := by
  obtain ⟨g, m, n, e, -⟩ := s.setBayField_spec b v
  rw [e]
  exact .refl _

theorem State.EnginesMoved.setEngine (s : State) (e : Nat) (g : Engine) : s.EnginesMoved (s.setEngine e g) := ⟨_, rfl⟩
theorem State.EnginesMoved.foldl {α : Type} (f : State → α → State) (step : ∀ u x, State.EnginesMoved u (f u x)) (l : List α) (s : State) :
    s.EnginesMoved (l.foldl f s) := foldl_does State.EnginesMoved .refl (fun _ _ _ => .trans) f step l s
theorem State.LightMoved.foldl {α : Type} (f : State → α → State) (step : ∀ u x, State.LightMoved u (f u x)) (l : List α) (s : State) :
    s.LightMoved (l.foldl f s) := foldl_does State.LightMoved .refl (fun _ _ _ => .trans) f step l s
theorem State.LightMoved.ite {s u v : State} {p : Prop} [Decidable p] (h : s.LightMoved u) (k : s.LightMoved v) :
    s.LightMoved (if p then u else v) := iteInduction (motive := s.LightMoved) (fun _ => h) fun _ => k
theorem State.LightMoved.setComb (s : State) (i c : Nat) (x : Comb) : s.LightMoved (s.setComb i c x) := .setSource s i _
theorem State.LightMoved.setLine (s : State) (i c n : Nat) (x : Line) : s.LightMoved (s.setLine i c n x) := .setSource s i _

/-! ### The engines in a tick (R238, R240, R247, R260) -/

theorem State.takeCommit_moves (s : State) (e : Nat) : s.EnginesMoved (s.takeCommit e) := by
  unfold State.takeCommit
  extract_lets g
  split
  · exact (s.setLoop_moves e _ _).trans (.setEngine _ e _)
  · exact .refl s

theorem State.holdDrives_moves (s : State) : s.EnginesMoved s.holdDrives :=
  .foldl _ (fun u _ => .foldl _ (fun v _ => v.setLoop_moves 9 _ _) _ u) _ s

theorem State.noteUpset_moves (s : State) (b why : Nat) : s.BaysMoved (s.noteUpset b why) := by
  unfold State.noteUpset
  split
  · exact s.modBay_moves b _
  · exact .refl s

theorem State.ClockKept.judgeSupply (s : State) (e : Nat) : s.ClockKept (s.judgeSupply e) := .ite (s.raise_moves _).clock (.refl s)

theorem State.ClockKept.sampleEngine (s : State) (e mv : Nat) : s.ClockKept (s.sampleEngine e mv) := by
  unfold State.sampleEngine
  extract_lets res
  refine .foldl _ (fun u r => (u.setLoop_moves e _ _).clock.trans (.foldl _ (fun v c => ?_) _ _)) _ s
  refine .trans ?_ (State.raise_moves _ _).clock
  split
  · exact (v.noteUpset_moves _ 3).clock
  · exact .refl v

theorem State.restoreDrives_moves (s : State) : s.EnginesMoved s.restoreDrives := by
  refine .foldl _ (fun u n => ?_) _ s
  dsimp only
  split
  · split
    · exact .refl u
    · exact u.setLoop_moves 9 _ _
  · exact .refl u

theorem State.restoreLimits_moves (s : State) (b : Nat) : s.EnginesMoved (s.restoreLimits b) := by
  unfold State.restoreLimits
  split
  · exact .refl s
  · refine .foldl _ (fun u l => ?_) _ s
    dsimp only
    split
    · exact u.setLoop_moves b _ _
    · exact .refl u

theorem State.spreadBand_moves (s : State) (b : Nat) : s.BaysMoved (s.spreadBand b) :=
  foldl_does State.BaysMoved .refl .trans _ (fun u _ => u.modTile_moves _ _) _ s

/-! ### The light in a tick (R274 to R287) -/

theorem State.LightMoved.armFrom (s : State) (i pos : Nat) : s.LightMoved (s.armFrom i pos) := by
  unfold State.armFrom
  extract_lets c spare s1 line s2 s3
  have held : s.LightMoved s1 :=
    (LightMoved.setComb s i c _).trans ((State.holdNow_moves _ 9 _).trans (State.holdNow_moves _ 9 _)).light
  have cleared : s1.LightMoved s2 := .foldl _ (fun u n => .setLine u i c n _) _ s1
  exact ((held.trans cleared).trans (s2.driveRamp_moves _ _).light).trans (.setSource s3 i _)

theorem State.LightMoved.armStart (s : State) (i : Nat) : s.LightMoved (s.armStart i) := by
  unfold State.armStart
  split
  · split
    · exact .refl s
    · exact ((s.setSpare_moves i 2).light.trans (.armFrom _ i _)).trans (.setSource _ i _)
  · exact .refl s

theorem State.ClockKept.armProgress (s : State) (i : Nat) : s.ClockKept (s.armProgress i) := by
  unfold State.armProgress
  split
  · exact .refl s
  split
  · extract_lets s1 source s2
    have down : s.ClockKept s2 := ((s.combDown_light i _ 0).trans (.setSource s1 i _)).clock
    exact .ite (down.trans (s2.modBay_moves i _).clock) down
  split
  · exact .refl s
  · extract_lets c d t s1
    have asked : s.EnginesMoved s1 := iteInduction (motive := s.EnginesMoved) (fun _ => s.setLoop_moves 9 _ _) fun _ => .refl s
    exact .ite (asked.trans (s1.setLoop_moves 9 _ _)).clock asked.clock

theorem State.ClockKept.withdraw (s : State) (b : Nat) : s.ClockKept (s.withdraw b) := by
  unfold State.withdraw
  extract_lets s0 s1 source s2
  have left : s.ClockKept s0 := .ite (s.leaveDebug_moves b).clock (.refl s)
  have broken : s0.ClockKept (s0.breakBayPromises b 9) := by
    unfold State.breakBayPromises
    split
    · exact .refl s0
    · exact (State.scoreFold_moves _ _ _ _ fun u n c => u.promiseBreak_moves _ n _).clock
  have stopped : (s0.breakBayPromises b 9).ClockKept s1 :=
    (State.stopSeq_moves _ b .assured).clock.trans (State.stopSeq_moves _ b .spare).clock
  exact (((left.trans broken).trans stopped).trans (State.LightMoved.setSource s1 b _).clock).trans (.setBayField s2 b _)

theorem State.ClockKept.degradePromises (s : State) (b : Nat) : s.ClockKept (s.degradePromises b) := by
  unfold State.degradePromises
  split
  · exact .refl s
  · refine (State.scoreFold_moves _ _ _ _ fun u n c => ?_).clock
    split
    · exact u.promiseRisk_moves _ n _
    · exact u.promiseBreak_moves _ n _

theorem State.ClockKept.judgeBay (s : State) (b : Nat) : s.ClockKept (s.judgeBay b) := by
  unfold State.judgeBay
  extract_lets lost work s1 st
  have judged : s.ClockKept s1 :=
    .ite (.refl s) (((s.modBay_moves b _).clock.trans (.setBayField _ b _)).trans (.degradePromises _ b))
  exact judged.trans (.ite (.withdraw s1 b) (.refl s1))

theorem State.ClockKept.lightSample (s : State) (i : Nat) (lines combs : List (Nat × Nat)) : s.ClockKept (s.lightSample i lines combs) := by
  unfold State.lightSample
  extract_lets s1 s2 noSpare s3 s4
  have measured : s.LightMoved s1 := .foldl _ (fun u c => .foldl _ (fun v n => .setLine v i c n _) _ u) _ s
  have sampled : s1.LightMoved s2 := .foldl _ (fun u c => .setComb u i c _) _ s1
  have judged : s2.LightMoved s3 :=
    .foldl _ (fun u c => .foldl _ (fun v n => .ite (.setLine v i c n _) (.refl v)) _ u) _ s2
  have armed : s.ClockKept s4 :=
    ((((measured.trans sampled).trans judged).trans (s3.darkenLanes_light s i)).trans (.armStart _ i)).clock.trans (.armProgress _ i)
  exact .ite ((armed.trans (s4.spreadAffected_light i).clock).trans (.judgeBay _ i)) armed

/-! ### The codes of a tick (R290, R291) -/

/-- An output takes its code, and its loop notes whether the slew limit held it back. -/
def State.takeCode (s : State) (o : Nat) (c : Nat × Bool) : State :=
  let s1 := s.setTrimOut o { s.trimOut o with code := BitVec.ofNat 16 c.1, prev := (s.trimOut o).code }
  match outLoop o with
  | some l => s1.setLoop (outEngine o) l { s1.loopOf (outEngine o) l with held := c.2 }
  | none => s1

theorem State.applyCodes_eq (s : State) : s.applyCodes = (List.range 5227).foldl (fun u o => u.takeCode o (s.newCode o)) s := by
  unfold State.applyCodes
  dsimp only
  rw [List.foldl_map]
  rfl

/-- Between two states only the engines and the trim outputs moved. -/
def State.OutputsMoved (s u : State) : Prop := ∃ g x, u = { s with engines := g, trims := x }

theorem State.OutputsMoved.trans (s t u : State) (h : s.OutputsMoved t) (k : t.OutputsMoved u) : s.OutputsMoved u := by
  obtain ⟨g, x, rfl⟩ := h
  obtain ⟨g', x', rfl⟩ := k
  exact ⟨g', x', rfl⟩

theorem State.takeCode_moves (s : State) (o : Nat) (c : Nat × Bool) : s.OutputsMoved (s.takeCode o c) := by
  unfold State.takeCode
  extract_lets s1
  split
  · exact ⟨_, _, rfl⟩
  · exact ⟨_, _, rfl⟩

theorem State.applyCodes_moves (s : State) : s.OutputsMoved s.applyCodes := by
  rw [s.applyCodes_eq]
  exact foldl_does State.OutputsMoved (fun u => ⟨u.engines, u.trims, rfl⟩) .trans _ (fun u o => u.takeCode_moves o _) _ s

theorem State.takeCode_code (s : State) (o k : Nat) (c : Nat × Bool) :
    ((s.takeCode o c).trimOut k).code = if k = o then BitVec.ofNat 16 c.1 else (s.trimOut k).code := by
  have taken : (s.takeCode o c).trims =
      (s.setTrimOut o { s.trimOut o with code := BitVec.ofNat 16 c.1, prev := (s.trimOut o).code }).trims := by
    unfold State.takeCode
    extract_lets s1
    split
    · exact State.setLoop_trims _ _ _ _
    · rfl
  unfold State.trimOut at taken ⊢
  rw [taken]
  refine (congrArg TrimOut.code (State.trimOut_setTrimOut s o k _)).trans ?_
  split
  · rfl
  · rfl

/-- Every output of a list takes its code, whatever the order. -/
theorem State.foldl_takeCode_code (code : Nat → Nat × Bool) (l : List Nat) (s : State) (k : Nat) :
    ((l.foldl (fun u o => u.takeCode o (code o)) s).trimOut k).code =
      if k ∈ l then BitVec.ofNat 16 (code k).1 else (s.trimOut k).code := by
  induction l generalizing s with
  | nil => rfl
  | cons o l ih =>
    rw [List.foldl_cons, ih, s.takeCode_code]
    by_cases here : k = o
    · subst here
      simp
    · simp [here]

theorem State.applyCodes_forced (s : State) (forced : s.allForced = true) {o : Nat} (h : o < 5227) :
    (s.applyCodes.trimOut o).code = BitVec.ofNat 16 (s.safeCode o) := by
  have safe : s.newCode o = (s.safeCode o, false) := by
    unfold State.newCode State.isForced
    rw [forced, Bool.true_or, Bool.true_or, if_pos rfl]
  rw [s.applyCodes_eq, State.foldl_takeCode_code, if_pos (List.mem_range.2 h), safe]

/-- A tick: counted, what the engines commit, the codes, and then nothing that the clock or the outputs show. -/
theorem State.loopTick_spec (s : State) (i : TickInputs) :
    ∃ t, State.EnginesMoved { s with tick := s.tick + 1, core := 0 } t ∧ t.applyCodes.ClockKept (s.loopTick i) := by
  unfold State.loopTick
  extract_lets s0 on s1 s2 old s3 s4 s5
  refine ⟨s1, .foldl _ (fun u e => (u.takeCommit_moves e).trans (.setEngine _ e _)) on s0, ?_⟩
  have latched : s2.EnginesMoved s3 := (EnginesMoved.foldl _ (fun u e => .setEngine u e _) on s2).trans (State.holdDrives_moves _)
  have sampled : s3.ClockKept s4 := .foldl _ (fun u p => (ClockKept.judgeSupply u _).trans (.sampleEngine _ _ _)) old s3
  have lit : s4.ClockKept s5 :=
    .ite ((ClockKept.foldl _ (fun u n => .lightSample u n _ _) _ s4).trans (State.restoreDrives_moves _).clock) (.refl s4)
  refine ((latched.clock.trans sampled).trans lit).trans (State.ClockKept.trans (.foldl _ (fun u b => ?_) _ s5) ⟨rfl, rfl, rfl, rfl⟩)
  exact ((u.spreadBand_moves b).clock.trans (State.modBay_moves _ b _).clock).trans (State.restoreLimits_moves _ b).clock

end Sys2Proof.Machine
end

section
/-! SUPPORT. The faults of a loop: what a hand-over that is cancelled and a following fault bring about (R254, R260, R262, R323, R430). -/

namespace Sys2Proof.Machine

theorem State.engine_congr {s u : State} (h : u.engines = s.engines) (e : Nat) : u.engine e = s.engine e := by
  unfold State.engine
  rw [h]

theorem State.loopOf_congr {s u : State} (h : u.engines = s.engines) (e l : Nat) : u.loopOf e l = s.loopOf e l := by
  unfold State.loopOf
  rw [State.engine_congr h]

/-- A fault record leaves the engines, the bays, the fabric and the registers of the engines. -/
theorem State.raise_leaves (s : State) (f : FaultRec) :
    (s.raise f).engines = s.engines ∧ (s.raise f).bays = s.bays ∧ (s.raise f).fab = s.fab ∧
      ∀ off, off ≠ GLB_FLT_PTR.wr.off → (s.raise f).reg off = s.reg off := by
  obtain ⟨x, g, m, n, e, -, regs⟩ := s.raise_spec f
  exact ⟨by rw [e], by rw [e], by rw [e], regs⟩

section
variable (s : State) (e : EngineId) (l : SlotId)

theorem exec_handOverTimeout (used : slotUsed e l = true) : exec (.handOverTimeout e l) s = .next (s.handOverTimeout e l) := if_pos used
theorem exec_followingFault (used : slotUsed e l = true) : exec (.followingFault e l) s = .next (s.followingFault e l) := if_pos used

end

section
variable (s : State) (e l : Nat)

/-! ### A hand-over that has waited its time (R254) -/

theorem State.handOverTimeout_due (due : (s.loopOf e l).handOverDue = true) :
    (s.handOverTimeout e l).loopOf e l = { s.loopOf e l with pend := none, hflt := true, ended := false } := by
  unfold State.handOverTimeout
  rw [if_pos due, State.loopOf_congr (State.raise_leaves _ _).1, State.loopOf_setLoop_same]

theorem State.handOverTimeout_early (early : (s.loopOf e l).handOverDue = false) : s.handOverTimeout e l = s :=
  if_neg (by rw [early]; exact Bool.false_ne_true)

/-! ### A following fault (R260, R262, R323, R430) -/

/-- Whether R430 spares the bay: the fault of a loop of a bay's engine in a thermal excursion, by neither limit. -/
def State.followSpared : Bool := e < 8 && (s.engine e).exc && !(s.loopOf e l).followLim && !(s.loopOf e l).clamped

theorem State.followSpared_iff : s.followSpared e l = true ↔
    e < 8 ∧ (s.engine e).exc = true ∧ (s.loopOf e l).followLim = false ∧ (s.loopOf e l).clamped = false := by
  simp [State.followSpared, and_assoc]

/-- A following fault as its loop and LOOP_FOLLOW show it. -/
def State.followNoted : State :=
  let L := s.loopOf e l
  let s1 := s.setLoop e l { L with fired := true, count := if s.followSpared e l then 0 else L.count }
  let s2 := ((s1.setFlag (LOOP_FOLLOW.valid.on e) true).setFlag (LOOP_FOLLOW.auth.on e) L.clamped).setFlag (LOOP_FOLLOW.lim.on e) L.followLim
  (s2.setFld (LOOP_FOLLOW.loop.on e) l).bump (LOOP_FOLLOW.count.on e)

/-- Between two states only registers moved. -/
def State.RegsMoved (s u : State) : Prop := ∃ g, u = { s with regs := g }

theorem State.RegsMoved.trans {s t u : State} (h : s.RegsMoved t) (k : t.RegsMoved u) : s.RegsMoved u := by
  obtain ⟨g, rfl⟩ := h
  obtain ⟨g', rfl⟩ := k
  exact ⟨g', rfl⟩
theorem State.setFld_moves (s : State) (f : Fld) (v : Nat) : s.RegsMoved (s.setFld f v) := ⟨_, rfl⟩
theorem State.setFlag_moves (s : State) (f : Fld) (b : Bool) : s.RegsMoved (s.setFlag f b) := ⟨_, rfl⟩
theorem State.bump_moves (s : State) (f : Fld) (n : Nat) : s.RegsMoved (s.bump f n) := ⟨_, rfl⟩

theorem State.followNoted_moves :
    (s.setLoop e l { s.loopOf e l with fired := true, count := if s.followSpared e l then 0 else (s.loopOf e l).count }).RegsMoved
      (s.followNoted e l) :=
  ((((State.setFlag_moves _ _ _).trans (State.setFlag_moves _ _ _)).trans (State.setFlag_moves _ _ _)).trans
    (State.setFld_moves _ _ _)).trans (State.bump_moves _ _ _)

theorem State.followNoted_loopOf : (s.followNoted e l).loopOf e l =
    { s.loopOf e l with fired := true, count := if s.followSpared e l then 0 else (s.loopOf e l).count } := by
  obtain ⟨g, noted⟩ := s.followNoted_moves e l
  rw [State.loopOf_congr (s := s.setLoop e l _) (by rw [noted]), State.loopOf_setLoop_same]

theorem State.followNoted_bays : (s.followNoted e l).bays = s.bays := by
  obtain ⟨g, noted⟩ := s.followNoted_moves e l
  rw [noted]
  rfl

/-- What LOOP_FOLLOW shows of a following fault. -/
theorem State.followNoted_fields (h : l < 512) :
    (s.followNoted e l).flag (LOOP_FOLLOW.valid.on e) = true ∧ (s.followNoted e l).fld (LOOP_FOLLOW.loop.on e) = l ∧
      (s.followNoted e l).flag (LOOP_FOLLOW.auth.on e) = (s.loopOf e l).clamped ∧
      (s.followNoted e l).flag (LOOP_FOLLOW.lim.on e) = (s.loopOf e l).followLim := by
  unfold State.followNoted State.bump State.setFlag
  extract_lets L s1 s2
  generalize min (_ : Nat) _ = n
  have other : ∀ {g : Fld}, LOOP_FOLLOW.count.Beside g → LOOP_FOLLOW.loop.Beside g →
      ((s2.setFld (LOOP_FOLLOW.loop.on e) l).setFld (LOOP_FOLLOW.count.on e) n).flag (g.on e) = s2.flag (g.on e) := fun c o => by
    rw [State.flag_setFld_on_beside _ (f := LOOP_FOLLOW.count) (by decide) e c,
      State.flag_setFld_on_beside _ (f := LOOP_FOLLOW.loop) (by decide) e o]
  refine ⟨?valid, ?loop, ?auth, ?lim⟩
  case valid =>
    rw [other (by decide) (by decide), State.flag_setFld_on_beside _ (f := LOOP_FOLLOW.lim) (by decide) e (by decide),
      State.flag_setFld_on_beside _ (f := LOOP_FOLLOW.auth) (by decide) e (by decide)]
    exact s1.flag_setFlag_on (f := LOOP_FOLLOW.valid) (by decide) e true
  case loop =>
    rw [State.fld_setFld_on_beside _ (f := LOOP_FOLLOW.count) (by decide) e (by decide),
      State.fld_setFld_on _ (f := LOOP_FOLLOW.loop) (by decide)]
    exact Nat.mod_eq_of_lt h
  case auth =>
    rw [other (by decide) (by decide), State.flag_setFld_on_beside _ (f := LOOP_FOLLOW.lim) (by decide) e (by decide)]
    exact State.flag_setFlag_on _ (f := LOOP_FOLLOW.auth) (by decide) e L.clamped
  case lim =>
    rw [other (by decide) (by decide)]
    exact State.flag_setFlag_on _ (f := LOOP_FOLLOW.lim) (by decide) e L.followLim

theorem State.followingFault_early (early : (s.loopOf e l).followDue = false) : s.followingFault e l = s :=
  if_pos (by rw [early]; rfl)

/-- A following fault that is due is noted, acts, and is recorded. -/
theorem State.followingFault_due (due : (s.loopOf e l).followDue = true) :
    ∃ f, s.followingFault e l = ((s.followNoted e l).followAct e l (s.followSpared e l)).1.raise f := by
  unfold State.followingFault
  extract_lets L lim spared s1 s2 s3 r
  rw [show L.followDue = true from due]
  exact ⟨_, rfl⟩

theorem State.noteUpset_pause (b why k : Nat) : ((s.noteUpset b why).bay k).pauseFollow = (s.bay k).pauseFollow := by
  unfold State.noteUpset
  split
  · unfold State.modBay
    rw [State.bay_setBay]
    split
    · next here => rw [here]
    · rfl
  · rfl

/-- What a following fault stops is a bay or a group. -/
theorem State.followAct_moves (spared : Bool) : ∃ y t f, (s.followAct e l spared).1 = { s with bays := y, tiles := t, fab := f } := by
  unfold State.followAct
  split
  · exact ⟨_, _, _, rfl⟩
  split
  · exact ⟨_, _, _, rfl⟩
  split
  · exact ⟨_, _, _, rfl⟩
  · next b _ _ =>
    obtain ⟨y, t, acted⟩ := (s.pause b fun y => { y with pauseFollow := true }).noteUpset_moves b 3
    exact ⟨y, t, _, acted⟩

theorem State.followAct_group (spared : Bool) (h : e = 8) : ((s.followAct e l spared).1.group (l / 4) (l % 4)).state = 3 := by
  unfold State.followAct
  rw [if_pos h, State.group_setGroup_same]

theorem State.followAct_bay (spared : Bool) (h : e ≠ 8) {b : Nat} (acts : loopBay e l = some b) :
    (((s.followAct e l spared).1).bay b).pauseFollow = if spared then (s.bay b).pauseFollow else true := by
  unfold State.followAct
  rw [if_neg h, acts]
  dsimp only
  split
  · rfl
  · rw [State.noteUpset_pause]
    exact congrArg Bay.pauseFollow (s.bay_modBay_same b _)

/-- A following fault as LOOP_FOLLOW, its loop, and the bay or the group that it acts on show it. -/
theorem State.followingFault_spec (due : (s.loopOf e l).followDue = true) (slot : l < 512) :
    (s.followingFault e l).flag (LOOP_FOLLOW.valid.on e) = true ∧ (s.followingFault e l).fld (LOOP_FOLLOW.loop.on e) = l ∧
      (s.followingFault e l).flag (LOOP_FOLLOW.auth.on e) = (s.loopOf e l).clamped ∧
      (s.followingFault e l).flag (LOOP_FOLLOW.lim.on e) = (s.loopOf e l).followLim ∧
      ((s.followingFault e l).loopOf e l).fired = true ∧
      (e = 8 → ((s.followingFault e l).group (l / 4) (l % 4)).state = 3) ∧
      ∀ b, e ≠ 8 → loopBay e l = some b →
        ((s.followingFault e l).bay b).pauseFollow = if s.followSpared e l then (s.bay b).pauseFollow else true := by
  obtain ⟨f, fault⟩ := s.followingFault_due e l due
  obtain ⟨y, t, x, acted⟩ := (s.followNoted e l).followAct_moves e l (s.followSpared e l)
  obtain ⟨engines, bays, fab, regs⟩ := State.raise_leaves ((s.followNoted e l).followAct e l (s.followSpared e l)).1 f
  obtain ⟨valid, loop, auth, lim⟩ := s.followNoted_fields e l slot
  rw [← fault] at engines bays fab regs
  have same : ∀ f : Fld, GLB_FLT_PTR.wr.off < f.off → (s.followingFault e l).reg (f.on e).off = (s.followNoted e l).reg (f.on e).off :=
    fun f below => (regs _ (Fld.on_off_ne_below below e)).trans (State.reg_congr (by rw [acted]) _)
  refine ⟨(State.flag_congr _ (same LOOP_FOLLOW.valid (by decide))).trans valid,
    (State.fld_congr _ (same LOOP_FOLLOW.loop (by decide))).trans loop,
    (State.flag_congr _ (same LOOP_FOLLOW.auth (by decide))).trans auth,
    (State.flag_congr _ (same LOOP_FOLLOW.lim (by decide))).trans lim,
    ?_, fun h => ?_, fun b h acts => ?_⟩
  · rw [State.loopOf_congr (s := s.followNoted e l) (engines.trans (by rw [acted])), s.followNoted_loopOf]
  · rw [State.group_congr fab]
    exact (s.followNoted e l).followAct_group e l _ h
  · rw [State.bay_congr bays, State.followAct_bay _ e l _ h acts, State.bay_congr (s.followNoted_bays e l)]

end

/-! ### The end of a bay's pauses (R262, R295, R387) -/

theorem State.bayResume_ends (s : State) (b : Nat) (samples : 1000 ≤ (s.bay b).inBand) (unforced : s.unforced b = true)
    (there : s.flag CLK_REF_STAT.lost = false) : ((s.bayResume b).bay b).paused = false := by
  unfold State.bayResume
  rw [if_pos (by simp [samples, unforced, there]), State.bay_modBay_same]
  rfl

theorem State.bayResume_waits (s : State) (b : Nat)
    (h : (s.bay b).inBand < 1000 ∨ s.unforced b = false ∨ s.flag CLK_REF_STAT.lost = true) : s.bayResume b = s := by
  unfold State.bayResume
  refine if_neg fun all => ?_
  simp only [Bool.and_eq_true, decide_eq_true_eq, Bool.not_eq_true'] at all
  obtain ⟨⟨samples, unforced⟩, there⟩ := all
  rcases h with few | forced | lost
  · omega
  · exact Bool.false_ne_true (forced.symm.trans unforced)
  · exact Bool.false_ne_true (there.symm.trans lost)

/-- Settles O20: the tick by its codes and by what it leaves, each fault by whether it is due, and the resumption by its conditions. -/
theorem ticksAndLoopFaults : Obligations.TicksAndLoopFaults := by
  refine ⟨fun s i => ?tick, fun s e l used => ?faults, fun s b =>
    ⟨fun samples unforced there => ⟨_, rfl, s.bayResume_ends b samples unforced there⟩,
      fun waits => congrArg Host.Outcome.next (s.bayResume_waits b waits)⟩⟩
  case tick =>
    obtain ⟨t, committed, pending, tick, core, trims⟩ := s.loopTick_spec i
    obtain ⟨g, rfl⟩ := committed
    obtain ⟨g', x, coded⟩ := State.applyCodes_moves { s with tick := s.tick + 1, core := 0, engines := g }
    have mem := s.loopTick_mem i
    refine ⟨_, rfl, tick.trans (by rw [coded]), core.trans (by rw [coded]), congrArg Prod.fst mem, congrArg Prod.snd mem,
      pending.trans (by rw [coded]), fun forced o h => ?_⟩
    have code := State.applyCodes_forced { s with tick := s.tick + 1, core := 0, engines := g } forced h
    unfold State.trimOut at code ⊢
    rw [trims, code]
    rfl
  case faults =>
    rw [exec_handOverTimeout s e l used, exec_followingFault s e l used]
    refine ⟨fun due => ⟨_, rfl, ?_⟩, fun early => congrArg Host.Outcome.next (s.handOverTimeout_early e l early), fun due => ?_,
      fun early => congrArg Host.Outcome.next (s.followingFault_early e l early)⟩
    · rw [s.handOverTimeout_due e l due]
      exact ⟨rfl, rfl, rfl⟩
    · obtain ⟨valid, loop, auth, lim, fired, group, bay⟩ := s.followingFault_spec e l due l.isLt
      refine ⟨_, rfl, valid, loop, auth, lim, fired, group, fun b h acts => ?_⟩
      rw [bay b h acts, ← s.followSpared_iff]
      exact ⟨fun hit => if_neg hit, fun spared => if_pos spared⟩

end Sys2Proof.Machine
end

section
/-! SUPPORT. Telemetry: what a sample takes, writes or drops, and the ring's control register (R271). -/

namespace Sys2Proof.Machine

/-! ### Records (R271) -/

section
variable (s : State) (e l : Nat)

/-- The address of the next record of an engine's telemetry ring. -/
def State.telAt : Nat := 64 * s.fld (LOOP_TEL_ADDR.addr.on e) + 32 * (s.engine e).telPtr

/-- The loops whose records a sample takes. -/
def State.telPicks : List Nat :=
  [s.fld (LOOP_TEL_SEL.la.on e), s.fld (LOOP_TEL_SEL.lb.on e), s.fld (LOOP_TEL_SEL.lc.on e)].take (max 1 (s.fld (LOOP_TEL_SEL.n.on e)))

theorem State.telPicks_length : (s.telPicks e).length = min (max 1 (s.fld (LOOP_TEL_SEL.n.on e))) 3 := List.length_take

theorem State.telPicks_one (h : max 1 (s.fld (LOOP_TEL_SEL.n.on e)) = 1) : s.telPicks e = [s.fld (LOOP_TEL_SEL.la.on e)] := by
  unfold State.telPicks
  rw [h]
  rfl

/-- Telemetry with the sample noted as taken. -/
def State.telNoted : State := s.setEngine e { s.engine e with telTick := some s.tick }

theorem State.telNoted_engine : (s.telNoted e).engine e = { s.engine e with telTick := some s.tick } := s.engine_setEngine_same e _

theorem State.telNoted_moves : s.EnginesMoved (s.telNoted e) := .setEngine s e _

theorem State.telNoted_fld (f : Fld) : (s.telNoted e).fld f = s.fld f := State.fld_congr f (State.reg_congr (s.telNoted_moves e).regs _)

theorem State.telNoted_telAt : (s.telNoted e).telAt e = s.telAt e := by
  unfold State.telAt
  rw [State.telNoted_fld, State.telNoted_engine]

theorem State.EnginesMoved.outCode {s u : State} (h : s.EnginesMoved u) (o : Nat) : u.outCode o = s.outCode o := by
  obtain ⟨g, rfl⟩ := h
  rfl

/-- A record says nothing of the telemetry itself. -/
theorem State.telNoted_telRecord : (s.telNoted e).telRecord e l = s.telRecord e l := by
  have loop : (s.telNoted e).loopOf e l = s.loopOf e l := by
    unfold State.loopOf
    rw [State.telNoted_engine]
  have tick : (s.telNoted e).tick = s.tick := rfl
  unfold State.telRecord
  simp only [loop, tick, (s.telNoted_moves e).outCode]

/-! ### The sample that takes records (R271) -/

/-- A sample that telemetry takes: the ring is on, the engine evaluates, the decimation takes it, and it has not been taken. -/
def State.telTakes : Prop :=
  s.flag (LOOP_TEL_CTL.en.on e) = true ∧ s.runs e = true ∧ s.tick % 2 ^ min 10 (s.fld (LOOP_TEL_CTL.dec.on e)) = 0 ∧
    (s.engine e).telTick ≠ some s.tick

theorem State.telTakes_iff :
    (s.flag (LOOP_TEL_CTL.en.on e) && s.runs e && s.tick % 2 ^ min 10 (s.fld (LOOP_TEL_CTL.dec.on e)) == 0 &&
      (s.engine e).telTick != some s.tick) = true ↔ s.telTakes e := by
  simp only [Bool.and_eq_true, beq_iff_eq, bne_iff_ne, and_assoc, State.telTakes]

theorem State.telemetry_taken (free : Bool) (h : s.telTakes e) :
    s.telemetry e free = (s.telPicks e).foldl (fun u l => u.telWrite e l free) (s.telNoted e) := if_pos ((s.telTakes_iff e).2 h)

theorem State.telemetry_passes (free : Bool) (h : ¬ s.telTakes e) : s.telemetry e free = s :=
  if_neg fun taken => h ((s.telTakes_iff e).1 taken)

/-! ### A record that is written or dropped (R271) -/

theorem State.telWrite_drops (free : Bool) (full : (free && s.hasSlot (s.telAt e) writeKinds 5) = false) :
    s.telWrite e l free = s.bump (LOOP_TEL_CTL.drops.on e) := by
  unfold State.telWrite
  exact if_neg (by rw [← State.telAt, full]; exact Bool.false_ne_true)

theorem State.telWrite_writes (slot : s.hasSlot (s.telAt e) writeKinds 5 = true) :
    s.telWrite e l true = (s.putBytes 0xFFFF (s.telAt e) (leBytes 32 (s.telRecord e l))).setEngine e
      { s.engine e with telPtr := ((s.engine e).telPtr + 1) % 2 ^ (s.fld (LOOP_TEL_CTL.size.on e) + 5) } := by
  unfold State.telWrite
  exact if_pos slot

/-- The sample stays taken while its records are. -/
theorem State.telWrite_telTick (free : Bool) : ((s.telWrite e l free).engine e).telTick = (s.engine e).telTick := by
  cases slot : free && s.hasSlot (s.telAt e) writeKinds 5 with
  | false =>
    rw [s.telWrite_drops e l free slot]
    exact congrArg Engine.telTick (State.engine_congr (s.bump_engines _ _) e)
  | true =>
    obtain ⟨rfl, has⟩ := (Bool.and_eq_true _ _).mp slot
    rw [s.telWrite_writes e l has, State.engine_setEngine_same]

theorem State.telemetry_telTick (free : Bool) (h : s.telTakes e) : ((s.telemetry e free).engine e).telTick = some s.tick := by
  rw [s.telemetry_taken e free h]
  refine (foldl_does (fun s u => (u.engine e).telTick = (s.engine e).telTick) (fun _ => rfl) (fun _ _ _ h k => k.trans h) _
    (fun u l => u.telWrite_telTick e l free) _ _).trans ?_
  rw [s.telNoted_engine]

/-- Records that find no slot are counted, and nothing else moves. -/
theorem State.foldl_telWrite_drops (ls : List Nat) :
    (ls.foldl (fun u l => u.telWrite e l false) s).stage = s.stage ∧ (ls.foldl (fun u l => u.telWrite e l false) s).engines = s.engines ∧
      (ls.foldl (fun u l => u.telWrite e l false) s).fld (LOOP_TEL_CTL.drops.on e) =
        min (s.fld (LOOP_TEL_CTL.drops.on e) + ls.length) 65535 := by
  induction ls generalizing s with
  | nil =>
    have count : s.fld (LOOP_TEL_CTL.drops.on e) < 65536 := s.fld_lt _
    exact ⟨rfl, rfl, (min_eq_left (Nat.le_of_lt_succ count)).symm⟩
  | cons l ls ih =>
    obtain ⟨stage, engines, drops⟩ := ih (s.bump (LOOP_TEL_CTL.drops.on e))
    rw [List.foldl_cons, s.telWrite_drops e l false rfl]
    refine ⟨stage.trans (s.bump_stage _ _), engines.trans (s.bump_engines _ _), drops.trans ?_⟩
    rw [State.fld_bump_on s (f := LOOP_TEL_CTL.drops) (by decide) e rfl, List.length_cons]
    omega

theorem State.telemetry_drops (h : s.telTakes e) :
    (s.telemetry e false).stage = s.stage ∧ ((s.telemetry e false).engine e).telPtr = (s.engine e).telPtr ∧
      (s.telemetry e false).fld (LOOP_TEL_CTL.drops.on e) =
        min (s.fld (LOOP_TEL_CTL.drops.on e) + min (max 1 (s.fld (LOOP_TEL_SEL.n.on e))) 3) 65535 := by
  obtain ⟨stage, engines, drops⟩ := (s.telNoted e).foldl_telWrite_drops e (s.telPicks e)
  rw [s.telPicks_length, s.telNoted_fld] at drops
  rw [s.telemetry_taken e false h]
  exact ⟨stage, by rw [State.engine_congr engines, s.telNoted_engine], drops⟩

/-- A record that is written stands in stage memory, nothing else there changes, and the ring goes on. -/
theorem State.telWrite_record (slot : s.hasSlot (s.telAt e) writeKinds 5 = true) (first : s.holdsDesc (s.telAt e) = false)
    (last : s.holdsDesc (s.telAt e + 31) = false) :
    (s.telWrite e l true).stageBytesAt (s.telAt e) 32 = leBytes 32 (s.telRecord e l) ∧
    ((s.telWrite e l true).engine e).telPtr = ((s.engine e).telPtr + 1) % 2 ^ (s.fld (LOOP_TEL_CTL.size.on e) + 5) ∧
    ((∀ k, s.blockBad (64 * k) = false) → ∀ n, (n < s.telAt e ∨ s.telAt e + 32 ≤ n) →
      (s.telWrite e l true).stageByte n = s.stageByte n) := by
  rw [s.telWrite_writes e l slot, State.engine_setEngine_same]
  generalize record : leBytes 32 (s.telRecord e l) = bs
  have length : bs.length = 32 := record ▸ leBytes_length 32 _
  have stored : s.putBytes 0xFFFF (s.telAt e) bs = s.storeBytes (s.telAt e) bs := by
    refine if_neg ?_
    rw [length, first, show s.telAt e + 32 - 1 = s.telAt e + 31 by omega, last]
    exact Bool.false_ne_true
  rw [stored]
  generalize s.telAt e = a
  refine ⟨?_, rfl, fun good n outside => ?_⟩
  · rw [← length]
    refine State.stageBytesAt_eq _ a bs fun n inside => ?_
    rw [State.stageByte_congr (State.setEngine_stage _ _ _), s.stageByte_storeBytes_inside _ _ inside]
  · rw [State.stageByte_congr (State.setEngine_stage _ _ _), s.stageByte_storeBytes_outside _ _ good (by rw [length]; exact outside)]

/-- With one loop selected, its record is written where the ring stands. -/
theorem State.telemetry_record (h : s.telTakes e) (one : max 1 (s.fld (LOOP_TEL_SEL.n.on e)) = 1)
    (slot : s.hasSlot (s.telAt e) writeKinds 5 = true) (first : s.holdsDesc (s.telAt e) = false)
    (last : s.holdsDesc (s.telAt e + 31) = false) :
    (s.telemetry e true).stageBytesAt (s.telAt e) 32 = leBytes 32 (s.telRecord e (s.fld (LOOP_TEL_SEL.la.on e))) ∧
    ((s.telemetry e true).engine e).telPtr = ((s.engine e).telPtr + 1) % 2 ^ (s.fld (LOOP_TEL_CTL.size.on e) + 5) ∧
    ((∀ k, s.blockBad (64 * k) = false) → ∀ n, (n < s.telAt e ∨ s.telAt e + 32 ≤ n) →
      (s.telemetry e true).stageByte n = s.stageByte n) := by
  have stage : (s.telNoted e).stage = s.stage := s.setEngine_stage e _
  have scores : (s.telNoted e).scores = s.scores := s.setEngine_scores e _
  have written := (s.telNoted e).telWrite_record e (s.fld (LOOP_TEL_SEL.la.on e))
  simp only [s.telNoted_telAt, s.telNoted_telRecord, s.telNoted_fld, s.telNoted_engine, State.hasSlot_congr stage,
    State.holdsDesc_congr scores, State.blockBad_congr stage, State.stageByte_congr stage] at written
  rw [s.telemetry_taken e true h, s.telPicks_one e one]
  exact written slot first last

end

/-! ### The control register (R271) -/

section
variable (s : State) (e : Nat) (v : Word)

/-- The score whose range a telemetry ring must lie in: the bay's, and for LE8 and LE9 none. -/
def State.telScore : ScoreId := if e < 8 then s.bayScore e else 0

/-- Whether an enable of an engine's ring is taken: the bay is a score's, and the whole ring is the score's. -/
def State.telRing : Bool :=
  (e ≥ 8 || s.telScore e != 0) && s.ringOk (64 * s.fld (LOOP_TEL_ADDR.addr.on e)) (2 ^ (bits v.toNat 7 4 + 10)) (s.telScore e)

theorem State.telRing_iff : s.telRing e v = true ↔
    s.ringOk (64 * s.fld (LOOP_TEL_ADDR.addr.on e)) (2 ^ (v.toNat / 16 % 16 + 10)) (if e < 8 then s.bayScore e else 0) = true ∧
      (e < 8 → s.bayScore e ≠ 0) := by
  have bound : (e ≥ 8 ∨ s.telScore e ≠ 0) ↔ (e < 8 → s.bayScore e ≠ 0) := by
    unfold State.telScore
    by_cases low : e < 8
    · simp [low, Nat.not_le.2 low]
    · simp [low, Nat.not_lt.1 low]
  rw [← bound]
  unfold State.telRing
  rw [Bool.and_eq_true, Bool.or_eq_true, decide_eq_true_iff, bne_iff_ne]
  exact and_comm

end

/-- The fields of LOOP_TEL_CTL. -/
def telCtl : RegSpec := ⟨0x58, false, [⟨31, 31, .rw, 0⟩, ⟨23, 8, .cnt, 0⟩, ⟨7, 4, .rw, 0⟩, ⟨3, 0, .rw, 0⟩]⟩

theorem regSpec_telCtl : ∀ e : EngineId, regSpec (LOOP_TEL_CTL.en.on e).off = some telCtl := by decide

theorem telCtl_apart : telCtl.FieldsApart := by
  unfold RegSpec.FieldsApart
  decide

section
variable (s : State) (e : EngineId) (v : Word)

/-- The enable that a write of LOOP_TEL_CTL leaves. -/
theorem State.flag_telEnable : (s.rawWrite (LOOP_TEL_CTL.en.on e).off v).flag (LOOP_TEL_CTL.en.on e) = v.getLsbD 31 := by
  have en := s.fld_rawWrite v (regSpec_telCtl e) telCtl_apart ⟨31, 31, .rw, 0⟩ (by decide)
  exact (congrArg (· != 0) en).trans (bits_flag v 31)

theorem State.telWriteCtl_off (h : v.getLsbD 31 = false) : (s.telWriteCtl e v).flag (LOOP_TEL_CTL.en.on e) = false := by
  unfold State.telWriteCtl
  dsimp only
  rw [h, Bool.not_false, if_pos rfl, s.flag_telEnable, h]

theorem State.telWriteCtl_on (h : v.getLsbD 31 = true) :
    s.telWriteCtl e v =
      let s1 := s.rawWrite (LOOP_TEL_CTL.en.on e).off v
      if s.telRing e v then s1.setEngine e { s1.engine e with telPtr := 0 } else s1.setFlag (LOOP_TEL_CTL.en.on e) false := by
  unfold State.telWriteCtl
  dsimp only
  rw [h, Bool.not_true, if_neg Bool.false_ne_true]
  rfl

theorem State.telWriteCtl_taken (h : v.getLsbD 31 = true) (ring : s.telRing e v = true) :
    (s.telWriteCtl e v).flag (LOOP_TEL_CTL.en.on e) = true ∧ ((s.telWriteCtl e v).engine e).telPtr = 0 := by
  rw [s.telWriteCtl_on e v h]
  dsimp only
  rw [if_pos ring, State.engine_setEngine_same, State.flag_congr _ (State.reg_congr (State.setEngine_regs _ _ _) _), s.flag_telEnable, h]
  exact ⟨rfl, rfl⟩

theorem State.telWriteCtl_refused (h : v.getLsbD 31 = true) (ring : ¬ s.telRing e v = true) :
    (s.telWriteCtl e v).flag (LOOP_TEL_CTL.en.on e) = false := by
  rw [s.telWriteCtl_on e v h]
  dsimp only
  rw [if_neg ring]
  exact State.flag_setFlag_on _ (f := LOOP_TEL_CTL.en) (by decide) e false

end

/-- Settles O21: a sample by whether it is taken and by its slot, and a write of the control register by its ring. -/
theorem telemetryIsTaken : Obligations.TelemetryIsTaken := by
  intro s e v free takes n a ringOk
  refine ⟨fun taken => ⟨_, rfl, s.telemetry_telTick e free taken, fun one slotFree slot first last => ?written, fun slotless => ?dropped⟩,
    fun passes => congrArg Host.Outcome.next (s.telemetry_passes e free passes),
    fun off => ⟨_, rfl, s.telWriteCtl_off e v off⟩,
    fun on ring => ⟨_, rfl, s.telWriteCtl_taken e v on ((s.telRing_iff e v).2 ring)⟩,
    fun on ring => ⟨_, rfl, s.telWriteCtl_refused e v on fun taken => ring ((s.telRing_iff e v).1 taken)⟩⟩
  case written =>
    subst slotFree
    exact s.telemetry_record e taken one slot first last
  case dropped =>
    subst slotless
    exact s.telemetry_drops e taken

end Sys2Proof.Machine
end

section
/-! SUPPORT. The window of a loop engine and the oscillators: selection, mode requests, records, and the host's writes in bay debug state
(R247, R252, R258, R272, R300, R301). -/

namespace Sys2Proof.Machine

/-! ### Selection (R272) -/

/-- The fields of LOOP_SEL. -/
def loopSel : RegSpec := ⟨0x4, false, [⟨8, 0, .rw, 0⟩]⟩

theorem regSpec_loopSel : ∀ e : EngineId, regSpec (LOOP_SEL.loop.on e).off = some loopSel := by decide

theorem loopSel_apart : loopSel.FieldsApart := by
  unfold RegSpec.FieldsApart
  decide

theorem State.armedAt_disarm_kept (s : State) {off : Nat} (o : Nat) (h : s.armedAt off = none) : (s.disarm o).armedAt off = none := by
  have read : (s.disarm o).armedAt off = if off = o then none else s.armedAt off := Tab.get_set _ _ o off none
  rw [read, h, ite_self]

theorem State.loopSelect_armed (s : State) (e : Nat) (v : Word) :
    (s.loopSelect e v).armedAt (setptOff e) = none ∧ (s.loopSelect e v).armedAt (profOff e) = none :=
  ⟨State.armedAt_disarm_kept _ _ (State.armedAt_disarm _ _), State.armedAt_disarm _ _⟩

theorem State.disarm_regs (s : State) (off : Nat) : (s.disarm off).regs = s.regs := rfl

theorem State.loopSelect_loop (s : State) (e : EngineId) (v : Word) : (s.loopSelect e v).fld (LOOP_SEL.loop.on e) = v.toNat % 512 := by
  have written := s.fld_rawWrite v (regSpec_loopSel e) loopSel_apart ⟨8, 0, .rw, 0⟩ (by decide)
  have kept : (s.loopSelect e v).regs = (s.rawWrite (LOOP_SEL.loop.on e).off v).regs := (State.disarm_regs _ _).trans (State.disarm_regs _ _)
  refine (State.fld_congr _ (State.reg_congr kept _)).trans (written.trans ?_)
  simp [RegField.takes, bits]

/-! ### Mode requests (R252, R254, R258) -/

/-- A loop after a write of LOOP_MODE. A request that the module acts on waits, or takes back what waits; another one only shows. -/
def Loop.answered (L : Loop) (v : Word) (acts : Bool) : Loop :=
  let m := Mode.ofCode (v.toNat % 4)
  let L1 : Loop := { L with req := BitVec.ofNat 2 (v.toNat % 4), hflt := L.hflt && !v.getLsbD 30, aflt := L.aflt && !v.getLsbD 29 }
  if acts then (if L.mode = m then { L1 with pend := none } else { L1 with pend := some m, hcnt := 0 }) else L1

theorem Loop.answered_spec (L : Loop) (v : Word) (acts : Bool) :
    (L.answered v acts).mode = L.mode ∧ (L.answered v acts).req = BitVec.ofNat 2 (v.toNat % 4) ∧
      (acts = true → L.mode ≠ Mode.ofCode (v.toNat % 4) →
        (L.answered v acts).pend = some (Mode.ofCode (v.toNat % 4)) ∧ (L.answered v acts).hcnt = 0) ∧
      (acts = true → L.mode = Mode.ofCode (v.toNat % 4) → (L.answered v acts).pend = none) ∧
      (acts = false → (L.answered v acts).pend = L.pend) := by
  unfold Loop.answered
  extract_lets m L1
  cases acts with
  | false => exact ⟨rfl, rfl, nofun, nofun, fun _ => rfl⟩
  | true =>
    rw [if_pos rfl]
    split
    · next same => exact ⟨rfl, rfl, fun _ other => absurd same other, fun _ _ => rfl, nofun⟩
    · next other => exact ⟨rfl, rfl, fun _ _ => ⟨rfl, rfl⟩, fun _ same => absurd same other, nofun⟩

section
variable (s : State) (e : Nat) (v : Word)

theorem State.handOverRequest_unused (unused : slotUsed e (s.fld (LOOP_SEL.loop.on e)) = false) : s.handOverRequest e v = s :=
  if_pos (by rw [unused]; rfl)

theorem State.handOverRequest_used (used : slotUsed e (s.fld (LOOP_SEL.loop.on e)) = true) :
    s.handOverRequest e v = s.setLoop e (s.fld (LOOP_SEL.loop.on e))
      ((s.selected e).answered v (s.mayAsk e (s.selected e) (Mode.ofCode (v.toNat % 4)))) := by
  have code : bits v.toNat 1 0 = v.toNat % 4 := by simp [bits]
  unfold State.handOverRequest
  dsimp only
  rw [used, Bool.not_true, if_neg Bool.false_ne_true, code]
  exact (apply_ite (s.setLoop e _) _ _ _).symm

theorem State.loopOf_handOverRequest (used : slotUsed e (s.fld (LOOP_SEL.loop.on e)) = true) :
    (s.handOverRequest e v).loopOf e (s.fld (LOOP_SEL.loop.on e)) =
      (s.selected e).answered v (s.mayAsk e (s.selected e) (Mode.ofCode (v.toNat % 4))) := by
  rw [s.handOverRequest_used e v used, State.loopOf_setLoop_same]

end

/-! ### Records (R247) -/

/-- The fields of LOOP_GAIN_SEL. -/
def gainSel : RegSpec := ⟨0x2C, false, [⟨31, 31, .wo, 0⟩, ⟨30, 30, .ro, 0⟩, ⟨24, 16, .rw, 0⟩, ⟨3, 0, .rw, 0⟩]⟩

theorem regSpec_gainSel : ∀ e : EngineId, regSpec (LOOP_GAIN_SEL.loop.on e).off = some gainSel := by decide

theorem gainSel_apart : gainSel.FieldsApart := by
  unfold RegSpec.FieldsApart
  decide

/-- The choice that a write of LOOP_GAIN_SEL leaves. -/
theorem State.gainSel_written (s : State) (e : EngineId) (v : Word) :
    (s.rawWrite (LOOP_GAIN_SEL.loop.on e).off v).fld (LOOP_GAIN_SEL.loop.on e) = v.toNat / 2 ^ 16 % 512 ∧
      (s.rawWrite (LOOP_GAIN_SEL.loop.on e).off v).fld (LOOP_GAIN_SEL.rec.on e) = v.toNat % 16 := by
  have loop := s.fld_rawWrite v (regSpec_gainSel e) gainSel_apart ⟨24, 16, .rw, 0⟩ (by decide)
  have record := s.fld_rawWrite v (regSpec_gainSel e) gainSel_apart ⟨3, 0, .rw, 0⟩ (by decide)
  refine ⟨loop.trans ?_, record.trans ?_⟩
  · simp [RegField.takes, bits]
  · simp [RegField.takes, bits]

/-- A table written at the numbers of a list. -/
theorem get_foldl_set {α : Type} [DecidableEq α] (d f : Nat → α) (ks : List Nat) (t : Tab α) (k : Nat) :
    Tab.get d (ks.foldl (fun m j => Tab.set d m j (f j)) t) k = if k ∈ ks then f k else Tab.get d t k := by
  induction ks generalizing t with
  | nil => rfl
  | cons j ks ih =>
    rw [List.foldl_cons, ih, Tab.get_set]
    by_cases here : k = j
    · subst here
      simp
    · simp [here]

theorem ofNat_bits_word (w : BitVec 256) (k : Nat) :
    BitVec.ofNat 32 (bits w.toNat (32 * k + 31) (32 * k)) = w.extractLsb' (32 * k) 32 := by
  refine BitVec.eq_of_toNat_eq ?_
  unfold bits
  rw [show 32 * k + 31 - 32 * k + 1 = 32 by omega, BitVec.toNat_ofNat, Nat.mod_mod, BitVec.extractLsb'_toNat, Nat.shiftRight_eq_div_pow]

/-- The words of the record window are those of the selected record, or zeros where there is none. -/
theorem State.loadStaged_word (s : State) (e : Nat) {k : Nat} (h : k < 8) :
    Tab.get dZero ((s.loadStaged e).engine e).staged k =
      if s.fld (LOOP_GAIN_SEL.rec.on e) ≤ 8 then
        ((s.loopOf e (s.fld (LOOP_GAIN_SEL.loop.on e))).record (s.fld (LOOP_GAIN_SEL.rec.on e))).extractLsb' (32 * k) 32
      else 0 := by
  unfold State.loadStaged
  dsimp only
  rw [State.engine_setEngine_same]
  dsimp only
  rw [get_foldl_set, if_pos (List.mem_range.2 h)]
  split
  · exact ofNat_bits_word _ k
  · simp [bits]

theorem State.loadStaged_regs (s : State) (e : Nat) : (s.loadStaged e).regs = s.regs := State.setEngine_regs _ _ _

theorem State.recordSelect_spec (s : State) (e : EngineId) (v : Word) :
    (s.recordSelect e v).fld (LOOP_GAIN_SEL.loop.on e) = v.toNat / 2 ^ 16 % 512 ∧
      (s.recordSelect e v).fld (LOOP_GAIN_SEL.rec.on e) = v.toNat % 16 ∧
      ∀ k, k < 8 → Tab.get dZero ((s.recordSelect e v).engine e).staged k =
        if v.toNat % 16 ≤ 8 then ((s.loopOf e (v.toNat / 2 ^ 16 % 512)).record (v.toNat % 16)).extractLsb' (32 * k) 32 else 0 := by
  obtain ⟨loop, record⟩ := s.gainSel_written e v
  obtain ⟨g, written, -⟩ := s.rawWrite_spec (LOOP_GAIN_SEL.loop.on e).off v
  have engines : (s.rawWrite (LOOP_GAIN_SEL.loop.on e).off v).engines = s.engines := by rw [written]
  have shown : ∀ f : Fld, (s.recordSelect e v).fld f = (s.rawWrite (LOOP_GAIN_SEL.loop.on e).off v).fld f := fun f =>
    State.fld_congr f (State.reg_congr (State.loadStaged_regs _ e) _)
  refine ⟨(shown _).trans loop, (shown _).trans record, fun k h => ?_⟩
  unfold State.recordSelect
  rw [State.loadStaged_word _ e h, loop, record, State.loopOf_congr engines]

/-- The number that words spell, least significant first. -/
def wordSum (f : Nat → Word) (n : Nat) : Nat := (List.range n).foldl (fun a k => a + (f k).toNat * 2 ^ (32 * k)) 0

theorem wordSum_succ (f : Nat → Word) (n : Nat) : wordSum f (n + 1) = wordSum f n + (f n).toNat * 2 ^ (32 * n) := by
  unfold wordSum
  rw [List.range_succ, List.foldl_append]
  rfl

theorem wordSum_lt (f : Nat → Word) (n : Nat) : wordSum f n < 2 ^ (32 * n) := by
  induction n with
  | zero => exact Nat.one_pos
  | succ n ih =>
    have top : (f n).toNat + 1 ≤ 2 ^ 32 := (f n).isLt
    calc wordSum f (n + 1) = wordSum f n + (f n).toNat * 2 ^ (32 * n) := wordSum_succ f n
      _ < 2 ^ (32 * n) + (f n).toNat * 2 ^ (32 * n) := Nat.add_lt_add_right ih _
      _ = ((f n).toNat + 1) * 2 ^ (32 * n) := by ring
      _ ≤ 2 ^ 32 * 2 ^ (32 * n) := Nat.mul_le_mul_right _ top
      _ = 2 ^ (32 * (n + 1)) := by rw [← Nat.pow_add]; congr 1; omega

/-- A word of the number that words spell. -/
theorem wordSum_word (f : Nat → Word) {j n : Nat} (h : j < n) : wordSum f n / 2 ^ (32 * j) % 2 ^ 32 = (f j).toNat := by
  induction n with
  | zero => omega
  | succ n ih =>
    rw [wordSum_succ]
    rcases Nat.lt_or_eq_of_le (Nat.le_of_lt_succ h) with below | rfl
    · have high : (f n).toNat * 2 ^ (32 * n) = 2 ^ (32 * j) * (2 ^ 32 * ((f n).toNat * 2 ^ (32 * (n - j - 1)))) := by
        rw [show 32 * n = 32 * j + (32 + 32 * (n - j - 1)) by omega, Nat.pow_add, Nat.pow_add]
        ring
      rw [high, Nat.add_mul_div_left _ _ (Nat.two_pow_pos _), Nat.add_mul_mod_self_left, ih below]
    · rw [Nat.add_mul_div_right _ _ (Nat.two_pow_pos _), Nat.div_eq_of_lt (wordSum_lt f j), Nat.zero_add]
      exact Nat.mod_eq_of_lt (f j).isLt

theorem extractLsb'_wordSum (f : Nat → Word) {j : Nat} (h : j < 8) : (BitVec.ofNat 256 (wordSum f 8)).extractLsb' (32 * j) 32 = f j := by
  refine BitVec.eq_of_toNat_eq ?_
  rw [BitVec.extractLsb'_toNat, BitVec.toNat_ofNat, Nat.mod_eq_of_lt (wordSum_lt f 8), Nat.shiftRight_eq_div_pow, wordSum_word f h]

section
variable (s : State) (e : Nat)

theorem State.recordCommit_waits (bay : e < 8) (debug : s.bayState e = 5) (record : s.fld (LOOP_GAIN_SEL.rec.on e) ≤ 8) :
    (s.recordCommit e).engine e = { s.engine e with
      commit := some (16 * s.fld (LOOP_GAIN_SEL.loop.on e) + s.fld (LOOP_GAIN_SEL.rec.on e),
        BitVec.ofNat 256 (wordSum (Tab.get dZero (s.engine e).staged) 8)) } := by
  unfold State.recordCommit
  dsimp only
  rw [if_pos ⟨bay, debug, record⟩, State.engine_setEngine_same]
  rfl

theorem State.recordCommit_ignored (h : 8 ≤ e ∨ s.bayState e ≠ 5 ∨ 8 < s.fld (LOOP_GAIN_SEL.rec.on e)) : s.recordCommit e = s := by
  refine if_neg ?_
  rintro ⟨bay, debug, record⟩
  rcases h with other | still | unlisted
  · omega
  · exact still debug
  · omega

end

/-! ### Oscillators and tones in bay debug state (R300, R301) -/

section
variable (s : State) (v : Word)

/-- An oscillator after its entry in the engine's table is set. -/
theorem Engine.tone_set (g : Engine) (n : Nat) (o : Word × Word × Word) : Engine.tone { g with nco := Tab.set dNco g.nco n o } n = o :=
  Tab.get_set_same _ _ n o

theorem State.ncoWrite_ignored (config : Bool) (h : 8 ≤ s.fld TRIM_NCO_SEL.eng ∨ s.bayState (s.fld TRIM_NCO_SEL.eng) ≠ 5) :
    s.ncoWrite config v = s := if_pos h

section
variable (bay : s.fld TRIM_NCO_SEL.eng < 8) (debug : s.bayState (s.fld TRIM_NCO_SEL.eng) = 5)
include bay debug

theorem State.ncoWrite_debug (config : Bool) :
    s.ncoWrite config v =
      let e := s.fld TRIM_NCO_SEL.eng
      let n := s.fld TRIM_NCO_SEL.nco
      let g := s.engine e
      if config then s.setEngine e { g with nco := Tab.set dNco g.nco n ((g.tone n).1, (g.tone n).2.1, v &&& 0xFFC00FFF) }
      else if v = 0 ∨ (429497 ≤ v.toNat ∧ v.toNat ≤ 429496730) then
        s.setEngine e { g with nco := Tab.set dNco g.nco n ((g.tone n).1, v, (g.tone n).2.2) }
      else s := by
  refine if_neg ?_
  rintro (other | still)
  · omega
  · exact still debug

theorem State.ncoWrite_config :
    ((s.ncoWrite true v).engine (s.fld TRIM_NCO_SEL.eng)).tone (s.fld TRIM_NCO_SEL.nco) =
      (((s.engine (s.fld TRIM_NCO_SEL.eng)).tone (s.fld TRIM_NCO_SEL.nco)).1,
        ((s.engine (s.fld TRIM_NCO_SEL.eng)).tone (s.fld TRIM_NCO_SEL.nco)).2.1, v &&& 0xFFC00FFF) := by
  rw [s.ncoWrite_debug v bay debug]
  dsimp only
  rw [if_pos rfl, State.engine_setEngine_same, Engine.tone_set]

theorem State.ncoWrite_frequency (range : v = 0 ∨ (429497 ≤ v.toNat ∧ v.toNat ≤ 429496730)) :
    ((s.ncoWrite false v).engine (s.fld TRIM_NCO_SEL.eng)).tone (s.fld TRIM_NCO_SEL.nco) =
      (((s.engine (s.fld TRIM_NCO_SEL.eng)).tone (s.fld TRIM_NCO_SEL.nco)).1, v,
        ((s.engine (s.fld TRIM_NCO_SEL.eng)).tone (s.fld TRIM_NCO_SEL.nco)).2.2) := by
  rw [s.ncoWrite_debug v bay debug]
  dsimp only
  rw [if_neg Bool.false_ne_true, if_pos range, State.engine_setEngine_same, Engine.tone_set]

theorem State.ncoWrite_outside (range : ¬ (v = 0 ∨ (429497 ≤ v.toNat ∧ v.toNat ≤ 429496730))) : s.ncoWrite false v = s := by
  rw [s.ncoWrite_debug v bay debug]
  dsimp only
  rw [if_neg Bool.false_ne_true, if_neg range]

end

/-- The fields of TRIM_TEST. -/
def trimTest : RegSpec := ⟨0x24, false, [⟨31, 31, .rw, 0⟩, ⟨19, 16, .rw, 0⟩, ⟨12, 0, .rw, 0⟩]⟩

theorem regSpec_trimTest : regSpec TRIM_TEST.en.off = some trimTest := by decide

theorem trimTest_apart : trimTest.FieldsApart := by
  unfold RegSpec.FieldsApart
  decide

theorem bits_trimTest_out : bits v.toNat 12 0 = v.toNat % 8192 := by simp [bits]

theorem State.toneWrite_debug (low : v.toNat % 8192 < 4864) (debug : s.bayState (v.toNat % 8192 / 608) = 5) :
    (s.toneWrite v).flag TRIM_TEST.en = v.getLsbD 31 ∧ (s.toneWrite v).fld TRIM_TEST.out = v.toNat % 8192 := by
  have en := s.fld_rawWrite v regSpec_trimTest trimTest_apart ⟨31, 31, .rw, 0⟩ (by decide)
  have out := s.fld_rawWrite v regSpec_trimTest trimTest_apart ⟨12, 0, .rw, 0⟩ (by decide)
  unfold State.toneWrite
  dsimp only
  rw [bits_trimTest_out, if_pos ⟨low, debug⟩]
  exact ⟨(congrArg (· != 0) en).trans (bits_flag v 31), out.trans (bits_trimTest_out v)⟩

theorem State.toneWrite_ignored (h : 4864 ≤ v.toNat % 8192 ∨ s.bayState (v.toNat % 8192 / 608) ≠ 5) : s.toneWrite v = s := by
  unfold State.toneWrite
  dsimp only
  rw [bits_trimTest_out]
  refine if_neg ?_
  rintro ⟨low, debug⟩
  rcases h with high | still
  · omega
  · exact still debug

end

/-- Settles O22: each write of the window and of the oscillators by its own lemma. -/
theorem loopWindowIsWritten : Obligations.LoopWindowIsWritten := by
  refine ⟨fun s e v => ⟨⟨_, rfl, s.loopSelect_loop e v, s.loopSelect_armed e v⟩, fun used => ⟨_, rfl, ?request⟩,
      fun unused => congrArg Host.Outcome.next (s.handOverRequest_unused e v unused), ⟨_, rfl, s.recordSelect_spec e v⟩,
      fun bay debug record => ?commit, fun other => congrArg Host.Outcome.next (s.recordCommit_ignored e other)⟩,
    fun s v => ⟨fun bay debug => ⟨fun range => ⟨_, rfl, ?frequency⟩,
        fun outside => congrArg Host.Outcome.next (s.ncoWrite_outside v bay debug outside), _, rfl, ?config⟩,
      fun config other => congrArg Host.Outcome.next (s.ncoWrite_ignored v config other),
      fun low debug => ⟨_, rfl, s.toneWrite_debug v low debug⟩,
      fun other => congrArg Host.Outcome.next (s.toneWrite_ignored v other)⟩⟩
  case request =>
    rw [s.loopOf_handOverRequest e v used]
    exact (s.selected e).answered_spec v _
  case commit =>
    have waits := s.recordCommit_waits e bay debug record
    exact ⟨_, _, _, rfl, congrArg Engine.commit waits, by rw [waits], rfl, fun j h => extractLsb'_wordSum _ h⟩
  case frequency =>
    rw [s.ncoWrite_frequency v bay debug range]
    exact ⟨rfl, rfl⟩
  case config =>
    rw [s.ncoWrite_config v bay debug]
    exact ⟨rfl, rfl⟩

end Sys2Proof.Machine
end

section
/-! SUPPORT. Forced outputs: what the pause of every bay, the ports that go down and a fault of the Guard touch (R287, R291, R292, R295,
R323, R444). -/

namespace Sys2Proof.Machine

/-! ### Fields of registers that stand once -/

section
variable (s : State) {f g : Fld}

theorem State.flag_setFlag (h : f.Fits) (b : Bool) : (s.setFlag f b).flag f = b := s.flag_setFlag_on (f := f) h 0 b

theorem State.flag_setFld_beside (h : f.Fits) (d : f.Beside g) (v : Nat) : (s.setFld f v).flag g = s.flag g :=
  s.flag_setFld_on_beside h 0 d v

/-- A field of which a bit is set is not zero. -/
theorem State.flag_of_bitOf {i : Nat} (h : s.bitOf f i = true) : s.flag f = true := by
  refine bne_iff_ne.2 fun zero => ?_
  unfold State.bitOf at h
  rw [zero, inMask_eq_testBit, Nat.zero_testBit] at h
  exact Bool.false_ne_true h

end

/-! ### Pauses and ports that go down (R292, R295, R323) -/

/-- Between two states only bays, groups and fault records moved, as when bays pause and groups go down. -/
def State.PausesMoved (s u : State) : Prop :=
  ∃ y t f x g m n, u = { s with bays := y, tiles := t, fab := f, faults := x, regs := g, cmd := { s.cmd with msix := m, sent := n } } ∧
    ∀ off, off ≠ GLB_FLT_PTR.wr.off → u.reg off = s.reg off

theorem State.PausesMoved.refl (s : State) : s.PausesMoved s :=
  ⟨s.bays, s.tiles, s.fab, s.faults, s.regs, s.cmd.msix, s.cmd.sent, rfl, fun _ _ => rfl⟩
theorem State.PausesMoved.trans {s t u : State} (h : s.PausesMoved t) (k : t.PausesMoved u) : s.PausesMoved u := by
  obtain ⟨y, a, f, x, g, m, n, rfl, regs⟩ := h
  obtain ⟨y', a', f', x', g', m', n', rfl, regs'⟩ := k
  exact ⟨y', a', f', x', g', m', n', rfl, fun off o => (regs' off o).trans (regs off o)⟩
theorem State.PausesMoved.foldl {α : Type} (f : State → α → State) (step : ∀ u x, State.PausesMoved u (f u x)) (l : List α) (s : State) :
    s.PausesMoved (l.foldl f s) := foldl_does State.PausesMoved .refl (fun _ _ _ => .trans) f step l s
theorem State.PausesMoved.ite {s u v : State} {p : Prop} [Decidable p] (h : s.PausesMoved u) (k : s.PausesMoved v) :
    s.PausesMoved (if p then u else v) := iteInduction (motive := s.PausesMoved) (fun _ => h) fun _ => k
theorem State.BaysMoved.pauses {s u : State} (h : s.BaysMoved u) : s.PausesMoved u := by
  obtain ⟨y, t, rfl⟩ := h
  exact ⟨y, t, s.fab, s.faults, s.regs, s.cmd.msix, s.cmd.sent, rfl, fun _ _ => rfl⟩
theorem State.PausesMoved.setGroup (s : State) (p g : Nat) (x : FabGroup) : s.PausesMoved (s.setGroup p g x) :=
  ⟨s.bays, s.tiles, _, s.faults, s.regs, s.cmd.msix, s.cmd.sent, rfl, fun _ _ => rfl⟩
theorem State.PausesMoved.raise (s : State) (f : FaultRec) : s.PausesMoved (s.raise f) := by
  obtain ⟨x, g, m, n, raised, -, regs⟩ := s.raise_spec f
  exact ⟨s.bays, s.tiles, s.fab, x, g, m, n, raised, regs⟩

theorem State.PausesMoved.light {s u : State} (h : s.PausesMoved u) : u.light = s.light := by
  obtain ⟨y, t, f, x, g, m, n, rfl, -⟩ := h
  rfl
theorem State.PausesMoved.sec {s u : State} (h : s.PausesMoved u) : u.sec = s.sec := by
  obtain ⟨y, t, f, x, g, m, n, rfl, -⟩ := h
  rfl
theorem State.PausesMoved.reg {s u : State} (h : s.PausesMoved u) {off : Nat} (o : off ≠ GLB_FLT_PTR.wr.off) : u.reg off = s.reg off := by
  obtain ⟨y, t, f, x, g, m, n, -, regs⟩ := h
  exact regs off o

theorem State.forceAll_moves (s : State) (why : Nat) : s.PausesMoved (s.forceAll why) :=
  .foldl _ (fun u b => ((u.modBay_moves b _).pauses.trans (State.noteUpset_moves _ b 3).pauses).trans (.raise _ _)) _ s

theorem State.portsDown_moves (s : State) : s.PausesMoved s.portsDown :=
  .foldl _ (fun u p => .foldl _ (fun v g => .ite (.refl v) (.setGroup v p g _)) _ u) _ s

/-! ### A fault of the Guard (R287, R291, R444) -/

section
variable (s : State) {i : Nat} (unit : Nat)

/-- A Guard fault as GUARD_STAT and GUARD_FLT_LAST note it. -/
def State.guardNoted (i : Nat) : State :=
  let s1 := (s.setBitOf GUARD_STAT.flt i true).bump GUARD_FLT_LAST.count
  ((s1.setFlag GUARD_FLT_LAST.valid true).setFld GUARD_FLT_LAST.idx i).setFld GUARD_FLT_LAST.unit unit

/-- A Guard fault that is noted is shown in GUARD_STAT. -/
theorem State.guardNoted_shown (h : i < 5) : (s.guardNoted unit i).bitOf GUARD_STAT.flt i = true := by
  have beside : (s.guardNoted unit i).fld GUARD_STAT.flt = (s.setBitOf GUARD_STAT.flt i true).fld GUARD_STAT.flt := by
    unfold State.guardNoted State.setFlag State.bump
    extract_lets s1
    rw [State.fld_setFld_other _ _ _ _ (by decide), State.fld_setFld_other _ _ _ _ (by decide), State.fld_setFld_other _ _ _ _ (by decide),
      State.fld_setFld_other _ _ _ _ (by decide)]
  unfold State.bitOf
  rw [beside]
  exact s.bitOf_setBitOf GUARD_STAT.flt (by decide) (by decide) h

theorem State.guardNoted_moves (i : Nat) : s.RegsMoved (s.guardNoted unit i) :=
  (((State.setFld_moves s _ _).trans (State.bump_moves _ _ _)).trans (State.setFlag_moves _ _ _)).trans
    ((State.setFld_moves _ _ _).trans (State.setFld_moves _ _ _))

theorem State.guardFault_moves (i : Nat) : (s.guardNoted unit i).PausesMoved (s.guardFault i unit) := by
  have noted : s.guardFault i unit =
      ((if s.flag GUARD_STAT.flt then s.guardNoted unit i else (s.guardNoted unit i).forceAll 3).portsDown).raise
        { cls := 7, code := i, act := 4, unit := unit } := by
    unfold State.guardFault State.guardNoted
    rfl
  rw [noted]
  generalize s.guardNoted unit i = u
  have paused : u.PausesMoved (if s.flag GUARD_STAT.flt then u else u.forceAll 3) := .ite (.refl u) (u.forceAll_moves 3)
  exact (paused.trans (State.portsDown_moves _)).trans (.raise _ _)

/-- A Guard fault shows in GUARD_STAT and forces every output; the light's state stays. -/
theorem State.guardFault_spec (h : i < 5) :
    (s.guardFault i unit).bitOf GUARD_STAT.flt i = true ∧ (s.guardFault i unit).allForced = true ∧ (s.guardFault i unit).light = s.light := by
  have moved := s.guardFault_moves unit i
  have shown : (s.guardFault i unit).bitOf GUARD_STAT.flt i = true :=
    (congrArg (inMask · i) (State.fld_congr GUARD_STAT.flt (moved.reg (by decide)))).trans (s.guardNoted_shown unit h)
  obtain ⟨g, noted⟩ := s.guardNoted_moves unit i
  refine ⟨shown, ?_, moved.light.trans (by rw [noted])⟩
  unfold State.allForced
  rw [State.flag_of_bitOf _ shown, Bool.or_true]

end

end Sys2Proof.Machine
end

section
/-! SUPPORT. The read-back of a trim output and CLR_TRIM_N (R292 to R297). -/

namespace Sys2Proof.Machine

/-! ### What follows for the bay, comb or port of an output that read-back forces (R295 to R297) -/

/-- Between two states the outputs, their scan, and the registers outside the light supply and the fault records stand. -/
def State.OutputsKept (s u : State) : Prop :=
  u.trims = s.trims ∧ u.scan = s.scan ∧ ∀ off, regBlock off ≠ .lsa → off ≠ GLB_FLT_PTR.wr.off → u.reg off = s.reg off

theorem State.LightMoved.outputs {s u : State} (h : s.LightMoved u) : s.OutputsKept u := by
  obtain ⟨t, e, l, f, x, g, m, n, rfl, regs⟩ := h
  exact ⟨rfl, rfl, regs⟩
theorem State.BaysMoved.outputs {s u : State} (h : s.BaysMoved u) : s.OutputsKept u := by
  obtain ⟨y, t, rfl⟩ := h
  exact ⟨rfl, rfl, fun _ _ _ => rfl⟩

/-- A comb heater that is forced concerns its comb alone (R297). -/
theorem State.combForced_light (s : State) (l : Nat) : s.LightMoved (s.combForced l) := by
  unfold State.combForced
  extract_lets i c y s1 s2
  have down : s.LightMoved s1 := s.combDown_light i c 4
  have armed : s.LightMoved s2 := .foldl _ (fun u n => .setLine u i c n _) _ s
  have judged := (LightMoved.foldl (fun u n => u.setLine i c n ((u.line i c n).judge true)) (fun u n => .setLine u i c n _)
    (List.range (linesOf i)) s2).trans (State.darkenLanes_light _ s i)
  exact .ite (s.armFail_light i) (.ite (.ite (down.trans (s1.setSpare_moves i 4).light) down) (.ite (.refl s)
    (.ite (armed.trans judged) armed)))

/-- What an output that read-back forces means for its bay, comb or group. -/
def State.forcedActs (s : State) (o : Nat) : State :=
  if o < 4864 then (s.pause (o / 608) fun y => { y with pauseTrim := true }).noteUpset (o / 608) 3
  else if 5184 ≤ o then s.combForced (o - 5184)
  else
    let i := outLocal o
    if i < 64 then s.setGroup (i / 4) (i % 4) { s.group (i / 4) (i % 4) with state := 3 }
    else s.stopLane ((i - 64) / 16) ((i - 64) % 16 / 4) ((i - 64) % 4) true

theorem State.forcedActs_outputs (s : State) (o : Nat) : s.OutputsKept (s.forcedActs o) := by
  unfold State.forcedActs
  extract_lets i
  split_ifs
  · exact (State.BaysMoved.trans _ _ _ (s.modBay_moves _ _) (State.noteUpset_moves _ _ 3)).outputs
  · exact (s.combForced_light _).outputs
  · exact (State.LightMoved.setGroup s _ _ _).outputs
  · exact (s.stopLane_light _ _ _ true).outputs

/-! ### An output that read-back forces (R296) -/

theorem State.trimOut_congr {s u : State} (h : u.trims = s.trims) (o : Nat) : u.trimOut o = s.trimOut o := by
  unfold State.trimOut
  rw [h]

/-- An output that read-back forces, as TRIM_MISM notes it. -/
def State.mismNoted (s : State) (o : Nat) : State :=
  let s1 := s.setTrimOut o { s.trimOut o with rb := true }
  ((s1.setFlag TRIM_MISM.valid true).setFld TRIM_MISM.out o).bump TRIM_MISM.count

theorem State.mismNoted_moves (s : State) (o : Nat) :
    (s.setTrimOut o { s.trimOut o with rb := true }).RegsMoved (s.mismNoted o) :=
  ((State.setFlag_moves _ _ _).trans (State.setFld_moves _ _ _)).trans (State.bump_moves _ _ _)

theorem State.mismNoted_fields (s : State) {o : Nat} (h : o < 5227) :
    (s.mismNoted o).flag TRIM_MISM.valid = true ∧ (s.mismNoted o).fld TRIM_MISM.out = o := by
  unfold State.mismNoted State.bump
  extract_lets _ s1
  constructor
  · rw [State.flag_setFld_beside _ (by decide) (by decide), State.flag_setFld_beside _ (by decide) (by decide)]
    exact s1.flag_setFlag (by decide) true
  · rw [State.fld_setFld_beside _ TRIM_MISM.count TRIM_MISM.out _ rfl (by decide) (by decide) (by decide) (by decide),
      State.fld_setFld_same _ TRIM_MISM.out _ (by decide) (by decide)]
    exact Nat.mod_eq_of_lt (Nat.lt_trans h (by decide))

/-- A forced output: marked, recorded in TRIM_MISM, and otherwise the outputs and their scan as they were. -/
theorem State.forceReadback_spec (s : State) {o : Nat} (h : o < 5227) :
    (s.forceReadback o).trimOut o = { s.trimOut o with rb := true } ∧ (s.forceReadback o).scan = s.scan ∧
      (s.forceReadback o).flag TRIM_MISM.valid = true ∧ (s.forceReadback o).fld TRIM_MISM.out = o := by
  obtain ⟨f, acts⟩ : ∃ f, s.forceReadback o = ((s.mismNoted o).raise f).forcedActs o := by
    unfold State.forceReadback State.forcedActs State.mismNoted
    exact ⟨_, rfl⟩
  obtain ⟨raisedTrims, raisedScan, raisedRegs⟩ := (State.LightMoved.raise (s.mismNoted o) f).outputs
  obtain ⟨trims, scan, regs⟩ := ((s.mismNoted o).raise f).forcedActs_outputs o
  obtain ⟨valid, out⟩ := s.mismNoted_fields h
  obtain ⟨g, noted⟩ := s.mismNoted_moves o
  have shown : (s.forceReadback o).reg TRIM_MISM.valid.off = (s.mismNoted o).reg TRIM_MISM.valid.off := by
    rw [acts, regs _ (by decide) (by decide), raisedRegs _ (by decide) (by decide)]
  refine ⟨?_, ?_, (State.flag_congr TRIM_MISM.valid shown).trans valid, (State.fld_congr TRIM_MISM.out shown).trans out⟩
  · have kept : (s.forceReadback o).trims = (s.setTrimOut o { s.trimOut o with rb := true }).trims := by
      rw [acts, trims, raisedTrims, noted]
    rw [State.trimOut_congr kept, State.trimOut_setTrimOut_same]
  · rw [acts, scan, raisedScan, noted]
    rfl

/-! ### READBACK_DWELL (R296) -/

section
variable (s : State) {o : Nat} (meas : BitVec 12)

/-- What a dwell measures lies further from what it expects than the tolerance. -/
abbrev State.mismatches (o : Nat) : Prop :=
  s.fld TRIM_SCAN.tol < ((meas.toNat : Int) - (BitVec.ofNat 12 (s.expected o)).toNat).natAbs

/-- The mismatching scans in succession after a dwell. -/
def State.mismCount (o : Nat) : Nat := if s.mismatches meas o then min ((s.trimOut o).mcnt + 1) 15 else 0

/-- A dwell with its two values and its count, and the converter at its next output. -/
def State.dwelt (o : Nat) : State :=
  State.setTrimOut { s with scan := Tab.set dZero s.scan (o / 32) (nextDwell (o / 32) (o % 32)) } o
    { s.trimOut o with exp := BitVec.ofNat 12 (s.expected o), meas := meas, mcnt := s.mismCount meas o }

theorem State.readback_elsewhere (h : Tab.get dZero s.scan (o / 32) ≠ o % 32) : s.readback o meas = s := if_pos h

theorem State.readback_here (h : Tab.get dZero s.scan (o / 32) = o % 32) :
    s.readback o meas =
      if s.mismatches meas o ∧ s.fld TRIM_SCAN.cnt ≤ s.mismCount meas o ∧ !(s.trimOut o).rb then (s.dwelt meas o).forceReadback o
      else s.dwelt meas o := if_neg (not_not_intro h)

theorem State.dwelt_trimOut : (s.dwelt meas o).trimOut o =
    { s.trimOut o with exp := BitVec.ofNat 12 (s.expected o), meas := meas, mcnt := s.mismCount meas o } :=
  State.trimOut_setTrimOut_same _ o _

theorem State.dwelt_scan : Tab.get dZero (s.dwelt meas o).scan (o / 32) = nextDwell (o / 32) (o % 32) :=
  Tab.get_set_same dZero s.scan (o / 32) _

/-- The mismatches reach the limit at an output that read-back does not force yet. -/
theorem State.readback_forces (h : Tab.get dZero s.scan (o / 32) = o % 32) (bad : s.mismatches meas o)
    (many : s.fld TRIM_SCAN.cnt ≤ s.mismCount meas o) (free : (s.trimOut o).rb = false) :
    s.readback o meas = (s.dwelt meas o).forceReadback o := by
  rw [s.readback_here meas h, if_pos ⟨bad, many, by rw [free]; rfl⟩]

/-- In any other case a dwell is counted and nothing more. -/
theorem State.readback_counts (h : Tab.get dZero s.scan (o / 32) = o % 32)
    (few : ¬ s.mismatches meas o ∨ s.mismCount meas o < s.fld TRIM_SCAN.cnt ∨ (s.trimOut o).rb = true) :
    s.readback o meas = s.dwelt meas o := by
  rw [s.readback_here meas h, if_neg]
  rintro ⟨bad, many, free⟩
  rcases few with good | below | forced
  · exact good bad
  · exact Nat.not_le.2 below many
  · rw [forced] at free
    exact Bool.false_ne_true free

/-- Whether or not it forces the output, a dwell stores its values and its count, and the converter goes on. -/
theorem State.readback_stores (low : o < 5227) (h : Tab.get dZero s.scan (o / 32) = o % 32) :
    ((s.readback o meas).trimOut o).meas = meas ∧ ((s.readback o meas).trimOut o).exp = BitVec.ofNat 12 (s.expected o) ∧
      Tab.get dZero (s.readback o meas).scan (o / 32) = nextDwell (o / 32) (o % 32) ∧
      ((s.readback o meas).trimOut o).mcnt = s.mismCount meas o := by
  have stored := s.dwelt_trimOut (o := o) meas
  have scan := s.dwelt_scan (o := o) meas
  rw [s.readback_here meas h]
  split
  · obtain ⟨trim, kept, -⟩ := (s.dwelt meas o).forceReadback_spec low
    rw [trim, kept, stored]
    exact ⟨rfl, rfl, scan, rfl⟩
  · rw [stored]
    exact ⟨rfl, rfl, scan, rfl⟩

end

/-! ### CLR_TRIM_N (R292, R293, R295) -/

/-- Guard limits that stand give the same safe codes. -/
theorem State.safeCode_congr {s u : State} (h : u.sec = s.sec) (o : Nat) : u.safeCode o = s.safeCode o := by
  unfold State.safeCode State.guardLim State.guardPair
  rw [h]

theorem State.outCode_forced (s : State) (h : s.allForced = true) (o : Nat) : s.outCode o = s.safeCode o := by
  unfold State.outCode State.isForced
  rw [h, Bool.true_or, if_pos rfl]

/-- CLR_TRIM_N going low: the pauses and the ports, and then the pin. -/
theorem State.clrTrimLow_high (s : State) (high : s.pins.clrTrim = true) :
    ∃ t, s.PausesMoved t ∧
      s.clrTrimLow = { t with pins := { t.pins with clrTrim := false, pinForce := true, trimRise := none } } := by
  have paused : s.PausesMoved (if s.pins.pinForce then s else s.forceAll 2) := .ite (.refl s) (s.forceAll_moves 2)
  refine ⟨_, paused.trans (State.portsDown_moves _), ?_⟩
  unfold State.clrTrimLow
  rw [high, Bool.not_true, if_neg Bool.false_ne_true]

theorem State.clrTrimLow_forces (s : State) (high : s.pins.clrTrim = true) :
    s.clrTrimLow.allForced = true ∧ s.clrTrimLow.pins.clrTrim = false ∧ ∀ o, s.clrTrimLow.outCode o = s.safeCode o := by
  obtain ⟨t, moved, low⟩ := s.clrTrimLow_high high
  have forced : s.clrTrimLow.allForced = true := by
    unfold State.allForced
    rw [low, Bool.or_true, Bool.true_or]
  refine ⟨forced, by rw [low], fun o => ?_⟩
  rw [State.outCode_forced _ forced]
  exact State.safeCode_congr (by rw [low]; exact moved.sec) o

/-- The forcing by the pin ends 10 µs after its rise. -/
theorem exec_trimOutputReturn_ends {s : State} {t : Nat} (rise : s.pins.trimRise = some t) (force : s.pins.pinForce = true)
    (high : s.pins.clrTrim = true) (due : t + 10 ≤ s.tick) :
    exec .trimOutputReturn s = .next { s with pins := { s.pins with pinForce := false, trimRise := none } } := by
  show execTrimOutputReturn s = _
  unfold execTrimOutputReturn
  rw [rise]
  exact congrArg Host.Outcome.next (if_pos (by rw [force, high, decide_eq_true due]; rfl))

theorem exec_trimOutputReturn_waits {s : State}
    (h : ¬ ∃ t, s.pins.trimRise = some t ∧ s.pins.pinForce = true ∧ s.pins.clrTrim = true ∧ t + 10 ≤ s.tick) :
    exec .trimOutputReturn s = .next s := by
  show execTrimOutputReturn s = _
  unfold execTrimOutputReturn
  split
  · next t rise =>
    refine congrArg Host.Outcome.next (if_neg fun due => h ⟨t, rise, ?_⟩)
    simpa only [Bool.and_eq_true, decide_eq_true_eq, and_assoc] using due
  · rfl

/-- Settles O26: the dwell by what it stores and by whether it forces the output, and the pin by its two edges and its wait. -/
theorem readbackAndClrTrimForce : Obligations.ReadbackAndClrTrimForce := by
  refine ⟨fun s o meas => ⟨fun here => ?dwell, fun elsewhere => congrArg Host.Outcome.next (s.readback_elsewhere meas elsewhere)⟩,
    fun s => ⟨fun high => ?asserted, fun low => ?held, fun low => ?released, fun high => ?standing, ?ends, exec_trimOutputReturn_waits⟩⟩
  case dwell =>
    obtain ⟨measured, expected, scan, count⟩ := s.readback_stores meas o.isLt here
    have counted : s.mismatches meas o → s.mismCount meas o = min ((s.trimOut o).mcnt + 1) 15 := fun bad => if_pos bad
    refine ⟨s.readback o meas, rfl, measured, expected, scan, fun good => ⟨count.trans (if_neg good), ?_⟩,
      fun bad => count.trans (counted bad), fun bad many free => ?_, fun bad few => ?_⟩
    · rw [s.readback_counts meas here (.inl good), s.dwelt_trimOut]
    · obtain ⟨trim, -, valid, out⟩ := (s.dwelt meas o).forceReadback_spec o.isLt
      rw [s.readback_forces meas here bad ((counted bad).symm ▸ many) free, trim]
      exact ⟨rfl, valid, out⟩
    · rw [s.readback_counts meas here (.inr (few.imp_left (counted bad).trans_lt)), s.dwelt_trimOut]
  case asserted =>
    obtain ⟨forced, low, codes⟩ := s.clrTrimLow_forces high
    exact ⟨s.clrTrimLow, rfl, forced, low, fun o _ => codes o⟩
  case held => exact congrArg Host.Outcome.next (if_pos (by rw [low]; rfl))
  case released =>
    exact ⟨{ s with pins := { s.pins with clrTrim := true, trimRise := some s.tick } },
      congrArg Host.Outcome.next (if_neg (by rw [low]; exact Bool.false_ne_true)), rfl, rfl, rfl⟩
  case standing => exact congrArg Host.Outcome.next (if_pos high)
  case ends =>
    rintro ⟨t, rise, force, high, due⟩
    exact ⟨_, exec_trimOutputReturn_ends rise force high due, rfl⟩

end Sys2Proof.Machine
end

section
/-! SUPPORT. Combs: the fabric's swap with its idle pairs, an arming that fails or begins again, the boost, and the cut of a comb that is
too bright (R276, R281, R283, R286, R287, R322). -/

namespace Sys2Proof.Machine

theorem State.comb_congr {s u : State} (h : u.light = s.light) (i k : Nat) : u.comb i k = s.comb i k := by
  unfold State.comb
  rw [State.source_congr h]

/-- Between two states only the fabric moved. -/
def State.FabricMoved (s u : State) : Prop := ∃ f, u = { s with fab := f }

theorem State.FabricMoved.refl (s : State) : s.FabricMoved s := ⟨s.fab, rfl⟩
theorem State.FabricMoved.trans {s t u : State} (h : s.FabricMoved t) (k : t.FabricMoved u) : s.FabricMoved u := by
  obtain ⟨f, rfl⟩ := h
  obtain ⟨f', rfl⟩ := k
  exact ⟨f', rfl⟩
theorem State.FabricMoved.foldl {α : Type} (f : State → α → State) (step : ∀ u x, State.FabricMoved u (f u x)) (l : List α) (s : State) :
    s.FabricMoved (l.foldl f s) := foldl_does State.FabricMoved .refl (fun _ _ _ => .trans) f step l s
theorem State.FabricMoved.ite {s u v : State} {p : Prop} [Decidable p] (h : s.FabricMoved u) (k : s.FabricMoved v) :
    s.FabricMoved (if p then u else v) := iteInduction (motive := s.FabricMoved) (fun _ => h) fun _ => k
theorem State.FabricMoved.setGroup (s : State) (p g : Nat) (x : FabGroup) : s.FabricMoved (s.setGroup p g x) := ⟨_, rfl⟩
theorem State.FabricMoved.light {s u : State} (h : s.FabricMoved u) : u.light = s.light := by
  obtain ⟨f, rfl⟩ := h
  rfl
theorem State.FabricMoved.regs {s u : State} (h : s.FabricMoved u) : u.regs = s.regs := by
  obtain ⟨f, rfl⟩ := h
  rfl

/-! ### The swap of the fabric's spare (R283, R322) -/

theorem State.group_setGroup (s : State) (p g q k : Nat) (x : FabGroup) :
    (s.setGroup p g x).group q k = if q = p ∧ k = g then x else s.group q k := by
  unfold State.setGroup State.group
  rw [State.port_setPort]
  by_cases port : q = p
  · subst port
    rw [if_pos rfl, Tab.get_set]
    simp only [true_and]
  · rw [if_neg port, if_neg fun both => port both.1]

/-- A group that carries sends one idle pair in place of its next (R322); that the pair takes five slots is the model's choice (log 151). -/
def FabGroup.idled (f : FabGroup) : FabGroup := if f.carries then f.sendIdle else f

/-- Group `n` of the eight ports from `base` on, four to a port, sends its idle pair. -/
def State.idlePair (base : Nat) (s : State) (n : Nat) : State :=
  let f := s.group (base + n / 4) (n % 4)
  if f.carries then s.setGroup (base + n / 4) (n % 4) f.sendIdle else s

section
variable (base : Nat) (s : State)

theorem State.idlePair_moves (n : Nat) : s.FabricMoved (s.idlePair base n) := .ite (.setGroup s _ _ _) (.refl s)

theorem State.idlePair_group (m n : Nat) : (s.idlePair base m).group (base + n / 4) (n % 4) =
    if n = m then (s.group (base + n / 4) (n % 4)).idled else s.group (base + n / 4) (n % 4) := by
  have place : base + n / 4 = base + m / 4 ∧ n % 4 = m % 4 ↔ n = m := by omega
  unfold State.idlePair FabGroup.idled
  extract_lets f
  by_cases carries : f.carries = true
  · rw [if_pos carries, State.group_setGroup]
    simp only [place]
    by_cases same : n = m
    · subst same
      rw [if_pos rfl, if_pos rfl, if_pos carries]
    · rw [if_neg same, if_neg same]
  · rw [if_neg carries]
    split
    · next same =>
      subst same
      rw [if_neg carries]
    · rfl

/-- Each group of a list without repetition sends one idle pair. -/
theorem State.idlePairs_group {l : List Nat} (distinct : l.Nodup) (n : Nat) :
    (l.foldl (State.idlePair base) s).group (base + n / 4) (n % 4) =
      if n ∈ l then (s.group (base + n / 4) (n % 4)).idled else s.group (base + n / 4) (n % 4) := by
  induction l generalizing s with
  | nil => rfl
  | cons m l ih =>
    obtain ⟨apart, rest⟩ := List.nodup_cons.1 distinct
    rw [List.foldl_cons, ih _ rest, s.idlePair_group base m n]
    by_cases same : n = m
    · subst same
      simp [apart]
    · simp [same]

end

theorem State.swap_fab (s : State) (i pos : Nat) : (s.swap i pos).fab = s.fab := by
  have spare : (s.spareIn i pos).fab = s.fab := by
    unfold State.spareIn State.setSpare
    rw [State.setComb_fab, State.setComb_fab, State.setFld_fab]
  obtain ⟨g, down⟩ := (s.spareIn i pos).combDown_moves i pos 4
  unfold State.swap
  rw [State.setSource_fab, down, State.setComb_fab, spare]

/-- What a swap makes of a source, whichever it is. -/
theorem State.swap_spec (s : State) {i : Nat} (pos : Nat) (source : i < 9) :
    (s.swap i pos).spareState i = 3 ∧ ((s.swap i pos).source i).armPos = none ∧ ((s.swap i pos).comb i pos).state = 4 := by
  refine ⟨?_, ?_, ?_⟩
  · rw [State.spareState, State.fld_congr (s := s.setSpare i 3) _ (State.reg_congr (s.swap_regs i pos) _)]
    exact s.spareState_setSpare source (by decide)
  · unfold State.swap
    rw [State.source_setSource_same]
  · rw [s.comb_swap, State.comb_combDown, if_pos rfl]

section
variable (s : State) {pos : Nat}

theorem State.fabricSwap_unlocked (h : (s.source 8).locked = false) : s.fabricSwap = s := by
  unfold State.fabricSwap
  rw [h, Bool.not_false, if_pos rfl]

/-- The fabric's spare that is locked and armed swaps, and the groups of its eight ports send their idle pairs. -/
theorem State.fabricSwap_locked (locked : (s.source 8).locked = true) (armed : (s.source 8).armPos = some pos) (few : s.passing 8 pos ≤ 2) :
    s.fabricSwap = (List.range 32).foldl (State.idlePair (8 * pos)) (s.swap 8 pos) := by
  have swapped : s.takeOver 8 = s.swap 8 pos := by
    rw [s.takeOver_locked locked armed, if_neg (Nat.lt_irrefl 8), if_neg (Nat.not_lt.2 few), if_neg (Nat.lt_irrefl 8)]
  unfold State.fabricSwap
  rw [locked, Bool.not_true, if_neg Bool.false_ne_true, swapped, armed]
  rfl

theorem State.fabricSwap_spec (locked : (s.source 8).locked = true) (armed : (s.source 8).armPos = some pos) (few : s.passing 8 pos ≤ 2) :
    s.fabricSwap.spareState 8 = 3 ∧ (s.fabricSwap.source 8).armPos = none ∧ (s.fabricSwap.comb 8 pos).state = 4 := by
  have idle : (s.swap 8 pos).FabricMoved s.fabricSwap := by
    rw [s.fabricSwap_locked locked armed few]
    exact .foldl _ (fun u n => u.idlePair_moves _ n) _ _
  rw [State.spareState, State.fld_congr (spareFld 8) (State.reg_congr idle.regs _), State.source_congr idle.light, State.comb_congr idle.light]
  exact s.swap_spec pos (by decide)

/-- A carrying group of the eight ports that the swap concerns sends one idle pair. -/
theorem State.fabricSwap_group (locked : (s.source 8).locked = true) (armed : (s.source 8).armPos = some pos) (few : s.passing 8 pos ≤ 2)
    {p g : Nat} (above : 8 * pos ≤ p) (below : p < 8 * pos + 8) (low : g < 4) (carries : (s.group p g).carries = true) :
    s.fabricSwap.group p g = (s.group p g).sendIdle := by
  obtain ⟨n, inside, rfl, rfl⟩ : ∃ n, n < 32 ∧ p = 8 * pos + n / 4 ∧ g = n % 4 :=
    ⟨4 * (p - 8 * pos) + g, by omega, by omega, by omega⟩
  rw [s.fabricSwap_locked locked armed few, State.idlePairs_group _ _ List.nodup_range, if_pos (List.mem_range.2 inside),
    State.group_congr (s.swap_fab 8 pos)]
  exact if_pos carries

end

/-! ### An arming that fails (R281) -/

theorem State.darkenLanes_fabric (s s0 : State) (i : Nat) : s.FabricMoved (s.darkenLanes s0 i) := by
  have stopped : ∀ (u : State) p g lane, FabricMoved u (u.stopLane p g lane true) := fun u p g lane => by
    unfold State.stopLane
    exact .ite (.setGroup u p g _) (.setGroup u p g _)
  unfold State.darkenLanes
  exact .ite (.refl s) (.foldl _ (fun u x => .foldl _ (fun v k => stopped v _ _ _) _ u) _ s)

theorem State.armLast_fail (s : State) (i : Nat) (fail : Bool) : (s.armLast i fail).flag LSA_ARM_LAST.fail = fail := by
  unfold State.armLast State.setSat
  extract_lets y s1
  rw [State.flag_setFld_beside _ (f := LSA_ARM_LAST.time) (by decide) (by decide),
    State.flag_setFld_beside _ (f := LSA_ARM_LAST.pos) (by decide) (by decide),
    State.flag_setFld_beside _ (f := LSA_ARM_LAST.src) (by decide) (by decide)]
  exact State.flag_setFlag _ (by decide) fail

section
variable (s : State) {i : Nat}

/-- The spare of an arming that fails, powered down and marked failed. -/
def State.spareFailed (i : Nat) : State := ((s.armLast i true).spareDown i 4).setSpare i 4

/-- The source of a spare that has failed, armed for no position, its faded lines judged. -/
def State.armEnded (i : Nat) : State :=
  let s1 := s.spareFailed i
  s1.setSource i { s1.source i with
    armPos := none, suspended := false, lines := (s1.source i).lines.map fun p => (p.1, p.2.judge true) }

theorem State.armFail_eq (i : Nat) : ∃ f, s.armFail i = ((s.armEnded i).darkenLanes (s.spareFailed i) i).raise f := by
  unfold State.armFail State.armEnded State.spareFailed
  exact ⟨_, rfl⟩

theorem State.armFail_spec (source : i < 9) :
    (s.armFail i).spareState i = 4 ∧ ((s.armFail i).source i).armPos = none ∧ (s.armFail i).flag LSA_ARM_LAST.fail = true := by
  obtain ⟨f, failed⟩ := s.armFail_eq i
  have dark := (s.armEnded i).darkenLanes_fabric (s.spareFailed i) i
  have raised := PausesMoved.raise ((s.armEnded i).darkenLanes (s.spareFailed i) i) f
  rw [← failed] at raised
  have regs : ∀ off, off ≠ GLB_FLT_PTR.wr.off → (s.armFail i).reg off = (s.spareFailed i).reg off := fun off o => by
    rw [raised.reg o, State.reg_congr dark.regs]
    exact State.reg_congr (State.setSource_regs _ i _) off
  refine ⟨?_, ?_, ?_⟩
  · rw [State.spareState, State.fld_congr (spareFld i) (regs _ (by decide : 0x70000 ≠ GLB_FLT_PTR.wr.off))]
    exact State.spareState_setSpare _ source (by decide)
  · rw [State.source_congr (raised.light.trans dark.light)]
    unfold State.armEnded
    rw [State.source_setSource_same]
  · rw [State.flag_congr LSA_ARM_LAST.fail (regs _ (by decide))]
    have noted : (s.spareFailed i).reg LSA_ARM_LAST.fail.off = (s.armLast i true).reg LSA_ARM_LAST.fail.off := by
      unfold State.spareFailed State.setSpare State.spareDown
      rw [State.reg_setFld_other _ (spareFld i) _ _ (by decide : LSA_ARM_LAST.fail.off ≠ 0x70000)]
      exact State.reg_congr (State.combDown_regs _ _ _ _) _
    rw [State.flag_congr LSA_ARM_LAST.fail noted]
    exact s.armLast_fail i true

end

/-! ### A suspended arming (R286) -/

section
variable (s : State) {i : Nat}

theorem State.armRestart_begins {pos : Nat} (spare : s.spareState i = 2) (suspended : (s.source i).suspended = true)
    (armed : (s.source i).armPos = some pos) (free : s.armHeld i = false) : s.armRestart i = s.armFrom i pos := by
  unfold State.armRestart
  rw [armed]
  exact if_pos ⟨spare, suspended, by rw [free]; rfl⟩

theorem State.armRestart_waits
    (h : ¬ (s.spareState i = 2 ∧ (s.source i).suspended = true ∧ (s.source i).armPos.isSome = true ∧ s.armHeld i = false)) :
    s.armRestart i = s := by
  unfold State.armRestart
  split
  · next pos armed =>
    refine if_neg fun ⟨spare, suspended, free⟩ => h ⟨spare, suspended, by rw [armed]; rfl, ?_⟩
    simpa using free
  · rfl

/-- An arming begins at the tick, suspended no more. -/
theorem State.armFrom_source (pos : Nat) : ((s.armFrom i pos).source i).suspended = false ∧ ((s.armFrom i pos).source i).armTick = s.tick := by
  have begun : ((s.armFrom i pos).source i).suspended = false ∧ ((s.armFrom i pos).source i).armTick = (s.armFrom i pos).tick := by
    unfold State.armFrom
    extract_lets c spare s1 line s2 s3
    rw [State.source_setSource_same, State.setSource_tick]
    exact ⟨rfl, rfl⟩
  obtain ⟨-, tick, -⟩ := (LightMoved.armFrom s i pos).clock
  rw [tick] at begun
  exact begun

end

/-! ### The boost, and a comb that is too bright (R276, R287) -/

section
variable (s : State) (i c : Nat)

/-- What a boost asks for. -/
abbrev State.boostDue : Prop :=
  (s.comb i c).state = 2 ∧ (s.comb i c).boost < 4 ∧ ((List.range (linesOf i)).any fun n => (s.line i c n).warn) = true ∧
    ((s.comb i c).boost = 0 ∨ (s.comb i c).boostTick + 10000 ≤ s.tick)

theorem State.boostStep_due (h : s.boostDue i c) :
    ((s.boostStep i c).comb i c).boost = (s.comb i c).boost + 1 ∧ ((s.boostStep i c).comb i c).boostTick = s.tick := by
  unfold State.boostStep
  extract_lets y
  rw [if_pos h, (State.driveTo_moves _ _ _).comb, State.comb_setComb_same]
  exact ⟨rfl, rfl⟩

theorem State.opticalCut_spec (h : s.tooBright i c = true) :
    ((s.opticalCut i c).comb i c).cut = true ∧ ((s.opticalCut i c).comb i c).ma = 0 ∧ (s.opticalCut i c).allForced = true ∧
      (s.opticalCut i c).bitOf GUARD_STAT.flt 0 = true := by
  unfold State.opticalCut
  rw [if_pos h]
  extract_lets y s1 s2
  have lines : s1.CombsKept i s2 := .foldl _ (fun u n => .setLine u c n _) _ s1
  have driven : s2.EnginesMoved ((s2.driveTo (driveSlot i c) 0).holdNow 9 (driveSlot i c)) :=
    (s2.driveTo_moves _ _).trans (State.holdNow_moves _ _ _)
  generalize (s2.driveTo (driveSlot i c) 0).holdNow 9 (driveSlot i c) = u at driven
  obtain ⟨shown, forced, light⟩ := u.guardFault_spec (5 * i + c) (by decide : 0 < 5)
  have comb : (u.guardFault 0 (5 * i + c)).comb i c = s1.comb i c :=
    ((State.comb_congr light i c).trans (driven.comb i c)).trans (lines.2 c)
  rw [comb, State.comb_setComb_same]
  exact ⟨rfl, rfl, forced, shown⟩

end

/-- Settles O25: the fabric's swap with its groups one by one (log 151 for the slots of an idle pair), and the arming, the boost and the
cut each by its condition. -/
theorem combsAreBoostedCutAndReplaced : Obligations.CombsAreBoostedCutAndReplaced := by
  intro s i
  have fault : exec (.armingFault i) s = .next (if s.spareState i = 2 ∧ !(s.source i).suspended ∧ !(s.source i).locked ∧
    (s.source i).armTick + 40000 ≤ s.tick then s.armFail i else s) := rfl
  refine ⟨fun pos locked armed _ few => ?swap, fun unlocked => congrArg Host.Outcome.next (s.fabricSwap_unlocked unlocked),
    ⟨?fails, ?goesOn⟩, ⟨?restarts, fun waits => congrArg Host.Outcome.next (s.armRestart_waits waits)⟩, fun c inside => ⟨?boost, ?cut⟩⟩
  case swap =>
    obtain ⟨spare, position, comb⟩ := s.fabricSwap_spec locked armed few
    refine ⟨s.fabricSwap, rfl, spare, position, comb, fun p g above below low carries => ?_⟩
    rw [s.fabricSwap_group locked armed few above below low carries]
    exact ⟨rfl, _, rfl, rfl⟩
  case fails =>
    rintro ⟨spare, running, unlocked, late⟩
    rw [fault, if_pos ⟨spare, by rw [running]; rfl, by rw [unlocked]; rfl, late⟩]
    exact ⟨_, rfl, s.armFail_spec i.isLt⟩
  case goesOn =>
    intro waits
    rw [fault, if_neg]
    rintro ⟨spare, running, unlocked, late⟩
    exact waits ⟨spare, (Bool.not_eq_true' _).mp running, (Bool.not_eq_true' _).mp unlocked, late⟩
  case restarts =>
    rintro ⟨spare, suspended, armed, free⟩
    obtain ⟨pos, position⟩ := Option.isSome_iff_exists.1 armed
    refine ⟨s.armRestart i, rfl, ?_⟩
    rw [s.armRestart_begins spare suspended position free]
    exact s.armFrom_source pos
  case boost =>
    have exec_boost : exec (.boostStep i c) s = .next (s.boostStep i c) := if_pos inside
    rw [exec_boost]
    exact ⟨fun due => ⟨_, rfl, s.boostStep_due i c due⟩, fun waits => congrArg Host.Outcome.next (if_neg waits)⟩
  case cut =>
    have exec_cut : exec (.opticalCut i c) s = .next (s.opticalCut i c) := if_pos inside
    rw [exec_cut]
    exact ⟨fun bright => ⟨_, rfl, s.opticalCut_spec i c bright⟩, fun dim =>
      congrArg Host.Outcome.next (if_neg (by rw [dim]; exact Bool.false_ne_true))⟩

end Sys2Proof.Machine
end

section
/-! SUPPORT. Pins, supplies and the resets that they start, and the PCI Express link (R342, R346, R349, R382, R393, R468, R473, R476,
R479, R480). -/

namespace Sys2Proof.Machine

/-! ### What the loads of scores give back (R211, R346) -/

/-- Between two states only what scores hold moved: registers, bays, groups, streams, the scores, stage memory's owners and vectors. -/
def State.HoldingsMoved (s u : State) : Prop :=
  ∃ g y f x c t m n, u = { s with
    regs := g, bays := y, fab := f, strm := x, scores := c, stage := t, cmd := { s.cmd with msix := m, sent := n } }

theorem State.HoldingsMoved.refl (s : State) : s.HoldingsMoved s :=
  ⟨s.regs, s.bays, s.fab, s.strm, s.scores, s.stage, s.cmd.msix, s.cmd.sent, rfl⟩
theorem State.HoldingsMoved.trans {s t u : State} (h : s.HoldingsMoved t) (k : t.HoldingsMoved u) : s.HoldingsMoved u := by
  obtain ⟨g, y, f, x, c, t, m, n, rfl⟩ := h
  obtain ⟨g', y', f', x', c', t', m', n', rfl⟩ := k
  exact ⟨g', y', f', x', c', t', m', n', rfl⟩
theorem State.HoldingsMoved.foldl {α : Type} (f : State → α → State) (step : ∀ u x, State.HoldingsMoved u (f u x)) (l : List α) (s : State) :
    s.HoldingsMoved (l.foldl f s) := foldl_does State.HoldingsMoved .refl (fun _ _ _ => .trans) f step l s

theorem State.HoldingsMoved.freeBay (s : State) (b : Nat) : s.HoldingsMoved (s.freeBay b) := by
  unfold State.freeBay
  extract_lets s1 s2
  have given : s.HoldingsMoved s2 := ⟨_, _, s.fab, s.strm, s.scores, s.stage, s.cmd.msix, s.cmd.sent, rfl⟩
  split
  · obtain ⟨g, m, n, free, -⟩ := s2.setBayState_spec b 1
    exact given.trans ⟨g, s2.bays, s2.fab, s2.strm, s2.scores, s2.stage, m, n, free⟩
  · exact given

theorem State.HoldingsMoved.freeGroup (s : State) (n : Nat) : s.HoldingsMoved (s.freeGroup n) :=
  ⟨s.regs, s.bays, _, s.strm, _, s.stage, s.cmd.msix, s.cmd.sent, rfl⟩

theorem State.HoldingsMoved.freeGran (s : State) (n : Nat) : s.HoldingsMoved (s.freeGran n) := by
  unfold State.freeGran
  extract_lets codes other owner
  exact ⟨s.regs, s.bays, s.fab, s.strm, _, _, s.cmd.msix, s.cmd.sent, rfl⟩

theorem State.HoldingsMoved.freeHomes (s : State) (i : ScoreId) : s.HoldingsMoved (s.freeHomes i) := by
  unfold State.freeHomes
  extract_lets s1
  have grans : s.HoldingsMoved s1 := .foldl _ HoldingsMoved.freeGran _ s
  clear_value s1
  exact grans.trans ⟨s1.regs, s1.bays, s1.fab, s1.strm, _, s1.stage, s1.cmd.msix, s1.cmd.sent, rfl⟩

theorem State.HoldingsMoved.releaseAll (s : State) (i : ScoreId) : s.HoldingsMoved (s.releaseAll i) := by
  unfold State.releaseAll
  extract_lets s1 s2 s3 s4 s5
  have bays : s.HoldingsMoved s1 := .foldl _ HoldingsMoved.freeBay _ s
  have groups : s1.HoldingsMoved s2 := .foldl _ HoldingsMoved.freeGroup _ s1
  have streams : ∀ (u : State) x, u.HoldingsMoved { u with strm := x } :=
    fun u x => ⟨u.regs, u.bays, u.fab, x, u.scores, u.stage, u.cmd.msix, u.cmd.sent, rfl⟩
  have wins : s2.HoldingsMoved s3 := .foldl _ (fun u w => streams u _) _ s2
  have queues : s3.HoldingsMoved s4 := .foldl _ (fun u n => streams u _) _ s3
  have homes : s4.HoldingsMoved s5 := .freeHomes s4 i
  have five := bays.trans (groups.trans (wins.trans (queues.trans homes)))
  clear_value s5
  exact five.trans ⟨s5.regs, s5.bays, s5.fab, s5.strm, _, s5.stage, s5.cmd.msix, s5.cmd.sent, rfl⟩

/-! ### The reset of the function (R346, R393) -/

/-- Every command taken is mute: its reply is discarded (R346). -/
def State.AllMute (s : State) : Prop := ∀ c ∈ s.cmd.taken, c.mute = true

/-- What loads that are dropped, and the reset of the function, leave: only what scores hold and the command path moved, the window is as
it was, commands that are mute stay so, and registers outside CMD and the bays' own stand. -/
structure State.FunctionCleared (s u : State) : Prop where
  only : ∃ g a y f x c t k, u = { s with
    regs := g, armed := a, bays := y, fab := f, strm := x, scores := c, stage := t, cmd := k }
  window : u.cmd.window = s.cmd.window
  mute : s.AllMute → u.AllMute
  reg : ∀ off, 0x40 ≤ off → off / 0x10000 ≠ 1 → u.reg off = s.reg off

theorem State.FunctionCleared.refl (s : State) : s.FunctionCleared s where
  only := ⟨s.regs, s.armed, s.bays, s.fab, s.strm, s.scores, s.stage, s.cmd, rfl⟩
  window := rfl
  mute := id
  reg := fun _ _ _ => rfl

theorem State.FunctionCleared.trans {s t u : State} (h : s.FunctionCleared t) (k : t.FunctionCleared u) : s.FunctionCleared u where
  only := by
    obtain ⟨g, a, y, f, x, c, t, k, rfl⟩ := h.only
    obtain ⟨g', a', y', f', x', c', t', k', e⟩ := k.only
    exact ⟨g', a', y', f', x', c', t', k', e⟩
  window := k.window.trans h.window
  mute := fun all => k.mute (h.mute all)
  reg := fun off a b => (k.reg off a b).trans (h.reg off a b)

theorem State.FunctionCleared.complete (s : State) (k st d : Nat) (vs : List Nat) : s.FunctionCleared (s.complete k st d vs) where
  only := by
    obtain ⟨x, e⟩ := s.complete_only k st d vs
    exact ⟨s.regs, s.armed, s.bays, s.fab, s.strm, s.scores, s.stage, x, e⟩
  window := by
    obtain ⟨t, d, completed, -⟩ := s.complete_spec k st d vs
    rw [completed]
  mute := fun all c taken => all c (List.mem_of_mem_eraseIdx (s.complete_taken k st d vs ▸ taken))
  reg := fun off _ _ => State.reg_congr (s.complete_regs k st d vs) off

theorem State.FunctionCleared.releaseAll (s : State) (i : ScoreId) : s.FunctionCleared (s.releaseAll i) := by
  have reg := fun off (beyond : 0x40 ≤ off) (_ : off / 0x10000 ≠ 1) => s.releaseAll_reg i beyond
  obtain ⟨g, y, f, x, c, t, m, n, released⟩ := HoldingsMoved.releaseAll s i
  rw [released] at reg ⊢
  exact ⟨⟨g, s.armed, y, f, x, c, t, _, rfl⟩, rfl, id, reg⟩

theorem State.FunctionCleared.dropLoad (s : State) (i : ScoreId) : s.FunctionCleared (s.dropLoad i) := by
  unfold State.dropLoad
  extract_lets s1
  refine .trans (t := s1) ?_ (.releaseAll s1 i)
  unfold s1
  split
  · exact .complete s _ 6 0x11 []
  · exact .refl s

theorem State.FunctionCleared.nextAnalysis (s : State) : s.FunctionCleared s.nextAnalysis := by
  obtain ⟨x, next⟩ := s.nextAnalysis_only
  rw [next]
  exact ⟨⟨s.regs, s.armed, s.bays, s.fab, s.strm, x, s.stage, s.cmd, rfl⟩, rfl, id, fun _ _ _ => rfl⟩

/-- The function as its reset leaves it before the loads are dropped: window, CMD registers and MSI-X, and every command mute. -/
def State.muted (s : State) : State := { s with
  regs := s.regs.filter fun p => p.1 / 0x10000 != 1
  armed := s.armed.filter fun p => p.1 / 0x10000 != 1
  cmd := { s.cmd with window := [], fresh := true, partial_ := none, ringNew := false, msix := [], done := []
                      taken := s.cmd.taken.map fun c => { c with mute := true } } }

theorem State.muted_reg (s : State) {off : Nat} (h : off / 0x10000 ≠ 1) : s.muted.reg off = s.reg off :=
  (Tab.get_filter regReset s.regs (fun o => o / 0x10000 != 1) off).trans (if_pos (bne_iff_ne.2 h))

theorem State.muted_allMute (s : State) : s.muted.AllMute := by
  intro c taken
  obtain ⟨d, -, rfl⟩ := List.mem_map.1 taken
  rfl

theorem State.functionReset_clears (s : State) : s.muted.FunctionCleared s.functionReset := by
  have dropped : ∀ l : Tab Score, s.muted.FunctionCleared (l.foldl (fun u x => u.dropLoad (BitVec.ofNat 16 x.1)) s.muted) := fun l =>
    foldl_does State.FunctionCleared .refl (fun _ _ _ => .trans) _ (fun u x => .dropLoad u _) l s.muted
  exact (dropped _).trans (.nextAnalysis _)

/-- The reset of the function empties the window, silences every command and leaves the tiles, the loops, GDDR7, the pins and the link. -/
theorem State.functionReset_spec (s : State) : s.functionReset.cmd.window = [] ∧ s.functionReset.AllMute ∧
    (s.functionReset.tiles = s.tiles ∧ s.functionReset.engines = s.engines ∧ s.functionReset.gddr = s.gddr) ∧
    s.functionReset.pins = s.pins ∧ s.functionReset.link = s.link ∧
    ∀ off, 0x40 ≤ off → off / 0x10000 ≠ 1 → s.functionReset.reg off = s.reg off := by
  obtain ⟨only, window, mute, reg⟩ := s.functionReset_clears
  have regs := fun off a b => (reg off a b).trans (s.muted_reg b)
  have silent := mute s.muted_allMute
  obtain ⟨g, a, y, f, x, c, t, k, cleared⟩ := only
  rw [cleared] at window silent regs ⊢
  exact ⟨window, silent, ⟨rfl, rfl, rfl⟩, rfl, rfl, regs⟩

/-! ### Module reset and the supplies (R393, R468, R479) -/

theorem State.keepRegs_only (s old : State) (l : List Nat) : s.RegsMoved (s.keepRegs old l) :=
  foldl_does State.RegsMoved (fun s => ⟨s.regs, rfl⟩) (fun _ _ _ => .trans) _ (fun _ _ => ⟨_, rfl⟩) l s

/-- A module reset clears the halted module but for registers and the fault ring. -/
theorem State.moduleReset_only (s : State) : ∃ g x, s.moduleReset = { s.haltAll.cleared with regs := g, faults := x } := by
  unfold State.moduleReset
  generalize s.haltAll = h
  extract_lets _ t t1
  have kept : h.cleared.RegsMoved t := h.cleared.keepRegs_only h _
  have shown : t.RegsMoved t1 :=
    ((t.setFld_moves _ _).trans (State.setFld_moves _ _ _)).trans (State.setFld_moves _ _ _)
  have moved := kept.trans shown
  clear_value t1
  obtain ⟨g, rfl⟩ := moved
  exact ⟨g, _, rfl⟩

/-- A byte of stage memory of which only some addresses are kept. -/
theorem Stage.byte_keep (g : Stage) (f : Nat → Bool) (a : Nat) :
    Tab.get dZero (g.keep f).bytes a = if f a = true then Tab.get dZero g.bytes a else 0 := Tab.get_filter dZero g.bytes f a

/-- Banks 46 and 47 outlive a module reset, and the others read as zeros (R393, R490). -/
theorem State.stageByte_moduleReset (s : State) (a : Nat) :
    s.moduleReset.stageByte a = if 0x17000000 ≤ a then s.stageByte a else 0 := by
  obtain ⟨g, x, only⟩ := s.moduleReset_only
  have kept : s.haltAll.stage = s.stage := by
    have mem := s.haltAll_mem
    unfold State.mem at mem
    exact (Prod.mk.inj mem).1
  have stage : s.moduleReset.stage = s.stage.retained := by rw [only, ← kept]; rfl
  unfold State.stageByte
  rw [stage]
  refine (Stage.byte_keep s.stage (fun a => 0x17000000 ≤ a) a).trans ?_
  simp only [decide_eq_true_eq]

theorem exec_modResetNAssert_high {s : State} (high : s.pins.modReset = true) :
    ∃ u, exec .modResetNAssert s = .next u ∧ u.pins.modReset = false ∧ u.flag CLK_RST_CAUSE.pin = true ∧ u.scores.scores = [] ∧
      u.pins.powForce = true ∧ (∀ a, 0x17000000 ≤ a → u.stageByte a = s.stageByte a) ∧ ∀ a, a < 0x17000000 → u.stageByte a = 0 := by
  obtain ⟨t, reset⟩ : ∃ t, s.moduleReset.setFlag CLK_RST_CAUSE.pin true = t := ⟨_, rfl⟩
  have stage : ∀ a, t.stageByte a = if 0x17000000 ≤ a then s.stageByte a else 0 := fun a => by
    rw [← reset, ← s.stageByte_moduleReset]
    unfold State.stageByte
    rw [State.setFlag_stage]
  have cause : t.flag CLK_RST_CAUSE.pin = true := reset ▸ State.flag_setFlag _ (by decide) true
  have cleared : t.scores.scores = [] ∧ t.pins.powForce = true := by
    obtain ⟨g, x, only⟩ := s.moduleReset_only
    rw [← reset, State.setFlag_scores, State.setFlag_pins, only]
    exact ⟨rfl, rfl⟩
  have exec_reset : exec .modResetNAssert s = .next { t with pins := { t.pins with modReset := false } } := by
    rw [← reset]
    exact congrArg Host.Outcome.next (if_pos high)
  exact ⟨_, exec_reset, rfl, cause, cleared.1, cleared.2, fun a held => (stage a).trans (if_pos held),
    fun a lost => (stage a).trans (if_neg (Nat.not_le.2 lost))⟩

/-! ### Power good (R326, R473) -/

/-- Straps that are sampled show in GLB_STRAP and FAB_PID, and only these and the fault ring change. -/
theorem State.sampleStraps_spec (s : State) (compat : Bool) (nid : BitVec 12) :
    (s.sampleStraps compat nid).pins = s.pins ∧ (s.sampleStraps compat nid).tick = s.tick ∧
      (s.sampleStraps compat nid).flag THM_TRIP.latched = s.flag THM_TRIP.latched ∧
      (s.sampleStraps compat nid).flag GLB_STRAP.compat = compat ∧ (s.sampleStraps compat nid).fld FAB_PID.id = nid.toNat ∧
      ((s.sampleStraps compat nid).flag FAB_PID.asg = true ↔ nid ≠ 0 ∧ nid ≠ 0xFFF) := by
  unfold State.sampleStraps
  extract_lets asg s1
  have assigned : asg = true ↔ nid ≠ 0 ∧ nid ≠ 0xFFF := by simp [asg]
  have pid : ∀ u : State, (u.setFlag FAB_PID.asg asg).fld FAB_PID.id = u.fld FAB_PID.id := fun u =>
    u.fld_setFld_beside FAB_PID.asg FAB_PID.id _ rfl (by decide) (by decide) (by decide) (by decide)
  have id : s1.fld FAB_PID.id = nid.toNat := by
    unfold s1
    rw [pid, State.fld_setFld_same _ FAB_PID.id _ (by decide) (by decide)]
    exact Nat.mod_eq_of_lt nid.isLt
  have strap : s1.flag GLB_STRAP.compat = compat :=
    (State.flag_congr _ ((State.reg_setFld_other _ _ _ _ (by decide)).trans (State.reg_setFld_other _ _ _ _ (by decide)))).trans
      (s.flag_setFlag (by decide) compat)
  have trip : s1.flag THM_TRIP.latched = s.flag THM_TRIP.latched :=
    State.flag_congr _ ((State.reg_setFld_other _ _ _ _ (by decide)).trans ((State.reg_setFld_other _ _ _ _ (by decide)).trans
      (State.reg_setFld_other _ _ _ _ (by decide))))
  have asked : s1.flag FAB_PID.asg = asg := State.flag_setFlag _ (by decide) asg
  have pins : s1.pins = s.pins ∧ s1.tick = s.tick := by
    obtain ⟨g, moved⟩ : s.RegsMoved s1 :=
      ((s.setFlag_moves _ _).trans (State.setFld_moves _ _ _)).trans (State.setFlag_moves _ _ _)
    rw [moved]
    exact ⟨rfl, rfl⟩
  clear_value s1
  split
  · exact ⟨pins.1, pins.2, trip, strap, id, asked ▸ assigned⟩
  · obtain ⟨x, g, m, n, raised, -, reg⟩ := s1.raise_spec { cls := 8, code := 2 }
    refine ⟨by rw [raised]; exact pins.1, by rw [raised]; exact pins.2, (State.flag_congr _ (reg _ (by decide))).trans trip,
      (State.flag_congr _ (reg _ (by decide))).trans strap, (State.fld_congr _ (reg _ (by decide))).trans id, ?_⟩
    rw [State.flag_congr FAB_PID.asg (reg _ (by decide)), asked]
    exact assigned

/-- Power-up clears the steps and the trip and forces every output before the pins and the times. -/
theorem State.beginPowerUp_forces (s : State) :
    ∃ t, State.PausesMoved (((s.setFld GLB_PUP.steps 0).setFld GLB_PUP.ms 0).setFlag THM_TRIP.latched false) t ∧
      s.beginPowerUp = { t with
        tick := 0, core := 0, pins := { t.pins with modReset := true, trip := true }, pwr := { t.pwr with step := 0 }
        link := { t.link with perstTick := 0 } } :=
  ⟨_, State.forceAll_moves _ 1, rfl⟩

/-- Power-up begins with the pin high, the time at zero and no trip latched. -/
theorem State.beginPowerUp_spec (s : State) :
    s.beginPowerUp.pins.modReset = true ∧ s.beginPowerUp.tick = 0 ∧ s.beginPowerUp.flag THM_TRIP.latched = false := by
  obtain ⟨t, forced, begun⟩ := s.beginPowerUp_forces
  rw [begun]
  exact ⟨rfl, rfl, (State.flag_congr _ (forced.reg (by decide))).trans (State.flag_setFlag _ (by decide) false)⟩

theorem exec_powerGood_rises {s : State} (low : s.pins.modReset = false) (supplied : s.pins.vbrz = true) (compat : Bool)
    (nid : BitVec 12) : exec (.powerGood compat nid) s = .next (s.beginPowerUp.sampleStraps compat nid) :=
  congrArg Host.Outcome.next (if_neg (by rw [low, supplied]; decide))

theorem exec_powerGood_ignored {s : State} (h : s.pins.modReset = true ∨ s.pins.vbrz = false) (compat : Bool) (nid : BitVec 12) :
    exec (.powerGood compat nid) s = .next s := by
  refine congrArg Host.Outcome.next (if_pos (h.imp_right fun gone => ?_))
  rw [gone]
  rfl

/-! ### The link (R342, R349, R382) -/

theorem exec_perstNAssert_high {s : State} (high : s.pins.perst = true) :
    ∃ u, exec .perstNAssert s = .next u ∧ u.pins.perst = false ∧ u.link.up = false ∧ u.flag CLK_RST_CAUSE.perst = true ∧
      u.cmd.window = [] ∧ u.tiles = s.tiles ∧ u.engines = s.engines ∧ u.gddr = s.gddr := by
  obtain ⟨window, -, ⟨tiles, engines, gddr⟩, -, -, reg⟩ := (s.setFlag CLK_RST_CAUSE.perst true).functionReset_spec
  exact ⟨_, congrArg Host.Outcome.next (if_pos high), rfl, rfl,
    (State.flag_congr _ (reg _ (by decide) (by decide))).trans (s.flag_setFlag (by decide) true), window, tiles, engines, gddr⟩

theorem exec_functionLevelReset (s : State) :
    ∃ u, exec .functionLevelReset s = .next u ∧ u.flag CLK_RST_CAUSE.flr = true ∧ u.cmd.window = [] ∧
      (∀ c ∈ u.cmd.taken, c.mute = true) ∧ u.tiles = s.tiles ∧ u.engines = s.engines ∧ u.gddr = s.gddr := by
  obtain ⟨window, mute, ⟨tiles, engines, gddr⟩, -, -, reg⟩ := (s.setFlag CLK_RST_CAUSE.flr true).functionReset_spec
  exact ⟨_, rfl, (State.flag_congr _ (reg _ (by decide) (by decide))).trans (s.flag_setFlag (by decide) true), window, mute, tiles,
    engines, gddr⟩

/-- A link that may train comes up in Flit mode, and without it goes back to Detect. -/
theorem State.linkRetry_flit {s : State} (may : s.mayTrain = true) (width : BitVec 3) (gen : BitVec 4) :
    s.linkRetry true width gen = { s with link := { s.link with up := true, flit := true, width := width, gen := gen } } :=
  (if_neg (by rw [may]; exact Bool.false_ne_true)).trans (if_pos rfl)

theorem State.linkRetry_noFlit {s : State} (may : s.mayTrain = true) (width : BitVec 3) (gen : BitVec 4) :
    s.linkRetry false width gen = { s with link := { s.link with flit := false } } :=
  (if_neg (by rw [may]; exact Bool.false_ne_true)).trans (if_neg Bool.false_ne_true)

theorem State.linkRetry_stays {s : State} (cannot : s.mayTrain = false) (flit : Bool) (width : BitVec 3) (gen : BitVec 4) :
    s.linkRetry flit width gen = s := by
  unfold State.linkRetry
  rw [cannot, Bool.not_false, if_pos rfl]

theorem State.up_of_mayTrain {s : State} (may : s.mayTrain = true) : s.link.up = false := by
  unfold State.mayTrain at may
  simpa using (Bool.and_eq_true_iff.1 may).2

/-- Each error is reported once, and only a fatal one, one of the window and one that is not supported do more. -/
theorem State.linkError_spec (s : State) (e : LinkErr) :
    (s.linkError e).link.aer = s.link.aer + 1 ∧ (e = .fatal → (s.linkError e).link.up = false ∧ (s.linkError e).cmd.window = []) ∧
      (e = .unsupported → (s.linkError e).link.cpl = 1) ∧
      (∀ o n, e = .poisonedWindow o n → (s.linkError e).flag CMD_STAT.part = true ∧ (s.linkError e).cmd.window = s.cmd.window) ∧
      (e ∈ [.corrected, .unexpectedCompletion, .poisonedBar] → s.linkError e = { s with link := (s.linkError e).link }) := by
  cases e with
  | corrected => exact ⟨rfl, nofun, nofun, nofun, fun _ => rfl⟩
  | unexpectedCompletion => exact ⟨rfl, nofun, nofun, nofun, fun _ => rfl⟩
  | poisonedBar => exact ⟨rfl, nofun, nofun, nofun, fun _ => rfl⟩
  | poisonedWindow =>
    exact ⟨congrArg Link.aer (s.aer.setFlag_link _ _), nofun, nofun,
      fun _ _ _ => ⟨s.aer.flag_setFlag (by decide) true, congrArg CmdPath.window (s.aer.setFlag_cmd _ _)⟩, by simp⟩
  | unsupported => exact ⟨rfl, nofun, fun _ => rfl, nofun, by simp⟩
  | fatal =>
    obtain ⟨window, -, -, -, link, -⟩ := s.aer.functionReset_spec
    exact ⟨congrArg Link.aer link, fun _ => ⟨rfl, window⟩, nofun, nofun, by simp⟩

theorem State.pcieClock_dom (s : State) : (s.pcieClock.dom 4).run = ((s.rail 11).on && s.pins.refclk) := by
  unfold State.pcieClock
  rw [State.dom_setDom_same]

/-- Settles O49: the resets by what they clear, the pins by their edges, the link by its conditions (the tick that starts again at power
good is log 80's reading, the effects of fatal and poisoned errors log 86's). -/
theorem pinsResetsAndLink : Obligations.PinsResetsAndLink := by
  intro s
  refine ⟨exec_modResetNAssert_high, fun low => congrArg Host.Outcome.next (if_neg (by rw [low]; exact Bool.false_ne_true)),
    fun compat nid => ⟨fun low supplied => ?rises, fun h => exec_powerGood_ignored h compat nid⟩, fun sba => ?powerOn,
    ⟨_, rfl, rfl, rfl⟩, ⟨_, rfl, fun a lost => ?lost, fun a held => ?held, rfl⟩, exec_perstNAssert_high,
    fun low => congrArg Host.Outcome.next (if_neg (by rw [low]; exact Bool.false_ne_true)),
    fun low => ⟨_, congrArg Host.Outcome.next (if_neg (by rw [low]; exact Bool.false_ne_true)), rfl, rfl⟩,
    fun high => congrArg Host.Outcome.next (if_pos high),
    fun width gen => ⟨fun may => ⟨⟨_, congrArg Host.Outcome.next (State.linkRetry_flit may width gen), rfl, rfl, rfl⟩,
        _, congrArg Host.Outcome.next (State.linkRetry_noFlit may width gen), State.up_of_mayTrain may, rfl⟩,
      fun cannot flit => congrArg Host.Outcome.next (State.linkRetry_stays cannot flit width gen)⟩,
    exec_functionLevelReset s, fun e => ⟨_, rfl, s.linkError_spec e⟩, ⟨_, rfl, rfl, ?answered⟩, ⟨_, rfl, rfl, ?stopped⟩, ⟨_, rfl, ?stable, rfl⟩⟩
  case rises =>
    obtain ⟨pins, tick, trip, straps⟩ := s.beginPowerUp.sampleStraps_spec compat nid
    obtain ⟨high, zero, untripped⟩ := s.beginPowerUp_spec
    exact ⟨_, exec_powerGood_rises low supplied compat nid, (congrArg Pins.modReset pins).trans high, tick.trans zero,
      trip.trans untripped, straps⟩
  case powerOn =>
    refine ⟨_, rfl, ?_, rfl, rfl, rfl, rfl, rfl, rfl⟩
    unfold State.powerOn
    rw [State.fld_setFld_same _ GLB_PUP.sba _ (by decide) (by decide)]
    exact Nat.mod_eq_of_lt sba.isLt
  case lost => exact (s.stage.byte_keep _ a).trans (if_neg (by simpa using lost))
  case held => exact (s.stage.byte_keep _ a).trans (if_pos (by simpa using held))
  case answered =>
    dsimp only [State.configFrom]
    exact if_congr Iff.rfl rfl rfl
  case stopped =>
    exact (State.pcieClock_dom { s with pins := { s.pins with refclk := false } }).trans (Bool.and_false _)
  case stable =>
    exact (State.pcieClock_dom { s with pins := { s.pins with refclk := true } }).trans (Bool.and_true _)

end Sys2Proof.Machine
end

section
/-! SUPPORT. Wavelength groups: what the loss of messages leaves, the retraining of a group, its lanes and its return (R309, R312, R319,
R320, R323). -/

namespace Sys2Proof.Machine

/-! ### What a delivery leaves of the fabric (R191, R309) -/

/-- Between two states the fabric stands, and so do the registers from the tiles' on. -/
def State.FabricKept (s u : State) : Prop := u.fab = s.fab ∧ ∀ off, 0x200000 ≤ off → u.reg off = s.reg off

theorem State.FabricKept.refl (s : State) : s.FabricKept s := ⟨rfl, fun _ _ => rfl⟩
theorem State.FabricKept.trans {s t u : State} (h : s.FabricKept t) (k : t.FabricKept u) : s.FabricKept u :=
  ⟨k.1.trans h.1, fun off o => (k.2 off o).trans (h.2 off o)⟩
theorem State.FabricKept.foldl {α : Type} (f : State → α → State) (step : ∀ u x, State.FabricKept u (f u x)) (l : List α) (s : State) :
    s.FabricKept (l.foldl f s) := foldl_does State.FabricKept .refl (fun _ _ _ => .trans) f step l s
theorem State.FabricKept.of_regs {s u : State} (fab : u.fab = s.fab) (regs : u.regs = s.regs) : s.FabricKept u :=
  ⟨fab, fun off _ => State.reg_congr regs off⟩
theorem State.StageMoved.fabricKept {s u : State} (h : s.StageMoved u) : s.FabricKept u := ⟨h.fab, h.delivered.2⟩
theorem State.FabricKept.modTile (s : State) (t : Nat) (f : Tile → Tile) : s.FabricKept (s.modTile t f) :=
  .of_regs (s.modTile_fab t f) (s.modTile_regs t f)
theorem State.FabricKept.putXfer (s : State) (q i : Nat) (x : Transfer) : s.FabricKept (s.putXfer q i x) := .of_regs rfl rfl
theorem State.FabricKept.countMark (s : State) (r n : Nat) : s.FabricKept (s.countMark r n) := .of_regs rfl rfl

theorem State.FabricKept.bufArrive (s : State) (n res : Nat) (b : Block) : s.FabricKept (s.bufArrive n res b) := by
  unfold State.bufArrive
  extract_lets v s1 y
  refine State.FabricKept.trans (t := s1) (s.putBlock_moves 0xFFFF _ b).fabricKept ?_
  split
  · exact .of_regs rfl rfl
  · exact .of_regs rfl rfl

theorem State.FabricKept.stageWrite (s : State) (a : Nat) (x : Block) (i : ScoreId) (q : Nat) : s.FabricKept (s.stageWrite a x i q) := by
  unfold State.stageWrite
  split
  · exact (s.putBlock_moves q a x).fabricKept
  · split
    · unfold State.mapWriteBlock
      extract_lets t e y
      split
      · exact .of_regs (s.setTile_fab t _) (s.setTile_regs t _)
      · exact (s.droppedWrite_moves q i a).fabricKept
    · exact (s.droppedWrite_moves q i a).fabricKept

theorem State.FabricKept.deliverBlock (s : State) (q : Nat) (x : Transfer) (lin : Nat) (b : Block) :
    s.FabricKept (s.deliverBlock q x lin b) := by
  unfold State.deliverBlock
  split
  · exact .foldl _ (fun u t => .modTile u t _) _ s
  · split
    · exact .of_regs rfl rfl
    · split
      · exact .bufArrive s _ 1 b
      · exact .stageWrite s _ b _ q

theorem State.FabricKept.xferDone (s : State) (o : Outstanding) : s.FabricKept (s.xferDone o) := by
  unfold State.xferDone
  split
  · exact .refl s
  · split
    · exact .refl s
    · exact .putXfer s _ _ _

theorem State.FabricKept.deliverRead (s : State) (o : Outstanding) (bs : List Block) : s.FabricKept (s.deliverRead o bs) := by
  unfold State.deliverRead
  split
  · exact .refl s
  · split
    · exact .refl s
    · exact (FabricKept.foldl _ (fun u k => .deliverBlock u _ _ _ _) _ s).trans (.xferDone _ o)

/-! ### The loss of messages (R312) -/

/-- Between two states one group moved, with the loss counts of its port: the other groups, the ports' failures, and the registers from
the tiles' on but for those counts stand. -/
structure State.GroupMoved (p g : Nat) (s u : State) : Prop where
  apart : ∀ q k, ¬ (q = p ∧ k = g) → u.group q k = s.group q k
  fails : ∀ q, (u.port q).fails = (s.port q).fails
  reg : ∀ off, 0x200000 ≤ off → off ≠ (FAB_RETRY.lost.on p).off → u.reg off = s.reg off

/-- A group whose outstanding reads and writes alone moved. -/
def FabGroup.SameTraffic (f h : FabGroup) : Prop := ∃ r w, h = { f with reads := r, writes := w }

section
variable {p g : Nat}

theorem State.GroupMoved.refl (s : State) : State.GroupMoved p g s s := ⟨fun _ _ _ => rfl, fun _ => rfl, fun _ _ _ => rfl⟩
theorem State.GroupMoved.trans {s t u : State} (h : State.GroupMoved p g s t) (k : State.GroupMoved p g t u) : State.GroupMoved p g s u where
  apart := fun q n other => (k.apart q n other).trans (h.apart q n other)
  fails := fun q => (k.fails q).trans (h.fails q)
  reg := fun off a b => (k.reg off a b).trans (h.reg off a b)

theorem State.fails_setGroup (s : State) (q k : Nat) (x : FabGroup) (r : Nat) : ((s.setGroup q k x).port r).fails = (s.port r).fails := by
  unfold State.setGroup
  rw [State.port_setPort]
  split
  · next same => rw [same]
  · rfl

theorem State.GroupMoved.setGroup (s : State) (x : FabGroup) : State.GroupMoved p g s (s.setGroup p g x) where
  apart := fun q k other => (s.group_setGroup p g q k x).trans (if_neg other)
  fails := s.fails_setGroup p g x
  reg := fun off _ _ => State.reg_congr (s.setGroup_regs p g x) off

theorem State.port_congr {s u : State} (h : u.fab = s.fab) (p : Nat) : u.port p = s.port p := by
  unfold State.port
  rw [h]

theorem State.FabricKept.moves {s u : State} (h : s.FabricKept u) : State.GroupMoved p g s u where
  apart := fun q k _ => State.group_congr h.1 q k
  fails := fun q => congrArg Port.fails (State.port_congr h.1 q)
  reg := fun off a _ => h.2 off a

/-- A count in FAB_RETRY of a port. -/
theorem State.GroupMoved.countRetry (s : State) {f : Fld} (h : f.off = FAB_RETRY.lost.off) (n : Nat) :
    State.GroupMoved p g s (s.bump (f.on p) n) where
  apart := fun q k _ => State.group_congr (s.bump_fab _ n) q k
  fails := fun q => congrArg Port.fails (State.port_congr (s.bump_fab _ n) q)
  reg := fun off _ other => by
    obtain ⟨g, -, reg⟩ := s.bump_spec (f.on p) n
    exact reg off fun same => other (same.trans (congrArg (· + p * 0x10000) h))

theorem FabGroup.SameTraffic.refl (f : FabGroup) : f.SameTraffic f := ⟨f.reads, f.writes, rfl⟩
theorem FabGroup.SameTraffic.trans {f h k : FabGroup} (a : f.SameTraffic h) (b : h.SameTraffic k) : f.SameTraffic k := by
  obtain ⟨r, w, rfl⟩ := a
  obtain ⟨r', w', rfl⟩ := b
  exact ⟨r', w', rfl⟩

theorem FabGroup.SameTraffic.of_eq {f h : FabGroup} (same : h = f) : f.SameTraffic h := same ▸ .refl f

/-- What a message lost for good leaves: its group's traffic, and everything that `GroupMoved` names. -/
def State.AnswerLost (p g : Nat) (s u : State) : Prop :=
  State.GroupMoved p g s u ∧ (s.group p g).SameTraffic (u.group p g)

theorem State.AnswerLost.refl (s : State) : State.AnswerLost p g s s := ⟨.refl s, .refl _⟩
theorem State.AnswerLost.trans {s t u : State} (h : State.AnswerLost p g s t) (k : State.AnswerLost p g t u) : State.AnswerLost p g s u :=
  ⟨h.1.trans k.1, h.2.trans k.2⟩
theorem State.AnswerLost.foldl {α : Type} (f : State → α → State) (step : ∀ u x, State.AnswerLost p g u (f u x)) (l : List α) (s : State) :
    State.AnswerLost p g s (l.foldl f s) := foldl_does (State.AnswerLost p g) .refl (fun _ _ _ => .trans) f step l s
theorem State.FabricKept.lost {s u : State} (h : s.FabricKept u) : State.AnswerLost p g s u :=
  ⟨h.moves, .of_eq (State.group_congr h.1 p g)⟩
theorem State.AnswerLost.countRetry (s : State) {f : Fld} (h : f.off = FAB_RETRY.lost.off) (n : Nat) :
    State.AnswerLost p g s (s.bump (f.on p) n) := ⟨.countRetry s h n, .of_eq (State.group_congr (s.bump_fab _ n) p g)⟩
theorem State.AnswerLost.countLost (s : State) : State.AnswerLost p g s (s.countLost p) := .countRetry s rfl 1
theorem State.AnswerLost.dropRead (s : State) (o : Outstanding) : State.AnswerLost p g s (s.dropRead p g o) :=
  ⟨.setGroup s _, _, _, s.group_setGroup_same p g _⟩
theorem State.AnswerLost.dropWrite (s : State) (o : Outstanding) : State.AnswerLost p g s (s.dropWrite p g o) :=
  ⟨.setGroup s _, _, _, s.group_setGroup_same p g _⟩

theorem State.AnswerLost.readLost (s : State) (tag : BitVec 32) : State.AnswerLost p g s (s.readLost p g tag) := by
  unfold State.readLost
  split
  · exact .refl s
  · exact (((AnswerLost.dropRead s _).trans (FabricKept.countMark _ 13 _).lost).trans (.countLost _)).trans (FabricKept.deliverRead _ _ _).lost

theorem State.AnswerLost.writeLost (s : State) (tag : BitVec 32) : State.AnswerLost p g s (s.writeLost p g tag) := by
  unfold State.writeLost
  split
  · exact .refl s
  · exact (AnswerLost.dropWrite s _).trans (FabricKept.xferDone _ _).lost

theorem State.AnswerLost.completionLost (s : State) (tag : BitVec 32) : State.AnswerLost p g s (s.completionLost p g tag) :=
  ((AnswerLost.countRetry s (f := FAB_RETRY.cpl) rfl 1).trans (.countLost _)).trans (.writeLost _ tag)

theorem State.AnswerLost.outLost (s : State) (m : Msg) : State.AnswerLost p g s (s.outLost p g m) := by
  unfold State.outLost
  split
  · exact .readLost s _
  · split
    · exact (AnswerLost.countLost s).trans (.writeLost _ _)
    · exact .countLost s

/-! ### A group that loses what it has sent (R319) -/

/-- A group without what was sent and not acknowledged, and without what it holds behind a lost message. -/
def FabGroup.forgotten (f : FabGroup) : FabGroup :=
  { f with replay := [], resend := [], heads := [], held := [], rx := [], frags := [], nakOut := none, nakDue := false }

theorem State.groupLost_spec (s : State) :
    State.GroupMoved p g s (s.groupLost p g) ∧ ∃ f, (s.group p g).SameTraffic f ∧ (s.groupLost p g).group p g = f.forgotten := by
  unfold State.groupLost
  extract_lets f s1 s2 s3
  have reads : State.AnswerLost p g s s1 := .foldl _ (fun u (o : Outstanding) => .readLost u o.tag) _ s
  have writes : State.AnswerLost p g s1 s2 := .foldl _ (fun u (o : Outstanding) => .completionLost u o.tag) _ s1
  have others : State.AnswerLost p g s2 s3 := .foldl _ (fun u _ => .countLost u) _ s2
  obtain ⟨moved, traffic⟩ := (reads.trans writes).trans others
  clear_value s3
  exact ⟨moved.trans (.setGroup s3 _), _, traffic, s3.group_setGroup_same p g _⟩

end

/-! ### What has arrived and is not applied (R312, R319) -/

/-- Every block of a message lost for good is marked. -/
theorem lostBlocks_marked (m : Msg) : ∀ b ∈ lostBlocks m, b.mark.isSome = true := by
  intro b member
  obtain ⟨k, -, rfl⟩ := List.mem_map.1 member
  dsimp only
  split
  · rfl
  · cases (m.blocks.getD k (zeroBlock none)).mark with
    | none => rfl
    | some r => rfl

theorem lostBlocks_length (m : Msg) : (lostBlocks m).length = m.nblk.toNat := by
  unfold lostBlocks
  rw [List.length_map, List.length_range]

section
variable (s : State) (p g : Nat)

theorem State.lostArrived_arrived : ∀ m ∈ ((s.lostArrived p g).group p g).arrived,
    m.type ∈ [1, 4, 5, 6] ∧ ∀ b ∈ m.blocks, b.mark.isSome = true := by
  unfold State.lostArrived
  extract_lets f l fresh s1
  rw [State.group_setGroup_same]
  intro m member
  obtain ⟨x, listed, rfl⟩ := List.mem_map.1 member
  have carries := (List.mem_filter.1 listed).2
  refine ⟨?_, lostBlocks_marked x⟩
  simpa [or_assoc] using carries

/-! ### GROUP_RETRAIN (R319) -/

theorem FabGroup.carries_iff (f : FabGroup) : f.carries = true ↔ f.state = 1 ∨ f.state = 2 := by
  simp [FabGroup.carries]

theorem State.groupRetrain_eq (carries : (s.group p g).carries = true) :
    s.groupRetrain p g false = ((s.lostArrived p g).groupLost p g).setGroup p g
      { ((s.lostArrived p g).groupLost p g).group p g with state := 4 } := by
  unfold State.groupRetrain
  exact (if_neg Bool.false_ne_true).trans (if_pos ((FabGroup.carries_iff _).1 carries))

/-- A group that carries traffic begins its training with what it has lost. -/
theorem State.groupRetrain_begins (carries : (s.group p g).carries = true) :
    ((s.groupRetrain p g false).group p g).state = 4 ∧ ((s.groupRetrain p g false).group p g).replay = [] ∧
      ((s.groupRetrain p g false).group p g).resend = [] ∧ ((s.groupRetrain p g false).group p g).held = [] ∧
      ((s.groupRetrain p g false).group p g).arrived = ((s.lostArrived p g).group p g).arrived := by
  obtain ⟨-, f, ⟨r, w, rfl⟩, lost⟩ := (s.lostArrived p g).groupLost_spec (p := p) (g := g)
  rw [s.groupRetrain_eq p g carries, State.group_setGroup_same, lost]
  exact ⟨rfl, rfl, rfl, rfl, rfl⟩

theorem State.groupRetrain_quiet (quiet : (s.group p g).carries = false) : s.groupRetrain p g false = s := by
  unfold State.groupRetrain
  extract_lets f s1
  rw [if_neg Bool.false_ne_true, if_neg fun up => Bool.false_ne_true (quiet.symm.trans ((FabGroup.carries_iff f).2 up))]

/-- A group at the end of its training, with what has arrived; down while its binding waits. -/
def FabGroup.trained (f : FabGroup) : FabGroup :=
  { f.fresh with arrived := f.arrived, state := if f.bound && f.pend then 3 else laneState f }

theorem State.groupRetrain_ends (training : (s.group p g).state = 4) :
    s.groupRetrain p g true = s.setGroup p g (s.group p g).trained := by
  unfold State.groupRetrain
  exact (if_pos rfl).trans (if_pos training)

theorem State.groupRetrain_untrained (other : (s.group p g).state ≠ 4) : s.groupRetrain p g true = s := by
  unfold State.groupRetrain
  exact (if_pos rfl).trans (if_neg other)

/-! ### Lanes (R320) -/

/-- A lane that stops leaves the set of its direction. -/
theorem State.stopLane_group (lane : Nat) (transmit : Bool) :
    (s.stopLane p g lane transmit).group p g =
      if transmit then { s.group p g with newTx := some ((s.group p g).newTx.getD (s.group p g).txl &&& BitVec.ofNat 4 (15 - 2 ^ lane)) }
      else { s.group p g with newRx := some ((s.group p g).newRx.getD (s.group p g).rxl &&& BitVec.ofNat 4 (15 - 2 ^ lane)) } := by
  unfold State.stopLane
  cases transmit with
  | true => exact s.group_setGroup_same p g _
  | false => exact s.group_setGroup_same p g _

theorem State.lanePromises_moves : s.ClaimsMoved (s.lanePromises p g) := by
  unfold State.lanePromises
  extract_lets f n
  refine foldl_does State.ClaimsMoved .refl .trans _ (fun u x => ?_) _ s
  split
  · split
    · exact u.promiseRisk_moves _ _ _
    · exact u.promiseBreak_moves _ _ _
  · exact .refl u

theorem State.ClaimsMoved.fab {s u : State} (h : s.ClaimsMoved u) : u.fab = s.fab := by
  obtain ⟨c, x, g, m, n, rfl, -⟩ := h
  rfl

/-- A group on the lanes that are announced for it. -/
def FabGroup.onLanes (f : FabGroup) : FabGroup := { f with rxl := f.newRx.getD f.rxl, txl := f.newTx.getD f.txl, newRx := none, newTx := none }

/-- A group that carries traffic takes the lane sets announced, and its state follows its lanes. -/
theorem State.laneChange_changes (carries : (s.group p g).carries = true)
    (announced : (s.group p g).newRx.isSome = true ∨ (s.group p g).newTx.isSome = true) :
    (s.laneChange p g).group p g = { (s.group p g).onLanes with state := laneState (s.group p g).onLanes } := by
  have up := (FabGroup.carries_iff _).1 carries
  have due : ¬ ((s.group p g).state ≠ 1 ∧ (s.group p g).state ≠ 2 ∨ ((s.group p g).newRx.isNone ∧ (s.group p g).newTx.isNone)) := by
    rintro (⟨one, two⟩ | ⟨rx, tx⟩)
    · exact up.elim one two
    · simp only [Option.isNone_iff_eq_none] at rx tx
      simp [rx, tx] at announced
  unfold State.laneChange
  extract_lets f f1 s1
  rw [if_neg due]
  split
  · exact s.group_setGroup_same p g _
  · rw [State.group_congr (s1.lanePromises_moves p g).fab]
    exact s.group_setGroup_same p g _

theorem State.laneChange_stays (h : (s.group p g).carries = false ∨ ((s.group p g).newRx = none ∧ (s.group p g).newTx = none)) :
    s.laneChange p g = s := by
  refine if_pos (h.imp (fun quiet => ?_) fun ⟨rx, tx⟩ => ⟨?_, ?_⟩)
  · refine not_or.1 fun up => ?_
    rw [(FabGroup.carries_iff _).2 up] at quiet
    exact Bool.noConfusion quiet
  · rw [rx]
    rfl
  · rw [tx]
    rfl

end

/-- Settles O31: the retraining by its two ends, a lane by its direction, the lanes that are announced, and the return by its conditions
(sequence numbers from 0 are log 63's reading, what has arrived as lost log 153's). -/
theorem groupsRetrainAndReturn : Obligations.GroupsRetrainAndReturn := by
  intro s p g f
  refine ⟨fun carries => ?begins, fun quiet => congrArg Host.Outcome.next (s.groupRetrain_quiet p g quiet), fun training => ?ends,
    fun other => congrArg Host.Outcome.next (s.groupRetrain_untrained p g other), fun lane => ⟨⟨_, rfl, ?transmit⟩, _, rfl, ?receive⟩,
    fun carries announced => ?changes, fun h => congrArg Host.Outcome.next (s.laneChange_stays p g h), ?returns⟩
  case begins =>
    obtain ⟨state, replay, resend, held, arrived⟩ := s.groupRetrain_begins p g carries
    refine ⟨_, rfl, state, replay, resend, held, fun m member => s.lostArrived_arrived p g m ?_⟩
    rw [← arrived]
    exact member
  case ends =>
    refine ⟨_, congrArg Host.Outcome.next (s.groupRetrain_ends p g training), ?_⟩
    rw [State.group_setGroup_same]
    exact ⟨rfl, rfl, rfl, rfl, rfl, rfl, rfl⟩
  case transmit =>
    rw [s.stopLane_group, if_pos rfl]
    exact ⟨rfl, rfl⟩
  case receive =>
    rw [s.stopLane_group, if_neg Bool.false_ne_true]
    exact ⟨rfl, rfl⟩
  case changes =>
    refine ⟨_, rfl, ?_⟩
    rw [s.laneChange_changes p g carries announced]
    exact ⟨rfl, rfl, rfl, rfl, rfl⟩
  case returns =>
    have exec_return : exec (.groupFilterReturn p g) s = .next (if f.state = 3 ∧ (s.loopOf 8 (4 * p + g)).mode = .track ∧
      1000 ≤ (s.loopOf 8 (4 * p + g)).inBand ∧ !s.isForced (4864 + 4 * p + g) ∧ s.fld (FAB_PORT_STAT.state.on p) = 3 ∧
      !(f.bound && f.pend) then s.setGroup p g { f with state := laneState f } else s) := rfl
    simp only [Bool.not_eq_true'] at exec_return
    rw [exec_return]
    refine ⟨fun back => ⟨_, congrArg Host.Outcome.next (if_pos back), ?_⟩, fun away => congrArg Host.Outcome.next (if_neg away)⟩
    rw [State.group_setGroup_same]

end Sys2Proof.Machine
end

section
/-! SUPPORT. What a wavelength group sends: flits in numbered slots of codeword pairs, and the order of what waits (R304 to R307, R310,
R311, R314, R315). -/

namespace Sys2Proof.Machine

/-! ### Flits in pairs (R304, R305) -/

/-- A flit that is neither idle nor a hello: what a pair carries of messages and notices. -/
abbrev IsTraffic (h : Hello) (x : Flit) : Prop := x ≠ .idle ∧ x ≠ .control (.hello h)

/-- The traffic among the slots of pairs, in order. -/
def trafficOf (h : Hello) (l : List Flit) : List Flit := l.filter fun x => IsTraffic h x

section
variable (h : Hello)

theorem trafficOf_append (l m : List Flit) : trafficOf h (l ++ m) = trafficOf h l ++ trafficOf h m := List.filter_append l m

theorem trafficOf_control (l : List Flit) : trafficOf h (.control (.hello h) :: l) = trafficOf h l :=
  List.filter_cons_of_neg (by simp)
theorem trafficOf_idle (l : List Flit) : trafficOf h (.idle :: l) = trafficOf h l := List.filter_cons_of_neg (by simp)

/-- The slots of a pair take the flits that wait in order, and no other traffic. -/
theorem fillPair_traffic (k : Nat) (n : BitVec 6) {q : List Flit} (all : ∀ x ∈ q, IsTraffic h x) :
    trafficOf h (fillPair h k n q).1 ++ (fillPair h k n q).2 = q := by
  induction k generalizing n q with
  | zero => rfl
  | succ k ih =>
    unfold fillPair
    split
    · rw [trafficOf_control]
      exact ih _ all
    · cases q with
      | nil =>
        rw [trafficOf_idle]
        exact ih _ all
      | cons x t =>
        obtain ⟨first, rest⟩ := List.forall_mem_cons.1 all
        have taken : trafficOf h (x :: (fillPair h k (n + 1) t).1) = x :: trafficOf h (fillPair h k (n + 1) t).1 :=
          List.filter_cons_of_pos (decide_eq_true first)
        rw [taken, List.cons_append, ih _ rest]

theorem fillPair_length (k : Nat) (n : BitVec 6) (q : List Flit) : (fillPair h k n q).2.length ≤ q.length := by
  induction k generalizing n q with
  | zero => exact Nat.le_refl _
  | succ k ih =>
    unfold fillPair
    split
    · exact ih _ q
    · cases q with
      | nil => exact ih _ []
      | cons x t => exact Nat.le_succ_of_le (ih _ t)

theorem fillPair_slot (k : Nat) {n : BitVec 6} (plain : n ≠ 63) (x : Flit) (t : List Flit) :
    (fillPair h (k + 1) n (x :: t)).2 = (fillPair h k (n + 1) t).2 := by
  rw [fillPair, if_neg plain]

/-- A pair takes at least one flit of those that wait: of two slots in succession one at most is link control. -/
theorem fillPair_takes (n : BitVec 6) (x : Flit) (t : List Flit) : (fillPair h 5 n (x :: t)).2.length ≤ t.length := by
  by_cases control : n = 63
  · rw [fillPair, if_pos control]
    dsimp only
    rw [fillPair_slot h 3 (by rw [control]; decide)]
    exact fillPair_length h 3 _ t
  · rw [fillPair_slot h 4 control]
    exact fillPair_length h 4 _ t

/-- With nothing to send a pair holds idle flits and hellos. -/
theorem fillPair_nil (k : Nat) (n : BitVec 6) :
    (fillPair h k n []).2 = [] ∧ ∀ x ∈ (fillPair h k n []).1, x = .idle ∨ x = .control (.hello h) := by
  induction k generalizing n with
  | zero => exact ⟨rfl, nofun⟩
  | succ k ih =>
    obtain ⟨left, slots⟩ := ih (n + 1)
    unfold fillPair
    split
    · exact ⟨left, List.forall_mem_cons.2 ⟨.inr rfl, slots⟩⟩
    · exact ⟨left, List.forall_mem_cons.2 ⟨.inl rfl, slots⟩⟩

/-- The flits `q` leave on a group: pairs at the end of its line hold them, and beside the line only its slot number, the credits
that it owes and its nak move. -/
def FabGroup.Sends (h : Hello) (f u : FabGroup) (q : List Flit) : Prop :=
  ∃ l n o d, u = { f with line := f.line ++ l, txSlot := n, owed := o, nakDue := d } ∧ trafficOf h (l.flatMap (·.slots)) = q

theorem FabGroup.sendPair_sends (f : FabGroup) {q : List Flit} (all : ∀ x ∈ q, IsTraffic h x) :
    ∃ sent, f.Sends h (f.sendPair h q).1 sent ∧ sent ++ (f.sendPair h q).2 = q := by
  refine ⟨_, ⟨[⟨f.header, (fillPair h 5 f.txSlot q).1⟩], _, _, _, rfl, rfl⟩, ?_⟩
  rw [List.flatMap_singleton]
  exact fillPair_traffic h 5 f.txSlot all

/-- Flits leave in as many pairs as they need. -/
theorem FabGroup.sendFlits_sends (k : Nat) (f : FabGroup) {q : List Flit} (enough : q.length < k) (all : ∀ x ∈ q, IsTraffic h x) :
    f.Sends h (FabGroup.sendFlits h k f q) q := by
  induction k generalizing f q with
  | zero => exact absurd enough (Nat.not_lt_zero _)
  | succ k ih =>
    obtain ⟨sent, first, split⟩ := f.sendPair_sends h all
    unfold FabGroup.sendFlits
    extract_lets r
    split
    · next last =>
      rw [List.isEmpty_iff.1 last, List.append_nil] at split
      exact split ▸ first
    · next more =>
      have fewer : r.2.length < k := by
        cases q with
        | nil => exact absurd (by rw [(List.append_eq_nil_iff.1 split).2]; rfl) more
        | cons x t => exact Nat.lt_of_le_of_lt (fillPair_takes h f.txSlot x t) (Nat.lt_of_succ_lt_succ enough)
      obtain ⟨l', n', o', d', rest, remains⟩ := ih r.1 fewer fun x left => all x (split ▸ List.mem_append_right sent left)
      obtain ⟨l, n, o, d, pair, carried⟩ := first
      refine ⟨l ++ l', n', o', d', ?_, ?_⟩
      · rw [rest, pair, List.append_assoc]
      · rw [List.flatMap_append, trafficOf_append, carried, remains, split]

end

/-- A message's flits are traffic, whatever the hello. -/
theorem lineFlits_traffic (h : Hello) (m : Msg) : ∀ x ∈ lineFlits m, IsTraffic h x := by
  unfold lineFlits
  split
  · next x r _ =>
    refine List.forall_mem_cons.2 ⟨⟨nofun, nofun⟩, fun y data => ?_⟩
    obtain ⟨b, -, rfl⟩ := List.mem_map.1 data
    exact ⟨nofun, nofun⟩
  · exact nofun

/-! ### The idle pair (R306, R315) -/

/-- The header of a pair returns the credits owed, as far as its field holds them. -/
theorem FabGroup.header_credits (f : FabGroup) : (f.header.extractLsb' 20 7).toNat = min f.owed 127 := by
  have seq := f.rxSeq.isLt
  have lanes := (f.newRx.getD f.rxl).isLt
  unfold FabGroup.header
  rw [BitVec.extractLsb'_toNat, BitVec.toNat_ofNat, Nat.shiftRight_eq_div_pow]
  split <;> omega

/-- A pair without traffic, as `messageSend` sends it. -/
theorem FabGroup.sendFlits_idle (h : Hello) (f : FabGroup) :
    FabGroup.sendFlits h 1 f [] = { f with
      line := f.line ++ [⟨f.header, (fillPair h 5 f.txSlot []).1⟩], txSlot := f.txSlot + 5, owed := f.owed - min f.owed 127
      nakDue := false } := by
  obtain ⟨none, -⟩ := fillPair_nil h 5 f.txSlot
  unfold FabGroup.sendFlits FabGroup.sendPair
  dsimp only
  rw [none]
  rfl

/-! ### MESSAGE_SEND (R310, R311, R314, R315) -/

section
variable (s : State) (p g : Nat)

/-- A group with flits sent on it after its queues are `f`. -/
def State.sendOn (f : FabGroup) (q : List Flit) : State :=
  s.setGroup p g (FabGroup.sendFlits (s.ownHello p) (q.length + 1) f q)

theorem State.sendOn_sends (f : FabGroup) {q : List Flit} (all : ∀ x ∈ q, IsTraffic (s.ownHello p) x) :
    f.Sends (s.ownHello p) ((s.sendOn p g f q).group p g) q := by
  unfold State.sendOn
  rw [State.group_setGroup_same]
  exact FabGroup.sendFlits_sends _ _ f (Nat.lt_succ_self _) all

/-- The next message as it leaves, with its sequence number. -/
def State.numbered (m : Msg) : Msg :=
  { m with seq := (s.group p g).txSeq + 1, src := s.ownId, cls := (s.group p g).cls, rty := false, grp := BitVec.ofNat 2 g }

/-- Credits and the replay buffer have no room for a message. -/
abbrev FabGroup.full (f : FabGroup) (m : Msg) : Prop :=
  f.cred < 1 + m.nfl.toNat ∨ (f.cls = .assured ∧ 8 ≤ f.replay.length)

/-- A group whose next message is on the line: kept for a resend when it is assured, and by its header alone when it is not. -/
def FabGroup.sentMsg (f : FabGroup) (m : Msg) (r : List Msg) (x : Msg) : FabGroup :=
  let f1 := { f with out := r, cred := f.cred - (1 + m.nfl.toNat), txSeq := f.txSeq + 1 }
  if f.cls = .assured then { f1 with replay := f.replay ++ [x] }
  else { f1 with heads := f.heads ++ [{ x with blocks := x.blocks.map fun b => ⟨[], b.mark⟩ }] }

theorem FabGroup.sentMsg_spec (f : FabGroup) (m : Msg) (r : List Msg) (x : Msg) :
    (f.sentMsg m r x).out = r ∧ (f.sentMsg m r x).cred = f.cred - (1 + m.nfl.toNat) ∧ (f.sentMsg m r x).txSeq = f.txSeq + 1 ∧
      (f.sentMsg m r x).line = f.line ∧ (f.cls = .assured → (f.sentMsg m r x).replay = f.replay ++ [x]) := by
  unfold FabGroup.sentMsg
  extract_lets f1
  split
  · exact ⟨rfl, rfl, rfl, rfl, fun _ => rfl⟩
  · next spare => exact ⟨rfl, rfl, rfl, rfl, fun assured => absurd assured spare⟩

theorem State.messageSend_down (quiet : (s.group p g).carries = false) : s.messageSend p g = s.downLost p g := by
  unfold State.messageSend
  extract_lets f put
  exact if_pos (by rw [show f.carries = false from quiet]; rfl)

variable (carries : (s.group p g).carries = true)
include carries

theorem State.messageSend_notice {m : Msg} {r : List Msg} (notices : (s.group p g).notices = m :: r) :
    s.messageSend p g = s.sendOn p g { s.group p g with notices := r } [.control (.loss (headBytes m))] := by
  unfold State.messageSend
  dsimp only
  rw [carries, notices]
  rfl

theorem State.messageSend_copy {m : Msg} {r : List Msg} (notices : (s.group p g).notices = []) (resend : (s.group p g).resend = m :: r) :
    s.messageSend p g = s.sendOn p g { s.group p g with resend := r } (lineFlits m) := by
  unfold State.messageSend
  dsimp only
  rw [carries, notices, resend]
  rfl

variable (notices : (s.group p g).notices = []) (resend : (s.group p g).resend = [])
include notices resend

theorem State.messageSend_empty (out : (s.group p g).out = []) : s.messageSend p g = s.sendOn p g (s.group p g) [] := by
  unfold State.messageSend
  dsimp only
  rw [carries, notices, resend, out]
  rfl

theorem State.messageSend_next {m : Msg} {r : List Msg} (out : (s.group p g).out = m :: r) :
    s.messageSend p g = if (s.group p g).full m then s.sendOn p g (s.group p g) []
      else s.sendOn p g ((s.group p g).sentMsg m r (s.numbered p g m)) (lineFlits (s.numbered p g m)) := by
  unfold State.messageSend State.numbered FabGroup.sentMsg
  dsimp only
  rw [carries, notices, resend, out]
  rfl

end

end Sys2Proof.Machine
end

section
/-! SUPPORT. What a wavelength group receives: pairs that decode and pairs that do not, naks, and loss notices (R304 to R307, R310 to R312,
R315). -/

namespace Sys2Proof.Machine

/-! ### Flits of a group (R305, R307) -/

section
variable (s : State) {p g : Nat}

theorem State.ownId_congr {s u : State} (h : u.reg FAB_PID.id.off = s.reg FAB_PID.id.off) : u.ownId = s.ownId :=
  congrArg (BitVec.ofNat 12) (State.fld_congr FAB_PID.id h)

theorem State.unwanted_congr {s u : State} (h : u.ownId = s.ownId) (m : Msg) : u.unwanted m = s.unwanted m := by
  unfold State.unwanted
  rw [h]

/-- A slot without a message flit is counted and nothing more. -/
theorem State.takeSlot_idle : s.takeSlot p g (some .idle) = s.setGroup p g { s.group p g with rxSlot := (s.group p g).rxSlot + 1 } := by
  unfold State.takeSlot
  exact ite_self _

theorem State.takeSlots_idle (k : Nat) (s : State) :
    ∃ n, ((List.replicate k Flit.idle).foldl (fun u x => u.takeSlot p g (some x)) s).group p g = { s.group p g with rxSlot := n } := by
  induction k generalizing s with
  | zero => exact ⟨_, rfl⟩
  | succ k ih =>
    obtain ⟨n, same⟩ := ih (s.takeSlot p g (some .idle))
    rw [s.takeSlot_idle, State.group_setGroup_same] at same
    rw [List.replicate_succ, List.foldl_cons, s.takeSlot_idle]
    exact ⟨n, same⟩

/-- A group that begins a message: one that was still open has lost its other flits. -/
def FabGroup.opened (f : FabGroup) : FabGroup := if f.rx.isEmpty then f else FabGroup.askAgain { f with frags := f.frags ++ [f.rx] }

/-- A message of one flit is received as its header flit comes. -/
theorem State.openMsg_receives {head : List Byte} (one : flitCount head = 1) :
    ∃ u : State, s.openMsg p g head = u.receive p g (decodeMsg head [some head]) ∧
      u.group p g = { (s.group p g).opened with rx := [] } ∧ u.regs = s.regs := by
  refine ⟨(s.setGroup p g (s.group p g).opened).setGroup p g
    { (s.setGroup p g (s.group p g).opened).group p g with rx := [] }, if_pos one, ?_, rfl⟩
  rw [State.group_setGroup_same, State.group_setGroup_same]

theorem State.takeSlot_head {head : List Byte} (one : flitCount head = 1) (plain : (s.group p g).rxSlot ≠ 63) :
    ∃ u : State, s.takeSlot p g (some (.head head)) = u.receive p g (decodeMsg head [some head]) ∧ u.regs = s.regs ∧
      u.group p g = { FabGroup.opened { s.group p g with rxSlot := (s.group p g).rxSlot + 1 } with rx := [] } := by
  obtain ⟨u, received, group, regs⟩ :=
    (s.setGroup p g { s.group p g with rxSlot := (s.group p g).rxSlot + 1 }).openMsg_receives (p := p) (g := g) one
  rw [State.group_setGroup_same] at group
  refine ⟨u, ?_, regs, group⟩
  rw [← received]
  exact if_neg plain

/-! ### A message out of the line (R310, R315) -/

theorem State.releaseHeld_none {s : State} (nil : (s.group p g).held = []) (n : Nat) : s.releaseHeld p g n = s := by
  cases n with
  | zero => rfl
  | succ n =>
    unfold State.releaseHeld
    dsimp only
    rw [nil]
    rfl

/-- The next message in order, which is wanted, waits to be applied. -/
theorem State.inOrder_arrives {m : Msg} (wanted : s.unwanted m = false) : s.inOrder p g m = s.setGroup p g { s.group p g with
    rxSeq := m.seq, nakOut := none, nakDue := false, arrived := (s.group p g).arrived ++ [m] } := by
  unfold State.inOrder
  exact if_neg (by rw [wanted]; exact Bool.false_ne_true)

/-- The next message in order, behind which nothing is held. -/
theorem State.inOrder_releases {m : Msg} (wanted : s.unwanted m = false) (nil : (s.group p g).held = []) :
    (s.inOrder p g m).releaseHeld p g ((s.inOrder p g m).group p g).held.length = s.setGroup p g { s.group p g with
      rxSeq := m.seq, nakOut := none, nakDue := false, arrived := (s.group p g).arrived ++ [m] } := by
  have held : ((s.inOrder p g m).group p g).held = [] := by
    rw [s.inOrder_arrives wanted, State.group_setGroup_same]
    exact nil
  rw [State.releaseHeld_none held, s.inOrder_arrives wanted]

theorem State.receive_next {m : Msg} (next : m.seq = (s.group p g).rxSeq + 1) (wanted : s.unwanted m = false)
    (nil : (s.group p g).held = []) : s.receive p g m = s.setGroup p g { s.group p g with
      rxSeq := m.seq, nakOut := none, nakDue := false, arrived := (s.group p g).arrived ++ [m] } := by
  have now : (m.seq - ((s.group p g).rxSeq + 1)).toNat = 0 := by rw [next, BitVec.sub_self]; rfl
  unfold State.receive
  extract_lets f ahead s1
  rw [if_pos now]
  exact s.inOrder_releases wanted nil

/-- A message one ahead of the next waits behind the one that is missing, which is asked for again. -/
theorem State.receive_ahead {m : Msg} (ahead : m.seq = (s.group p g).rxSeq + 2) (nil : (s.group p g).held = [])
    (asks : (s.group p g).nakOut = none ∨ (s.group p g).nakOut = some ((s.group p g).rxSeq + 1)) :
    ((s.receive p g m).group p g).held = [m] ∧ ((s.receive p g m).group p g).nakOut = some ((s.group p g).rxSeq + 1) ∧
      ((s.receive p g m).group p g).arrived = (s.group p g).arrived := by
  have one : (m.seq - ((s.group p g).rxSeq + 1)).toNat = 1 := by
    rw [ahead]
    bv_omega
  unfold State.receive
  extract_lets f n s1 held f1
  have last : held = [m] := by
    unfold held f
    rw [nil]
    rfl
  rw [if_neg (by rw [show n = 1 from one]; decide), if_pos (by rw [show n = 1 from one]; decide), State.group_setGroup_same]
  split
  · exact ⟨last, rfl, rfl⟩
  · next stays =>
    refine ⟨last, asks.resolve_left fun first => stays ?_, rfl⟩
    rw [show f.nakOut = .none from first]
    rfl

end

/-! ### The header of a pair (R306) -/

/-- A group after the header of a pair: credits, what is acknowledged, and the lanes announced. -/
def FabGroup.credited (f : FabGroup) (w : Pair) : FabGroup :=
  { f with cred := min 128 (f.cred + pairCred w), replay := acked (pairAck w) f.replay, heads := acked (pairAck w) f.heads
           newTx := if pairLs w = f.txl then f.newTx else some (pairLs w) }

section
variable (s : State) {p g : Nat} {w : Pair}

theorem State.pairHeader_quiet (quiet : pairNak w = false) : s.pairHeader p g w = s.setGroup p g ((s.group p g).credited w) := by
  unfold State.pairHeader
  exact if_neg (by rw [quiet]; exact Bool.false_ne_true)

theorem State.pairHeader_nak (nak : pairNak w = true) :
    s.pairHeader p g w = (s.setGroup p g ((s.group p g).credited w)).nak p g (pairAck w + 1) := by
  unfold State.pairHeader
  exact if_pos nak

/-- The port's count of corrected pairs, for a pair that is one. -/
def State.countCorrected (s : State) (p : Nat) (w : Pair) : State := if w.corrected then s.bump (FAB_FEC.corr.on p) else s

theorem State.countCorrected_moves (s : State) (p : Nat) (w : Pair) : s.RegsMoved (s.countCorrected p w) := by
  unfold State.countCorrected
  split
  · exact s.bump_moves _ 1
  · exact ⟨s.regs, rfl⟩

theorem State.countCorrected_group (s : State) (p : Nat) (w : Pair) (q k : Nat) : (s.countCorrected p w).group q k = s.group q k := by
  obtain ⟨g, counted⟩ := s.countCorrected_moves p w
  rw [counted]
  rfl

theorem State.countCorrected_ownId (s : State) (p : Nat) (w : Pair) : (s.countCorrected p w).ownId = s.ownId := by
  refine State.ownId_congr ?_
  unfold State.countCorrected
  split
  · exact s.reg_setFld_other _ _ _ (by simp only [FAB_PID.id, FAB_FEC.corr, Fld.on]; omega)
  · rfl

theorem State.codewordPair_quiet (quiet : (s.group p g).carries = false) : s.codewordPair p g w = s := by
  unfold State.codewordPair
  exact if_pos (by rw [quiet]; rfl)

variable (carries : (s.group p g).carries = true)
include carries

theorem State.codewordPair_bad (bad : w.decoded = false) : s.codewordPair p g w = s.badPair p g := by
  unfold State.codewordPair
  rw [if_neg (by rw [carries]; exact Bool.false_ne_true)]
  exact if_pos (by rw [bad]; rfl)

theorem State.codewordPair_decoded (decoded : w.decoded = true) :
    s.codewordPair p g w = w.slots.foldl (fun u x => u.takeSlot p g (some x)) ((s.countCorrected p w).pairHeader p g w) := by
  unfold State.codewordPair
  rw [if_neg (by rw [carries]; exact Bool.false_ne_true)]
  exact if_neg (by rw [decoded]; exact Bool.false_ne_true)

/-- A pair with a message of one flit in its first slot: the state in which the message is received, and the group that the idle slots
behind it leave. -/
theorem State.codewordPair_message (decoded : w.decoded = true) (quiet : pairNak w = false) {head : List Byte}
    (slots : w.slots = .head head :: List.replicate 4 .idle) (plain : (s.group p g).rxSlot ≠ 63) (one : flitCount head = 1) :
    ∃ (u : State) (n : BitVec 6), u.ownId = s.ownId ∧
      u.group p g =
        { FabGroup.opened { (s.group p g).credited w with rxSlot := (s.group p g).rxSlot + 1 } with rx := [] } ∧
      (s.codewordPair p g w).group p g = { (u.receive p g (decodeMsg head [some head])).group p g with rxSlot := n } := by
  have here := s.countCorrected_group p w p g
  have credited : ((s.countCorrected p w).pairHeader p g w).group p g = (s.group p g).credited w := by
    rw [State.pairHeader_quiet _ quiet, State.group_setGroup_same, here]
  have own : ((s.countCorrected p w).pairHeader p g w).ownId = s.ownId := by
    rw [State.pairHeader_quiet _ quiet, ← s.countCorrected_ownId p w]
    exact State.ownId_congr (State.reg_congr (State.setGroup_regs _ p g _) _)
  obtain ⟨u, received, regs, group⟩ :=
    ((s.countCorrected p w).pairHeader p g w).takeSlot_head (p := p) (g := g) one (by rw [credited]; exact plain)
  obtain ⟨n, idle⟩ := State.takeSlots_idle (p := p) (g := g) 4 (u.receive p g (decodeMsg head [some head]))
  refine ⟨u, n, (State.ownId_congr (State.reg_congr regs _)).trans own, ?_, ?_⟩
  · rw [group, credited]
    rfl
  · rw [s.codewordPair_decoded carries decoded, slots, List.foldl_cons, received, idle]

end

/-- A group that opens a message keeps what it has received, its credits and its place; it asks again, if at all, for the next message. -/
theorem FabGroup.opened_spec (f : FabGroup) : f.opened.arrived = f.arrived ∧ f.opened.rxSeq = f.rxSeq ∧ f.opened.held = f.held ∧
    f.opened.cred = f.cred ∧ (f.opened.nakOut = f.nakOut ∨ f.opened.nakOut = some (f.rxSeq + 1)) := by
  unfold FabGroup.opened
  split
  · exact ⟨rfl, rfl, rfl, rfl, .inl rfl⟩
  · exact ⟨rfl, rfl, rfl, rfl, .inr rfl⟩

section
variable (s : State) {p g : Nat} {w : Pair} (carries : (s.group p g).carries = true) (decoded : w.decoded = true)
include carries decoded

/-- A message in order is taken, and the credits of the pair's header are given. -/
theorem State.codewordPair_next (quiet : pairNak w = false) {head : List Byte}
    (slots : w.slots = .head head :: List.replicate 4 .idle) (plain : (s.group p g).rxSlot ≠ 63) (one : flitCount head = 1)
    (nil : (s.group p g).held = []) (next : (decodeMsg head [some head]).seq = (s.group p g).rxSeq + 1)
    (wanted : s.unwanted (decodeMsg head [some head]) = false) :
    let h := (s.codewordPair p g w).group p g
    h.arrived = (s.group p g).arrived ++ [decodeMsg head [some head]] ∧ h.rxSeq = (decodeMsg head [some head]).seq ∧
      h.cred = min 128 ((s.group p g).cred + pairCred w) := by
  obtain ⟨u, n, own, group, pair⟩ := s.codewordPair_message carries decoded quiet slots plain one
  generalize decodeMsg head [some head] = m at next wanted pair ⊢
  obtain ⟨arrived, rxSeq, held, cred, -⟩ :=
    FabGroup.opened_spec { (s.group p g).credited w with rxSlot := (s.group p g).rxSlot + 1 }
  generalize FabGroup.opened { (s.group p g).credited w with rxSlot := (s.group p g).rxSlot + 1 } = o at group arrived rxSeq held cred
  have received : u.receive p g m = u.setGroup p g { u.group p g with
      rxSeq := m.seq, nakOut := none, nakDue := false, arrived := (u.group p g).arrived ++ [m] } := by
    refine u.receive_next ?_ ((State.unwanted_congr own m).trans wanted) ?_
    · rw [group]
      exact next.trans (congrArg (· + 1) rxSeq.symm)
    · rw [group]
      exact held.trans nil
  intro h
  have result : h = { o with
      rx := [], rxSeq := m.seq, nakOut := none, nakDue := false, arrived := o.arrived ++ [m], rxSlot := n } := by
    unfold h
    rw [pair, received, State.group_setGroup_same, group]
  rw [result]
  exact ⟨congrArg (· ++ [m]) arrived, rfl, cred⟩

/-- A message ahead of a lost one is held, and the lost one asked for again. -/
theorem State.codewordPair_ahead (quiet : pairNak w = false) {head : List Byte}
    (slots : w.slots = .head head :: List.replicate 4 .idle) (plain : (s.group p g).rxSlot ≠ 63) (one : flitCount head = 1)
    (nil : (s.group p g).held = []) (ahead : (decodeMsg head [some head]).seq = (s.group p g).rxSeq + 2)
    (unasked : (s.group p g).nakOut = .none) :
    let h := (s.codewordPair p g w).group p g
    h.held = [decodeMsg head [some head]] ∧ h.nakOut = some ((s.group p g).rxSeq + 1) ∧ h.arrived = (s.group p g).arrived := by
  obtain ⟨u, n, -, group, pair⟩ := s.codewordPair_message carries decoded quiet slots plain one
  generalize decodeMsg head [some head] = m at ahead pair ⊢
  obtain ⟨arrived, rxSeq, held, -, asks⟩ :=
    FabGroup.opened_spec { (s.group p g).credited w with rxSlot := (s.group p g).rxSlot + 1 }
  generalize FabGroup.opened { (s.group p g).credited w with rxSlot := (s.group p g).rxSlot + 1 } = o at group arrived rxSeq held asks
  have place : (u.group p g).rxSeq = (s.group p g).rxSeq := by
    rw [group]
    exact rxSeq
  obtain ⟨last, nak, before⟩ := u.receive_ahead (m := m) (by rw [place]; exact ahead) (by rw [group]; exact held.trans nil)
    (by
      rw [place, group]
      exact asks.imp_left fun same => same.trans unasked)
  intro h
  unfold h
  rw [pair]
  refine ⟨last, nak.trans (by rw [place]), before.trans ?_⟩
  rw [group]
  exact arrived

end

section
variable (s : State) {p g : Nat} {w : Pair}

/-! ### A nak (R310, R311) -/

theorem acked_unknown {ack : BitVec 12} {l : List Msg} (unknown : l.findIdx? (·.seq == ack) = none) : acked ack l = l := by
  unfold acked
  rw [unknown]

theorem State.noteRetry_moves (p g : Nat) : s.ClaimsMoved (s.noteRetry p g) :=
  foldl_does State.ClaimsMoved .refl .trans _
    (fun u n => .trans _ _ _ (u.modTriggers_moves _ _ _) (State.noteUse_moves _ _ n 1 false)) _ s

/-- A nak for the oldest message of an assured group that is not acknowledged: each message that has not left twice leaves again. -/
theorem State.nak_resends {m : Msg} {r : List Msg} (assured : (s.group p g).cls = .assured) (replay : (s.group p g).replay = m :: r)
    (first : m.rty = false) : ((s.nak p g m.seq).group p g).resend =
      (s.group p g).resend ++ ((m :: r).filter fun x => !x.rty).map fun x => { x with rty := true } := by
  have found : ((s.group p g).replay ++ (s.group p g).heads).find? (·.seq == m.seq) = some m := by
    rw [replay]
    exact List.find?_cons_of_pos (beq_self_eq_true m.seq)
  have place : (s.group p g).replay.findIdx (·.seq == m.seq) = 0 := by
    rw [replay]
    exact List.findIdx_cons.trans (by rw [beq_self_eq_true]; rfl)
  have kept : ¬ ((s.group p g).cls = .spare ∨ m.rty = true) := by
    rw [assured, first]
    decide
  unfold State.nak
  dsimp only
  rw [found]
  dsimp only
  rw [if_neg kept, place, replay, State.group_congr (State.noteRetry_moves _ p g).fab, State.group_congr (State.bump_fab _ _ _),
    State.group_setGroup_same]
  rfl

/-- A pair whose header has a nak, and no flits. -/
theorem State.codewordPair_nak (carries : (s.group p g).carries = true) (decoded : w.decoded = true) (nak : pairNak w = true)
    (slots : w.slots = List.replicate 5 .idle) (assured : (s.group p g).cls = .assured) {m : Msg} {r : List Msg}
    (replay : (s.group p g).replay = m :: r) (oldest : m.seq = pairAck w + 1) (first : m.rty = false)
    (unknown : (s.group p g).replay.findIdx? (·.seq == pairAck w) = none) :
    ((s.codewordPair p g w).group p g).resend =
      (s.group p g).resend ++ ((m :: r).filter fun x => !x.rty).map fun x => { x with rty := true } := by
  have credited : ∀ u : State, (u.setGroup p g ((s.group p g).credited w)).group p g = (s.group p g).credited w :=
    fun u => u.group_setGroup_same p g _
  have again := ((s.countCorrected p w).setGroup p g ((s.group p g).credited w)).nak_resends (p := p) (g := g) (m := m) (r := r)
    (by rw [credited]; exact assured) (by rw [credited]; exact (acked_unknown unknown).trans replay) first
  rw [credited] at again
  obtain ⟨n, idle⟩ := State.takeSlots_idle (p := p) (g := g) 5 ((s.countCorrected p w).pairHeader p g w)
  rw [s.codewordPair_decoded carries decoded, slots, idle, State.pairHeader_nak _ nak, s.countCorrected_group p w, ← oldest]
  exact again

/-! ### A pair that does not decode (R307, R311) -/

/-- Slots of a group have gone by whose flits are lost: nothing is received, and a group that asks for its next message still does. -/
structure FabGroup.SlotsLost (n : BitVec 6) (f h : FabGroup) : Prop where
  slots : h.rxSlot = f.rxSlot + n
  arrived : h.arrived = f.arrived
  rxSeq : h.rxSeq = f.rxSeq
  asks : f.nakOut = some (f.rxSeq + 1) → h.nakOut = some (f.rxSeq + 1)
  due : f.nakDue = true → h.nakDue = true

theorem FabGroup.SlotsLost.trans {f h i : FabGroup} {k n : BitVec 6} (a : f.SlotsLost k h) (b : h.SlotsLost n i) : f.SlotsLost (k + n) i where
  slots := by rw [b.slots, a.slots, BitVec.add_assoc]
  arrived := b.arrived.trans a.arrived
  rxSeq := b.rxSeq.trans a.rxSeq
  asks := fun asked => (b.asks (by rw [a.rxSeq]; exact a.asks asked)).trans (by rw [a.rxSeq])
  due := fun d => b.due (a.due d)

/-- The same of a state's group, the registers unchanged. -/
def State.SlotsLost (p g : Nat) (n : BitVec 6) (s u : State) : Prop := u.regs = s.regs ∧ (s.group p g).SlotsLost n (u.group p g)

theorem State.SlotsLost.refl (s : State) : s.SlotsLost p g 0 s := ⟨rfl, (BitVec.add_zero _).symm, rfl, rfl, id, id⟩
theorem State.SlotsLost.trans {s t u : State} {k n : BitVec 6} (h : s.SlotsLost p g k t) (j : t.SlotsLost p g n u) :
    s.SlotsLost p g (k + n) u := ⟨j.1.trans h.1, h.2.trans j.2⟩
theorem State.SlotsLost.setGroup (s : State) {n : BitVec 6} {f : FabGroup} (h : (s.group p g).SlotsLost n f) :
    s.SlotsLost p g n (s.setGroup p g f) := ⟨rfl, (s.group_setGroup_same p g f).symm ▸ h⟩

theorem State.flitsDone_lost {h : List Byte} {r : List (Option (List Byte))} (hole : ¬ r.all Option.isSome = true) :
    s.SlotsLost p g 0 (s.flitsDone p g (some h :: r)) := by
  have left : s.flitsDone p g (some h :: r) = (s.setGroup p g { s.group p g with rx := [] }).setGroup p g
      (FabGroup.askAgain { (s.setGroup p g { s.group p g with rx := [] }).group p g with
        frags := ((s.setGroup p g { s.group p g with rx := [] }).group p g).frags ++ [some h :: r] }) := if_neg hole
  rw [left]
  have closed : s.SlotsLost p g 0 (s.setGroup p g { s.group p g with rx := [] }) :=
    .setGroup s ⟨(BitVec.add_zero _).symm, rfl, rfl, id, id⟩
  refine closed.trans (n := 0) (.setGroup _ ?_)
  exact ⟨(BitVec.add_zero _).symm, rfl, rfl, fun _ => rfl, fun _ => rfl⟩

theorem State.takeFlit_lost : s.SlotsLost p g 0 (s.takeFlit p g none) := by
  unfold State.takeFlit
  split
  · next h r _ =>
    dsimp only
    split
    · exact s.flitsDone_lost (by simp)
    · exact .setGroup s ⟨(BitVec.add_zero _).symm, rfl, rfl, id, id⟩
  · exact .refl s

theorem State.takeSlot_lost : s.SlotsLost p g 1 (s.takeSlot p g none) := by
  have counted : s.SlotsLost p g 1 (s.setGroup p g { s.group p g with rxSlot := (s.group p g).rxSlot + 1 }) :=
    .setGroup s ⟨rfl, rfl, rfl, id, id⟩
  unfold State.takeSlot
  dsimp only
  split
  · exact counted
  · exact counted.trans (n := 0) (State.takeFlit_lost _)

theorem State.takeSlots_lost (k : Nat) :
    s.SlotsLost p g (BitVec.ofNat 6 k) ((List.range k).foldl (fun u _ => u.takeSlot p g none) s) := by
  induction k with
  | zero => exact .refl s
  | succ k ih =>
    rw [List.range_succ, List.foldl_append, BitVec.ofNat_add]
    exact ih.trans (State.takeSlot_lost _)

/-- A pair that does not decode is counted, loses its five slots, and the next message is asked for. -/
theorem State.badPair_lost : (s.badPair p g).fld (FAB_FEC.unc.on p) = min (s.fld (FAB_FEC.unc.on p) + 1) 65535 ∧
    ((s.badPair p g).group p g).rxSlot = (s.group p g).rxSlot + 5 ∧
    ((s.badPair p g).group p g).nakOut = some ((s.group p g).rxSeq + 1) ∧ ((s.badPair p g).group p g).nakDue = true ∧
    ((s.badPair p g).group p g).arrived = (s.group p g).arrived := by
  unfold State.badPair
  extract_lets f within s1
  have asked : (s1.group p g).rxSlot = (s.group p g).rxSlot ∧ (s1.group p g).rxSeq = (s.group p g).rxSeq ∧
      (s1.group p g).arrived = (s.group p g).arrived ∧ (s1.group p g).nakOut = some ((s.group p g).rxSeq + 1) ∧
      (s1.group p g).nakDue = true := by
    unfold s1
    rw [State.group_setGroup_same]
    exact ⟨rfl, rfl, rfl, rfl, rfl⟩
  have regs : s1.regs = s.regs := rfl
  clear_value s1
  obtain ⟨slot, seq, arrived, nak, due⟩ := asked
  obtain ⟨kept, lost⟩ := (s1.bump (FAB_FEC.unc.on p)).takeSlots_lost (p := p) (g := g) 5
  rw [State.group_congr (s1.bump_fab _ _)] at lost
  generalize (List.range 5).foldl (fun u _ => State.takeSlot u p g none) (s1.bump (FAB_FEC.unc.on p)) = u at kept lost ⊢
  refine ⟨?_, lost.slots.trans (by rw [slot]; rfl), (lost.asks (by rw [nak, seq])).trans (by rw [seq]), lost.due due,
    lost.arrived.trans arrived⟩
  calc u.fld (FAB_FEC.unc.on p) = (s1.bump (FAB_FEC.unc.on p)).fld (FAB_FEC.unc.on p) := State.fld_congr _ (State.reg_congr kept _)
    _ = min (s1.fld (FAB_FEC.unc.on p) + 1) 65535 := s1.fld_bump_on (by decide) p (by decide) 1
    _ = min (s.fld (FAB_FEC.unc.on p) + 1) 65535 := by rw [State.fld_congr _ (State.reg_congr regs _)]

end

section
variable (s : State) {p g : Nat}

/-! ### Loss notices (R312) -/

theorem State.GroupMoved.ownId {s u : State} (h : State.GroupMoved p g s u) : u.ownId = s.ownId :=
  State.ownId_congr (h.reg _ (by decide) (by simp only [FAB_PID.id, FAB_RETRY.lost, Fld.on]; omega))

theorem State.lossNotice_elsewhere {head : List Byte} (away : (s.group p g).carries = false ∨
    (s.group p g).nakOut ≠ some (decodeMsg head ((s.group p g).kept (headSeq head) (flitCount head))).seq) :
    s.lossNotice p g head = s := by
  unfold State.lossNotice
  exact if_pos (away.imp_left fun quiet => by rw [quiet]; rfl)

/-- A message lost for good that is applied all the same is the next in order, as `x` says it. -/
theorem State.inOrder_lost {s0 s1 : State} {m x : Msg} (here : State.AnswerLost p g s0 s1) (own : s0.ownId = s.ownId)
    (same : x.type = m.type ∧ x.dst = m.dst) (wanted : s.unwanted m = false) (nil : (s0.group p g).held = []) :
    ((s1.inOrder p g x).releaseHeld p g ((s1.inOrder p g x).group p g).held.length).group p g =
      { s1.group p g with rxSeq := x.seq, nakOut := none, nakDue := false, arrived := (s0.group p g).arrived ++ [x] } := by
  obtain ⟨moved, r, w, traffic⟩ := here
  have wanted' : s1.unwanted x = false := by
    rw [State.unwanted_congr (moved.ownId.trans own), ← wanted]
    unfold State.unwanted
    rw [same.1, same.2]
  rw [s1.inOrder_releases wanted' (by rw [traffic]; exact nil), State.group_setGroup_same, traffic]

/-- What a loss notice at the place of the nak leaves of a group: the next message is asked for, and of the lost one waits, marked, what has
data or completes a write. -/
def State.NoticeLeaves (s : State) (p g : Nat) (m : Msg) (h : FabGroup) : Prop :=
  h.rxSeq = m.seq ∧ h.nakOut = none ∧ ((m.type = 2 ∨ s.unwanted m = true) → h.arrived = (s.group p g).arrived) ∧
    (m.type ≠ 2 → s.unwanted m = false → ∃ x : Msg, h.arrived = (s.group p g).arrived ++ [x] ∧ x.type = m.type ∧
      (m.type ≠ 7 → x.blocks.length = m.nblk.toNat) ∧ ∀ b ∈ x.blocks, b.mark.isSome = true)

theorem State.lossNotice_leaves {head : List Byte} (carries : (s.group p g).carries = true)
    (place : (s.group p g).nakOut = some (decodeMsg head ((s.group p g).kept (headSeq head) (flitCount head))).seq)
    (nil : (s.group p g).held = []) : s.NoticeLeaves p g (decodeMsg head ((s.group p g).kept (headSeq head) (flitCount head)))
      ((s.lossNotice p g head).group p g) := by
  have due : ¬ ((!(s.group p g).carries) = true ∨
      (s.group p g).nakOut ≠ some (decodeMsg head ((s.group p g).kept (headSeq head) (flitCount head))).seq) := by
    rw [carries, place]
    simp
  unfold State.lossNotice
  extract_lets f m f1 s0 go fresh s1
  rw [if_neg due]
  have group : s0.group p g = f1 := s.group_setGroup_same p g f1
  have own : s0.ownId = s.ownId := State.ownId_congr (State.reg_congr (s.setGroup_regs p g f1) _)
  have held : (s0.group p g).held = [] := by rw [group]; exact nil
  have arrived : (s0.group p g).arrived = (s.group p g).arrived := by rw [group]
  change s.NoticeLeaves p g m _
  clear_value s0 m
  split
  · next gone =>
    have last : (go (s0.setGroup p g { f1 with rxSeq := m.seq, nakOut := none, nakDue := false, owed := f.owed + 1 + m.nfl.toNat })).group p g =
        { f1 with rxSeq := m.seq, nakOut := none, nakDue := false, owed := f.owed + 1 + m.nfl.toNat } := by
      unfold go
      rw [State.releaseHeld_none (by rw [State.group_setGroup_same]; exact nil), State.group_setGroup_same]
    rw [last]
    refine ⟨rfl, rfl, fun _ => rfl, fun other wanted => ?_⟩
    rcases gone with read | unwanted
    · exact absurd read other
    · exact absurd (wanted.symm.trans unwanted) Bool.false_ne_true
  · next here =>
    have wanted : s.unwanted m = false := Bool.eq_false_iff.2 (not_or.1 here).2
    split
    · next done =>
      have counted : State.AnswerLost p g s0 ((s0.bump (FAB_RETRY.cpl.on p)).countLost p) :=
        (State.AnswerLost.countRetry s0 (f := FAB_RETRY.cpl) rfl 1).trans (.countLost _)
      unfold go
      rw [s.inOrder_lost (m := m) (x := { m with status := 0, blocks := [] }) counted own ⟨rfl, rfl⟩ wanted held]
      exact ⟨rfl, rfl, fun gone => absurd gone here, fun _ _ =>
        ⟨{ m with status := 0, blocks := [] }, by rw [arrived], rfl, fun ne => absurd done ne, nofun⟩⟩
    · have counted : State.AnswerLost p g s0 s1 := (State.AnswerLost.countLost s0).trans (State.FabricKept.countMark _ 13 _).lost
      unfold go
      rw [s.inOrder_lost (m := m) (x := { m with status := 0, blocks := lostBlocks m }) counted own ⟨rfl, rfl⟩ wanted held]
      exact ⟨rfl, rfl, fun gone => absurd gone here, fun _ _ =>
        ⟨{ m with status := 0, blocks := lostBlocks m }, by rw [arrived], rfl, fun _ => lostBlocks_length m, lostBlocks_marked m⟩⟩

/-! ### What is not sent and what is asked for again (R311, R315) -/

theorem State.downLost_next {m : Msg} {r : List Msg} (out : (s.group p g).out = m :: r) :
    ((s.downLost p g).group p g).out = r ∧ ((s.downLost p g).group p g).line = (s.group p g).line := by
  have lost : s.downLost p g = (s.setGroup p g { s.group p g with out := r }).outLost p g m := by
    unfold State.downLost
    dsimp only
    rw [out]
  obtain ⟨-, reads, writes, traffic⟩ := State.AnswerLost.outLost (p := p) (g := g) (s.setGroup p g { s.group p g with out := r }) m
  rw [lost, traffic, State.group_setGroup_same]
  exact ⟨rfl, rfl⟩

theorem State.nakTimeout_asks (asks : (s.group p g).carries = true ∧ (s.group p g).nakOut.isSome = true ∧ (s.group p g).cls = .assured) :
    s.nakTimeout p g = s.setGroup p g { s.group p g with nakDue := true } := if_pos asks

theorem State.nakTimeout_rests (rests : (s.group p g).carries = false ∨ (s.group p g).nakOut = none ∨ (s.group p g).cls = .spare) :
    s.nakTimeout p g = s := by
  refine if_neg ?_
  rintro ⟨carries, nak, assured⟩
  rcases rests with quiet | clear | spare
  · exact Bool.false_ne_true (quiet.symm.trans carries)
  · rw [clear] at nak
    exact Bool.false_ne_true nak
  · rw [spare] at assured
    cases assured

end

section
variable (s : State) {p g : Nat}

/-- A pair without traffic has left on a group: its header returns the credits owed. -/
theorem State.sendOn_idle : ∃ w : LinePair,
    ((s.sendOn p g (s.group p g) []).group p g).line = (s.group p g).line ++ [w] ∧
    ((s.sendOn p g (s.group p g) []).group p g).out = (s.group p g).out ∧
    ((s.sendOn p g (s.group p g) []).group p g).cred = (s.group p g).cred ∧
    (w.header.extractLsb' 20 7).toNat = min (s.group p g).owed 127 ∧
    ((s.sendOn p g (s.group p g) []).group p g).owed = (s.group p g).owed - min (s.group p g).owed 127 ∧
    ∀ x ∈ w.slots, x = .idle ∨ x = .control (.hello (s.ownHello p)) := by
  have sent : (s.sendOn p g (s.group p g) []).group p g = FabGroup.sendFlits (s.ownHello p) 1 (s.group p g) [] :=
    s.group_setGroup_same p g _
  rw [sent, FabGroup.sendFlits_idle]
  exact ⟨_, rfl, rfl, rfl, (s.group p g).header_credits, rfl, (fillPair_nil _ 5 _).2⟩

end

/-- Settles O30: the sending by what waits first (a notice, a copy, the next message, nothing), the receiving by the pair (it does not decode,
a message in order, one ahead, a nak), and a loss notice by the type of its message. The message that a nak names, a nak for a copy and a
resend that spends no credits are the model's choice (log 62), and so are sequence numbers from 1 (log 63) and pairs that no two messages
share (log 143). -/
theorem groupsCarryTraffic : Obligations.GroupsCarryTraffic := by
  intro s p g f sent idle
  refine ⟨fun carries => ⟨fun m r notices resend out => ⟨?next, ?full⟩, ?empty, ?copy, ?notice⟩, ?down, fun w => ⟨?quiet, ?bad, ?message, ?nak⟩,
    fun carries nak assured => ?asks, fun rests => congrArg Host.Outcome.next (s.nakTimeout_rests rests),
    fun head => ⟨fun carries place nil => ⟨_, rfl, s.lossNotice_leaves carries place nil⟩,
      fun away => congrArg Host.Outcome.next (s.lossNotice_elsewhere away)⟩⟩
  case next =>
    intro credits room
    have fits : ¬ f.full m := fun full => full.elim (fun few => absurd credits (Nat.not_le.2 few))
      fun ⟨assured, all⟩ => absurd (room assured) (Nat.not_lt.2 all)
    have leaves := (s.messageSend_next p g carries notices resend out).trans (if_neg fits)
    obtain ⟨l, n, o, d, line, traffic⟩ := s.sendOn_sends p g (f.sentMsg m r (s.numbered p g m))
      (lineFlits_traffic (s.ownHello p) (s.numbered p g m))
    obtain ⟨left, cred, seq, before, kept⟩ := f.sentMsg_spec m r (s.numbered p g m)
    refine ⟨_, congrArg Host.Outcome.next leaves, ?_⟩
    dsimp only [sent]
    rw [line]
    exact ⟨left, cred, seq, s.numbered p g m, rfl, rfl, rfl, rfl, ⟨l, congrArg (· ++ l) before, traffic⟩, kept⟩
  case full =>
    intro full
    have leaves := (s.messageSend_next p g carries notices resend out).trans (if_pos full)
    exact ⟨_, congrArg Host.Outcome.next leaves, s.sendOn_idle⟩
  case empty =>
    exact fun notices resend out => ⟨_, congrArg Host.Outcome.next (s.messageSend_empty p g carries notices resend out), s.sendOn_idle⟩
  case copy =>
    intro m r notices resend
    obtain ⟨l, n, o, d, line, traffic⟩ := s.sendOn_sends p g { f with resend := r } (lineFlits_traffic (s.ownHello p) m)
    refine ⟨_, congrArg Host.Outcome.next (s.messageSend_copy p g carries notices resend), ?_⟩
    dsimp only [sent]
    rw [line]
    exact ⟨rfl, rfl, l, rfl, traffic⟩
  case notice =>
    intro m r notices
    obtain ⟨l, n, o, d, line, traffic⟩ := s.sendOn_sends p g { f with notices := r } (q := [.control (.loss (headBytes m))])
      (List.forall_mem_singleton.2 ⟨nofun, nofun⟩)
    refine ⟨_, congrArg Host.Outcome.next (s.messageSend_notice p g carries notices), ?_⟩
    dsimp only [sent]
    rw [line]
    exact ⟨rfl, rfl, l, rfl, traffic⟩
  case down =>
    intro m r quiet out
    exact ⟨_, congrArg Host.Outcome.next (s.messageSend_down p g quiet), s.downLost_next out⟩
  case quiet => exact fun quiet => congrArg Host.Outcome.next (s.codewordPair_quiet quiet)
  case bad =>
    exact fun carries bad => ⟨_, congrArg Host.Outcome.next (s.codewordPair_bad carries bad), s.badPair_lost⟩
  case message =>
    intro h m carries decoded quiet slots plain one nil
    exact ⟨fun next wanted => ⟨_, rfl, s.codewordPair_next carries decoded quiet slots plain one nil next wanted⟩,
      fun ahead unasked => ⟨_, rfl, s.codewordPair_ahead carries decoded quiet slots plain one nil ahead unasked⟩⟩
  case nak =>
    intro m r carries decoded nak slots assured replay oldest first unknown
    exact ⟨_, rfl, s.codewordPair_nak carries decoded nak slots assured replay oldest first unknown⟩
  case asks =>
    refine ⟨_, congrArg Host.Outcome.next (s.nakTimeout_asks ⟨carries, nak, assured⟩), ?_⟩
    rw [State.group_setGroup_same]
    exact ⟨rfl, rfl⟩

end Sys2Proof.Machine
end

section
/-! SUPPORT. What follows a change of the partner table or of a port: the table, the election of the reference and the announcements (R328 to
R336). -/

namespace Sys2Proof.Machine

/-- The registers that the table, the reference and the announcements of a change write. -/
def followRegs : List Nat :=
  [GLB_FLT_PTR.wr.off, FAB_PT_STAT.chg.off, FAB_REF.lock.off, FAB_START.cnv.off, CLK_REF_STAT.sel.off, CLK_SW_LAST.valid.off]

/-- A group whose partner is gone (R332). -/
def FabGroup.left (f : FabGroup) : FabGroup := { f with pend := true, state := if f.state = 0 then 0 else 3 }

/-- A group as it was, or without its partner. -/
def FabGroup.Follows (f h : FabGroup) : Prop := h = f ∨ h = f.left

theorem FabGroup.left_left (f : FabGroup) : f.left.left = f.left := by
  unfold FabGroup.left
  by_cases off : f.state = 0
  · simp only [off, if_true]
  · simp only [off, if_false]
    rfl

theorem FabGroup.Follows.trans {f h k : FabGroup} (a : f.Follows h) (b : h.Follows k) : f.Follows k := by
  rcases a with rfl | rfl
  · exact b
  · rcases b with rfl | rfl
    · exact .inr rfl
    · exact .inr f.left_left

/-- Between two states the partner table and the reference followed a change: groups lost their partners at most, and the ports' failures,
the temperature corrections and the registers but for `followRegs` stand. -/
structure State.TableMoved (s u : State) : Prop where
  fails : ∀ q, (u.port q).fails = (s.port q).fails
  groups : ∀ q k, (s.group q k).Follows (u.group q k)
  corr : u.clk.corr = s.clk.corr
  reg : ∀ off, off ∉ followRegs → u.reg off = s.reg off

theorem State.TableMoved.trans {s t u : State} (h : s.TableMoved t) (k : t.TableMoved u) : s.TableMoved u where
  fails := fun q => (k.fails q).trans (h.fails q)
  groups := fun q n => (h.groups q n).trans (k.groups q n)
  corr := k.corr.trans h.corr
  reg := fun off o => (k.reg off o).trans (h.reg off o)

/-- The ports stand. -/
theorem State.TableMoved.of_ports {s u : State} (ports : u.fab.ports = s.fab.ports) (corr : u.clk.corr = s.clk.corr)
    (reg : ∀ off, off ∉ followRegs → u.reg off = s.reg off) : s.TableMoved u := by
  have port : ∀ q, u.port q = s.port q := fun q => by
    unfold State.port
    rw [ports]
  refine ⟨fun q => by rw [port], fun q k => .inl ?_, corr, reg⟩
  unfold State.group
  rw [port]

theorem State.TableMoved.refl (s : State) : s.TableMoved s := .of_ports rfl rfl fun _ _ => rfl
theorem State.TableMoved.foldl {α : Type} (f : State → α → State) (step : ∀ u x, State.TableMoved u (f u x)) (l : List α) (s : State) :
    s.TableMoved (l.foldl f s) := foldl_does State.TableMoved .refl (fun _ _ _ => .trans) f step l s

theorem State.TableMoved.withClk {s u : State} (h : s.TableMoved u) {c : Clocks} (corr : c.corr = s.clk.corr) :
    s.TableMoved { u with clk := c } := ⟨h.fails, h.groups, corr, h.reg⟩

theorem State.ClaimsMoved.table {s u : State} (h : s.ClaimsMoved u) : s.TableMoved u := by
  obtain ⟨c, x, g, m, n, rfl, -, reg⟩ := h
  exact .of_ports rfl rfl fun off o => reg off fun same => o (same ▸ by simp [followRegs])

theorem State.TableMoved.setFld (s : State) {f : Fld} (h : f.off ∈ followRegs) (v : Nat) : s.TableMoved (s.setFld f v) :=
  .of_ports rfl rfl fun off o => s.reg_setFld_other f v off fun same => o (same ▸ h)
theorem State.TableMoved.setFlag (s : State) {f : Fld} (h : f.off ∈ followRegs) (b : Bool) : s.TableMoved (s.setFlag f b) := .setFld s h _
theorem State.TableMoved.setPartner (s : State) (n : Nat) (e : Partner) : s.TableMoved (s.setPartner n e) := .of_ports rfl rfl fun _ _ => rfl

theorem State.TableMoved.raise (s : State) (f : FaultRec) : s.TableMoved (s.raise f) := by
  obtain ⟨x, g, m, n, raised, -, reg⟩ := s.raise_spec f
  exact .of_ports (by rw [raised]) (by rw [raised]) fun off o => reg off fun same => o (same ▸ by simp [followRegs])

theorem State.TableMoved.sendMsix (s : State) (v : Nat) : s.TableMoved (s.sendMsix v) := by
  obtain ⟨m, n, sent⟩ := s.sendMsix_spec v
  rw [sent]
  exact .of_ports rfl rfl fun _ _ => rfl

/-! ### The partner table (R329, R332) -/

theorem State.TableMoved.partnerEvent (s : State) (code : Nat) (id : BitVec 12) : s.TableMoved (s.partnerEvent code id) := by
  unfold State.partnerEvent
  split
  · exact .refl s
  · exact ((TableMoved.setFld s (f := FAB_PT_STAT.chg) (by decide) _).trans (.raise _ _)).trans (.sendMsix _ 4)

theorem State.TableMoved.partnerGone (s : State) (id : BitVec 12) : s.TableMoved (s.partnerGone id) := by
  refine .foldl _ (fun u n => ?_) _ s
  extract_lets p g f s1
  split
  · have gone : u.TableMoved s1 := by
      refine ⟨u.fails_setGroup p g _, fun q k => ?_, rfl, fun _ _ => rfl⟩
      unfold s1
      rw [State.group_setGroup]
      split
      · next same =>
        obtain ⟨rfl, rfl⟩ := same
        exact .inr rfl
      · exact .inl rfl
    exact gone.trans (.foldl _ (fun v k => (v.promiseBreak_moves _ k 0).table) _ s1)
  · exact .refl u

theorem State.TableMoved.entryGone (s : State) (n : Nat) : s.TableMoved (s.entryGone n) := by
  unfold State.entryGone
  extract_lets e
  split
  · exact .refl s
  · exact ((TableMoved.setPartner s n _).trans (.partnerEvent _ 5 _)).trans (.partnerGone _ _)

theorem State.TableMoved.refreshHops (s : State) : s.TableMoved s.refreshHops := by
  refine .foldl _ (fun u n => ?_) _ s
  extract_lets e h
  split
  · exact .refl u
  · split
    · exact .entryGone u n
    · exact .setPartner u n _

/-! ### The reference (R335, R336, R379) -/

theorem State.refPromises_moves (s : State) : s.ClaimsMoved s.refPromises := by
  refine foldl_does State.ClaimsMoved .refl .trans _ (fun u n => ?_) _ s
  split
  · exact .refl u
  · exact foldl_does State.ClaimsMoved .refl .trans _ (fun v k => v.promiseRisk_moves _ k 0) _ u

theorem State.TableMoved.switchLast (s : State) (forced : Bool) (dom from_ dest us : Nat) :
    s.TableMoved (s.switchLast forced dom from_ dest us) :=
  (((((TableMoved.setFlag s (f := CLK_SW_LAST.valid) (by decide) true).trans (.setFlag _ (f := CLK_SW_LAST.forced) (by decide) forced)).trans
    (.setFld _ (f := CLK_SW_LAST.dom) (by decide) dom)).trans (.setFld _ (f := CLK_SW_LAST.from) (by decide) from_)).trans
    (.setFld _ (f := CLK_SW_LAST.to) (by decide) dest)).trans (.setFld _ (f := CLK_SW_LAST.us) (by decide) _)

theorem State.TableMoved.selectRef (s : State) (sel port : Nat) : s.TableMoved (s.selectRef sel port) := by
  unfold State.selectRef
  extract_lets s1 s2
  have noted : s.TableMoved s1 := iteInduction (fun _ => .refl s) fun _ => .switchLast s _ _ _ _ _
  have set : s1.TableMoved s2 := ((TableMoved.setFld s1 (f := CLK_REF_STAT.sel) (by decide) sel).trans
    (.setFlag _ (f := CLK_REF_STAT.hold) (by decide) false)).trans (.setFlag _ (f := CLK_REF_STAT.lock) (by decide) true)
  refine (noted.trans set).trans ?_
  split
  · exact .setFld s2 (f := CLK_REF_STAT.port) (by decide) port
  · exact .refl s2

theorem State.TableMoved.setRef (s : State) (lock self : Bool) (hops port rid : Nat) : s.TableMoved (s.setRef lock self hops port rid) := by
  unfold State.setRef
  extract_lets s1 s2
  have own : s.TableMoved s1 := (((TableMoved.setFlag s (f := FAB_REF.lock) (by decide) lock).trans
    (.setFlag _ (f := FAB_REF.hold) (by decide) false)).trans (.setFlag _ (f := FAB_REF.self) (by decide) self)).trans
    (.setFld _ (f := FAB_REF.hops) (by decide) hops)
  have named : s1.TableMoved s2 := (TableMoved.setFld s1 (f := FAB_REF.port) (by decide) port).trans
    (.setFld _ (f := FAB_REF.rid) (by decide) rid)
  refine (own.trans named).trans ?_
  split
  · exact .setFld s2 (f := FAB_START.cnv) (by decide) _
  · exact .refl s2

theorem State.TableMoved.ownOscillator (s : State) : s.TableMoved s.ownOscillator :=
  iteInduction (motive := s.TableMoved) (fun _ => .selectRef s 2 0) fun _ => .refl s

theorem State.TableMoved.elect (s : State) : s.TableMoved s.elect := by
  have own : ∀ lock self hops port rid, s.TableMoved (s.ownOscillator.setRef lock self hops port rid) := fun _ _ _ _ _ =>
    (TableMoved.ownOscillator s).trans (.setRef _ _ _ _ _ _)
  unfold State.elect
  extract_lets s1
  split
  · exact .refl s
  · have follows : s.TableMoved s1 := by
      unfold s1
      split
      · exact own _ _ _ _ _
      · split
        · exact own _ _ _ _ _
        · split
          · exact own _ _ _ _ _
          · split
            · split
              · exact (TableMoved.selectRef s 1 _).trans (.setRef _ _ _ _ _ _)
              · exact own _ _ _ _ _
            · exact own _ _ _ _ _
    exact follows.trans s1.refPromises_moves.table

theorem State.TableMoved.holdRef (s : State) : s.TableMoved s.holdRef := by
  unfold State.holdRef
  extract_lets s1
  have held : s.TableMoved s1 := ((TableMoved.setFlag s (f := CLK_REF_STAT.hold) (by decide) true).trans
    (.setFlag _ (f := CLK_REF_STAT.lock) (by decide) false)).trans (.setFlag _ (f := FAB_REF.hold) (by decide) true)
  clear_value s1
  exact (held.trans (.setFlag s1 (f := FAB_REF.lock) (by decide) false)).withClk held.corr

theorem State.TableMoved.followTable (s : State) : s.TableMoved s.followTable := by
  unfold State.followTable
  extract_lets s1
  refine (TableMoved.refreshHops s).trans ?_
  split
  · exact .refl s1
  · split
    · exact .holdRef s1
    · exact .elect s1

/-! ### Announcements (R328) -/

theorem State.TableMoved.announce (s : State) : s.TableMoved s.announce := by
  unfold State.announce
  extract_lets a fab s1
  split
  · exact .refl s
  · have entered : s1.TableMoved (s1.ownEntry a) := by
      unfold State.ownEntry
      split
      · exact .refl s1
      · exact .setPartner s1 _ _
    have numbered : s.TableMoved s1 := .of_ports rfl rfl fun _ _ => rfl
    exact (numbered.trans entered).trans (.of_ports rfl rfl fun _ _ => rfl)

theorem State.TableMoved.announceChange (s : State) : s.TableMoved s.announceChange :=
  iteInduction (motive := s.TableMoved) (fun _ => .refl s) fun _ => .announce s

end Sys2Proof.Machine
end

section
/-! SUPPORT. Fabric ports: trainings, ports that leave service and come up, hellos (R305, R315, R318, R327, R339). -/

namespace Sys2Proof.Machine

section
variable (s : State) (p : Nat)

/-! ### The groups of a port (R318) -/

theorem State.setGroups_first (f : FabGroup → FabGroup) (n g : Nat) :
    ((List.range n).foldl (fun s g => s.setGroup p g (f (s.group p g))) s).group p g = if g < n then f (s.group p g) else s.group p g := by
  induction n with
  | zero => rfl
  | succ n ih =>
    rw [List.range_succ, List.foldl_append, List.foldl_cons, List.foldl_nil, State.group_setGroup]
    by_cases last : g = n
    · subst last
      rw [if_pos ⟨rfl, rfl⟩, if_pos (Nat.lt_succ_self g), ih, if_neg (Nat.lt_irrefl g)]
    · rw [if_neg fun same => last same.2, ih]
      exact if_congr (by omega) rfl rfl

/-- Each group of a port moved, and nothing else. -/
theorem State.setGroups_group (f : FabGroup → FabGroup) {g : Nat} (h : g < 4) : (s.setGroups p f).group p g = f (s.group p g) :=
  (s.setGroups_first p f 4 g).trans (if_pos h)
theorem State.setGroups_fails (f : FabGroup → FabGroup) (q : Nat) : ((s.setGroups p f).port q).fails = (s.port q).fails :=
  foldl_does (fun s u => (u.port q).fails = (s.port q).fails) (fun _ => rfl) (fun _ _ _ h k => k.trans h) _
    (fun u g => u.fails_setGroup p g _ q) _ s
theorem State.setGroups_regs (f : FabGroup → FabGroup) : (s.setGroups p f).regs = s.regs :=
  foldl_does (fun s u => u.regs = s.regs) (fun _ => rfl) (fun _ _ _ h k => k.trans h) _ (fun u g => u.setGroup_regs p g _) _ s
theorem State.setGroups_reg (f : FabGroup → FabGroup) (off : Nat) : (s.setGroups p f).reg off = s.reg off :=
  State.reg_congr (s.setGroups_regs p f) off

/-! ### Registers of a port -/

/-- The registers of a port are not those that follow a change of it. -/
theorem Fld.on_not_mem_followRegs {f : Fld} (low : 0x500000 ≤ f.off) (high : f.off < 0x508000) (p : Nat) : (f.on p).off ∉ followRegs := by
  simp only [followRegs, Fld.on, FAB_PT_STAT.chg, FAB_REF.lock, FAB_START.cnv, CLK_REF_STAT.sel, CLK_SW_LAST.valid, GLB_FLT_PTR.wr,
    List.mem_cons, List.not_mem_nil, or_false]
  omega

theorem State.TableMoved.on {s u : State} (h : s.TableMoved u) {f : Fld} (low : 0x500000 ≤ f.off) (high : f.off < 0x508000) (p : Nat) :
    u.reg (f.on p).off = s.reg (f.on p).off := h.reg _ (f.on_not_mem_followRegs low high p)

/-! ### A training starts (R318) -/

theorem State.startTraining_spec :
    (s.startTraining p).fld (FAB_PORT_STAT.state.on p) = 2 ∧
      (s.startTraining p).fld (FAB_TRAIN.count.on p) = min (s.fld (FAB_TRAIN.count.on p) + 1) 255 ∧
      (s.startTraining p).fld (FAB_TRAIN.fstep.on p) = s.fld (FAB_TRAIN.fstep.on p) ∧
      ((s.startTraining p).port p).fails = (s.port p).fails ∧
      ∀ g, g < 4 → (s.startTraining p).group p g = { s.group p g with state := 4, helloOf := none } := by
  unfold State.startTraining
  extract_lets s1
  have group : ∀ g, g < 4 → s1.group p g = { s.group p g with state := 4, helloOf := none } := fun g h => s.setGroups_group p _ h
  have fails : (s1.port p).fails = (s.port p).fails := s.setGroups_fails p _ p
  have reg : ∀ off, s1.reg off = s.reg off := s.setGroups_reg p _
  clear_value s1
  have apart : (FAB_TRAIN.count.on p).off ≠ (FAB_PORT_STAT.state.on p).off := by
    simp only [FAB_TRAIN.count, FAB_PORT_STAT.state, Fld.on]
    omega
  have train : (s1.setPortState p 2).reg (FAB_TRAIN.count.on p).off = s.reg (FAB_TRAIN.count.on p).off :=
    (s1.reg_setFld_other _ _ _ apart).trans (reg _)
  have fab : ((s1.setPortState p 2).bump (FAB_TRAIN.count.on p)).fab = s1.fab := (State.bump_fab _ _ _).trans (s1.setFld_fab _ _)
  refine ⟨?_, ?_, ?_, (congrArg Port.fails (State.port_congr fab p)).trans fails,
    fun g h => (State.group_congr fab p g).trans (group g h)⟩
  · exact (State.fld_congr _ (State.reg_setFld_other _ _ _ _ apart.symm)).trans (s1.fld_setFld_on (f := FAB_PORT_STAT.state) (by decide) p 2)
  · refine (State.fld_bump_same _ (FAB_TRAIN.count.on p) 1 (show 24 ≤ 31 by decide) (show 31 < 32 by decide)).trans ?_
    rw [State.fld_congr _ train]
    rfl
  · exact (State.fld_setFld_on_beside _ (f := FAB_TRAIN.count) (g := FAB_TRAIN.fstep) (by decide) p (by decide) _).trans (State.fld_congr _ train)

theorem State.startTraining_reg (off : Nat) (stat : off ≠ (FAB_PORT_STAT.state.on p).off) (train : off ≠ (FAB_TRAIN.count.on p).off) :
    (s.startTraining p).reg off = s.reg off :=
  ((State.reg_setFld_other _ (FAB_TRAIN.count.on p) _ off train).trans
    (State.reg_setFld_other _ (FAB_PORT_STAT.state.on p) 2 off stat)).trans (s.setGroups_reg p _ off)

/-! ### A port leaves service (R318, R319) -/

/-- Between two states a port has left service in the state `st`, its groups in the state `gs` or down; its light, its failures and the
registers that are not its own stand. -/
structure State.PortLeft (p st : Nat) (gs : BitVec 3) (s u : State) : Prop where
  state : u.fld (FAB_PORT_STAT.state.on p) = st
  light : u.flag (FAB_PORT_STAT.light.on p) = s.flag (FAB_PORT_STAT.light.on p)
  fails : (u.port p).fails = (s.port p).fails
  groups : ∀ g, g < 4 → (u.group p g).state = gs ∨ (u.group p g).state = 3
  reg : ∀ off, 0x200000 ≤ off → off ∉ followRegs → off ≠ (FAB_PORT_STAT.state.on p).off → off ≠ (FAB_RETRY.lost.on p).off →
    u.reg off = s.reg off

theorem State.groupsLost_spec : let u := (List.range 4).foldl (fun s g => s.groupLost p g) s
    (∀ q, (u.port q).fails = (s.port q).fails) ∧
      ∀ off, 0x200000 ≤ off → off ≠ (FAB_RETRY.lost.on p).off → u.reg off = s.reg off := by
  refine foldl_does (fun s u => (∀ q, (u.port q).fails = (s.port q).fails) ∧
    ∀ off, 0x200000 ≤ off → off ≠ (FAB_RETRY.lost.on p).off → u.reg off = s.reg off) (fun _ => ⟨fun _ => rfl, fun _ _ _ => rfl⟩)
    (fun _ _ _ h k => ⟨fun q => (k.1 q).trans (h.1 q), fun off a b => (k.2 off a b).trans (h.2 off a b)⟩) _ (fun u g => ?_) _ s
  obtain ⟨moved, -⟩ := u.groupLost_spec (p := p) (g := g)
  exact ⟨moved.fails, moved.reg⟩

theorem State.portLeaves_spec {st : Nat} (small : st < 8) (gs : BitVec 3) : State.PortLeft p st gs s (s.portLeaves p st gs) := by
  unfold State.portLeaves
  extract_lets s0 s1 s2 d s3
  obtain ⟨fails0, reg0⟩ : (∀ q, (s0.port q).fails = (s.port q).fails) ∧
      ∀ off, 0x200000 ≤ off → off ≠ (FAB_RETRY.lost.on p).off → s0.reg off = s.reg off := s.groupsLost_spec p
  clear_value s0
  have group1 : ∀ g, g < 4 → (s1.group p g).state = gs := fun g h => congrArg FabGroup.state (s0.setGroups_group p _ h)
  have fails1 : (s1.port p).fails = (s.port p).fails := (s0.setGroups_fails p _ p).trans (fails0 p)
  have reg1 : ∀ off, s1.reg off = s0.reg off := s0.setGroups_reg p _
  clear_value s1
  have fab : s3.fab = s1.fab :=
    (s2.setDom_fab _ _).trans ((State.setFld_fab _ _ _).trans ((State.setFld_fab _ _ _).trans (s1.setFld_fab _ _)))
  have stands : ∀ off, s3.reg off = s2.reg off := State.reg_congr (s2.setDom_regs _ _)
  have state3 : s3.fld (FAB_PORT_STAT.state.on p) = st := by
    calc s3.fld (FAB_PORT_STAT.state.on p) = s2.fld (FAB_PORT_STAT.state.on p) := State.fld_congr _ (stands _)
      _ = ((s1.setPortState p st).setFld (FAB_PORT_STAT.fid.on p) 0).fld (FAB_PORT_STAT.state.on p) :=
        State.fld_setFld_on_beside _ (f := FAB_PORT_STAT.fport) (g := FAB_PORT_STAT.state) (by decide) p (by decide) 0
      _ = (s1.setPortState p st).fld (FAB_PORT_STAT.state.on p) :=
        State.fld_setFld_on_beside _ (f := FAB_PORT_STAT.fid) (g := FAB_PORT_STAT.state) (by decide) p (by decide) 0
      _ = st % 8 := s1.fld_setFld_on (f := FAB_PORT_STAT.state) (by decide) p st
      _ = st := Nat.mod_eq_of_lt small
  have light3 : s3.flag (FAB_PORT_STAT.light.on p) = s1.flag (FAB_PORT_STAT.light.on p) := by
    calc s3.flag (FAB_PORT_STAT.light.on p) = s2.flag (FAB_PORT_STAT.light.on p) := State.flag_congr _ (stands _)
      _ = ((s1.setPortState p st).setFld (FAB_PORT_STAT.fid.on p) 0).flag (FAB_PORT_STAT.light.on p) :=
        State.flag_setFld_on_beside _ (f := FAB_PORT_STAT.fport) (g := FAB_PORT_STAT.light) (by decide) p (by decide) 0
      _ = (s1.setPortState p st).flag (FAB_PORT_STAT.light.on p) :=
        State.flag_setFld_on_beside _ (f := FAB_PORT_STAT.fid) (g := FAB_PORT_STAT.light) (by decide) p (by decide) 0
      _ = s1.flag (FAB_PORT_STAT.light.on p) :=
        s1.flag_setFld_on_beside (f := FAB_PORT_STAT.state) (g := FAB_PORT_STAT.light) (by decide) p (by decide) st
  have reg3 : ∀ off, off ≠ (FAB_PORT_STAT.state.on p).off → s3.reg off = s1.reg off := fun off other =>
    (stands off).trans ((State.reg_setFld_other _ (FAB_PORT_STAT.fport.on p) 0 off other).trans
      ((State.reg_setFld_other _ (FAB_PORT_STAT.fid.on p) 0 off other).trans (s1.reg_setFld_other _ st off other)))
  clear_value s3
  have follows : s3.TableMoved s3.followTable.announceChange := (State.TableMoved.followTable s3).trans (.announceChange _)
  have own : (FAB_PORT_STAT.state.on p).off ≠ (FAB_RETRY.lost.on p).off := by
    simp only [FAB_RETRY.lost, FAB_PORT_STAT.state, Fld.on]
    omega
  refine ⟨?_, ?_, ?_, fun g h => ?_, fun off high other stat lost => ?_⟩
  · rw [State.fld_congr _ (follows.on (f := FAB_PORT_STAT.state) (by decide) (by decide) p)]
    exact state3
  · rw [State.flag_congr _ (follows.on (f := FAB_PORT_STAT.light) (by decide) (by decide) p), light3]
    exact State.flag_congr _ ((reg1 _).trans (reg0 _ (Nat.le_trans (by decide) (Nat.le_add_right 0x500000 _)) own))
  · rw [follows.fails, State.port_congr fab]
    exact fails1
  · have here : (s3.group p g).state = gs := by rw [State.group_congr fab, group1 g h]
    rcases follows.groups p g with same | left
    · exact .inl (by rw [same, here])
    · rw [left, FabGroup.left]
      dsimp only
      split
      · next off => exact .inl (off.symm.trans here)
      · exact .inr rfl
  · rw [follows.reg off other, reg3 off stat, reg1, reg0 off high lost]

/-! ### The end of a training (R318) -/

/-- The port trains, and a training of it may end. -/
abbrev State.Trains : Prop :=
  s.portEnabled p = true ∧ (s.fld (FAB_PORT_STAT.state.on p) = 2 ∨ (s.fld (FAB_PORT_STAT.state.on p) = 3 ∧ s.allDown p = true))

/-- A port in the training that ends: one that was up with all groups down has begun it. -/
def State.inTraining : State :=
  if s.fld (FAB_PORT_STAT.state.on p) = 2 then s else (s.portLeaves p 2 4).startTraining p

theorem State.inTraining_fails : ((s.inTraining p).port p).fails = (s.port p).fails := by
  unfold State.inTraining
  split
  · rfl
  · obtain ⟨-, -, -, fails, -⟩ := (s.portLeaves p 2 4).startTraining_spec p
    exact fails.trans (s.portLeaves_spec p (by decide) 4).fails

/-- The port with its groups' traffic at the start, on all lanes. -/
def FabGroup.ready (f : FabGroup) : FabGroup := { f.fresh with state := 4, rxl := 15, txl := 15, helloOf := none }

theorem State.not_trains : ((!s.portEnabled p) = true ∨ (!decide (s.fld (FAB_PORT_STAT.state.on p) = 2 ∨
    (s.fld (FAB_PORT_STAT.state.on p) = 3 ∧ s.allDown p = true))) = true) ↔ ¬ s.Trains p := by
  rw [not_and_or, Bool.not_eq_true', Bool.not_eq_true', decide_eq_false_iff_not, Bool.not_eq_true]

theorem State.training_rests {failed : Option Nat} {ms : Nat} (rests : ¬ s.Trains p) : s.training p failed ms = s :=
  if_pos ((s.not_trains p).2 rests)

/-- The port after a failed step, whose number is noted and which counts. -/
def State.failedStep (k : Nat) : State :=
  ((s.inTraining p).setFld (FAB_TRAIN.fstep.on p) (k + 1)).setPort p
    { (s.inTraining p).port p with fails := if 3 ≤ (s.port p).fails + 1 then 0 else (s.port p).fails + 1 }

theorem State.failedStep_spec {k : Nat} (step : k < 5) : (s.failedStep p k).fld (FAB_TRAIN.fstep.on p) = k + 1 ∧
    ((s.failedStep p k).port p).fails = if 3 ≤ (s.port p).fails + 1 then 0 else (s.port p).fails + 1 := by
  unfold State.failedStep
  rw [State.port_setPort_same, State.fld_congr _ (State.reg_congr (State.setPort_regs _ _ _) _),
    State.fld_setFld_on _ (f := FAB_TRAIN.fstep) (by decide)]
  exact ⟨Nat.mod_eq_of_lt (show k + 1 < 8 by omega), rfl⟩

/-- A port goes down with its groups. -/
theorem State.portDown_spec :
    let u := (s.setGroups p fun f => { f with state := 3 }).setPortState p 5
    u.fld (FAB_PORT_STAT.state.on p) = 5 ∧ u.fld (FAB_TRAIN.fstep.on p) = s.fld (FAB_TRAIN.fstep.on p) ∧
      ∀ g, g < 4 → (u.group p g).state = 3 := by
  have group : ∀ g, g < 4 → ((s.setGroups p fun f => { f with state := 3 }).group p g).state = 3 := fun g h =>
    congrArg FabGroup.state (s.setGroups_group p _ h)
  have reg := s.setGroups_reg p fun f => { f with state := 3 }
  generalize s.setGroups p (fun f => { f with state := 3 }) = s1 at group reg
  refine ⟨s1.fld_setFld_on (f := FAB_PORT_STAT.state) (by decide) p 5, ?_, fun g h => ?_⟩
  · refine (State.fld_congr _ (s1.reg_setFld_other (FAB_PORT_STAT.state.on p) 5 (FAB_TRAIN.fstep.on p).off ?_)).trans
      (State.fld_congr _ (reg _))
    simp only [FAB_TRAIN.fstep, FAB_PORT_STAT.state, Fld.on]
    omega
  · have fab : (s1.setPortState p 5).fab = s1.fab := s1.setFld_fab (FAB_PORT_STAT.state.on p) 5
    rw [State.group_congr fab]
    exact group g h

section
variable (trains : s.Trains p)
include trains

theorem State.training_succeeds {ms : Nat} (byte : ms < 256) :
    ((s.training p none ms).port p).fails = 0 ∧ (s.training p none ms).fld (FAB_TRAIN.ms.on p) = ms ∧
      ∀ g, g < 4 → ∃ f : FabGroup, (s.training p none ms).group p g = f.ready := by
  have ended : s.training p none ms = ((((s.inTraining p).setPort p { (s.inTraining p).port p with fails := 0 }).setGroups p
      FabGroup.ready).setFlag (FAB_PORT_STAT.light.on p) true).setFld (FAB_TRAIN.ms.on p) ms :=
    if_neg fun rests => (s.not_trains p).1 rests trains
  have fails : (((s.inTraining p).setPort p { (s.inTraining p).port p with fails := 0 }).port p).fails = 0 := by
    rw [State.port_setPort_same]
  generalize (s.inTraining p).setPort p { (s.inTraining p).port p with fails := 0 } = s1 at ended fails
  have fab : (s.training p none ms).fab = (s1.setGroups p FabGroup.ready).fab := by
    rw [ended]
    exact (State.setFld_fab _ _ _).trans (State.setFlag_fab _ _ _)
  refine ⟨?_, ?_, fun g h => ⟨s1.group p g, ?_⟩⟩
  · rw [State.port_congr fab, s1.setGroups_fails]
    exact fails
  · rw [ended, State.fld_setFld_on _ (f := FAB_TRAIN.ms) (by decide)]
    exact Nat.mod_eq_of_lt byte
  · rw [State.group_congr fab, s1.setGroups_group p _ h]

theorem State.training_fails {ms k : Nat} : s.training p (some k) ms =
    if 3 ≤ (s.port p).fails + 1 then (((s.failedStep p k).setGroups p fun f => { f with state := 3 }).setPortState p 5).raise
      { cls := 8, code := 1, unit := p, arg0 := k + 1 }
    else (s.failedStep p k).startTraining p := by
  unfold State.failedStep
  rw [← s.inTraining_fails p]
  exact if_neg fun rests => (s.not_trains p).1 rests trains

/-- A first or second failure in succession begins the training anew. -/
theorem State.training_again {ms k : Nat} (step : k < 5) (few : (s.port p).fails < 2) :
    (s.training p (some k) ms).fld (FAB_TRAIN.fstep.on p) = k + 1 ∧ (s.training p (some k) ms).fld (FAB_PORT_STAT.state.on p) = 2 ∧
      ((s.training p (some k) ms).port p).fails = (s.port p).fails + 1 := by
  have more : ¬ 3 ≤ (s.port p).fails + 1 := by omega
  obtain ⟨noted, fails⟩ := s.failedStep_spec p step
  obtain ⟨state, -, kept, same, -⟩ := (s.failedStep p k).startTraining_spec p
  rw [s.training_fails p trains, if_neg more]
  exact ⟨kept.trans noted, state, same.trans (fails.trans (if_neg more))⟩

/-- The third failure in succession takes the port down. -/
theorem State.training_down {ms k : Nat} (step : k < 5) (many : 2 ≤ (s.port p).fails) :
    (s.training p (some k) ms).fld (FAB_TRAIN.fstep.on p) = k + 1 ∧ (s.training p (some k) ms).fld (FAB_PORT_STAT.state.on p) = 5 ∧
      ∀ g, g < 4 → ((s.training p (some k) ms).group p g).state = 3 := by
  obtain ⟨noted, -⟩ := s.failedStep_spec p step
  have raised : s.training p (some k) ms = _ := (s.training_fails p trains).trans (if_pos (Nat.succ_le_succ many))
  obtain ⟨state, step, groups⟩ := (s.failedStep p k).portDown_spec p
  rw [raised]
  generalize ((s.failedStep p k).setGroups p fun f => { f with state := 3 }).setPortState p 5 = s2 at state step groups
  have table := State.TableMoved.raise s2 { cls := 8, code := 1, unit := p, arg0 := k + 1 }
  refine ⟨?_, ?_, fun g h => ?_⟩
  · rw [State.fld_congr _ (table.on (f := FAB_TRAIN.fstep) (by decide) (by decide) p), step, noted]
  · rw [State.fld_congr _ (table.on (f := FAB_PORT_STAT.state) (by decide) (by decide) p), state]
  · rw [State.group_congr (s2.raise_moves _).fab]
    exact groups g h

end

/-! ### Idle ports and light (R318) -/

theorem State.idleRetry_rests {light : Bool} (rests : s.fld (FAB_PORT_STAT.state.on p) ≠ 1 ∨ s.portEnabled p = false) :
    s.idleRetry p light = s :=
  if_pos (rests.symm.imp_left fun dark => by rw [dark]; rfl)

theorem State.idleRetry_counts {light : Bool} (idle : s.fld (FAB_PORT_STAT.state.on p) = 1) (enabled : s.portEnabled p = true) :
    (s.idleRetry p light).fld (FAB_TRAIN.count.on p) = min (s.fld (FAB_TRAIN.count.on p) + 1) 255 ∧
      (s.idleRetry p light).fld (FAB_PORT_STAT.state.on p) = if light then 2 else 1 := by
  have tries : s.idleRetry p light = if light then (s.setFlag (FAB_PORT_STAT.light.on p) true).startTraining p
      else s.bump (FAB_TRAIN.count.on p) :=
    if_neg fun rests => rests.elim (fun dark => by rw [enabled] at dark; exact Bool.false_ne_true dark) fun other => other idle
  have apart : (FAB_PORT_STAT.state.on p).off ≠ (FAB_TRAIN.count.on p).off := by
    simp only [FAB_TRAIN.count, FAB_PORT_STAT.state, Fld.on]
    omega
  rw [tries]
  cases light with
  | true =>
    obtain ⟨state, count, -⟩ := (s.setFlag (FAB_PORT_STAT.light.on p) true).startTraining_spec p
    have same : (s.setFlag (FAB_PORT_STAT.light.on p) true).fld (FAB_TRAIN.count.on p) = s.fld (FAB_TRAIN.count.on p) :=
      State.fld_congr _ (s.reg_setFld_other (FAB_PORT_STAT.light.on p) _ _ apart.symm)
    exact ⟨count.trans (by rw [same]), state⟩
  | false =>
    refine ⟨State.fld_bump_same _ (FAB_TRAIN.count.on p) 1 (show 24 ≤ 31 by decide) (show 31 < 32 by decide), ?_⟩
    exact (State.fld_congr _ (s.reg_setFld_other (FAB_TRAIN.count.on p) _ _ apart)).trans idle

theorem State.noLight_idle (idle : s.fld (FAB_PORT_STAT.state.on p) ∈ [0, 1, 5]) :
    s.noLight p = s.setFlag (FAB_PORT_STAT.light.on p) false :=
  if_pos (by simpa using idle)

theorem State.noLight_leaves (lit : s.fld (FAB_PORT_STAT.state.on p) ∉ [0, 1, 5]) :
    (s.noLight p).fld (FAB_PORT_STAT.state.on p) = 1 ∧ (s.noLight p).flag (FAB_PORT_STAT.light.on p) = false ∧
      ∀ g, g < 4 → ((s.noLight p).group p g).state = 3 := by
  unfold State.noLight
  extract_lets st s1
  rw [if_neg (by simpa [st] using lit)]
  obtain ⟨state, light, -, groups, -⟩ := (s1.setFlag (FAB_PORT_STAT.light.on p) false).portLeaves_spec p (st := 1) (by decide) 3
  exact ⟨state, light.trans (s1.flag_setFlag_on (f := FAB_PORT_STAT.light) (by decide) p false), fun g h => (groups g h).elim id id⟩

/-! ### Hellos (R327) -/

/-- A port that comes up names its far end. -/
theorem State.portComesUp_spec (h : Hello) : (s.portComesUp p h).fld (FAB_PORT_STAT.state.on p) = 3 ∧
    (s.portComesUp p h).fld (FAB_PORT_STAT.fid.on p) = h.id.toNat ∧
    (s.portComesUp p h).fld (FAB_PORT_STAT.fport.on p) = h.port.toNat := by
  unfold State.portComesUp
  extract_lets s1 s2 s3 s4
  clear_value s1
  have follows : s4.TableMoved s4.announceChange.followTable := (State.TableMoved.announceChange s4).trans (.followTable _)
  have shown : s4.reg (FAB_PORT_STAT.state.on p).off = s2.reg (FAB_PORT_STAT.state.on p).off := by
    have stands : s3.reg (FAB_PORT_STAT.state.on p).off = s2.reg (FAB_PORT_STAT.state.on p).off := State.reg_congr (s2.setDom_regs _ _) _
    unfold s4
    split
    · exact stands
    · refine (s3.reg_setFld_other FAB_START.trn _ _ ?_).trans stands
      simp only [FAB_START.trn, FAB_PORT_STAT.state, Fld.on]
      omega
  have own := (follows.on (f := FAB_PORT_STAT.state) (by decide) (by decide) p).trans shown
  have fport : s2.fld (FAB_PORT_STAT.fport.on p) = h.port.toNat :=
    (State.fld_setFld_on _ (f := FAB_PORT_STAT.fport) (by decide) p _).trans (Nat.mod_eq_of_lt h.port.isLt)
  have fid : s2.fld (FAB_PORT_STAT.fid.on p) = h.id.toNat :=
    (State.fld_setFld_on_beside _ (f := FAB_PORT_STAT.fport) (g := FAB_PORT_STAT.fid) (by decide) p (by decide) _).trans
      ((State.fld_setFld_on _ (f := FAB_PORT_STAT.fid) (by decide) p _).trans (Nat.mod_eq_of_lt h.id.isLt))
  have state : s2.fld (FAB_PORT_STAT.state.on p) = 3 :=
    (State.fld_setFld_on_beside _ (f := FAB_PORT_STAT.fport) (g := FAB_PORT_STAT.state) (by decide) p (by decide) _).trans
      ((State.fld_setFld_on_beside _ (f := FAB_PORT_STAT.fid) (g := FAB_PORT_STAT.state) (by decide) p (by decide) _).trans
        (s1.fld_setFld_on (f := FAB_PORT_STAT.state) (by decide) p 3))
  exact ⟨(State.fld_congr (FAB_PORT_STAT.state.on p) own).trans state, (State.fld_congr (FAB_PORT_STAT.fid.on p) own).trans fid,
    (State.fld_congr (FAB_PORT_STAT.fport.on p) own).trans fport⟩

end

/-- A port that hears: it trains or is up, and the group's lanes carry hellos. -/
abbrev State.Hears (s : State) (p g : Nat) : Prop := (s.fld (FAB_PORT_STAT.state.on p) = 2 ∨ s.fld (FAB_PORT_STAT.state.on p) = 3) ∧
  (s.group p g).state ≠ 0 ∧ (s.group p g).state ≠ 3 ∧ (s.group p g).rxl ≠ 0

section
variable (s : State) (p g : Nat)

/-- A group that keeps a hello. -/
def State.keepsHello (h : Hello) : State := s.setGroup p g { s.group p g with helloOf := some h }

theorem State.not_hears : (s.fld (FAB_PORT_STAT.state.on p) ≠ 2 ∧ s.fld (FAB_PORT_STAT.state.on p) ≠ 3) ∨ (s.group p g).state = 0 ∨
    (s.group p g).state = 3 ∨ (s.group p g).rxl = 0 ↔ ¬ s.Hears p g := by
  simp only [State.Hears, not_and_or, not_or, ne_eq, not_not]

theorem State.hello_silent {h : Hello} (silent : ¬ s.Hears p g) : s.hello p g h = s := if_pos ((s.not_hears p g).2 silent)

theorem helloAgrees_self (h : Hello) : helloAgrees h h = true := by
  simp only [helloAgrees, BEq.rfl, Bool.and_self]

/-- Each group of a port holds a hello that agrees with the given one. -/
def State.greeted (h : Hello) : Bool :=
  (List.range 4).all fun k => match (s.group p k).helloOf with
    | some x => helloAgrees x h
    | none => false

theorem State.greeted_iff {s : State} {p : Nat} {h : Hello} :
    s.greeted p h = true ↔ ∀ k, k < 4 → ∃ x, (s.group p k).helloOf = some x ∧ helloAgrees x h = true := by
  unfold State.greeted
  rw [List.all_eq_true]
  refine forall_congr' fun k => imp_congr List.mem_range ?_
  cases (s.group p k).helloOf with
  | none => exact ⟨nofun, fun ⟨x, same, _⟩ => nomatch same⟩
  | some x => exact ⟨fun agrees => ⟨x, rfl, agrees⟩, fun ⟨y, same, agrees⟩ => Option.some.inj same ▸ agrees⟩

section
variable (hears : s.Hears p g) {h : Hello}
include hears

theorem State.hello_up (up : s.fld (FAB_PORT_STAT.state.on p) = 3) : s.hello p g h = (s.keepsHello p g h).refPromises :=
  (if_neg fun silent => (s.not_hears p g).1 silent hears).trans (if_pos up)

theorem State.hello_trains (trains : s.fld (FAB_PORT_STAT.state.on p) = 2) : s.hello p g h =
    if (s.keepsHello p g h).greeted p h then (s.keepsHello p g h).portComesUp p h else s.keepsHello p g h := by
  unfold State.hello
  extract_lets st f s1
  rw [if_neg fun silent => (s.not_hears p g).1 silent hears, if_neg (by rw [show st = 2 from trains]; decide)]
  rfl

/-- A training port comes up with the hello whose three fellows agree. -/
theorem State.hello_agreed (trains : s.fld (FAB_PORT_STAT.state.on p) = 2)
    (agree : ∀ k, k < 4 → k ≠ g → ∃ x, (s.group p k).helloOf = some x ∧ helloAgrees x h = true) :
    s.hello p g h = (s.keepsHello p g h).portComesUp p h := by
  rw [s.hello_trains p g hears trains]
  refine if_pos (State.greeted_iff.2 fun k low => ?_)
  by_cases same : k = g
  · exact ⟨h, by rw [same, State.keepsHello, State.group_setGroup_same], helloAgrees_self h⟩
  · rw [State.keepsHello, State.group_setGroup, if_neg fun both => same both.2]
    exact agree k low same

/-- A training port keeps a hello with which another one does not agree. -/
theorem State.hello_kept (trains : s.fld (FAB_PORT_STAT.state.on p) = 2)
    (other : ∃ k, k < 4 ∧ k ≠ g ∧ ∀ x, (s.group p k).helloOf = some x → helloAgrees x h = false) :
    s.hello p g h = s.keepsHello p g h := by
  rw [s.hello_trains p g hears trains]
  refine if_neg fun all => ?_
  obtain ⟨k, low, apart, disagrees⟩ := other
  obtain ⟨x, heard, agrees⟩ := State.greeted_iff.1 all k low
  rw [State.keepsHello, State.group_setGroup, if_neg fun both => apart both.2] at heard
  exact Bool.false_ne_true ((disagrees x heard).symm.trans agrees)

end

end

/-! ### What the host's card asks of a port (R339) -/

section
variable (s : State) (p : Nat)

theorem State.retrain_rests (rests : s.portUnbound p = false ∨ s.portEnabled p = false) : s.retrain p = s :=
  if_pos (rests.imp (fun bound => by rw [bound]; rfl) fun dark => by rw [dark]; rfl)

theorem State.retrain_trains (unbound : s.portUnbound p = true) (enabled : s.portEnabled p = true) :
    (s.retrain p).fld (FAB_PORT_STAT.state.on p) = 2 ∧ ((s.retrain p).port p).fails = 0 ∧
      ∀ g, g < 4 → ((s.retrain p).group p g).cred = 128 := by
  unfold State.retrain
  extract_lets s1 fresh s2
  rw [if_neg (by rw [unbound, enabled]; decide)]
  have fails : (s2.port p).fails = 0 := congrArg Port.fails (s1.port_setPort_same p _)
  clear_value s2
  obtain ⟨state, -, -, kept, groups⟩ := (s2.setGroups p FabGroup.fresh).startTraining_spec p
  refine ⟨state, kept.trans ((s2.setGroups_fails p _ p).trans fails), fun g h => ?_⟩
  rw [groups g h, s2.setGroups_group p _ h]
  rfl

theorem State.portDisable_rests {dis : Bool} (rests : s.portUnbound p = false ∨ s.flag (FAB_PORT_CTL.dis.on p) = dis) :
    s.portDisable p dis = s := by
  unfold State.portDisable
  extract_lets s1
  rcases rests with bound | same
  · exact if_pos (by rw [bound]; rfl)
  · rw [if_pos same.symm]
    exact ite_self s

section
variable (unbound : s.portUnbound p = true)
include unbound

/-- A port that is disabled is off. -/
theorem State.portDisable_off (on : s.flag (FAB_PORT_CTL.dis.on p) = false) :
    (s.portDisable p true).flag (FAB_PORT_CTL.dis.on p) = true ∧ (s.portDisable p true).fld (FAB_PORT_STAT.state.on p) = 0 := by
  unfold State.portDisable
  extract_lets s1
  rw [if_neg (by rw [unbound]; decide), if_neg (by rw [on]; decide), if_pos rfl]
  obtain ⟨state, -, -, -, reg⟩ := s1.portLeaves_spec p (st := 0) (by decide) 0
  refine ⟨(State.flag_congr _ (reg _ ?_ ?_ ?_ ?_)).trans (s.flag_setFlag_on (f := FAB_PORT_CTL.dis) (by decide) p true), state⟩
  · exact Nat.le_trans (by decide) (Nat.le_add_right 0x500004 _)
  · exact Fld.on_not_mem_followRegs (f := FAB_PORT_CTL.dis) (by decide) (by decide) p
  · simp only [FAB_PORT_CTL.dis, FAB_PORT_STAT.state, Fld.on]
    omega
  · simp only [FAB_PORT_CTL.dis, FAB_RETRY.lost, Fld.on]
    omega

/-- A port that is enabled trains, unless the emission lock holds it dark. -/
theorem State.portDisable_on (off : s.flag (FAB_PORT_CTL.dis.on p) = true) :
    (s.portDisable p false).flag (FAB_PORT_CTL.dis.on p) = false ∧ (s.portDisable p false).fld (FAB_PORT_STAT.state.on p) =
      if s.flag GUARD_STAT.elock then s.fld (FAB_PORT_STAT.state.on p) else 2 := by
  unfold State.portDisable
  extract_lets s1
  rw [if_neg (by rw [unbound]; decide), if_neg (by rw [off]; decide), if_neg Bool.false_ne_true]
  have ctl : ∀ k, k ≠ (FAB_PORT_CTL.dis.on p).off → s1.reg k = s.reg k := s.reg_setFld_other _ _
  have free : s1.flag (FAB_PORT_CTL.dis.on p) = false := s.flag_setFlag_on (f := FAB_PORT_CTL.dis) (by decide) p false
  have lock : s1.flag GUARD_STAT.elock = s.flag GUARD_STAT.elock :=
    State.flag_congr _ (ctl _ (by simp only [GUARD_STAT.elock, FAB_PORT_CTL.dis, Fld.on]; omega))
  have state : s1.fld (FAB_PORT_STAT.state.on p) = s.fld (FAB_PORT_STAT.state.on p) :=
    State.fld_congr _ (ctl _ (by simp only [FAB_PORT_STAT.state, FAB_PORT_CTL.dis, Fld.on]; omega))
  have enabled : s1.portEnabled p = !s.flag GUARD_STAT.elock := by
    unfold State.portEnabled
    rw [free, lock, Bool.not_false, Bool.true_and]
  clear_value s1
  rw [enabled]
  cases s.flag GUARD_STAT.elock with
  | true => exact ⟨free, state⟩
  | false =>
    obtain ⟨trains, -⟩ := s1.startTraining_spec p
    refine ⟨(State.flag_congr _ (s1.startTraining_reg p _ ?_ ?_)).trans free, trains⟩
    · simp only [FAB_PORT_STAT.state, FAB_PORT_CTL.dis, Fld.on]
      omega
    · simp only [FAB_TRAIN.count, FAB_PORT_CTL.dis, Fld.on]
      omega

end

end

/-- Settles O28: a training by its end, idle ports and light by the port's state, a hello by what the port does with it, and what the host's
card asks (sequence numbers from 0 after a training, so that the first message is 1, are log 63's reading). -/
theorem portsTrainAndGreet : Obligations.PortsTrainAndGreet := by
  intro s p st trains
  refine ⟨fun ms due => ⟨?succeeds, fun k => ?fails⟩, fun k ms rests => congrArg Host.Outcome.next (s.training_rests p rests),
    fun light => ⟨fun idle enabled => ⟨_, rfl, s.idleRetry_counts p idle enabled⟩,
      fun rests => congrArg Host.Outcome.next (s.idleRetry_rests p rests)⟩,
    fun lit => ⟨_, rfl, s.noLight_leaves p lit⟩, fun idle => congrArg Host.Outcome.next (s.noLight_idle p idle), fun g h => ?hello,
    fun unbound enabled => ⟨_, rfl, s.retrain_trains p unbound enabled⟩, fun rests => congrArg Host.Outcome.next (s.retrain_rests p rests),
    fun unbound on => ⟨_, rfl, s.portDisable_off p unbound on⟩, fun unbound off => ⟨_, rfl, s.portDisable_on p unbound off⟩,
    fun dis rests => congrArg Host.Outcome.next (s.portDisable_rests p rests)⟩
  case succeeds =>
    obtain ⟨fails, took, groups⟩ := s.training_succeeds p due ms.isLt
    have ended : exec (.portTraining p none ms) s = .next (s.training p none ms.toNat) := rfl
    refine ⟨_, ended, fails, took, fun g low => ?_⟩
    obtain ⟨f, ready⟩ := groups g low
    rw [ready]
    exact ⟨rfl, rfl, rfl, rfl, rfl, rfl, rfl⟩
  case fails =>
    have ended : exec (.portTraining p (some k) ms) s = .next (s.training p (some k.val) ms.toNat) := rfl
    refine ⟨_, ended, ?_, fun few => ?_, fun many => ?_⟩
    · by_cases few : (s.port p).fails < 2
      · exact (s.training_again p due k.isLt few).1
      · exact (s.training_down p due k.isLt (Nat.not_lt.1 few)).1
    · exact (s.training_again p due k.isLt few).2
    · exact (s.training_down p due k.isLt many).2
  case hello =>
    refine ⟨fun hears trains agree => ?_, fun hears trains other => congrArg Host.Outcome.next (s.hello_kept p g hears trains other),
      fun hears up => ?_, fun silent => congrArg Host.Outcome.next (s.hello_silent p g silent)⟩
    · exact ⟨_, congrArg Host.Outcome.next (s.hello_agreed p g hears trains agree), State.portComesUp_spec _ p h⟩
    · refine ⟨_, congrArg Host.Outcome.next (s.hello_up p g hears up), ?_⟩
      rw [State.group_congr (State.refPromises_moves _).fab, State.keepsHello, State.group_setGroup_same]

end Sys2Proof.Machine
end

section
/-! SUPPORT. Clock domains and their sources: switches, clock faults, unlocks (R384 to R386). -/

namespace Sys2Proof.Machine

section
variable (s : State)

/-! ### Source switches and clock faults (R384, R385) -/

/-- A field that another one leaves alone: it lies in another register, or beside it. -/
abbrev Fld.Apart (f g : Fld) : Prop := g.off ≠ f.off ∨ (f.Fits ∧ f.Beside g)

theorem State.fld_setFld_apart {f g : Fld} (h : f.Apart g) (v : Nat) : (s.setFld f v).fld g = s.fld g :=
  h.elim (s.fld_setFld_other f g v) fun ⟨fits, beside⟩ => s.fld_setFld_on_beside fits 0 beside v

theorem State.flag_setFld_apart {f g : Fld} (h : f.Apart g) (v : Nat) : (s.setFld f v).flag g = s.flag g :=
  congrArg (· != 0) (s.fld_setFld_apart h v)

theorem State.dom_congr {s u : State} (h : u.clk = s.clk) (d : Nat) : u.dom d = s.dom d := by
  unfold State.dom
  rw [h]

theorem State.fld_withClk (c : Clocks) (f : Fld) : ({ s with clk := c } : State).fld f = s.fld f :=
  State.fld_congr f (State.reg_congr rfl _)

theorem State.flag_withClk (c : Clocks) (f : Fld) : ({ s with clk := c } : State).flag f = s.flag f :=
  State.flag_congr f (State.reg_congr rfl _)

theorem State.ClaimsMoved.clk {s u : State} (h : s.ClaimsMoved u) : u.clk = s.clk := by
  obtain ⟨c, x, g, m, n, rfl, -⟩ := h
  rfl

theorem State.switchLast_clk (forced : Bool) (d a b us : Nat) : (s.switchLast forced d a b us).clk = s.clk :=
  calc (s.switchLast forced d a b us).clk
    _ = _ := State.setSat_clk _ CLK_SW_LAST.us us
    _ = _ := State.setFld_clk _ CLK_SW_LAST.to b
    _ = _ := State.setFld_clk _ CLK_SW_LAST.from a
    _ = _ := State.setFld_clk _ CLK_SW_LAST.dom d
    _ = _ := State.setFlag_clk _ CLK_SW_LAST.forced forced
    _ = s.clk := State.setFlag_clk s CLK_SW_LAST.valid true

theorem State.switchLast_reg (forced : Bool) (d a b us off : Nat) (other : off ≠ CLK_SW_LAST.valid.off) :
    (s.switchLast forced d a b us).reg off = s.reg off :=
  calc (s.switchLast forced d a b us).reg off
    _ = _ := State.reg_setFld_other _ CLK_SW_LAST.us _ off other
    _ = _ := State.reg_setFld_other _ CLK_SW_LAST.to _ off other
    _ = _ := State.reg_setFld_other _ CLK_SW_LAST.from _ off other
    _ = _ := State.reg_setFld_other _ CLK_SW_LAST.dom _ off other
    _ = _ := State.reg_setFld_other _ CLK_SW_LAST.forced _ off other
    _ = s.reg off := State.reg_setFld_other _ CLK_SW_LAST.valid _ off other

theorem State.switchLast_forced (forced : Bool) (d a b us : Nat) : (s.switchLast forced d a b us).flag CLK_SW_LAST.forced = forced :=
  calc (s.switchLast forced d a b us).flag CLK_SW_LAST.forced
    _ = _ := State.flag_setFld_apart _ (f := CLK_SW_LAST.us) (by decide) _
    _ = _ := State.flag_setFld_apart _ (f := CLK_SW_LAST.to) (by decide) _
    _ = _ := State.flag_setFld_apart _ (f := CLK_SW_LAST.from) (by decide) _
    _ = _ := State.flag_setFld_apart _ (f := CLK_SW_LAST.dom) (by decide) _
    _ = forced := State.flag_setFlag _ (f := CLK_SW_LAST.forced) (by decide) forced

theorem State.switchLast_dom (forced : Bool) (d a b us : Nat) : (s.switchLast forced d a b us).fld CLK_SW_LAST.dom = d % 32 :=
  calc (s.switchLast forced d a b us).fld CLK_SW_LAST.dom
    _ = _ := State.fld_setFld_apart _ (f := CLK_SW_LAST.us) (by decide) _
    _ = _ := State.fld_setFld_apart _ (f := CLK_SW_LAST.to) (by decide) _
    _ = _ := State.fld_setFld_apart _ (f := CLK_SW_LAST.from) (by decide) _
    _ = d % 32 := State.fld_setFld_same _ CLK_SW_LAST.dom d (by decide) (by decide)

/-- A domain after one more clock fault. -/
def Dom.faulted (x : Dom) : Dom := { x with flt := if x.flt = 255 then 255 else x.flt + 1 }

/-- A clock fault counts in its domain and is recorded. -/
theorem State.clockFault_moves (code unit act : Nat) :
    (if unit < 23 then s.setDom unit (s.dom unit).faulted else s).ClaimsMoved (s.clockFault code unit act) := State.raise_moves _ _

theorem State.clockFault_reg (code unit act : Nat) {off : Nat} (other : off ≠ GLB_FLT_PTR.wr.off) :
    (s.clockFault code unit act).reg off = s.reg off := by
  rw [(s.clockFault_moves code unit act).reg other]
  split
  · exact State.reg_congr (s.setDom_regs _ _) off
  · rfl

theorem State.clockFault_dom (code act : Nat) {unit : Nat} (counted : unit < 23) (d : Nat) :
    (s.clockFault code unit act).dom d = if d = unit then (s.dom unit).faulted else s.dom d := by
  rw [State.dom_congr (s.clockFault_moves code unit act).clk, if_pos counted, State.dom_setDom]

theorem State.clockFault_clk (code act : Nat) {unit : Nat} (reference : 23 ≤ unit) : (s.clockFault code unit act).clk = s.clk := by
  rw [(s.clockFault_moves code unit act).clk, if_neg (Nat.not_lt.2 reference)]

/-- The temperature corrections stand whatever the unit. -/
theorem State.clockFault_corr (code unit act : Nat) : (s.clockFault code unit act).clk.corr = s.clk.corr := by
  rw [(s.clockFault_moves code unit act).clk]
  split
  · rfl
  · rfl

/-! ### SOURCE_SWITCH, STOPPED_CLOCK and PLL_UNLOCK -/

/-- A domain on a new source. -/
def Dom.onSource (x : Dom) (src : Nat) : Dom := { x with src := BitVec.ofNat 2 src, div := 0, ramp := false, run := true, pll := src == 0 }

theorem State.dom_onSource (d src k : Nat) : (s.onSource d src).dom k = if k = d then (s.dom d).onSource src else s.dom k :=
  s.dom_setDom d k _

/-- CORE or LOOP runs, and a new source that runs is there for it. -/
abbrev State.SwitchReady (d : Nat) (src : BitVec 2) : Prop :=
  switches d src.toNat = true ∧ (s.dom d).run = true ∧ (s.dom d).src ≠ src ∧ s.sourceRuns src.toNat = true

variable (d : Nat) (src : BitVec 2)

theorem State.switchReady_iff : s.SwitchReady d src ↔
    (switches d src.toNat && (s.dom d).run && (s.dom d).src.toNat != src.toNat && s.sourceRuns src.toNat) = true := by
  simp only [State.SwitchReady, Bool.and_eq_true, bne_iff_ne, ne_eq, BitVec.toNat_inj, and_assoc]

theorem State.sourceSwitch_switches (ready : s.SwitchReady d src) (runs : s.sourceRuns (s.dom d).src.toNat = true) :
    s.sourceSwitch d src.toNat = (s.onSource d src.toNat).switchLast false d (s.dom d).src.toNat src.toNat 6 :=
  if_pos (by rw [(s.switchReady_iff d src).1 ready, runs]; rfl)

theorem State.sourceSwitch_rests (rests : ¬ (s.SwitchReady d src ∧ s.sourceRuns (s.dom d).src.toNat = true)) :
    s.sourceSwitch d src.toNat = s := by
  refine if_neg fun due => rests ?_
  obtain ⟨ready, runs⟩ := (Bool.and_eq_true _ _ ▸ due : _ ∧ _)
  exact ⟨(s.switchReady_iff d src).2 ready, runs⟩

theorem State.stoppedClock_switches (ready : s.SwitchReady d src) (stopped : s.sourceRuns (s.dom d).src.toNat = false) :
    s.stoppedClock d src.toNat =
      ((s.onSource d src.toNat).switchLast true d (s.dom d).src.toNat src.toNat 3).clockFault 1 d 0 :=
  if_pos (by rw [(s.switchReady_iff d src).1 ready, stopped]; rfl)

theorem State.stoppedClock_rests (rests : ¬ (s.SwitchReady d src ∧ s.sourceRuns (s.dom d).src.toNat = false)) :
    s.stoppedClock d src.toNat = s := by
  refine if_neg fun due => rests ?_
  obtain ⟨ready, stopped⟩ := (Bool.and_eq_true _ _ ▸ due : _ ∧ _)
  exact ⟨(s.switchReady_iff d src).2 ready, Bool.not_eq_true' _ ▸ stopped⟩

/-- By the ramp: the domain runs on the new source, undivided. -/
theorem State.sourceSwitch_spec (low : d < 23) (ready : s.SwitchReady d src) (runs : s.sourceRuns (s.dom d).src.toNat = true) :
    let u := s.sourceSwitch d src.toNat
    (u.dom d).src = src ∧ (u.dom d).run = true ∧ (u.dom d).div = 0 ∧ u.flag CLK_SW_LAST.forced = false ∧ u.fld CLK_SW_LAST.dom = d := by
  intro u
  unfold u
  rw [s.sourceSwitch_switches d src ready runs, State.switchLast_forced, State.switchLast_dom,
    State.dom_congr (State.switchLast_clk _ _ _ _ _ _), s.dom_onSource, if_pos rfl]
  exact ⟨(BitVec.ofNat_toNat 2 src).trans src.setWidth_eq, rfl, rfl, rfl, Nat.mod_eq_of_lt (by omega)⟩

/-- Forced: the domain runs on the new source, and a clock fault counts. -/
theorem State.stoppedClock_spec (low : d < 23) (ready : s.SwitchReady d src) (stopped : s.sourceRuns (s.dom d).src.toNat = false) :
    let u := s.stoppedClock d src.toNat
    (u.dom d).src = src ∧ (u.dom d).run = true ∧ u.flag CLK_SW_LAST.forced = true ∧
      (u.dom d).flt = if (s.dom d).flt = 255 then 255 else (s.dom d).flt + 1 := by
  intro u
  unfold u
  rw [s.stoppedClock_switches d src ready stopped, State.clockFault_dom _ _ _ low, if_pos rfl,
    State.flag_congr _ (State.clockFault_reg _ _ _ _ (by decide)), State.switchLast_forced, State.dom_congr (State.switchLast_clk _ _ _ _ _ _),
    s.dom_onSource, if_pos rfl]
  exact ⟨(BitVec.ofNat_toNat 2 src).trans src.setWidth_eq, rfl, rfl, rfl⟩

theorem State.pllUnlock_spec (low : d < 23) : (((s.setDom d { s.dom d with pll := false }).clockFault 2 d 0).dom d).pll = false := by
  rw [State.clockFault_dom _ _ _ low, if_pos rfl, State.dom_setDom_same]
  rfl

/-! ### The reference input (R335, R379, R386) -/

/-- The reference PLL enters holdover. -/
theorem State.inputStopped_holds (followed : s.fld CLK_REF_STAT.sel ≠ 0) (locked : s.flag CLK_REF_STAT.hold = false) :
    s.inputStopped = s.holdRef.clockFault 3 31 0 :=
  if_neg fun rests => rests.elim followed fun held => Bool.false_ne_true (locked.symm.trans held)

theorem State.inputStopped_rests (rests : s.fld CLK_REF_STAT.sel = 0 ∨ s.flag CLK_REF_STAT.hold = true) : s.inputStopped = s := if_pos rests

theorem State.holdRef_spec : s.holdRef.flag CLK_REF_STAT.hold = true ∧ s.holdRef.flag CLK_REF_STAT.lock = false ∧
    s.holdRef.clk.holdTick = s.tick := by
  unfold State.holdRef
  extract_lets s1
  have hold : s1.flag CLK_REF_STAT.hold = true :=
    calc s1.flag CLK_REF_STAT.hold
      _ = _ := State.flag_setFld_apart _ (f := FAB_REF.hold) (by decide) _
      _ = _ := State.flag_setFld_apart _ (f := CLK_REF_STAT.lock) (by decide) _
      _ = true := s.flag_setFlag (f := CLK_REF_STAT.hold) (by decide) true
  have lock : s1.flag CLK_REF_STAT.lock = false :=
    calc s1.flag CLK_REF_STAT.lock
      _ = _ := State.flag_setFld_apart _ (f := FAB_REF.hold) (by decide) _
      _ = false := State.flag_setFlag _ (f := CLK_REF_STAT.lock) (by decide) false
  clear_value s1
  have hold2 := (s1.flag_setFld_apart (f := FAB_REF.lock) (g := CLK_REF_STAT.hold) (by decide) false.toNat).trans hold
  have lock2 := (s1.flag_setFld_apart (f := FAB_REF.lock) (g := CLK_REF_STAT.lock) (by decide) false.toNat).trans lock
  exact ⟨(State.flag_withClk _ _ _).trans hold2, (State.flag_withClk _ _ _).trans lock2, rfl⟩

end

end Sys2Proof.Machine
end

section
/-! SUPPORT. The loss and the return of the reference (R387, R402, R416). -/

namespace Sys2Proof.Machine

/-! ### Bays that lose their clock (R387) -/

/-- Between two states the clocks and the bays' states stand. -/
def State.BayClockKept (s u : State) : Prop := u.clk = s.clk ∧ u.reg 0x10 = s.reg 0x10

theorem State.BayClockKept.refl (s : State) : s.BayClockKept s := ⟨rfl, rfl⟩
theorem State.BayClockKept.trans {s t u : State} (h : s.BayClockKept t) (k : t.BayClockKept u) : s.BayClockKept u :=
  ⟨k.1.trans h.1, k.2.trans h.2⟩
theorem State.BaysMoved.bayClock {s u : State} (h : s.BaysMoved u) : s.BayClockKept u := by
  obtain ⟨y, t, rfl⟩ := h
  exact ⟨rfl, rfl⟩
theorem State.UnitsMoved.bayClock {s u : State} (h : s.UnitsMoved u) : s.BayClockKept u := by
  obtain ⟨t, e, g, rfl, stands⟩ := h
  exact ⟨rfl, stands⟩
theorem State.ClaimsMoved.bayClock {s u : State} (h : s.ClaimsMoved u) : s.BayClockKept u := ⟨h.clk, h.reg (by decide)⟩
theorem State.EnginesMoved.bayClock {s u : State} (h : s.EnginesMoved u) : s.BayClockKept u := by
  obtain ⟨g, rfl⟩ := h
  exact ⟨rfl, rfl⟩
theorem State.PausesMoved.bayClock {s u : State} (h : s.PausesMoved u) : s.BayClockKept u := by
  refine ⟨?_, h.reg (by decide)⟩
  obtain ⟨y, t, f, x, g, m, n, rfl, -⟩ := h
  rfl

theorem State.breakBayPromises_moves (s : State) (b cause : Nat) : s.ClaimsMoved (s.breakBayPromises b cause) := by
  unfold State.breakBayPromises
  split
  · exact .refl s
  · exact State.scoreFold_moves s _ _ _ fun u n _ => u.promiseBreak_moves _ n _

section
variable (s : State)

/-- A bay is offline or withdrawn once its clock is lost; the other bays' states and the clocks stand. -/
theorem State.clockLossBay_spec {b : Nat} (low : b < 8) : (s.clockLossBay b).clk = s.clk ∧
    ((s.clockLossBay b).bayState b = 0 ∨ (s.clockLossBay b).bayState b = 6) ∧
    ∀ k, k ≠ b → (s.clockLossBay b).bayState k = s.bayState k := by
  unfold State.clockLossBay
  extract_lets s0 s1 s2 s3
  have left : s.BayClockKept s0 := iteInduction (fun _ => (s.leaveDebug_moves b).bayClock) fun _ => .refl s
  have paused : s0.BayClockKept s1 :=
    iteInduction (fun _ => (s0.modBay_moves b _).bayClock.trans (State.breakBayPromises_moves _ b 0).bayClock) fun _ => .refl s0
  have marked : s1.BayClockKept s2 := foldl_does State.BayClockKept .refl (fun _ _ _ => .trans) _
    (fun u k => (u.modTile_moves _ _).bayClock) _ s1
  have stopped : s2.BayClockKept s3 := (s2.stopSeq_moves b .assured).bayClock.trans (State.stopSeq_moves _ b .spare).bayClock
  obtain ⟨clk, reg⟩ := ((left.trans paused).trans marked).trans stopped
  clear_value s3
  split
  · next withdrawn => exact ⟨clk, .inr withdrawn, fun k _ => State.bayState_congr reg k⟩
  · obtain ⟨g, m, n, set, -⟩ := s3.setBayState_spec b 0
    refine ⟨by rw [set]; exact clk, .inl ?_, fun k other => ?_⟩
    · rw [State.bayState_setBayState _ low (by decide), if_pos rfl]
    · rw [State.bayState_setBayState _ low (by decide), if_neg other]
      exact State.bayState_congr reg k

theorem State.clockLoss_first (n : Nat) (low : n ≤ 8) : ((List.range n).foldl State.clockLossBay s).clk = s.clk ∧
    ∀ b, b < n → ((List.range n).foldl State.clockLossBay s).bayState b = 0 ∨ ((List.range n).foldl State.clockLossBay s).bayState b = 6 := by
  induction n with
  | zero => exact ⟨rfl, nofun⟩
  | succ n ih =>
    obtain ⟨clk, out⟩ := ih (Nat.le_of_succ_le low)
    rw [List.range_succ, List.foldl_append, List.foldl_cons, List.foldl_nil]
    obtain ⟨same, last, others⟩ := ((List.range n).foldl State.clockLossBay s).clockLossBay_spec (b := n) low
    refine ⟨same.trans clk, fun b below => ?_⟩
    by_cases here : b = n
    · rw [here]
      exact last
    · rw [others b here]
      exact out b (by omega)

/-! ### Domains without the reference (R384, R385, R387) -/

/-- The domains that stop without the reference. -/
theorem State.stopDoms_spec (l : List Nat) (k : Nat) :
    (l.foldl (fun s d => s.setDom d { s.dom d with run := false, pll := false }) s).dom k =
      if k ∈ l then { s.dom k with run := false, pll := false } else s.dom k := by
  induction l generalizing s with
  | nil => rfl
  | cons d l ih =>
    rw [List.foldl_cons, ih, State.dom_setDom]
    by_cases here : k = d
    · rw [if_pos here, here, if_pos List.mem_cons_self]
      exact ite_self _
    · rw [if_neg here]
      exact if_congr (by rw [List.mem_cons, or_iff_right here]) rfl rfl

theorem State.stopDoms_regs (l : List Nat) : (l.foldl (fun s d => s.setDom d { s.dom d with run := false, pll := false }) s).regs = s.regs :=
  foldl_does (fun s u => u.regs = s.regs) (fun _ => rfl) (fun _ _ _ h k => k.trans h) _ (fun u d => u.setDom_regs d _) l s

theorem State.allHold_moves : s.EnginesMoved s.allHold :=
  .foldl _ (fun u e => .foldl _ (fun v l => iteInduction (motive := v.EnginesMoved) (fun _ => .refl v) fun _ => v.setLoop_moves e l _) _ u) _ s

/-- CORE or LOOP leaves the reference PLL; the other domains and the bays' states stand. -/
theorem State.fallBack_spec {d : Nat} (low : d < 23) :
    ((s.dom d).src = 0 → ((s.fallBack d).dom d).src = 1 ∧ ((s.fallBack d).dom d).run = true) ∧
    (∀ k, k ≠ d → (s.fallBack d).dom k = s.dom k) ∧ (s.fallBack d).reg 0x10 = s.reg 0x10 := by
  unfold State.fallBack
  extract_lets x
  have onto : ∀ forced us k, (((s.onSource d 1).switchLast forced d 0 1 us).dom k) = if k = d then x.onSource 1 else s.dom k := fun _ _ k => by
    rw [State.dom_congr (State.switchLast_clk _ _ _ _ _ _), s.dom_onSource]
  have kept : ∀ forced us, ((s.onSource d 1).switchLast forced d 0 1 us).reg 0x10 = s.reg 0x10 := fun _ _ =>
    (State.switchLast_reg _ _ _ _ _ _ _ (by decide)).trans (State.reg_congr (s.setDom_regs _ _) _)
  split
  · next other => exact ⟨fun same => absurd same other, fun _ _ => rfl, rfl⟩
  · split
    · refine ⟨fun _ => ?_, fun k other => ?_, kept _ _⟩
      · rw [onto, if_pos rfl]
        exact ⟨rfl, rfl⟩
      · rw [onto, if_neg other]
    · refine ⟨fun _ => ?_, fun k other => ?_, ?_⟩
      · rw [State.clockFault_dom _ _ _ low, if_pos rfl, onto, if_pos rfl]
        exact ⟨rfl, rfl⟩
      · rw [State.clockFault_dom _ _ _ low, if_neg other, onto, if_neg other]
      · rw [State.clockFault_reg _ _ _ _ (by decide), kept]

/-- The reference as its loss leaves it in the registers. -/
def State.refNoted : State :=
  let s1 := ((s.setFlag CLK_REF_STAT.lost true).setFlag CLK_REF_STAT.hold false).setFld CLK_REF_STAT.sel 0
  ((s1.setFlag FAB_REF.hold false).setFlag PWR_STAT.nref true).setFlag CLK_RST_CAUSE.rlost true

theorem State.refNoted_lost : s.refNoted.flag CLK_REF_STAT.lost = true :=
  calc s.refNoted.flag CLK_REF_STAT.lost
    _ = _ := State.flag_setFld_apart _ (f := CLK_RST_CAUSE.rlost) (by decide) _
    _ = _ := State.flag_setFld_apart _ (f := PWR_STAT.nref) (by decide) _
    _ = _ := State.flag_setFld_apart _ (f := FAB_REF.hold) (by decide) _
    _ = _ := State.flag_setFld_apart _ (f := CLK_REF_STAT.sel) (by decide) _
    _ = _ := State.flag_setFld_apart _ (f := CLK_REF_STAT.hold) (by decide) _
    _ = true := s.flag_setFlag (f := CLK_REF_STAT.lost) (by decide) true

theorem State.refNoted_hold : s.refNoted.flag CLK_REF_STAT.hold = false :=
  calc s.refNoted.flag CLK_REF_STAT.hold
    _ = _ := State.flag_setFld_apart _ (f := CLK_RST_CAUSE.rlost) (by decide) _
    _ = _ := State.flag_setFld_apart _ (f := PWR_STAT.nref) (by decide) _
    _ = _ := State.flag_setFld_apart _ (f := FAB_REF.hold) (by decide) _
    _ = _ := State.flag_setFld_apart _ (f := CLK_REF_STAT.sel) (by decide) _
    _ = false := State.flag_setFlag _ (f := CLK_REF_STAT.hold) (by decide) false

theorem State.refNoted_clk : s.refNoted.clk = s.clk :=
  calc s.refNoted.clk
    _ = _ := State.setFlag_clk _ CLK_RST_CAUSE.rlost true
    _ = _ := State.setFlag_clk _ PWR_STAT.nref true
    _ = _ := State.setFlag_clk _ FAB_REF.hold false
    _ = _ := State.setFld_clk _ CLK_REF_STAT.sel 0
    _ = _ := State.setFlag_clk _ CLK_REF_STAT.hold false
    _ = s.clk := State.setFlag_clk s CLK_REF_STAT.lost true

theorem State.refNoted_bays : s.refNoted.reg 0x10 = s.reg 0x10 :=
  calc s.refNoted.reg 0x10
    _ = _ := State.reg_setFld_other _ CLK_RST_CAUSE.rlost _ _ (by decide)
    _ = _ := State.reg_setFld_other _ PWR_STAT.nref _ _ (by decide)
    _ = _ := State.reg_setFld_other _ FAB_REF.hold _ _ (by decide)
    _ = _ := State.reg_setFld_other _ CLK_REF_STAT.sel _ _ (by decide)
    _ = _ := State.reg_setFld_other _ CLK_REF_STAT.hold _ _ (by decide)
    _ = s.reg 0x10 := s.reg_setFld_other CLK_REF_STAT.lost _ _ (by decide)

/-! ### REFERENCE_LOST (R387) -/

theorem State.referenceLost_rests (there : s.refGone = false) : s.referenceLost = s := if_pos (by rw [there]; rfl)

/-- The module with the reference domains and the bays stopped. -/
def State.clockStopped : State :=
  ([0, 2, 3].foldl (fun s d => s.setDom d { s.dom d with run := false, pll := false })
    ((List.range 8).foldl State.clockLossBay s)).allHold.portsDown

theorem State.clockStopped_spec : (∀ b, b < 8 → s.clockStopped.bayState b = 0 ∨ s.clockStopped.bayState b = 6) ∧
    ∀ d, s.clockStopped.dom d = if d ∈ [0, 2, 3] then { s.dom d with run := false, pll := false } else s.dom d := by
  obtain ⟨clk, out⟩ := s.clockLoss_first 8 (Nat.le_refl 8)
  unfold State.clockStopped
  generalize (List.range 8).foldl State.clockLossBay s = s1 at clk out ⊢
  have stops := s1.stopDoms_spec [0, 2, 3]
  have bays := State.reg_congr (s1.stopDoms_regs [0, 2, 3]) 0x10
  generalize [0, 2, 3].foldl (fun s d => s.setDom d { s.dom d with run := false, pll := false }) s1 = s2 at stops bays ⊢
  obtain ⟨clk3, bays3⟩ := s2.allHold_moves.bayClock.trans s2.allHold.portsDown_moves.bayClock
  refine ⟨fun b low => ?_, fun d => ?_⟩
  · rw [State.bayState_congr (bays3.trans bays)]
    exact out b low
  · rw [State.dom_congr clk3, stops, State.dom_congr clk]

/-- CORE and LOOP off the reference PLL. -/
theorem State.fallBacks_spec : (∀ d ∈ [1, 5], (s.dom d).src = 0 →
      (([1, 5].foldl State.fallBack s).dom d).src = 1 ∧ (([1, 5].foldl State.fallBack s).dom d).run = true) ∧
    (∀ d, d ∉ [1, 5] → ([1, 5].foldl State.fallBack s).dom d = s.dom d) ∧ ([1, 5].foldl State.fallBack s).reg 0x10 = s.reg 0x10 := by
  rw [List.foldl_cons, List.foldl_cons, List.foldl_nil]
  obtain ⟨onto1, others1, bays1⟩ := s.fallBack_spec (d := 1) (by decide)
  obtain ⟨onto5, others5, bays5⟩ := (s.fallBack 1).fallBack_spec (d := 5) (by decide)
  rw [others1 5 (by decide)] at onto5
  refine ⟨fun d fell source => ?_, fun d other => ?_, bays5.trans bays1⟩
  · rcases List.mem_cons.1 fell with rfl | last
    · rw [others5 1 (by decide)]
      exact onto1 source
    · obtain rfl := List.mem_singleton.1 last
      exact onto5 source
  · rw [others5 d fun same => other (by rw [same]; decide), others1 d fun same => other (by rw [same]; decide)]

/-- What the loss of the reference leaves of the bays and of the domains. -/
def State.Unclocked (u : State) : Prop :=
  u.flag CLK_REF_STAT.lost = true ∧ u.flag CLK_REF_STAT.hold = false ∧ (∀ b, b < 8 → u.bayState b = 0 ∨ u.bayState b = 6) ∧
    (∀ d ∈ [0, 2, 3], (u.dom d).run = false) ∧ ∀ d ∈ [1, 5], (s.dom d).src = 0 → (u.dom d).src = 1 ∧ (u.dom d).run = true

theorem State.referenceLost_unclocked (gone : s.refGone = true) : s.Unclocked s.referenceLost := by
  have lost : s.referenceLost = ([1, 5].foldl State.fallBack s.clockStopped).refNoted.clockFault 4 31 5 := by
    unfold State.referenceLost State.refNoted State.clockStopped
    exact if_neg (by rw [gone]; exact Bool.false_ne_true)
  obtain ⟨out, stops⟩ := s.clockStopped_spec
  obtain ⟨onto, others, bays⟩ := s.clockStopped.fallBacks_spec
  rw [lost]
  generalize [1, 5].foldl State.fallBack s.clockStopped = s5 at onto others bays ⊢
  have dom : ∀ d, (s5.refNoted.clockFault 4 31 5).dom d = s5.dom d :=
    State.dom_congr ((State.clockFault_clk _ 4 5 (by decide)).trans s5.refNoted_clk)
  have stat : ∀ off, off ≠ GLB_FLT_PTR.wr.off → (s5.refNoted.clockFault 4 31 5).reg off = s5.refNoted.reg off := fun off =>
    s5.refNoted.clockFault_reg 4 31 5
  generalize s5.refNoted.clockFault 4 31 5 = u at dom stat ⊢
  refine ⟨(State.flag_congr _ (stat _ (by decide))).trans s5.refNoted_lost,
    (State.flag_congr _ (stat _ (by decide))).trans s5.refNoted_hold, fun b low => ?_, fun d stopped => ?_, fun d fell source => ?_⟩
  · rw [State.bayState_congr ((stat _ (by decide)).trans (s5.refNoted_bays.trans bays))]
    exact out b low
  · have apart : d ∉ [1, 5] := by
      rintro fell
      simp only [List.mem_cons, List.not_mem_nil, or_false] at stopped fell
      omega
    rw [dom, others d apart, stops, if_pos stopped]
  · rw [dom]
    refine onto d fell ?_
    rw [stops]
    split
    · exact source
    · exact source

/-! ### The domains and bays on the reference again (R402, R416) -/

theorem State.startLoops_moves (e : Nat) : s.EnginesMoved (s.startLoops e) :=
  .foldl _ (fun u l => iteInduction (motive := u.EnginesMoved) (fun _ => .refl u) fun _ =>
    iteInduction (motive := u.EnginesMoved) (fun _ => u.setLoop_moves e l _) fun _ => .refl u) _ s

/-- The return of one bay. -/
def State.returnBay (b : Nat) : State := if s.bayState b = 0 then s.setBayState b (if s.bayScore b = 0 then 1 else 2) else s

theorem State.bayScore_congr {s u : State} (h : ∀ off, off ≠ 0x10 → u.reg off = s.reg off) (b : Nat) : u.bayScore b = s.bayScore b :=
  congrArg (BitVec.ofNat 16) (State.fld_congr _ (h _ (by simp only [Fld.nth, GLB_BAY_OWNER.score]; omega)))

theorem State.returnBay_spec {b : Nat} (low : b < 8) : (s.returnBay b).clk = s.clk ∧
    (∀ off, off ≠ 0x10 → (s.returnBay b).reg off = s.reg off) ∧ ∀ k, (s.returnBay b).bayState k =
      if k = b ∧ s.bayState k = 0 then if s.bayScore k = 0 then 1 else 2 else s.bayState k := by
  unfold State.returnBay
  split
  · next offline =>
    obtain ⟨g, m, n, set, reg⟩ := s.setBayState_spec b (if s.bayScore b = 0 then 1 else 2)
    have small : (if s.bayScore b = 0 then 1 else 2) < 8 := by split <;> decide
    refine ⟨by rw [set], reg, fun k => ?_⟩
    rw [State.bayState_setBayState _ low small]
    by_cases here : k = b
    · subst here
      exact (if_pos rfl).trans (if_pos ⟨rfl, offline⟩).symm
    · rw [if_neg here, if_neg fun both => here both.1]
  · next stands =>
    refine ⟨rfl, fun _ _ => rfl, fun k => (if_neg ?_).symm⟩
    rintro ⟨rfl, offline⟩
    exact stands offline

/-- Offline bays return, bound or free; the other bays' states and the other registers stand. -/
theorem State.returnBays_first (n : Nat) (low : n ≤ 8) : ((List.range n).foldl State.returnBay s).clk = s.clk ∧
    (∀ off, off ≠ 0x10 → ((List.range n).foldl State.returnBay s).reg off = s.reg off) ∧
    ∀ k, ((List.range n).foldl State.returnBay s).bayState k =
      if k < n ∧ s.bayState k = 0 then if s.bayScore k = 0 then 1 else 2 else s.bayState k := by
  induction n with
  | zero => exact ⟨rfl, fun _ _ => rfl, fun k => (if_neg fun both => Nat.not_lt_zero k both.1).symm⟩
  | succ n ih =>
    obtain ⟨clk, reg, bays⟩ := ih (Nat.le_of_succ_le low)
    rw [List.range_succ, List.foldl_append, List.foldl_cons, List.foldl_nil]
    generalize (List.range n).foldl State.returnBay s = u at clk reg bays ⊢
    obtain ⟨clk', reg', bays'⟩ := u.returnBay_spec (b := n) low
    refine ⟨clk'.trans clk, fun off o => (reg' off o).trans (reg off o), fun k => ?_⟩
    rw [bays', State.bayScore_congr reg]
    by_cases here : k = n
    · subst here
      have still : u.bayState k = s.bayState k := (bays k).trans (if_neg fun both => Nat.lt_irrefl k both.1)
      rw [still]
      exact if_congr (and_congr_left' (iff_of_true rfl (Nat.lt_succ_self k))) rfl rfl
    · rw [if_neg fun both => here both.1, bays]
      exact if_congr (and_congr_left' (by omega)) rfl rfl

/-- The domains on the reference PLL. -/
def State.onReference : State :=
  [1, 5].foldl (fun s d => (s.onSource d 0).switchLast false d 1 0 6) ([0, 2, 3].foldl (fun s d => s.onSource d 0) s)

/-- A domain runs on the reference PLL. -/
def State.RunsOnReference (d : Nat) (u : State) : Prop := (u.dom d).run = true ∧ (u.dom d).src = 0

theorem State.onSource_runs (d : Nat) : State.RunsOnReference d (s.onSource d 0) := by
  unfold State.RunsOnReference
  rw [s.dom_onSource, if_pos rfl]
  exact ⟨rfl, rfl⟩

theorem State.onSource_keeps {d : Nat} (x : Nat) (runs : State.RunsOnReference d s) : State.RunsOnReference d (s.onSource x 0) := by
  by_cases same : d = x
  · exact same ▸ s.onSource_runs d
  · unfold State.RunsOnReference
    rw [s.dom_onSource, if_neg same]
    exact runs

theorem State.RunsOnReference.congr {s u : State} {d : Nat} (runs : State.RunsOnReference d s) (clk : u.clk = s.clk) :
    State.RunsOnReference d u := by
  unfold State.RunsOnReference
  rw [State.dom_congr clk]
  exact runs

theorem State.onReference_runs : ∀ d ∈ [0, 1, 2, 3, 5], State.RunsOnReference d s.onReference := by
  have keeps : ∀ (u : State) d x, State.RunsOnReference d u → State.RunsOnReference d ((u.onSource x 0).switchLast false x 1 0 6) :=
    fun u d x runs => (u.onSource_keeps x runs).congr (State.switchLast_clk _ _ _ _ _ _)
  intro d listed
  by_cases first : d ∈ [0, 2, 3]
  · exact List.foldlRecOn _ _ (foldl_establishes State.RunsOnReference _ (fun u x => u.onSource_runs x)
      (fun u d x runs => u.onSource_keeps x runs) first s) fun u runs x _ => keeps u d x runs
  · refine foldl_establishes State.RunsOnReference _ (fun u x => (u.onSource_runs x).congr (State.switchLast_clk _ _ _ _ _ _)) keeps ?_ _
    simp only [List.mem_cons, List.not_mem_nil, or_false] at listed first ⊢
    omega

theorem State.onReference_reg (off : Nat) (other : off ≠ CLK_SW_LAST.valid.off) : s.onReference.reg off = s.reg off :=
  (foldl_does (fun s u => u.reg off = s.reg off) (fun _ => rfl) (fun _ _ _ h k => k.trans h) _
    (fun u _ => (State.switchLast_reg _ _ _ _ _ _ off other).trans (State.reg_congr (u.setDom_regs _ _) off)) [1, 5] _).trans
  (foldl_does (fun s u => u.reg off = s.reg off) (fun _ => rfl) (fun _ _ _ h k => k.trans h) _
    (fun u _ => State.reg_congr (u.setDom_regs _ _) off) [0, 2, 3] s)

/-! ### REFERENCE_RETURN (R402, R416) -/

section
variable (recovered : Bool) (port : Nat)

/-- The reference as its return leaves it in the registers. -/
def State.refTaken : State :=
  let s1 := ((s.setFlag CLK_REF_STAT.lost false).setFlag CLK_REF_STAT.lock true).setFld CLK_REF_STAT.sel (if recovered then 1 else 2)
  let s2 := if recovered then s1.setFld CLK_REF_STAT.port port else s1
  (s2.switchLast false 31 0 (if recovered then 1 else 2) (s.tick - s.clk.holdTick)).setFlag PWR_STAT.nref false

/-- The reference is locked on its new input; the bays' registers stand. -/
theorem State.refTaken_spec : (s.refTaken recovered port).flag CLK_REF_STAT.lost = false ∧
    (s.refTaken recovered port).flag CLK_REF_STAT.lock = true ∧
    (s.refTaken recovered port).fld CLK_REF_STAT.sel = (if recovered then 1 else 2) ∧
    ∀ off, off < 0x40000 → (s.refTaken recovered port).reg off = s.reg off := by
  unfold State.refTaken
  extract_lets s1 s2
  have lost1 : s1.flag CLK_REF_STAT.lost = false :=
    calc s1.flag CLK_REF_STAT.lost
      _ = _ := State.flag_setFld_apart _ (f := CLK_REF_STAT.sel) (by decide) _
      _ = _ := State.flag_setFld_apart _ (f := CLK_REF_STAT.lock) (by decide) _
      _ = false := s.flag_setFlag (f := CLK_REF_STAT.lost) (by decide) false
  have lock1 : s1.flag CLK_REF_STAT.lock = true :=
    calc s1.flag CLK_REF_STAT.lock
      _ = _ := State.flag_setFld_apart _ (f := CLK_REF_STAT.sel) (by decide) _
      _ = true := State.flag_setFlag _ (f := CLK_REF_STAT.lock) (by decide) true
  have sel1 : s1.fld CLK_REF_STAT.sel = if recovered then 1 else 2 := by
    refine (State.fld_setFld_same _ CLK_REF_STAT.sel _ (by decide) (by decide)).trans (Nat.mod_eq_of_lt ?_)
    cases recovered <;> decide
  have reg1 : ∀ off, off < 0x40000 → s1.reg off = s.reg off := fun off low =>
    calc s1.reg off
      _ = _ := State.reg_setFld_other _ CLK_REF_STAT.sel _ off (Nat.ne_of_lt low)
      _ = _ := State.reg_setFld_other _ CLK_REF_STAT.lock _ off (Nat.ne_of_lt low)
      _ = s.reg off := s.reg_setFld_other CLK_REF_STAT.lost _ off (Nat.ne_of_lt low)
  clear_value s1
  have ported : s2.flag CLK_REF_STAT.lost = s1.flag CLK_REF_STAT.lost ∧ s2.flag CLK_REF_STAT.lock = s1.flag CLK_REF_STAT.lock ∧
      s2.fld CLK_REF_STAT.sel = s1.fld CLK_REF_STAT.sel ∧ ∀ off, off < 0x40000 → s2.reg off = s1.reg off := by
    unfold s2
    split
    · exact ⟨s1.flag_setFld_apart (f := CLK_REF_STAT.port) (by decide) _, s1.flag_setFld_apart (f := CLK_REF_STAT.port) (by decide) _,
        s1.fld_setFld_apart (f := CLK_REF_STAT.port) (by decide) _, fun off low => s1.reg_setFld_other _ _ off (Nat.ne_of_lt low)⟩
    · exact ⟨rfl, rfl, rfl, fun _ _ => rfl⟩
  clear_value s2
  obtain ⟨lost2, lock2, sel2, reg2⟩ := ported
  have last : ∀ off, off < 0x40008 → ((s2.switchLast false 31 0 (if recovered then 1 else 2) (s.tick - s.clk.holdTick)).setFlag
      PWR_STAT.nref false).reg off = s2.reg off := fun off low =>
    (State.reg_setFld_other _ PWR_STAT.nref _ off (Nat.ne_of_lt (Nat.lt_of_lt_of_le low (by decide)))).trans
      (s2.switchLast_reg _ _ _ _ _ off (Nat.ne_of_lt (Nat.lt_of_lt_of_le low (by decide))))
  exact ⟨(State.flag_congr _ (last _ (by decide))).trans (lost2.trans lost1), (State.flag_congr _ (last _ (by decide))).trans (lock2.trans lock1),
    (State.fld_congr _ (last _ (by decide))).trans (sel2.trans sel1),
    fun off low => (last off (Nat.lt_trans low (by decide))).trans ((reg2 off low).trans (reg1 off low))⟩

theorem State.referenceReturn_rests (there : s.flag CLK_REF_STAT.lost = false) : s.referenceReturn recovered port = s :=
  if_pos (by rw [there]; rfl)

theorem State.referenceReturn_spec (lost : s.flag CLK_REF_STAT.lost = true) :
    let u := s.referenceReturn recovered port
    u.flag CLK_REF_STAT.lost = false ∧ u.flag CLK_REF_STAT.lock = true ∧ u.fld CLK_REF_STAT.sel = (if recovered then 1 else 2) ∧
      (∀ d ∈ [0, 1, 2, 3, 5], State.RunsOnReference d u) ∧
      ∀ b, b < 8 → u.bayState b = if s.bayState b = 0 then if s.bayScore b = 0 then 1 else 2 else s.bayState b := by
  have back : s.referenceReturn recovered port =
      (List.range 8).foldl State.returnBay ((List.range 10).foldl State.startLoops (s.refTaken recovered port).onReference) := by
    unfold State.referenceReturn State.refTaken State.onReference
    exact if_neg (by rw [lost]; exact Bool.false_ne_true)
  obtain ⟨lost1, lock1, sel1, reg1⟩ := s.refTaken_spec recovered port
  rw [back]
  generalize s.refTaken recovered port = s1 at lost1 lock1 sel1 reg1 ⊢
  have runs := s1.onReference_runs
  have reg2 := s1.onReference_reg
  generalize s1.onReference = s2 at runs reg2 ⊢
  obtain ⟨g, loops⟩ : s2.EnginesMoved ((List.range 10).foldl State.startLoops s2) := .foldl _ (fun u e => u.startLoops_moves e) _ s2
  have clk3 : ((List.range 10).foldl State.startLoops s2).clk = s2.clk := by rw [loops]
  have regs3 : ((List.range 10).foldl State.startLoops s2).regs = s2.regs := by rw [loops]
  clear loops
  generalize (List.range 10).foldl State.startLoops s2 = s3 at clk3 regs3 ⊢
  obtain ⟨clk4, reg4, bays⟩ := s3.returnBays_first 8 (Nat.le_refl 8)
  generalize (List.range 8).foldl State.returnBay s3 = u at clk4 reg4 bays ⊢
  have stat : u.reg CLK_REF_STAT.sel.off = s1.reg CLK_REF_STAT.sel.off :=
    (reg4 _ (by decide)).trans ((State.reg_congr regs3 _).trans (reg2 _ (by decide)))
  have below : ∀ off, off < 0x40000 → s3.reg off = s.reg off := fun off low =>
    (State.reg_congr regs3 off).trans ((reg2 off (Nat.ne_of_lt (Nat.lt_trans low (by decide)))).trans (reg1 off low))
  refine ⟨(State.flag_congr CLK_REF_STAT.lost stat).trans lost1, (State.flag_congr CLK_REF_STAT.lock stat).trans lock1,
    (State.fld_congr CLK_REF_STAT.sel stat).trans sel1,
    fun d listed => (runs d listed).congr (clk4.trans clk3), fun b low => ?_⟩
  have owner : s3.bayScore b = s.bayScore b :=
    congrArg (BitVec.ofNat 16) (State.fld_congr _ (below _ (by simp only [Fld.nth, GLB_BAY_OWNER.score]; omega)))
  rw [bays, owner, State.bayState_congr (below 0x10 (by decide))]
  exact if_congr (and_iff_right low) rfl rfl

end

end

end Sys2Proof.Machine
end

section
/-! SUPPORT. The election of the reference in holdover, and temperature corrections (R335, R379, R392). -/

namespace Sys2Proof.Machine

section
variable (s : State)

/-! ### REFERENCE_REELECTION (R335, R379) -/

/-- The selector follows an input, and holdover ends. -/
theorem State.selectRef_spec {sel : Nat} (small : sel < 4) (port : Nat) : (s.selectRef sel port).flag CLK_REF_STAT.hold = false ∧
    (s.selectRef sel port).fld CLK_REF_STAT.sel = sel ∧ (sel = 1 → (s.selectRef sel port).fld CLK_REF_STAT.port = port % 16) := by
  unfold State.selectRef
  extract_lets s1 s2
  clear_value s1
  have hold : s2.flag CLK_REF_STAT.hold = false :=
    calc s2.flag CLK_REF_STAT.hold
      _ = _ := State.flag_setFld_apart _ (f := CLK_REF_STAT.lock) (by decide) _
      _ = false := State.flag_setFlag _ (f := CLK_REF_STAT.hold) (by decide) false
  have input : s2.fld CLK_REF_STAT.sel = sel :=
    calc s2.fld CLK_REF_STAT.sel
      _ = _ := State.fld_setFld_apart _ (f := CLK_REF_STAT.lock) (by decide) _
      _ = _ := State.fld_setFld_apart _ (f := CLK_REF_STAT.hold) (by decide) _
      _ = sel % 4 := s1.fld_setFld_same CLK_REF_STAT.sel sel (by decide) (by decide)
      _ = sel := Nat.mod_eq_of_lt small
  clear_value s2
  split
  · exact ⟨(s2.flag_setFld_apart (f := CLK_REF_STAT.port) (by decide) port).trans hold,
      (s2.fld_setFld_apart (f := CLK_REF_STAT.port) (by decide) port).trans input,
      fun _ => s2.fld_setFld_same CLK_REF_STAT.port port (by decide) (by decide)⟩
  · next other => exact ⟨hold, input, fun same => absurd same other⟩

/-- FAB_REF as an election leaves it; the selector stands. -/
theorem State.setRef_spec (lock self : Bool) (hops port : Nat) {rid : Nat} (small : rid < 4096) :
    (s.setRef lock self hops port rid).flag FAB_REF.lock = lock ∧ (s.setRef lock self hops port rid).fld FAB_REF.rid = rid ∧
      (s.setRef lock self hops port rid).reg CLK_REF_STAT.sel.off = s.reg CLK_REF_STAT.sel.off := by
  unfold State.setRef
  extract_lets s1 s2
  have locked : s2.flag FAB_REF.lock = lock :=
    calc s2.flag FAB_REF.lock
      _ = _ := State.flag_setFld_apart _ (f := FAB_REF.rid) (by decide) _
      _ = _ := State.flag_setFld_apart _ (f := FAB_REF.port) (by decide) _
      _ = _ := State.flag_setFld_apart _ (f := FAB_REF.hops) (by decide) _
      _ = _ := State.flag_setFld_apart _ (f := FAB_REF.self) (by decide) _
      _ = _ := State.flag_setFld_apart _ (f := FAB_REF.hold) (by decide) _
      _ = lock := s.flag_setFlag (f := FAB_REF.lock) (by decide) lock
  have named : s2.fld FAB_REF.rid = rid :=
    (State.fld_setFld_same _ FAB_REF.rid rid (by decide) (by decide)).trans (Nat.mod_eq_of_lt small)
  have stat : s2.reg CLK_REF_STAT.sel.off = s.reg CLK_REF_STAT.sel.off :=
    calc s2.reg CLK_REF_STAT.sel.off
      _ = _ := State.reg_setFld_other _ FAB_REF.rid _ _ (by decide)
      _ = _ := State.reg_setFld_other _ FAB_REF.port _ _ (by decide)
      _ = _ := State.reg_setFld_other _ FAB_REF.hops _ _ (by decide)
      _ = _ := State.reg_setFld_other _ FAB_REF.self _ _ (by decide)
      _ = _ := State.reg_setFld_other _ FAB_REF.hold _ _ (by decide)
      _ = s.reg CLK_REF_STAT.sel.off := s.reg_setFld_other FAB_REF.lock _ _ (by decide)
  clear_value s2
  split
  · exact ⟨(s2.flag_setFld_apart (f := FAB_START.cnv) (by decide) _).trans locked,
      (s2.fld_setFld_apart (f := FAB_START.cnv) (by decide) _).trans named,
      (s2.reg_setFld_other FAB_START.cnv _ _ (by decide)).trans stat⟩
  · exact ⟨locked, named, stat⟩

/-- An elected reference that is followed: its input is selected, and its promises follow. -/
theorem State.follows_spec {sel : Nat} (small : sel < 4) (port : Nat) (self : Bool) (hops at_ : Nat) (r : BitVec 12) :
    let u := ((s.selectRef sel port).setRef true self hops at_ r.toNat).refPromises
    u.flag CLK_REF_STAT.hold = false ∧ u.fld CLK_REF_STAT.sel = sel ∧ (sel = 1 → u.fld CLK_REF_STAT.port = port % 16) ∧
      u.flag FAB_REF.lock = true ∧ u.fld FAB_REF.rid = r.toNat := by
  obtain ⟨hold, input, from_⟩ := s.selectRef_spec small port
  obtain ⟨lock, rid, stat⟩ := (s.selectRef sel port).setRef_spec true self hops at_ (rid := r.toNat) r.isLt
  have promises := ((s.selectRef sel port).setRef true self hops at_ r.toNat).refPromises_moves
  generalize (s.selectRef sel port).setRef true self hops at_ r.toNat = v at lock rid stat promises ⊢
  have same := (promises.reg (off := CLK_REF_STAT.sel.off) (by decide)).trans stat
  have ref := promises.reg (off := FAB_REF.lock.off) (by decide)
  exact ⟨(State.flag_congr CLK_REF_STAT.hold same).trans hold, (State.fld_congr CLK_REF_STAT.sel same).trans input,
    fun one => (State.fld_congr CLK_REF_STAT.port same).trans (from_ one),
    (State.flag_congr FAB_REF.lock ref).trans lock, (State.fld_congr FAB_REF.rid ref).trans rid⟩

/-- The module elects again: in holdover, with a candidate or at the end of its 100 ms. -/
abbrev State.Elects : Prop := s.flag CLK_REF_STAT.hold = true ∧ s.flag CLK_REF_STAT.lost = false ∧
  (s.elected.isSome = true ∨ s.clk.holdTick + 100000 ≤ s.tick)

theorem State.reelect_elects (elects : s.Elects) : s.reelect = s.elect := by
  obtain ⟨hold, there, due⟩ := elects
  unfold State.reelect
  rw [if_neg (by rw [hold, there]; decide), if_pos due]

theorem State.reelect_rests (rests : ¬ s.Elects) : s.reelect = s := by
  unfold State.reelect
  split
  · rfl
  · next holds =>
    rw [not_or, Bool.not_eq_true', Bool.not_eq_false, Bool.not_eq_true] at holds
    exact if_neg fun due => rests ⟨holds.1, holds.2, due⟩

section
variable (there : s.flag CLK_REF_STAT.lost = false) (takes : s.takesPart = true)
include there takes

theorem State.elect_own (elected : s.elected = some s.ownId) (runs : s.clk.xoOn.isSome = true) :
    s.elect = ((s.selectRef 2 0).setRef true true 0 0 s.ownId.toNat).refPromises := by
  have own : s.ownOscillator = s.selectRef 2 0 := if_pos runs
  unfold State.elect
  dsimp only
  rw [there, takes, elected, own, Bool.not_true]
  dsimp only
  rw [if_neg Bool.false_ne_true, if_neg Bool.false_ne_true, if_pos rfl]

theorem State.elect_port {r : BitVec 12} {p h : Nat} (elected : s.elected = some r) (other : r ≠ s.ownId)
    (best : s.bestPort r = some (p, h)) (near : h ≤ 3) :
    s.elect = ((s.selectRef 1 p).setRef true false h p r.toNat).refPromises := by
  unfold State.elect
  dsimp only
  rw [there, takes, elected, Bool.not_true]
  dsimp only
  rw [if_neg Bool.false_ne_true, if_neg Bool.false_ne_true, if_neg other, best]
  dsimp only
  rw [if_pos near]

end

/-! ### TEMPERATURE_CORRECTION (R392) -/

/-- A 16-bit number that is encoded reads as it was. -/
theorem signed_unsigned {x : Int} (low : -32768 ≤ x) (high : x ≤ 32767) : signed 16 (unsigned 16 x) = x := by
  unfold signed unsigned
  norm_num
  split <;> omega

theorem signed_mod (v : Nat) : signed 16 (v % 2 ^ 16) = signed 16 v := by
  unfold signed
  rw [Nat.mod_mod]

theorem signed_range (v : Nat) : -32768 ≤ signed 16 v ∧ signed 16 v ≤ 32767 := by
  unfold signed
  norm_num
  split <;> omega

theorem stepTo_range {x v : Int} (low : -32768 ≤ x ∧ -32768 ≤ v) (high : x ≤ 32767 ∧ v ≤ 32767) :
    -32768 ≤ stepTo x v ∧ stepTo x v ≤ 32767 := by
  unfold stepTo clampI
  split
  · omega
  · split <;> omega

/-- What follows a correction keeps the corrections. -/
theorem State.corrected_moves (i : CorrItem) (v : BitVec 16) (broken : Bool) : ∃ u, exec (.temperatureCorrection i v broken) s = .next u ∧
    u.clk.corr = (s.correct i v.toInt broken).clk.corr ∧
    u.fld CLK_CORR.xo_ofs = (s.correct i v.toInt broken).fld CLK_CORR.xo_ofs := by
  have corrected : exec (.temperatureCorrection i v broken) s = .next (if (s.correct i v.toInt broken).xoLocked = s.xoLocked
      then s.correct i v.toInt broken else (s.correct i v.toInt broken).announceChange.followTable) := rfl
  generalize s.correct i v.toInt broken = s1 at corrected ⊢
  have table : s1.TableMoved (if s1.xoLocked = s.xoLocked then s1 else s1.announceChange.followTable) :=
    iteInduction (motive := s1.TableMoved) (fun _ => .refl s1) fun _ => (State.TableMoved.announceChange s1).trans (.followTable _)
  exact ⟨_, corrected, table.corr, State.fld_congr _ (table.reg _ (by decide))⟩

theorem State.correct_broken (i : CorrItem) (v : Int) : (s.correct i v true).clk.corr = s.clk.corr ∧
    (s.correct i v true).fld CLK_CORR.xo_ofs = s.fld CLK_CORR.xo_ofs :=
  ⟨s.clockFault_corr _ _ _, State.fld_congr _ (s.clockFault_reg _ _ _ (by decide))⟩

theorem State.correct_xo (v : BitVec 16) : (s.correct .xo v.toInt false).clk.corr = s.clk.corr ∧
    signed 16 ((s.correct .xo v.toInt false).fld CLK_CORR.xo_ofs) = stepTo (signed 16 (s.fld CLK_CORR.xo_ofs)) v.toInt := by
  refine ⟨rfl, ?_⟩
  have noted := s.fld_setFld_same CLK_CORR.xo_ofs (unsigned 16 (stepTo (signed 16 (s.fld CLK_CORR.xo_ofs)) v.toInt)) (by decide) (by decide)
  obtain ⟨low, high⟩ := signed_range (s.fld CLK_CORR.xo_ofs)
  obtain ⟨least, most⟩ := stepTo_range (v := v.toInt) ⟨low, v.le_toInt⟩ ⟨high, Int.le_of_lt_add_one v.toInt_lt⟩
  refine (congrArg (signed 16) ((State.fld_withClk _ _ _).trans noted)).trans ?_
  exact (signed_mod _).trans (signed_unsigned least most)

/-- A correction in the table moves its item alone. -/
theorem State.correct_item (i : CorrItem) (n : Nat) (v : Int) (item : (i, n) ∈ [(CorrItem.rc, 0), (.readback, 1)] ∨
      ∃ t : TileId, i = .adc t ∧ n = 2 + t.val) :
    (s.correct i v false).clk.corr = Tab.set dZero s.clk.corr n (stepTo (Tab.get dZero s.clk.corr n) v) ∧
      (s.correct i v false).fld CLK_CORR.xo_ofs = s.fld CLK_CORR.xo_ofs := by
  rcases item with listed | ⟨t, rfl, rfl⟩
  · rcases List.mem_cons.1 listed with rc | readback
    · obtain ⟨rfl, rfl⟩ := Prod.mk.inj rc
      exact ⟨rfl, rfl⟩
    · obtain ⟨rfl, rfl⟩ := Prod.mk.inj (List.mem_singleton.1 readback)
      exact ⟨rfl, rfl⟩
  · exact ⟨rfl, rfl⟩

end

/-- Settles O41: a switch by its ramp or forced, a PLL and the reference input that stop, the loss and the return of the reference, the
election in holdover by the node elected, and a correction by its item. -/
theorem sourcesAndReference : Obligations.SourcesAndReference := by
  intro s
  refine ⟨fun d src => ?switches, fun d => ⟨fun locked => ?unlocks, fun other => ?rests⟩, fun followed free => ?stops,
    fun rests => congrArg Host.Outcome.next (s.inputStopped_rests rests), fun gone => ⟨_, rfl, s.referenceLost_unclocked gone⟩,
    fun there => congrArg Host.Outcome.next (s.referenceLost_rests there), fun rec p => ⟨fun lost => ?returns, fun there =>
      congrArg Host.Outcome.next (s.referenceReturn_rests rec p there)⟩, ?elects, fun v => ?corrects⟩
  case switches =>
    have low : d.val < 23 := d.isLt
    exact ⟨fun ready runs => ⟨_, rfl, s.sourceSwitch_spec d src low ready runs⟩,
      fun rests => congrArg Host.Outcome.next (s.sourceSwitch_rests d src rests),
      fun ready stopped => ⟨_, rfl, s.stoppedClock_spec d src low ready stopped⟩,
      fun rests => congrArg Host.Outcome.next (s.stoppedClock_rests d src rests)⟩
  case unlocks =>
    obtain ⟨own, runs, pll⟩ := locked
    exact ⟨_, congrArg Host.Outcome.next (if_pos (by rw [own, runs, pll]; rfl)), s.pllUnlock_spec d d.isLt⟩
  case rests =>
    refine congrArg Host.Outcome.next (if_neg fun due => other ?_)
    simpa only [Bool.and_eq_true, and_assoc] using due
  case stops =>
    obtain ⟨hold, lock, since⟩ := s.holdRef_spec
    refine ⟨_, congrArg Host.Outcome.next (s.inputStopped_holds followed free), ?_⟩
    have stat := s.holdRef.clockFault_reg 3 31 0 (off := CLK_REF_STAT.hold.off) (by decide)
    refine ⟨(State.flag_congr CLK_REF_STAT.hold stat).trans hold, (State.flag_congr CLK_REF_STAT.lock stat).trans lock, ?_⟩
    rw [State.clockFault_clk _ _ _ (by decide), since]
  case returns =>
    obtain ⟨gone, lock, sel, doms, bays⟩ := s.referenceReturn_spec rec p lost
    exact ⟨_, rfl, gone, lock, sel, doms, fun b low => ⟨fun offline => (bays b low).trans (if_pos offline),
      fun stands => (bays b low).trans (if_neg stands)⟩⟩
  case elects =>
    refine ⟨fun due takes own runs => ?_, fun r p h due takes elected other best near => ?_, fun rests =>
      congrArg Host.Outcome.next (s.reelect_rests rests)⟩
    · have ⟨_, there, _⟩ := due
      obtain ⟨hold, sel, -, lock, rid⟩ := s.follows_spec (sel := 2) (by decide) 0 true 0 0 s.ownId
      exact ⟨_, congrArg Host.Outcome.next ((s.reelect_elects due).trans (s.elect_own there takes own runs)), hold, sel, lock, rid⟩
    · have ⟨_, there, _⟩ := due
      obtain ⟨hold, sel, port, lock, rid⟩ := s.follows_spec (sel := 1) (by decide) p false h p r
      exact ⟨_, congrArg Host.Outcome.next ((s.reelect_elects due).trans (s.elect_port there takes elected other best near)), hold, sel,
        port rfl, lock, rid⟩
  case corrects =>
    refine ⟨fun i => ?_, ?_, fun i n item => ?_⟩
    · obtain ⟨u, exec_u, corr, xo⟩ := s.corrected_moves i v true
      obtain ⟨same, stands⟩ := s.correct_broken i v.toInt
      exact ⟨u, exec_u, corr.trans same, xo.trans stands⟩
    · obtain ⟨u, exec_u, corr, xo⟩ := s.corrected_moves .xo v false
      obtain ⟨same, steps⟩ := s.correct_xo v
      exact ⟨u, exec_u, corr.trans same, (congrArg (signed 16) xo).trans steps⟩
    · obtain ⟨u, exec_u, corr, xo⟩ := s.corrected_moves i v false
      obtain ⟨moved, stands⟩ := s.correct_item i n v.toInt item
      refine ⟨u, exec_u, xo.trans stands, ?_, fun m other => ?_⟩
      · rw [corr, moved, Tab.get_set_same]
      · rw [corr, moved, Tab.get_set_other _ _ _ _ _ other]

end Sys2Proof.Machine
end
